-- ==== Sys2Proof/Word.lean ====
section
/-! DEFINITION. The word types of the Chropa M20 model: bytes and the widths the manual names. -/

namespace Sys2Proof

/-- A byte of a row, a packet or a file. -/
abbrev Byte := BitVec 8

/-- A string of bytes, first byte first. -/
abbrev Bytes := List (BitVec 8)

/-- A row address of R73: tile x [31:27], tile y [26:22], space [21:20], row [19:0]. -/
abbrev RowAddr := BitVec 32

/-- A tile's index 24 y + x in its module (R13, R276, R421). -/
abbrev TileIx := Fin 768

/-- A link number (R18). -/
abbrev LinkIx := Fin 36

/-- A die number, C0 to C3 (R13). -/
abbrev DieIx := Fin 4

end Sys2Proof
end

