-- ==== Sys2Proof/Types.lean ====
section
/-! DEFINITION. The operand types of the commands: slot fields, frames, symbols, notices, packets and requests,
each laid out as the manual's table of that name lays it out. -/

namespace Sys2Proof

/-! ## Rows and slots -/

/-- A row frame (R85): 512 data bytes, the tag and the proof word. The trailer's reserved bits read 0. -/
structure RowFrame where
  data  : Bytes
  tag   : BitVec 16
  proof : BitVec 32
  deriving DecidableEq, Repr

/-- The fields of a T slot (T slot table of R67's section), the opcode apart. -/
structure TSlot where
  await  : Bool
  column : BitVec 3
  sbase  : BitVec 4
  soff   : BitVec 20
  dbase  : BitVec 4
  doff   : BitVec 20
  count  : BitVec 7
  deriving DecidableEq, Repr

/-- The fields of an S slot, the opcode apart. For opcode 0x3 the ten bits `dx ++ dy` name the send table entry;
for opcode 0x4 the low four bits of `window` name the broadcast word. -/
structure SSlot where
  await  : Bool
  dx     : BitVec 5
  dy     : BitVec 5
  modl   : BitVec 4
  sbase  : BitVec 4
  soff   : BitVec 12
  window : BitVec 8
  count  : BitVec 5
  deriving DecidableEq, Repr

/-- STREAM, M opcode 0x01 (R142). -/
structure MStream where
  swap  : Bool
  acc   : Bool
  abase : BitVec 4
  vidx  : BitVec 14
  sbase : BitVec 4
  row   : BitVec 10
  count : BitVec 8
  deriving DecidableEq, Repr

/-- DRAIN, M opcode 0x02 (R142). -/
structure MDrain where
  fmt   : BitVec 5
  round : BitVec 2
  bound : BitVec 3
  dbase : BitVec 4
  doff  : BitVec 12
  row   : BitVec 10
  count : BitVec 6
  deriving DecidableEq, Repr

/-- ADOWN, M opcode 0x04 (R142). The M slot table gives ADOWN no swap bit. -/
structure MAdown where
  desc  : BitVec 2
  abase : BitVec 4
  vidx  : BitVec 14
  slice : BitVec 8
  row   : BitVec 10
  acc   : Bool
  count : BitVec 3
  deriving DecidableEq, Repr

/-- AUP, M opcode 0x05 (R142). -/
structure MAup where
  desc  : BitVec 2
  base  : BitVec 4
  vidx  : BitVec 12
  block : BitVec 8
  row   : BitVec 10
  count : BitVec 6
  deriving DecidableEq, Repr

/-- ASET, M opcode 0x06 (R142). -/
structure MAset where
  desc : BitVec 2
  base : BitVec 4
  off  : BitVec 12
  deriving DecidableEq, Repr

/-- SETBOUND, M opcode 0x07 (R142): the register and the signed bound. -/
structure MSetbound where
  reg : BitVec 3
  val : BitVec 8
  deriving DecidableEq, Repr

/-- V slot, form E (R174). -/
structure FormE where
  ty    : BitVec 3
  dst   : BitVec 5
  a     : BitVec 5
  b     : BitVec 5
  c     : BitVec 5
  sat   : Bool
  bmode : BitVec 2
  imm   : BitVec 16
  count : BitVec 15
  deriving DecidableEq, Repr

/-- V slot, form C (R174). -/
structure FormC where
  sfmt   : BitVec 5
  dfmt   : BitVec 5
  dst    : BitVec 5
  src    : BitVec 5
  dscale : BitVec 5
  sscale : BitVec 5
  round  : BitVec 2
  unsc   : Bool
  count  : BitVec 15
  deriving DecidableEq, Repr

/-- V slot, form L (R174). -/
structure FormL where
  reg   : BitVec 5
  first : BitVec 5
  base  : BitVec 4
  off   : BitVec 20
  await : Bool
  rows  : BitVec 5
  deriving DecidableEq, Repr

/-- V slot, form G (R174). -/
structure FormG where
  reg    : BitVec 5
  first  : BitVec 5
  tbase  : BitVec 4
  ibase  : BitVec 4
  ioff   : BitVec 12
  iindex : BitVec 7
  rows   : BitVec 5
  await  : Bool
  reach  : Bool
  deriving DecidableEq, Repr

/-- The opcodes of form E (R174). -/
inductive EOp where
  | fadd | fsub | fmul | fma | fmax | fmin | iadd | isub | imul | imax | imin | and | or | xor | andn
  | shl | shr | sra | cmp | sel | setflag | bchk | exp2 | log2 | rcp | rsqrt | sigm
  | rsum | rmax | rmin | rdot | argmax | topk | rand | gumb
  deriving DecidableEq, Repr

/-- A V slot (R174): an operation of one of the four forms. -/
inductive VSlot where
  | e (op : EOp) (f : FormE)
  | cvt (f : FormC)
  | ldr (f : FormL)
  | str (f : FormL)
  | gath (f : FormG)
  | scat (f : FormG)
  deriving DecidableEq, Repr

/-- An M slot (R142). -/
inductive MSlot where
  | stream (f : MStream)
  | drain (f : MDrain)
  | adown (f : MAdown)
  | aup (f : MAup)
  | aset (f : MAset)
  | setbound (f : MSetbound)
  deriving DecidableEq, Repr

/-- The opcodes of the T slot (T slot table). -/
inductive TOp where
  | latch | beamBobbin | bobbinBeam | bobbinReg | regBobbin | beamReg | regBeam | window
  deriving DecidableEq, Repr

/-- The opcodes of the S slot (S slot table). -/
inductive SOp where
  | side | mesh | selvedge | publish
  deriving DecidableEq, Repr

/-- A K slot (K slot table). -/
inductive KSlot where
  | loop (depth : BitVec 2) (trip : BitVec 24)
  | endloop (depth : BitVec 2)
  | pickwait
  | select (flag : BitVec 5) (len : BitVec 11)
  | endS
  deriving DecidableEq, Repr

/-- A decoded bundle (R67); `none` is a slot of all zeros (R68). -/
structure Bundle where
  m : Option MSlot
  v : Option VSlot
  t : Option (TOp × TSlot)
  s : Option (SOp × SSlot)
  k : Option KSlot
  deriving DecidableEq, Repr

/-! ## Control words and the hold -/

/-- Machine coordinates x, y, z, each 0 to 15 (0x4200:01). -/
structure Coord where
  x : BitVec 4
  y : BitVec 4
  z : BitVec 4
  deriving DecidableEq, Repr

/-- A hold request flit (R222's section): request SP, reason, origin class, origin index, combined count. -/
structure HoldReq where
  sp     : Nat
  reason : BitVec 8
  ocls   : BitVec 4
  oidx   : BitVec 10
  count  : Nat
  deriving DecidableEq, Repr

/-- The kinds of control word (R42). -/
inductive CwKind where
  | hold | release | pace
  deriving DecidableEq, Repr

/-- A control word (R42), its kind apart. -/
structure ControlWord where
  sender : Coord
  seq    : BitVec 16
  reason : BitVec 8
  ocls   : BitVec 4
  oidx   : BitVec 10
  arg    : BitVec 10
  pick   : BitVec 32
  stamp  : BitVec 32
  deriving DecidableEq, Repr

/-- How a broadcast symbol or notice travels (R229, R245): direction code 0 to 5, 7 not relayed; hops remaining. -/
structure Travel where
  dir  : BitVec 3
  hops : BitVec 4
  deriving DecidableEq, Repr

/-! ## Links -/

/-- The frame kinds of R227. -/
inductive FrameKind where
  | empty | scheduled | retransmission | background | backAck | notice | chain
  deriving DecidableEq, Repr

/-- A link frame (R227): its header fields and its row frame. -/
structure Frame where
  kind     : FrameKind
  activity : BitVec 4
  dest     : Coord
  tx       : BitVec 5
  ty       : BitVec 5
  window   : BitVec 8
  woff     : BitVec 7
  gen      : BitVec 16
  landSp   : BitVec 32
  seq      : BitVec 16
  retry    : Option (BitVec 16)
  sendSp   : BitVec 16
  row      : RowFrame
  deriving DecidableEq, Repr

/-- What the receiver of a frame found (R227, R228, R240): codewords corrected, or the frame not correctable. -/
inductive RxCheck where
  | good (corrected : Nat)
  | bad (codewords : Nat)
  deriving DecidableEq, Repr

/-- A frame with what its receiver found. -/
structure RxFrame where
  frame : Frame
  chk   : RxCheck
  deriving DecidableEq, Repr

/-- A control block as received (R229, R230): whether it could be corrected, and how many symbols of reserved type came
with it. -/
structure RxBlock where
  ok       : Bool
  reserved : Nat
  deriving DecidableEq, Repr

/-- A pick as its receiver has decrypted it (R368, R369): the sender's time pick, the rows of all positions, and the
frame headers in position order followed by the control block. -/
structure RxPick where
  tp    : Nat
  rows  : Bytes
  heads : Bytes
  deriving DecidableEq, Repr

/-- One background acknowledgement (frame kinds table): tile, window, generation, open flag, sender reference. -/
structure BackAck where
  tile   : TileIx
  window : BitVec 8
  gen    : BitVec 16
  opened : Bool
  ref    : Nat
  deriving DecidableEq, Repr

/-- A frame of background acknowledgements (R122): the link that it comes over and the entries of its row. -/
structure RxAcks where
  link : LinkIx
  rx   : RxFrame
  acks : List BackAck
  deriving DecidableEq, Repr

/-- A route header of the mesh (R210). -/
structure Route where
  classB : Bool
  kind   : BitVec 3
  dx     : BitVec 5
  dy     : BitVec 5
  sx     : BitVec 5
  sy     : BitVec 5
  window : BitVec 8
  woff   : BitVec 7
  pad    : BitVec 3
  act    : BitVec 4
  gen    : BitVec 16
  deriving DecidableEq, Repr

/-- What the checks of a packet's flits found (R213): nothing wrong, or a CRC failure at an input of a tile's router or at
a bridge port. -/
inductive FlitCheck where
  | good
  | router (t : TileIx)
  | port (pair : Fin 4) (port : Fin 34)
  deriving DecidableEq, Repr

/-- What a landing names (R120): window and offset; of a frame of a link also its sequence and landing pick (R227), which
are 0 otherwise. -/
structure LandHdr where
  window : Nat
  woff   : Nat
  seq    : Nat
  landSp : Nat
  deriving DecidableEq, Repr

/-- What a background write adds (R121, R122): generation, the sender to acknowledge and its reference. -/
structure BackHdr where
  gen : BitVec 16
  sender : Coord
  ref : Nat
  deriving DecidableEq, Repr

/-- The inputs of a landing queue in the order of R90. -/
inductive LandIn where
  | px | mx | py | my | mesh | selvedge
  deriving DecidableEq, Repr

/-- The outcome of one lane's training steps 1 to 3 (R248). -/
structure LaneTrain where
  detect : Bool
  lock   : Bool
  errors : Nat
  deriving DecidableEq, Repr

/-! ## Notices (R285) -/

/-- How a class B frame of kind 0x4, 0x5 or 0x6 came: its link, its sequence, what the receiver found (R240). -/
structure Recv where
  link : LinkIx
  seq  : BitVec 16
  chk  : RxCheck
  deriving DecidableEq, Repr

/-- A notice header's fields that receivers use (R285), and how its frame came. -/
structure NoticeHdr where
  rx       : Recv
  sender   : Coord
  travel   : Travel
  seq      : BitVec 32
  sp       : Nat
  graphSeq : Nat
  first    : Nat
  scanPos  : Nat
  deriving DecidableEq, Repr

/-- What a notice carries, by its type (R285, R288, R428). -/
inductive Notice where
  | graph (header : Bytes)
  | tasks (recs : List Bytes)
  | summary (graphs recNotices floor : Nat)
  | word (word : Fin 16) (value : BitVec 64) (pubModule : Coord) (pubTile : Nat)
  | snapshot (effectSp : Nat)
  deriving DecidableEq, Repr

/-- A task record (Task record table), decoded; the parameter block stays 64 bytes. -/
structure TaskRec where
  sched  : Nat
  group  : Nat
  kind   : Nat
  prio   : Nat
  npred  : Nat
  gword  : Nat
  gmode  : Nat
  mask   : Nat
  preds  : List Nat
  rsvd   : Bool
  params : Bytes
  deriving DecidableEq, Repr

/-! ## Data ports (R412) -/

/-- The transport header fields of R412. -/
structure Transport where
  magic   : BitVec 32
  version : BitVec 8
  ptype   : BitVec 8
  flags   : BitVec 8
  items   : BitVec 8
  stream  : BitVec 32
  rsvd    : BitVec 32
  seq     : BitVec 64
  target  : BitVec 64
  ref     : BitVec 64
  deriving DecidableEq, Repr

/-- How a packet reached the port (R411): addressed to the port, source in its filter, checksums valid. -/
structure IpCheck where
  toPort   : Bool
  source   : Bytes
  ipv6     : Bool
  checksum : Bool
  deriving DecidableEq, Repr

/-- A Chropa data transport packet: IP facts, header, body bytes and the 16-byte tag when sealed. -/
structure Packet where
  ip   : IpCheck
  hdr  : Transport
  body : Bytes
  tag  : Bytes
  deriving DecidableEq, Repr

/-! ## The object dictionary -/

/-- The access paths of R379. -/
inductive Path where
  | pcie | can | mgmt | mgmtTagged | doe
  deriving DecidableEq, Repr

/-- A request (request header table): opcode, index, subindex, status byte, data. -/
structure Request where
  txn    : BitVec 5
  opcode : BitVec 8
  index  : BitVec 16
  sub    : BitVec 8
  status : BitVec 8
  data   : Bytes
  deriving DecidableEq, Repr

/-- What the WRITE row writes: an entry over a path, a BAR0 register or ring byte range, or a request slot's
sequence (R397, R401, R402). -/
inductive WriteTarget where
  | entry (path : Path) (index : BitVec 16) (sub : BitVec 8) (data : Bytes)
  | bar0 (offset : Nat) (data : Bytes)
  deriving DecidableEq, Repr

/-- A signed write envelope (R374). -/
structure Envelope where
  index    : BitVec 16
  sub      : BitVec 8
  value    : Bytes
  moduleId : Bytes
  counter  : BitVec 32
  sigEd    : Bytes
  sigMl    : Bytes
  deriving DecidableEq, Repr

/-- The switchable functions of R387, numbered as 0x9002 numbers them: links 0 to 35, self-test 36, management
Ethernet 37. -/
abbrev FnIx := Fin 38

/-! ## Faults -/

/-- The clock regions that stretch (R25): a tile, the network region or the selvedge region of a die. -/
inductive ClockRegion where
  | tile (t : TileIx)
  | network (die : DieIx)
  | selvedge (die : DieIx)
  deriving DecidableEq, Repr

/-- Who raises a fault and where (R336): origin class, die, origin index, row address, code-specific detail. -/
structure FaultSite where
  ocls   : BitVec 4
  die    : DieIx
  oidx   : BitVec 16
  addr   : BitVec 32
  bundle : BitVec 14
  detail : BitVec 18
  /-- the tile whose router raised the fault (R347); no field of the record -/
  router : Option TileIx
  deriving DecidableEq, Repr

/-- A resource the background self-test exercises (R352): a spare tile of a die row, a spare beam row of a slice,
a spare bobbin row of a bank, a reserve port of a bridge pair. -/
inductive Spare where
  | tile (die : DieIx) (row : Fin 16)
  | beamRow (tile : TileIx) (slice : Fin 24)
  | bobbinRow (tile : TileIx) (bank : Fin 8)
  | port (pair : Fin 4)
  deriving DecidableEq, Repr

/-! ## Start and power -/

/-- The grades of R1. -/
inductive Grade where
  | A | B
  deriving DecidableEq, Repr

/-- The steppings of R4. -/
inductive Stepping where
  | A0 | B0
  deriving DecidableEq, Repr

/-- What the hardware finds while it runs the start steps (R447): the inputs of START. `refA` and `refB` are the codes
of 0x2202:02; `repairA` and `repairB` say whether a repair table copy is valid; `badRows` and `badTiles` fail S7 and
S8, `badRouters` are failed routers (208 die + 13 row + column); `bridgeFull` and `bridgeHalf` are the ports (pair, port) that fail training at full and at half rate; `links` the
lanes of the links that train at S11. -/
structure StartFacts where
  slotId      : BitVec 7
  s1          : Bool
  s2          : Bool
  image       : Bytes
  rails       : List Bool
  refA        : Fin 3
  refB        : Fin 3
  plls        : List Bool
  repairA     : Bool
  repairB     : Bool
  badRows     : List Nat
  badTiles    : List TileIx
  badRouters  : List Nat
  bridgeFull  : List (Fin 4 × Fin 34)
  bridgeHalf  : List (Fin 4 × Fin 34)
  links       : List (LinkIx × List LaneTrain)
  deriving DecidableEq, Repr

/-- The kinds of PCIe function reset (R400). -/
inductive PcieReset where
  | flr | hot | linkDown | d3hot
  deriving DecidableEq, Repr

end Sys2Proof
end

