-- ==== Sys2Proof/Syntax.lean ====
section
/-! DEFINITION. The commands of the block: one constructor for each row of the manual's table of operations and
events, in the table's order, each with the operands that the row's chapter gives it. Slot commands name their tile
and the tile's cycle of issue; received items carry what the wire carries. -/

namespace Sys2Proof

/-- A command: one row of the table of operations and events. -/
inductive Instr where
  /-- PICK_BOUNDARY (R26). -/
  | pickBoundary
  /-- HOLD_REQUEST (R34). -/
  | holdRequest (r : HoldReq) (router : Option Nat)
  /-- HOLD (R40). -/
  | hold (tr : Travel) (w : ControlWord)
  /-- RELEASE (R38). -/
  | release (tr : Travel) (w : ControlWord)
  /-- SEND_RELEASE (R37). -/
  | sendRelease
  /-- PACE (R46). -/
  | pace (tr : Travel) (w : ControlWord)
  /-- HOLD_LIMIT_EXPIRY (R37). -/
  | holdLimitExpiry
  /-- CLOCK_STRETCH (R25). -/
  | clockStretch (r : ClockRegion) (c : Nat)
  /-- REPLICA_HARD_THRESHOLD (R441). -/
  | replicaHardThreshold (site : FaultSite)
  /-- PACE_FLOOR_WRITE (R47). -/
  | paceFloorWrite (path : Path) (data : Bytes)
  /-- BEAM_TO_IDLE_WEIGHT_LATCH (R125). -/
  | beamToLatch (t : TileIx) (c : Nat) (f : TSlot)
  /-- WEIGHT_BLOCK_READY (R125). -/
  | weightBlockReady (t : TileIx) (c : Nat)
  /-- BEAM_TO_BOBBIN (R96). -/
  | beamToBobbin (t : TileIx) (c : Nat) (f : TSlot)
  /-- BOBBIN_TO_BEAM (R96). -/
  | bobbinToBeam (t : TileIx) (c : Nat) (f : TSlot)
  /-- BOBBIN_TO_REGISTERS (R463). -/
  | bobbinToRegs (t : TileIx) (c : Nat) (f : TSlot)
  /-- REGISTERS_TO_BOBBIN (R463). -/
  | regsToBobbin (t : TileIx) (c : Nat) (f : TSlot)
  /-- BEAM_TO_REGISTERS (R463). -/
  | beamToRegs (t : TileIx) (c : Nat) (f : TSlot)
  /-- REGISTERS_TO_BEAM (R463). -/
  | regsToBeam (t : TileIx) (c : Nat) (f : TSlot)
  /-- ARM_RECEIVE_WINDOW (R116). -/
  | armWindow (t : TileIx) (c : Nat) (f : TSlot)
  /-- CLOSE_RECEIVE_WINDOW (R116). -/
  | closeWindow (t : TileIx) (c : Nat) (f : TSlot)
  /-- SEND_ON_SIDE_LINK (R209). -/
  | sendSide (t : TileIx) (c : Nat) (f : SSlot)
  /-- SEND_ON_MESH (R211). -/
  | sendMesh (t : TileIx) (c : Nat) (f : SSlot)
  /-- HAND_TO_SELVEDGE_PORT (R232). -/
  | handSelvedge (t : TileIx) (c : Nat) (f : SSlot)
  /-- PUBLISH_BROADCAST_WORD (R288). -/
  | publishWord (t : TileIx) (c : Nat) (f : SSlot)
  /-- LOOP (R70). -/
  | loop (t : TileIx) (c : Nat) (depth : BitVec 2) (trip : BitVec 24)
  /-- ENDLOOP (R70). -/
  | endloop (t : TileIx) (c : Nat) (depth : BitVec 2)
  /-- PICKWAIT (R70). -/
  | pickwait (t : TileIx) (c : Nat)
  /-- SELECT (R71). -/
  | select (t : TileIx) (c : Nat) (flag : BitVec 5) (len : BitVec 11)
  /-- END (R70). -/
  | endSchedule (t : TileIx) (c : Nat)
  /-- STREAM (R131). -/
  | stream (t : TileIx) (c : Nat) (f : MStream)
  /-- CONTRIBUTION_REACHES_ACCUMULATOR (R132). -/
  | contribution (t : TileIx) (c : Nat)
  /-- DRAIN (R134). -/
  | drain (t : TileIx) (c : Nat) (f : MDrain)
  /-- ADOWN (R141). -/
  | adown (t : TileIx) (c : Nat) (f : MAdown)
  /-- AUP (R141). -/
  | aup (t : TileIx) (c : Nat) (f : MAup)
  /-- ASET (R139). -/
  | aset (t : TileIx) (c : Nat) (f : MAset)
  /-- SETBOUND (R136). -/
  | setbound (t : TileIx) (c : Nat) (f : MSetbound)
  /-- FADD (R176). -/
  | fadd (t : TileIx) (c : Nat) (f : FormE)
  /-- FSUB (R176). -/
  | fsub (t : TileIx) (c : Nat) (f : FormE)
  /-- FMUL (R176). -/
  | fmul (t : TileIx) (c : Nat) (f : FormE)
  /-- FMA (R176). -/
  | fma (t : TileIx) (c : Nat) (f : FormE)
  /-- FMAX (R176). -/
  | fmax (t : TileIx) (c : Nat) (f : FormE)
  /-- FMIN (R176). -/
  | fmin (t : TileIx) (c : Nat) (f : FormE)
  /-- IADD (R177). -/
  | iadd (t : TileIx) (c : Nat) (f : FormE)
  /-- ISUB (R177). -/
  | isub (t : TileIx) (c : Nat) (f : FormE)
  /-- IMUL (R177). -/
  | imul (t : TileIx) (c : Nat) (f : FormE)
  /-- IMAX (R174). -/
  | imax (t : TileIx) (c : Nat) (f : FormE)
  /-- IMIN (R174). -/
  | imin (t : TileIx) (c : Nat) (f : FormE)
  /-- AND (R174). -/
  | and (t : TileIx) (c : Nat) (f : FormE)
  /-- OR (R174). -/
  | or (t : TileIx) (c : Nat) (f : FormE)
  /-- XOR (R174). -/
  | xor (t : TileIx) (c : Nat) (f : FormE)
  /-- ANDN (R174). -/
  | andn (t : TileIx) (c : Nat) (f : FormE)
  /-- SHL (R177). -/
  | shl (t : TileIx) (c : Nat) (f : FormE)
  /-- SHR (R177). -/
  | shr (t : TileIx) (c : Nat) (f : FormE)
  /-- SRA (R177). -/
  | sra (t : TileIx) (c : Nat) (f : FormE)
  /-- CMP (R178). -/
  | cmp (t : TileIx) (c : Nat) (f : FormE)
  /-- SEL (R178). -/
  | sel (t : TileIx) (c : Nat) (f : FormE)
  /-- SETFLAG (R193). -/
  | setflag (t : TileIx) (c : Nat) (f : FormE)
  /-- BCHK (R192). -/
  | bchk (t : TileIx) (c : Nat) (f : FormE)
  /-- EXP2 (R180). -/
  | exp2 (t : TileIx) (c : Nat) (f : FormE)
  /-- LOG2 (R180). -/
  | log2 (t : TileIx) (c : Nat) (f : FormE)
  /-- RCP (R180). -/
  | rcp (t : TileIx) (c : Nat) (f : FormE)
  /-- RSQRT (R180). -/
  | rsqrt (t : TileIx) (c : Nat) (f : FormE)
  /-- SIGM (R180). -/
  | sigm (t : TileIx) (c : Nat) (f : FormE)
  /-- RSUM (R182). -/
  | rsum (t : TileIx) (c : Nat) (f : FormE)
  /-- RMAX (R182). -/
  | rmax (t : TileIx) (c : Nat) (f : FormE)
  /-- RMIN (R182). -/
  | rmin (t : TileIx) (c : Nat) (f : FormE)
  /-- RDOT (R182). -/
  | rdot (t : TileIx) (c : Nat) (f : FormE)
  /-- ARGMAX (R183). -/
  | argmax (t : TileIx) (c : Nat) (f : FormE)
  /-- TOPK (R184). -/
  | topk (t : TileIx) (c : Nat) (f : FormE)
  /-- CVT (R185). -/
  | cvt (t : TileIx) (c : Nat) (f : FormC)
  /-- RAND (R187). -/
  | rand (t : TileIx) (c : Nat) (f : FormE)
  /-- GUMB (R204). -/
  | gumb (t : TileIx) (c : Nat) (f : FormE)
  /-- LDR (R189). -/
  | ldr (t : TileIx) (c : Nat) (f : FormL)
  /-- STR (R189). -/
  | str (t : TileIx) (c : Nat) (f : FormL)
  /-- GATH (R191). -/
  | gath (t : TileIx) (c : Nat) (f : FormG)
  /-- SCAT (R190). -/
  | scat (t : TileIx) (c : Nat) (f : FormG)
  /-- VECTOR_RESULT_READABLE (R170). -/
  | vectorReadable (t : TileIx) (c : Nat)
  /-- SHADOW_SET_SETUP (R202). -/
  | shadowSetup (t : TileIx)
  /-- LANE_SET_EXCHANGE (R202). -/
  | laneExchange (t : TileIx) (c : Nat)
  /-- SCRUB_READ (R109). -/
  | scrubRead (t : TileIx) (c : Nat)
  /-- SCRUB_WRITE_BACK (R108). -/
  | scrubWriteBack (t : TileIx) (c : Nat) (slice : Fin 24)
  /-- LATE_SCRUB_PASS (R112). -/
  | lateScrubPass (t : TileIx)
  /-- LANDING_QUEUE_WRITE (R90). -/
  | landingWrite (t : TileIx) (c : Nat)
  /-- SIDE_LINK_LANDING (R208). -/
  | sideLanding (t : TileIx) (c : Nat) (from_ : LandIn) (window : BitVec 8) (woff : BitVec 7) (row : RowFrame)
  /-- MESH_EJECTION (R212). -/
  | meshEjection (t : TileIx) (c : Nat) (h : Route) (row : RowFrame) (crc : FlitCheck)
  /-- CLASS_B_INJECTION (R221). -/
  | classBInjection (die : DieIx)
  /-- DIGEST_ROW_WRITE (R273). -/
  | digestRowWrite (t : TileIx) (c : Nat) (entry : Fin 8)
  /-- BRIDGE_PORT_FAILURE (R216). -/
  | bridgePortFailure (pair : Fin 4) (port : Fin 34)
  /-- CONTROL_BLOCK (R230). -/
  | controlBlock (link : LinkIx) (b : RxBlock)
  /-- SCHEDULED_ROW (R239). -/
  | scheduledRow (link : LinkIx) (f : Frame) (chk : RxCheck)
  /-- SCHEDULED_RETRANSMISSION (R241). -/
  | scheduledRetrans (link : LinkIx) (f : Frame) (chk : RxCheck)
  /-- BACKGROUND_WRITE (R121). -/
  | backgroundWrite (link : LinkIx) (f : Frame) (chk : RxCheck) (ref : Nat)
  /-- BACKGROUND_ACKNOWLEDGEMENT (R122). -/
  | backgroundAck (p : RxAcks)
  /-- BACKGROUND_RETRY (R122). -/
  | backgroundRetry (ref : Nat)
  /-- RETRY_REQUEST (R240). -/
  | retryRequest (link : LinkIx) (seq : BitVec 16)
  /-- RETRANSMISSION (R240). -/
  | retransmission (link : LinkIx)
  /-- SELVEDGE_LATE_ROW (R234). -/
  | selvedgeLateRow (link : LinkIx) (row : Nat)
  /-- IDLE (R369). -/
  | idle (link : LinkIx) (retry : Option (BitVec 16)) (payload : Bytes) (pick : Option RxPick)
  /-- TIME_DELAY_REQUEST (R250). -/
  | timeDelayRequest (link : LinkIx) (t0 : BitVec 64) (turnaround : BitVec 24)
  /-- TIME_DELAY_ECHO (R250). -/
  | timeDelayEcho (link : LinkIx) (t0 : BitVec 64) (turnaround : BitVec 24)
  /-- TIME_HANDSHAKE (R266). -/
  | timeHandshake (link : LinkIx) (echo : Bool) (turnaround : BitVec 24) (reserved : BitVec 32) (value : BitVec 64)
  /-- FAULT (R247). -/
  | fault (link : LinkIx) (code : BitVec 16) (origin : Coord) (stamp : BitVec 64)
  /-- COORD (R249). -/
  | coord (link : LinkIx) (peer : Coord) (peerLink : BitVec 6) (dir : BitVec 3) (rank : BitVec 3) (stepping : BitVec 8)
  /-- LINK_TRAINING (R248). -/
  | linkTraining (link : LinkIx) (lanes : List LaneTrain)
  /-- TRAINING_STEP_TIMEOUT (R248). -/
  | trainingTimeout (link : LinkIx) (step : Nat) (lane : Nat)
  /-- BLOCK_LOCK_LOSS (R252). -/
  | blockLockLoss (link : LinkIx) (lane : Fin 4)
  /-- MODULE_COORDINATES_WRITE (R257). -/
  | coordsWrite (path : Path) (data : Bytes)
  /-- JOB_START_TICK_WRITE (R268). -/
  | startTickWrite (path : Path) (data : Bytes)
  /-- JOB_START_TICK (R263). -/
  | startTick
  /-- TIME_ROOT_TIMEOUT (R267). -/
  | timeRootTimeout
  /-- ALIGNMENT_TICK (R449). -/
  | alignmentTick (badTile : Option TileIx)
  /-- ADMISSION_SCAN (R284). -/
  | admissionScan
  /-- ADMISSION_LATE (R44). -/
  | admissionLate
  /-- RECORDS_MISSING (R45). -/
  | recordsMissing
  /-- GRAPH_HEADER (R285). -/
  | graphHeader (h : NoticeHdr) (graph : Bytes)
  /-- TASK_RECORDS (R285). -/
  | taskRecords (h : NoticeHdr) (recs : List Bytes)
  /-- SCAN_SUMMARY (R285). -/
  | scanSummary (h : NoticeHdr) (graphs : Nat) (recNotices : Nat) (floor : Nat)
  /-- BROADCAST_WORD (R288). -/
  | broadcastWord (h : NoticeHdr) (word : Fin 16) (value : BitVec 64) (pubModule : Coord) (pubTile : Nat)
  /-- SNAPSHOT_COMMAND (R428). -/
  | snapshotCommand (h : NoticeHdr) (effectSp : Nat)
  /-- RESULT_RECORD_WRITE (R295). -/
  | resultRecordWrite (graphSeq : Nat) (task : Nat)
  /-- RESULT_CONSUMER_INDEX_WRITE (R294). -/
  | consumerIndexWrite (path : Path) (data : Bytes)
  /-- STAGING_WRITE (R297). -/
  | stagingWrite (port : Fin 2) (p : Packet)
  /-- WINDOW_WRITE (R415). -/
  | windowWrite (port : Fin 2) (p : Packet)
  /-- TRACER_PRODUCER_INDEX_WRITE (R314). -/
  | tracerProducerWrite (path : Path) (data : Bytes)
  /-- MATCH (R315). -/
  | matchCmd (entry : Fin 1024)
  /-- INSERT (R315). -/
  | insertCmd (entry : Fin 1024)
  /-- PIN (R315). -/
  | pinCmd (entry : Fin 1024)
  /-- UNPIN (R315). -/
  | unpinCmd (entry : Fin 1024)
  /-- EVICT (R315). -/
  | evictCmd (entry : Fin 1024)
  /-- LOAD_RECORD_WRITE (R322). -/
  | loadRecordWrite (path : Path) (slot : Fin 16) (data : Bytes)
  /-- LOAD_SLOT_CLOSE (R322). -/
  | loadSlotClose (path : Path) (slot : Fin 16)
  /-- CHAIN_ENTRY_WRITE (R325). -/
  | chainEntryWrite (path : Path) (chain : Fin 8) (data : Bytes)
  /-- CHAIN (R323). -/
  | chain (source : BitVec 8) (p : RxFrame)
  /-- LOAD_VERIFICATION (R326). -/
  | loadVerification (slot : Fin 16)
  /-- PLATE (R417). -/
  | plate (port : Fin 2) (p : Packet)
  /-- SAFE_STOP (R340). -/
  | safeStop (code : BitVec 16) (site : FaultSite)
  /-- FAULT_RECORD (R338). -/
  | faultRecord (die : DieIx)
  /-- WITHDRAW_RESULTS (R344). -/
  | withdrawResults
  /-- INVALIDATION_REPEAT (R344). -/
  | invalidationRepeat
  /-- END_STOPPED_JOB (R346). -/
  | endStoppedJob (path : Path) (data : Bytes)
  /-- SELF_TEST_FAILURE (R352). -/
  | selfTestFailure (what : Spare)
  /-- MANAGEMENT_WATCHDOG_EXPIRY (R353). -/
  | mgmtWatchdog
  /-- RECOVERY_COMMAND (R404). -/
  | recoveryCommand (seq : BitVec 32)
  /-- ATTESTATION_REQUEST (R361). -/
  | attestationRequest (path : Path) (nonce : Bytes)
  /-- OFFER_REQUEST (R362). -/
  | offerRequest (path : Path) (nonce : Bytes) (mode : BitVec 8)
  /-- ACCEPT (R363). -/
  | accept (path : Path) (xpub : Bytes) (kem : Bytes) (confirm : Bytes)
  /-- KEY_BUNDLE (R365). -/
  | keyBundle (path : Path) (seq : BitVec 32) (sealed : Bytes) (tag : Bytes)
  /-- OFFER_TIMEOUT (R362). -/
  | offerTimeout
  /-- CLEARING (R372). -/
  | clearing
  /-- IDE_KM (R373). -/
  | ideKm (keys : Bytes) (go : Bool)
  /-- SIGNED_WRITE (R374). -/
  | signedWrite (path : Path) (e : Envelope)
  /-- WRITE (R378). -/
  | write (w : WriteTarget)
  /-- DESCRIBE (R381). -/
  | describe (path : Path) (index : BitVec 16) (sub : BitVec 8)
  /-- PERSISTENT_STORE_COMPLETE (R385). -/
  | storeComplete
  /-- DEFAULTS_AT_NEXT_RESET (R386). -/
  | defaultsAtReset (path : Path) (data : Bytes)
  /-- ENABLE_WRITE (R387). -/
  | enableWrite (path : Path) (fn : FnIx) (data : Bytes)
  /-- FUNCTION_START_DONE (R387). -/
  | fnStartDone (fn : FnIx)
  /-- FUNCTION_START_FAILED (R387). -/
  | fnStartFailed (fn : FnIx)
  /-- FUNCTION_LOST (R387). -/
  | fnLost (fn : FnIx)
  /-- FUNCTION_STOP_DONE (R388). -/
  | fnStopDone (fn : FnIx)
  /-- SINGLE_FRAME (R391). -/
  | singleFrame (node : BitVec 7) (r : Request)
  /-- FIRST_FRAME (R391). -/
  | firstFrame (node : BitVec 7) (r : Request) (len : Nat)
  /-- CONSECUTIVE_FRAME (R391). -/
  | consecutiveFrame (node : BitVec 7) (txn : BitVec 5) (seq : BitVec 8) (data : Bytes)
  /-- ACKNOWLEDGEMENT_FRAME (R391). -/
  | ackFrame (node : BitVec 7) (txn : BitVec 5) (seq : BitVec 8)
  /-- ABORT (R392). -/
  | abort (node : BitVec 7) (txn : BitVec 5) (status : BitVec 8)
  /-- CAN_TRANSFER_TIMEOUT (R392). -/
  | canTimeout
  /-- HEARTBEAT (R393). -/
  | heartbeat
  /-- BUS_OFF (R394). -/
  | busOff
  /-- CAN_WIRING_FAULT (R394). -/
  | canWiring (present : Bool)
  /-- MANAGEMENT_DATAGRAM (R395). -/
  | mgmtDatagram (counter : BitVec 64) (raw : Bytes) (r : Request) (tag : Option Bytes)
  /-- PERST_DEASSERT (R400). -/
  | perstDeassert
  /-- PCIE_FUNCTION_RESET (R400). -/
  | pcieReset (kind : PcieReset)
  /-- LOAD_COMMAND (R405). -/
  | loadCommand (seq : BitVec 32)
  /-- LOAD_DMA_COMPLETE (R406). -/
  | loadDmaComplete (dmaOk : Bool) (pattern : Bytes) (reloc : Bytes)
  /-- BAR2_READ (R408). -/
  | bar2Read (offset : Nat) (len : Nat)
  /-- BAR2_WRITE (R407). -/
  | bar2Write (offset : Nat) (data : Bytes)
  /-- MSIX_UNMASK (R409). -/
  | msixUnmask (vector : Fin 32)
  /-- DOE_REQUEST (R410). -/
  | doeRequest (r : Request)
  /-- ADDRESS_RESOLUTION (R411). -/
  | addressResolution (port : Fin 2) (ipv6 : Bool) (target : Bytes)
  /-- DATA_PORT_LINK_CHANGE (R411). -/
  | portLinkChange (port : Fin 2) (up : Bool)
  /-- ACKNOWLEDGEMENT (R419). -/
  | acknowledgement (port : Fin 2) (p : Packet)
  /-- ACKNOWLEDGEMENT_SEND (R416). -/
  | ackSend (stream : BitVec 32)
  /-- RESULT_PACKET_SEND (R418). -/
  | resultPacketSend (dest : Fin 8)
  /-- RESULT_RESEND_TIMEOUT (R419). -/
  | resultResend (dest : Fin 8)
  /-- RESULT_DESTINATION_WRITE (R419). -/
  | resultDestWrite (path : Path) (dest : Fin 8) (data : Bytes)
  /-- COUNTING_MODES_WRITE (R422). -/
  | countingModesWrite (path : Path) (data : Bytes)
  /-- SNAPSHOT_REQUEST (R428). -/
  | snapshotRequest (path : Path) (data : Bytes)
  /-- SNAPSHOT_TRANSFER_COMPLETE (R429). -/
  | snapshotDone
  /-- OVERFLOW_SELECTOR_WRITE (R430). -/
  | selectorWrite (path : Path) (sel : Fin 8) (data : Bytes)
  /-- SELECTOR_OVERFLOW (R430). -/
  | selectorOverflow (sel : Fin 8)
  /-- PRECISE_SAMPLE_RECORD (R433). -/
  | sampleRecord (t : TileIx) (actual : Nat)
  /-- READ_INDEX_WRITE (R434). -/
  | readIndexWrite (path : Path) (die : DieIx) (data : Bytes)
  /-- INPUT_VALID (R438). -/
  | inputValid
  /-- INPUT_OUT_OF_RANGE (R438). -/
  | inputOutOfRange (mv : BitVec 32)
  /-- SENSE_N_OPEN (R452). -/
  | senseOpen
  /-- RAIL_FAULT (R437). -/
  | railFault (rail : Fin 13)
  /-- REFERENCE_LOSS (R440). -/
  | referenceLoss
  /-- POWER_WINDOW (R442). -/
  | powerWindow (watts : Nat)
  /-- POWER_EMERGENCY (R48). -/
  | powerEmergency (watts : Nat)
  /-- THROTTLE_TEMPERATURE (R443). -/
  | throttleTemp (deci : Int)
  /-- OVERTEMPERATURE (R443). -/
  | overtemp (deci : Int)
  /-- COOLANT_OUT_OF_RANGE (R444). -/
  | coolantRange (inlet : Int) (flow : Nat)
  /-- RESET_N_LOW (R446). -/
  | resetNLow
  /-- RESET_REQUEST (R445). -/
  | resetRequest (path : Path) (data : Bytes)
  /-- START (R447). -/
  | start (facts : StartFacts)
  /-- START_STEP_TIMEOUT (R447). -/
  | startTimeout
  /-- AUTOMATIC_RESTART (R448). -/
  | autoRestart
  /-- TRANSFER_ROW_READABLE (R102). -/
  | transferReadable (t : TileIx) (c : Nat)
  /-- DRAIN_DESTINATION_ROW (R134). -/
  | drainRow (t : TileIx) (c : Nat)
  /-- SCHEDULE_STREAM_READ (R72). -/
  | streamRead (t : TileIx) (c : Nat)
  /-- JOB_END (R333). -/
  | jobEnd
  /-- PLL_LOCK_LOSS (R439). -/
  | pllLoss (die : DieIx)
  /-- REFERENCE_INPUT_STATE_CHANGE (R440). -/
  | refStateChange (inputB : Bool) (st : Fin 3)
  /-- MANAGEMENT_CONTROLLER_RESET_DONE (R353). -/
  | mgmtResetDone
  /-- COOLANT_SENSOR_FAILURE (R438). -/
  | coolantSensor (flow : Bool)
  /-- PORT_MEMORY_READ_ERROR (R401). -/
  | portMemError (offset : Nat)
  deriving DecidableEq, Repr

end Sys2Proof
end

