-- ==== Sys2Proof/Machine/Bits.lean ====
section
/-! DEFINITION. Bytes, bit fields, byte order and the cyclic checks of the manual. -/

namespace Sys2Proof.Machine

/-- Bits `[lo + n - 1 : lo]` of a number. -/
def bits (v lo n : Nat) : Nat := v / 2 ^ lo % 2 ^ n

/-- Bit `i` of a number. -/
def bitOf (v i : Nat) : Bool := bits v i 1 == 1

/-- A number as `n` little-endian bytes. -/
def leBytes : Nat → Nat → Bytes
  | 0, _ => []
  | n + 1, v => BitVec.ofNat 8 v :: leBytes n (v / 256)

/-- The number that little-endian bytes spell. -/
def leNat : Bytes → Nat
  | [] => 0
  | b :: bs => b.toNat + 256 * leNat bs

/-- The number that big-endian bytes spell. -/
def beNat (bs : Bytes) : Nat := leNat bs.reverse

/-- A number as `n` big-endian bytes. -/
def beBytes (n v : Nat) : Bytes := (leBytes n v).reverse

/-- `n` bytes from offset `o`; bytes past the end read 0. -/
def slice (bs : Bytes) (o n : Nat) : Bytes :=
  let r := (bs.drop o).take n
  r ++ List.replicate (n - r.length) 0

/-- The little-endian number in `n` bytes from offset `o`. -/
def leAt (bs : Bytes) (o n : Nat) : Nat := leNat (slice bs o n)

/-- `n` zero bytes. -/
def zeros (n : Nat) : Bytes := List.replicate n 0

/-- ASCII characters as bytes. -/
def ascii (s : String) : Bytes := s.toList.map fun c => BitVec.ofNat 8 c.toNat

/-- Bytes with `v` written from offset `o`; the length is kept. -/
def patch (bs : Bytes) (o : Nat) (v : Bytes) : Bytes :=
  (bs.take o ++ v ++ bs.drop (o + v.length)).take bs.length

/-- Two byte strings added modulo 2, byte by byte. -/
def xorBytes (a b : Bytes) : Bytes := List.zipWith (· ^^^ ·) a b

/-- The value that `n` bits hold in two's complement. -/
def signed (n v : Nat) : Int := if v % 2 ^ n < 2 ^ (n - 1) then (v % 2 ^ n : Nat) else (v % 2 ^ n : Nat) - (2 ^ n : Nat)

/-- A signed number in `n` bits, two's complement. -/
def unsigned (n : Nat) (v : Int) : Nat := (v % (2 ^ n : Nat)).toNat

/-- Whether all bytes are 0. -/
def allZero (bs : Bytes) : Bool := bs.all (· == 0)

/-- One bit of a reflected cyclic check whose reversed polynomial is `poly`. -/
def crcBit (poly c : Nat) : Nat := if c % 2 == 1 then (c / 2) ^^^ poly else c / 2

/-- One byte of a reflected cyclic check. -/
def crcByte (poly c : Nat) (b : Byte) : Nat :=
  let x := c ^^^ b.toNat
  crcBit poly (crcBit poly (crcBit poly (crcBit poly (crcBit poly (crcBit poly (crcBit poly (crcBit poly x)))))))

/-- CRC-32C (R85): polynomial 0x1EDC6F41 reflected, initial value and final XOR 0xFFFFFFFF. -/
def crc32c (bs : Bytes) : BitVec 32 :=
  BitVec.ofNat 32 (bs.foldl (crcByte 0x82F63B78) 0xFFFFFFFF ^^^ 0xFFFFFFFF)

/-- The CRC-64 of R272: polynomial 0x42F0E1EBA9EA3693 reflected, initial value and final XOR all ones. -/
def crc64 (bs : Bytes) : BitVec 64 :=
  BitVec.ofNat 64 (bs.foldl (crcByte 0xC96C5795D7870F42) 0xFFFFFFFFFFFFFFFF ^^^ 0xFFFFFFFFFFFFFFFF)

/-- Whether a byte string is valid UTF-8 (R376). -/
def utf8Valid : Bytes → Bool
  | [] => true
  | a :: r =>
    let n := a.toNat
    if n < 0x80 then utf8Valid r
    else match r with
    | [] => false
    | b :: r =>
      let tail (x : Byte) := 0x80 ≤ x.toNat && x.toNat < 0xC0
      if 0xC2 ≤ n && n < 0xE0 then tail b && utf8Valid r
      else match r with
      | [] => false
      | c :: r =>
        if 0xE0 ≤ n && n < 0xF0 then
          tail b && tail c && (n != 0xE0 || 0xA0 ≤ b.toNat) && (n != 0xED || b.toNat < 0xA0) && utf8Valid r
        else match r with
        | [] => false
        | d :: r =>
          0xF0 ≤ n && n < 0xF5 && tail b && tail c && tail d && (n != 0xF0 || 0x90 ≤ b.toNat)
            && (n != 0xF4 || b.toNat < 0x90) && utf8Valid r

end Sys2Proof.Machine
end

