-- ==== Sys2Proof/Machine/Aes.lean ====
section
/-! DEFINITION. AES-256 of FIPS 197, its counter mode and GCM (NIST SP 800-38A and 800-38D), as the seal engines use
them (R364, R368, R370). -/

namespace Sys2Proof.Machine

/-! ## The block cipher -/

/-- Multiplication by x in GF(2^8). -/
def xtime (b : Nat) : Nat := (2 * b) % 256 ^^^ (if 128 ≤ b then 0x1B else 0)

/-- Product in GF(2^8), over `k` bits of the second factor. -/
def gmulGo : Nat → Nat → Nat → Nat
  | 0, _, _ => 0
  | k + 1, a, b => (if b % 2 = 1 then a else 0) ^^^ gmulGo k (xtime a) (b / 2)

/-- Product in GF(2^8). -/
def gmul (a b : Nat) : Nat := gmulGo 8 a b

/-- a to the power 254, the inverse in GF(2^8) with 0 to 0. -/
def ginv (a : Nat) : Nat :=
  let a2 := gmul a a
  let a3 := gmul a2 a
  let a6 := gmul a3 a3
  let a7 := gmul a6 a
  let a14 := gmul a7 a7
  let a15 := gmul a14 a
  let a30 := gmul a15 a15
  let a31 := gmul a30 a
  let a62 := gmul a31 a31
  let a63 := gmul a62 a
  let a126 := gmul a63 a63
  let a127 := gmul a126 a
  gmul a127 a127

/-- A byte rotated left. -/
def rol8 (a n : Nat) : Nat := (a * 2 ^ n) % 256 + a / 2 ^ (8 - n)

/-- The substitution of a byte. -/
def sboxOf (a : Nat) : Nat :=
  let b := ginv a
  b ^^^ rol8 b 1 ^^^ rol8 b 2 ^^^ rol8 b 3 ^^^ rol8 b 4 ^^^ 0x63

/-- The substitution table. -/
def sboxTable : List Nat := (List.range 256).map sboxOf

/-- A byte substituted. -/
def sbox (a : Nat) : Nat := sboxTable.getD a 0

/-- Four bytes added to four. -/
def addWord (a b : List Nat) : List Nat := List.zipWith (· ^^^ ·) a b

/-- The words of the key schedule, newest first, `k` more from word number `i` on. -/
def keyGo : Nat → Nat → Nat → List (List Nat) → List (List Nat)
  | 0, _, _, ws => ws
  | k + 1, i, rc, ws =>
    let t := ws.headD []
    let u := if i % 8 = 0 then (match (t.drop 1 ++ t.take 1).map sbox with | b :: r => (b ^^^ rc) :: r | [] => [])
      else if i % 8 = 4 then t.map sbox else t
    keyGo k (i + 1) (if i % 8 = 0 then xtime rc else rc) (addWord (ws.getD 7 []) u :: ws)

/-- The 15 round keys of 16 bytes of a 32-byte key. -/
def roundKeys (key : Bytes) : List (List Nat) :=
  let ks := (slice key 0 32).map BitVec.toNat
  let w0 := (List.range 8).map fun i => (ks.drop (4 * i)).take 4
  let ws := (keyGo 52 8 1 w0.reverse).reverse
  (List.range 15).map fun i => ((ws.drop (4 * i)).take 4).flatten

/-- Rows shifted: byte 4c + r comes from column c + r. -/
def shiftRows (s : List Nat) : List Nat :=
  (List.range 16).map fun i => s.getD ((4 * (i / 4 + i % 4) + i % 4) % 16) 0

/-- One column mixed. -/
def mixColumn (a b c d : Nat) : List Nat :=
  let m := fun p q r s => xtime p ^^^ (xtime q ^^^ q) ^^^ r ^^^ s
  [m a b c d, m b c d a, m c d a b, m d a b c]

/-- Columns mixed. -/
def mixColumns : List Nat → List Nat
  | a :: b :: c :: d :: r => mixColumn a b c d ++ mixColumns r
  | _ => []

/-- The rounds after the first key addition; the last has no column mixing. -/
def aesRounds : List (List Nat) → List Nat → List Nat
  | [], s => s
  | [k], s => addWord (shiftRows (s.map sbox)) k
  | k :: r, s => aesRounds r (addWord (mixColumns (shiftRows (s.map sbox))) k)

/-- A block of 16 bytes enciphered. -/
def aesBlock (keys : List (List Nat)) (block : Bytes) : Bytes :=
  match keys with
  | [] => block
  | k :: r => (aesRounds r (addWord ((slice block 0 16).map BitVec.toNat) k)).map (BitVec.ofNat 8)

/-! ## Counter mode and GCM -/

/-- The key stream of `k` blocks from a 12-byte IV and a 32-bit counter. -/
def keyStream (keys : List (List Nat)) (iv : Bytes) : Nat → Nat → Bytes
  | 0, _ => []
  | k + 1, c => aesBlock keys (slice iv 0 12 ++ beBytes 4 c) ++ keyStream keys iv k (c + 1)

/-- Bytes combined with the key stream from counter `c`. -/
def ctr (keys : List (List Nat)) (iv : Bytes) (c : Nat) (m : Bytes) : Bytes :=
  xorBytes m (keyStream keys iv ((m.length + 15) / 16) c)

/-- AES-256-CTR with an IV of 96 bits, the counter from 0 (R370). -/
def aesCtr (key iv m : Bytes) : Bytes := ctr (roundKeys key) iv 0 m

/-- Product in GF(2^128) in the bit order of GCM, over `k` bits of the first factor from its most significant on. -/
def ghMulGo : Nat → Nat → Nat → Nat → Nat
  | 0, _, _, z => z
  | k + 1, x, v, z =>
    ghMulGo k x (v / 2 ^^^ (if v % 2 = 1 then 0xE1000000000000000000000000000000 else 0))
      (if bitOf x k then z ^^^ v else z)

/-- Product of the hash key and a block. -/
def ghMul (x h : Nat) : Nat := ghMulGo 128 x h 0

/-- The hash of whole blocks, `k` of them. -/
def ghash (h : Nat) : Nat → Bytes → Nat → Nat
  | 0, _, y => y
  | k + 1, m, y => ghash h k (m.drop 16) (ghMul (y ^^^ beNat (m.take 16)) h)

/-- Bytes filled with zeros to whole blocks. -/
def pad16 (m : Bytes) : Bytes := m ++ zeros ((16 - m.length % 16) % 16)

/-- The GCM tag of additional data and a ciphertext. -/
def gcmTag (keys : List (List Nat)) (iv ad ct : Bytes) : Bytes :=
  let h := beNat (aesBlock keys (zeros 16))
  let m := pad16 ad ++ pad16 ct ++ beBytes 8 (8 * ad.length) ++ beBytes 8 (8 * ct.length)
  xorBytes (aesBlock keys (slice iv 0 12 ++ beBytes 4 1)) (beBytes 16 (ghash h (m.length / 16) m 0))

/-- AES-256-GCM: ciphertext and tag. -/
def gcmSeal (key iv ad m : Bytes) : Bytes × Bytes :=
  let keys := roundKeys key
  let ct := ctr keys iv 2 m
  (ct, gcmTag keys iv ad ct)

/-- AES-256-GCM: the plaintext where the tag verifies. -/
def gcmOpen (key iv ad ct tag : Bytes) : Option Bytes :=
  let keys := roundKeys key
  if gcmTag keys iv ad ct = tag then some (ctr keys iv 2 ct) else none

end Sys2Proof.Machine
end

