-- ==== Sys2Proof/Machine/Numerics.lean ====
section
/-! DEFINITION. Numeric profile 1 (R143 to R166): exact values, the element and scale encodings, rounding and
conversion. -/

namespace Sys2Proof.Machine

/-! ## Exact values -/

/-- A value of a format: NaN, an infinity, or ±m·2^e. -/
inductive Num where
  | nan
  | inf (neg : Bool)
  | fin (neg : Bool) (m : Nat) (e : Int)
  deriving DecidableEq, Repr

/-- 2 to an integer power as a ratio. -/
def pow2 (e : Int) : Nat × Nat := (2 ^ e.toNat, 2 ^ (-e).toNat)

/-- The signed mantissa of a finite value at an exponent not above its own. -/
def mantAt (neg : Bool) (m : Nat) (e s : Int) : Int :=
  let v : Int := (m * 2 ^ (e - s).toNat : Nat)
  if neg then -v else v

/-- Exact product. -/
def Num.mul : Num → Num → Num
  | .nan, _ => .nan
  | _, .nan => .nan
  | .inf a, .inf b => .inf (a != b)
  | .inf a, .fin b m _ => if m = 0 then .nan else .inf (a != b)
  | .fin a m _, .inf b => if m = 0 then .nan else .inf (a != b)
  | .fin a m e, .fin b n f => .fin (a != b) (m * n) (e + f)

/-- Exact sum; an exact zero is negative only where both terms are. -/
def Num.add : Num → Num → Num
  | .nan, _ => .nan
  | _, .nan => .nan
  | .inf a, .inf b => if a = b then .inf a else .nan
  | .inf a, .fin _ _ _ => .inf a
  | .fin _ _ _, .inf b => .inf b
  | .fin a m e, .fin b n f =>
    let s := min e f
    let v := mantAt a m e s + mantAt b n f s
    if v = 0 then .fin (a && b) 0 0 else .fin (decide (v < 0)) v.natAbs s

/-- The negative of a value. -/
def Num.neg : Num → Num
  | .nan => .nan
  | .inf a => .inf (!a)
  | .fin a m e => .fin (!a) m e

/-- Zero. -/
def Num.zero : Num := .fin false 0 0

/-- The exact sum of values. DESIGN CHOICE (log 103): a sum of negative zeros only is +0; the manual gives it no sign. -/
def Num.sum (xs : List Num) : Num := xs.foldl Num.add Num.zero

/-- An integer as a value. -/
def Num.ofInt (v : Int) : Num := .fin (decide (v < 0)) v.natAbs 0

/-- Whether a value is finite. -/
def Num.isFin : Num → Bool
  | .fin _ _ _ => true
  | _ => false

/-- floor(log2 |x|) of a finite value other than 0. -/
def Num.expo : Num → Option Int
  | .fin _ m e => if m = 0 then none else some (Nat.log2 m + e)
  | _ => none

/-- The order of two values that are not NaN: −0 equals +0. -/
def Num.lt (a b : Num) : Bool :=
  match a, b with
  | .nan, _ => false
  | _, .nan => false
  | .inf n, .inf m => n && !m
  | .inf n, .fin _ _ _ => n
  | .fin _ _ _, .inf m => !m
  | .fin n m e, .fin k l f => decide (mantAt n m e (min e f) < mantAt k l f (min e f))

/-- The magnitude of a finite value as a ratio. -/
def Num.ratio : Num → Nat × Nat
  | .fin _ m e => (m * (pow2 e).1, (pow2 e).2)
  | _ => (0, 1)

/-- The sign of a value. -/
def Num.isNeg : Num → Bool
  | .nan => false
  | .inf n => n
  | .fin n _ _ => n

/-! ## Floating-point encodings (R144) -/

/-- A floating-point format: width, mantissa bits, bias, whether it has infinities, the largest finite encoding, the
canonical NaN. -/
structure FloatFmt where
  width : Nat
  mb    : Nat
  bias  : Nat
  infs  : Bool
  top   : Nat
  nan   : Nat
  deriving DecidableEq, Repr

def fmtB4 : FloatFmt := { width := 4, mb := 1, bias := 1, infs := false, top := 7, nan := 0 }
def fmtB8e4 : FloatFmt := { width := 8, mb := 3, bias := 7, infs := false, top := 0x7E, nan := 0x7F }
def fmtB8e5 : FloatFmt := { width := 8, mb := 2, bias := 15, infs := true, top := 0x7B, nan := 0x7E }
def fmtBf16 : FloatFmt := { width := 16, mb := 7, bias := 127, infs := true, top := 0x7F7F, nan := 0x7FC0 }
def fmtF32 : FloatFmt := { width := 32, mb := 23, bias := 127, infs := true, top := 0x7F7FFFFF, nan := 0x7FC00000 }

/-- The least step exponent of a format: that of its subnormals. -/
def FloatFmt.smin (f : FloatFmt) : Int := 1 - (f.bias : Int) - f.mb

/-- The value of an encoding. -/
def FloatFmt.decode (f : FloatFmt) (v : Nat) : Num :=
  let mag := v % 2 ^ (f.width - 1)
  let neg := bitOf v (f.width - 1)
  if f.top < mag then (if f.infs && mag == f.top + 1 then .inf neg else .nan)
  else
    let ef := mag / 2 ^ f.mb
    let mf := mag % 2 ^ f.mb
    if ef = 0 then .fin neg mf f.smin else .fin neg (2 ^ f.mb + mf) (f.smin + (ef - 1 : Nat))

/-- The value of an E8M0 scale (R144). -/
def decodeE8M0 (v : Nat) : Num := if v = 0xFF then .nan else .fin false 1 ((v : Int) - 127)

/-! ## Rounding (R160) -/

/-- floor(log2 (p / q)) of a positive ratio. -/
def ratioLog (p q : Nat) : Int :=
  let e : Int := (Nat.log2 p : Int) - Nat.log2 q
  let w := pow2 e
  if q * w.1 ≤ p * w.2 then e else e - 1

/-- Whether the larger neighbour is taken: `r` = rem / den of a step above the smaller, `odd` its last bit. Modes: 0
nearest-even, 1 toward zero, 2 stochastic with the field `u`. -/
def roundUp (mode u rem den : Nat) (odd : Bool) : Bool :=
  if mode = 0 then decide (den < 2 * rem) || decide (2 * rem = den) && odd
  else if mode = 1 then false
  else decide (2 ^ 16 ≤ rem * 2 ^ 16 / den + u)

/-- The magnitude p / q > 0 rounded to a format, as an encoding; it may pass the largest finite one. -/
def roundMag (mode u p q : Nat) (f : FloatFmt) : Nat :=
  let s := max (ratioLog p q - f.mb) f.smin
  let w := pow2 s
  let num := p * w.2
  let den := q * w.1
  let a := num / den
  let up := roundUp mode u (num % den) den (a % 2 == 1)
  (s - f.smin).toNat * 2 ^ f.mb + a + (if up then 1 else 0)

/-- A sign placed on an encoding. -/
def withSign (f : FloatFmt) (neg : Bool) (mag : Nat) : Nat := mag + (if neg then 2 ^ (f.width - 1) else 0)

/-- A ratio is larger than the largest finite value of a format. -/
def aboveTop (f : FloatFmt) (p q : Nat) : Bool :=
  let r := (f.decode f.top).ratio
  decide (r.1 * q < p * r.2)

/-- A conversion into a floating-point format (R160, R162, R163): the encoding and whether the element is a
saturation. NaN and infinities as R163 gives them for bf16 and f32. -/
def toFloat (f : FloatFmt) (mode u : Nat) (x : Num) : Nat × Bool :=
  match x with
  | .nan => (f.nan, false)
  | .inf n => (withSign f n (f.top + 1), false)
  | .fin n m e =>
    if m = 0 then (withSign f n 0, false)
    else
      let r := (Num.fin n m e).ratio
      if aboveTop f r.1 r.2 then (withSign f n f.top, true)
      else (withSign f n (roundMag mode u r.1 r.2 f), false)

/-- IEEE 754 rounding to f32 by nearest-even, overflow to infinity (R129, R176). -/
def toF32 (x : Num) : Nat :=
  match x with
  | .nan => fmtF32.nan
  | .inf n => withSign fmtF32 n 0x7F800000
  | .fin n m e =>
    if m = 0 then withSign fmtF32 n 0
    else
      let r := (Num.fin n m e).ratio
      withSign fmtF32 n (min 0x7F800000 (roundMag 0 0 r.1 r.2 fmtF32))

/-- The same for bf16. -/
def toBf16 (x : Num) : Nat :=
  match x with
  | .nan => fmtBf16.nan
  | .inf n => withSign fmtBf16 n 0x7F80
  | .fin n m e =>
    if m = 0 then withSign fmtBf16 n 0
    else
      let r := (Num.fin n m e).ratio
      withSign fmtBf16 n (min 0x7F80 (roundMag 0 0 r.1 r.2 fmtBf16))

/-- The value of an f32 encoding. -/
def f32 (v : Nat) : Num := fmtF32.decode v

/-- Addition of f32 encodings, rounded once. -/
def f32Add (a b : Nat) : Nat := toF32 ((f32 a).add (f32 b))

/-! ## Format codes (R149, R150) -/

/-- The names of element formats: 1 b4, 2 b8e4, 3 b8e5, 4 i4, 5 i8, 6 bf16, 7 f32, 8 i32. -/
def isIntFmt (f : Nat) : Bool := f == 4 || f == 5 || f == 8

/-- Width in bits of an element of a format. -/
def elemWidth (f : Nat) : Nat :=
  if f == 1 || f == 4 then 4 else if f == 2 || f == 3 || f == 5 then 8 else if f == 6 then 16 else 32

/-- The floating-point format of a code 1, 2, 3, 6, 7. -/
def floatFmt (f : Nat) : FloatFmt :=
  if f == 1 then fmtB4 else if f == 2 then fmtB8e4 else if f == 3 then fmtB8e5
  else if f == 6 then fmtBf16 else fmtF32

/-- The value of an element. -/
def elemNum (f v : Nat) : Num :=
  if isIntFmt f then Num.ofInt (signed (elemWidth f) v) else (floatFmt f).decode v

/-- The weight format of a load code (R149): a codebook's entries. -/
def weightFmt (code : Nat) : Nat :=
  if code ≤ 6 then code
  else if code = 9 then 2 else if code = 0xA then 3
  else if code < 0x16 then (if code = 0xE || code = 0xF || code = 0x12 || code = 0x13 || code = 0x15 then 5 else 2)
  else if code = 0x18 || code = 0x19 || code = 0x1C || code = 0x1D || code = 0x1F then 4 else 1

/-- The activation format of a load code. -/
def actFmt (code : Nat) : Nat :=
  if code = 9 then 3 else if code = 0xA then 2 else weightFmt code

/-- Index bits of a codebook code; 0 for a plain block. -/
def bookBits (code : Nat) : Nat :=
  if code < 0xC then 0
  else if code ≤ 0xF then 2 else if code ≤ 0x13 then 3 else if code ≤ 0x15 then 4
  else if code ≤ 0x19 then 2 else if code ≤ 0x1D then 3 else 4

/-- The pair half of a codebook code. -/
def bookHalf (code : Nat) : Nat :=
  if bookBits code = 2 || bookBits code = 3 then code % 2 else 0

/-- Whether a load code names a load format (R150). -/
def isLoadCode (code : Nat) : Bool := !(code == 0 || code == 7 || code == 8 || code == 0xB)

/-- Output columns of a code: 32 in bf16 mode (R123). -/
def columns (code : Nat) : Nat := if code = 6 then 32 else 64

/-- Depth of a vector (R123). -/
def depth (code : Nat) : Nat := 1024 / elemWidth (actFmt code)

/-- Whether a block accumulates in i32 mode (R124). -/
def i32Mode (code : Nat) : Bool := isIntFmt (weightFmt code) && isIntFmt (actFmt code)

/-- Element rows of a block (R125, R156). -/
def elemRows (code : Nat) : Nat :=
  if bookBits code = 0 then (if code = 6 then 8 else 16)
  else if elemWidth (weightFmt code) = 8 then 2 * bookBits code else 4 * bookBits code

/-- Rows that a load reads (R125). -/
def loadRows (code : Nat) : Nat :=
  elemRows code + (if bookBits code ≠ 0 then 1 else if code = 6 then 1 else if elemWidth (weightFmt code) = 4 then 3 else 2)

/-! ## Block-scaled formats (R147, R163 to R165) -/

/-- Elements of a block of a block-scaled format. -/
def blockLen (f : Nat) : Nat := if isIntFmt f then 64 else 32

/-- The value of a scale: E8M0 for b-formats, bf16 for i4 and i8; an infinite bf16 scale makes its block NaN (R148). -/
def scaleNum (f v : Nat) : Num :=
  if isIntFmt f then (match fmtBf16.decode v with | .inf _ => .nan | x => x) else decodeE8M0 v

/-- The largest magnitude of finite values, as a value. -/
def maxMag (xs : List Num) : Num :=
  xs.foldl (fun m x => match x with
    | .fin _ k e => if m.lt (.fin false k e) then .fin false k e else m
    | _ => m) Num.zero

/-- What a conversion writes and counts: element encodings, scale encodings, saturations, blocks written with scale
0xFF, the first element converted to an integer from NaN or infinity. -/
structure Converted where
  elems  : List Nat
  scales : List Nat
  sats   : Nat
  nonfin : Nat
  bad    : Option Nat
  deriving DecidableEq, Repr

/-- A block into b4, b8e4 or b8e5 (R164). -/
def toBlockB (f mode : Nat) (xs : List Num) (us : List Nat) : Converted :=
  let ff := floatFmt f
  if xs.any (fun x => !x.isFin) then
    { elems := xs.map fun _ => 0, scales := [0xFF], sats := 0, nonfin := 1, bad := none }
  else
    let emax : Int := if f = 1 then 2 else if f = 2 then 8 else 15
    let x := match (maxMag xs).expo with
      | none => (-127 : Int)
      | some e => max (-127) (min 127 (e - emax))
    let rs := xs.mapIdx fun i v => toFloat ff mode (us.getD i 0) (v.mul (.fin false 1 (-x)))
    { elems := rs.map (·.1), scales := [(x + 127).toNat], sats := (rs.filter (·.2)).length, nonfin := 0, bad := none }

/-- A ratio with a sign rounded to an integer and limited to [−lim, lim] or [−lim − 1, lim] (R160, R165). -/
def toIntElem (mode u : Nat) (neg : Bool) (p q lim : Nat) (wide : Bool) : Int × Bool :=
  let a := p / q
  let m := a + (if roundUp mode u (p % q) q (a % 2 == 1) then 1 else 0)
  let cap := if neg && wide then lim + 1 else lim
  let r : Int := (min m cap : Nat)
  (if neg then -r else r, decide (cap * q < p))

/-- A block into i4 or i8 (R165); a scale beyond the largest finite bf16 value is that value (R162). -/
def toBlockI (f mode : Nat) (xs : List Num) (us : List Nat) : Converted :=
  let q := if f = 4 then 7 else 127
  match xs.findIdx? fun x => !x.isFin with
  | some i => { elems := [], scales := [], sats := 0, nonfin := 0, bad := some i }
  | none =>
    let m := (maxMag xs).ratio
    let s := if m.1 = 0 then 0 else min 0x7F7F (roundMag 0 0 m.1 (m.2 * q) fmtBf16)
    if s = 0 then { elems := xs.map fun _ => 0, scales := [0], sats := 0, nonfin := 0, bad := none }
    else
      let sr := (fmtBf16.decode s).ratio
      let rs := xs.mapIdx fun i v =>
        let r := v.ratio
        toIntElem mode (us.getD i 0) v.isNeg (r.1 * sr.2) (r.2 * sr.1) q false
      { elems := rs.map fun r => unsigned (elemWidth f) r.1, scales := [s]
        sats := (rs.filter (·.2)).length, nonfin := 0, bad := none }

/-- Values into i32 (R165). -/
def toI32s (mode : Nat) (xs : List Num) (us : List Nat) : Converted :=
  match xs.findIdx? fun x => !x.isFin with
  | some i => { elems := [], scales := [], sats := 0, nonfin := 0, bad := some i }
  | none =>
    let rs := xs.mapIdx fun i v =>
      let r := v.ratio
      toIntElem mode (us.getD i 0) v.isNeg r.1 r.2 (2 ^ 31 - 1) true
    { elems := rs.map fun r => unsigned 32 r.1, scales := [], sats := (rs.filter (·.2)).length, nonfin := 0, bad := none }

/-- Values into bf16 or f32, without scale (R163, R166). -/
def toFloats (f mode : Nat) (xs : List Num) (us : List Nat) : Converted :=
  let rs := xs.mapIdx fun i v => toFloat (floatFmt f) mode (us.getD i 0) v
  { elems := rs.map (·.1), scales := [], sats := (rs.filter (·.2)).length, nonfin := 0, bad := none }

/-- A list in pieces of `n`, by `k` pieces at most. -/
def pieces {α : Type} (n : Nat) : Nat → List α → List (List α)
  | 0, _ => []
  | k + 1, l => if l.isEmpty then [] else l.take n :: pieces n k (l.drop n)

/-- A conversion of values into a format, block by block, one field an element (R161, R164 to R166). -/
def convertTo (f mode : Nat) (xs : List Num) (us : List Nat) : Converted :=
  if f = 6 || f = 7 then toFloats f mode xs us
  else if f = 8 then toI32s mode xs us
  else
    let n := blockLen f
    let bs := (pieces n xs.length xs).mapIdx fun b ys =>
      (if isIntFmt f then toBlockI f mode ys (us.drop (n * b)) else toBlockB f mode ys (us.drop (n * b)), b)
    { elems := bs.flatMap (·.1.elems), scales := bs.flatMap (·.1.scales)
      sats := (bs.map (·.1.sats)).foldl (· + ·) 0, nonfin := (bs.map (·.1.nonfin)).foldl (· + ·) 0
      bad := (bs.filterMap fun x => x.1.bad.map (· + n * x.2)).head? }

/-! ## Packing (R145) -/

/-- Elements of `w` bits as bytes. -/
def packElems (w : Nat) (es : List Nat) : Bytes :=
  if w = 4 then (pieces 2 es.length es).map fun p => BitVec.ofNat 8 (p.getD 0 0 % 16 + 16 * (p.getD 1 0 % 16))
  else es.flatMap fun e => leBytes (w / 8) e

/-- Element `k` of `w` bits of a byte string. -/
def elemAt (w : Nat) (bs : Bytes) (k : Nat) : Nat :=
  if w = 4 then bits ((bs.getD (k / 2) 0).toNat) (4 * (k % 2)) 4
  else leAt bs (k * (w / 8)) (w / 8)

/-- Bytes as elements of `w` bits. -/
def unpackElems (w : Nat) (bs : Bytes) : List Nat :=
  if w = 4 then bs.flatMap fun b => [b.toNat % 16, b.toNat / 16]
  else (pieces (w / 8) bs.length bs).map leNat

end Sys2Proof.Machine
end

