-- ==== Sys2Proof/Machine/ObjTable.lean ====
section
/-! DEFINITION. The object dictionary (R375 to R377): one row for each entry of the object tables of the manual. -/

namespace Sys2Proof.Machine

/-- A row of an object table: `n` indices from `idx`, `m` subindices from `sub`, type code and access kind as
DESCRIBE gives them (R381), default on grade or stepping A and B, length, whether it is fixed, refused during a job,
withheld in sealed jobs, an enable of the function state machine, and the range the owning chapter states. -/
structure ObjRow where
  idx   : Nat
  n     : Nat
  sub   : Nat
  m     : Nat
  ty    : Nat
  acc   : Nat
  dA    : Nat
  dB    : Nat
  len   : Nat
  fixed : Bool
  job   : Bool
  held  : Bool
  en    : Bool
  lo    : Nat
  hi    : Nat
  deriving DecidableEq, Repr

/-- Rows of the object tables, part 0. -/
def objRows0 : List ObjRow := [
  ⟨0x2100, 1, 1, 1, 9, 1, 0, 0, 8, true, false, false, false, 0, 0xffffffffffffffff⟩,
  ⟨0x2100, 1, 2, 1, 4, 0, 0x19f0a0, 0x16e360, 4, true, false, false, false, 0, 0xffffffff⟩,
  ⟨0x2100, 1, 3, 1, 2, 0, 2, 2, 1, true, false, false, false, 0, 0xff⟩,
  ⟨0x2100, 1, 4, 1, 5, 1, 0, 0, 8, true, false, false, false, 0, 0xffffffffffffffff⟩,
  ⟨0x2100, 1, 5, 1, 3, 1, 0, 0, 2, true, false, false, false, 0, 0xffff⟩,
  ⟨0x2100, 1, 6, 1, 5, 1, 0, 0, 8, true, false, false, false, 0, 0xffffffffffffffff⟩,
  ⟨0x2100, 1, 7, 1, 5, 1, 0, 0, 8, true, false, false, false, 0, 0xffffffffffffffff⟩,
  ⟨0x4300, 1, 1, 1, 2, 1, 0x40, 0x48, 1, true, false, false, false, 0, 0xff⟩,
  ⟨0x4300, 1, 2, 1, 2, 2, 2, 2, 1, true, true, false, false, 0, 0xff⟩,
  ⟨0x4300, 1, 3, 1, 2, 2, 0x40, 0x48, 1, true, false, false, false, 0, 0xff⟩,
  ⟨0x4300, 1, 4, 1, 2, 0, 0x80, 0x80, 1, true, false, false, false, 0, 0xff⟩,
  ⟨0x4300, 1, 5, 1, 2, 1, 0, 0, 1, true, false, false, false, 0, 0xff⟩,
  ⟨0x4300, 1, 6, 1, 3, 2, 1, 1, 2, true, true, false, false, 0, 0xffff⟩,
  ⟨0x4300, 1, 7, 1, 4, 2, 0x30d4, 0x30d4, 4, true, false, false, false, 0, 0xffffffff⟩,
  ⟨0x4300, 1, 8, 1, 5, 1, 0, 0, 8, true, false, false, false, 0, 0xffffffffffffffff⟩,
  ⟨0x4300, 1, 9, 1, 5, 1, 0, 0, 8, true, false, false, false, 0, 0xffffffffffffffff⟩,
  ⟨0x4300, 1, 0xa, 1, 4, 1, 0, 0, 4, true, false, false, false, 0, 0xffffffff⟩,
  ⟨0x4300, 1, 0xb, 1, 5, 1, 0, 0, 8, true, false, false, false, 0, 0xffffffffffffffff⟩,
  ⟨0x4300, 1, 0x10, 1, 5, 1, 0, 0, 8, true, false, false, false, 0, 0xffffffffffffffff⟩,
  ⟨0x4300, 1, 0x11, 1, 4, 1, 0, 0, 4, true, false, false, false, 0, 0xffffffff⟩,
  ⟨0x4300, 1, 0x12, 1, 2, 1, 0, 0, 1, true, false, false, false, 0, 0xff⟩,
  ⟨0x4300, 1, 0x13, 1, 5, 1, 0, 0, 8, true, false, false, false, 0, 0xffffffffffffffff⟩,
  ⟨0x6200, 1, 1, 1, 2, 2, 3, 3, 1, true, true, false, false, 1, 3⟩,
  ⟨0x6200, 1, 2, 1, 5, 1, 0, 0, 8, true, false, false, false, 0, 0xffffffffffffffff⟩,
  ⟨0x6200, 1, 3, 1, 5, 1, 0, 0, 8, true, false, false, false, 0, 0xffffffffffffffff⟩,
  ⟨0x6200, 1, 4, 1, 4, 1, 0, 0, 4, true, false, false, false, 0, 0xffffffff⟩,
  ⟨0x6200, 1, 5, 1, 11, 1, 0, 0, 32, true, false, false, false, 0, 0⟩,
  ⟨0x6200, 1, 6, 1, 4, 2, 0, 0, 4, true, true, false, false, 0, 0xffffffff⟩,
  ⟨0x3100, 1, 1, 1, 4, 0, 0xb4000, 0xb4000, 4, true, false, false, false, 0, 0xffffffff⟩,
  ⟨0x3100, 1, 2, 1, 3, 0, 0x1000, 0x1000, 2, true, false, false, false, 0, 0xffff⟩]

/-- Rows of the object tables, part 1. -/
def objRows1 : List ObjRow := [
  ⟨0x3100, 1, 3, 1, 2, 0, 0x80, 0x80, 1, true, false, false, false, 0, 0xff⟩,
  ⟨0x3100, 1, 4, 1, 5, 1, 0, 0, 8, true, false, false, false, 0, 0xffffffffffffffff⟩,
  ⟨0x3100, 1, 5, 1, 5, 1, 0, 0, 8, true, false, false, false, 0, 0xffffffffffffffff⟩,
  ⟨0x3100, 1, 6, 1, 4, 2, 0x3e8, 0x3e8, 4, true, false, false, false, 0xa, 0xea60⟩,
  ⟨0x3100, 1, 7, 1, 5, 1, 0, 0, 8, true, false, false, false, 0, 0xffffffffffffffff⟩,
  ⟨0x3100, 1, 8, 1, 4, 1, 0, 0, 4, true, false, false, false, 0, 0xffffffff⟩,
  ⟨0x3100, 1, 9, 1, 5, 1, 0, 0, 8, true, false, false, false, 0, 0xffffffffffffffff⟩,
  ⟨0x3100, 1, 0xa, 1, 5, 1, 0, 0, 8, true, false, false, false, 0, 0xffffffffffffffff⟩,
  ⟨0x3100, 1, 0xb, 1, 2, 1, 0, 0, 1, true, false, false, false, 0, 0xff⟩,
  ⟨0x3100, 1, 0xc, 1, 3, 1, 0, 0, 2, true, false, false, false, 0, 0xffff⟩,
  ⟨0x3100, 1, 0xd, 1, 5, 1, 0, 0, 8, true, false, false, false, 0, 0xffffffffffffffff⟩,
  ⟨0x3100, 1, 0xe, 1, 5, 1, 0, 0, 8, true, false, false, false, 0, 0xffffffffffffffff⟩,
  ⟨0x3100, 1, 0xf, 1, 3, 2, 0x1000, 0x1000, 2, true, false, false, false, 0, 0xffff⟩,
  ⟨0x3100, 1, 0x10, 1, 4, 1, 0, 0, 4, true, false, false, false, 0, 0xffffffff⟩,
  ⟨0x3100, 1, 0x11, 1, 5, 1, 0, 0, 8, true, false, false, false, 0, 0xffffffffffffffff⟩,
  ⟨0x3100, 1, 0x12, 1, 2, 4, 3, 3, 1, true, false, false, false, 0, 0xff⟩,
  ⟨0x3100, 1, 0x13, 1, 1, 4, 0, 0, 1, true, false, false, false, 0, 0xff⟩,
  ⟨0x3200, 1, 1, 1, 2, 2, 9, 9, 1, true, true, false, false, 0, 9⟩,
  ⟨0x3200, 1, 2, 1, 5, 1, 0, 0, 8, true, false, false, false, 0, 0xffffffffffffffff⟩,
  ⟨0x3200, 1, 3, 1, 4, 1, 0, 0, 4, true, false, false, false, 0, 0xffffffff⟩,
  ⟨0x3200, 1, 4, 1, 4, 1, 0, 0, 4, true, false, false, false, 0, 0xffffffff⟩,
  ⟨0x3200, 1, 5, 1, 4, 1, 0, 0, 4, true, false, false, false, 0, 0xffffffff⟩,
  ⟨0x3200, 1, 6, 1, 4, 1, 0, 0, 4, true, false, false, false, 0, 0xffffffff⟩,
  ⟨0x3200, 1, 7, 1, 5, 1, 0, 0, 8, true, false, false, false, 0, 0xffffffffffffffff⟩,
  ⟨0x3200, 1, 8, 1, 5, 1, 0, 0, 8, true, false, false, false, 0, 0xffffffffffffffff⟩,
  ⟨0x3200, 1, 9, 1, 5, 1, 0, 0, 8, true, false, false, false, 0, 0xffffffffffffffff⟩,
  ⟨0x3200, 1, 0xa, 1, 6, 1, 0xff81, 0xff81, 2, true, false, false, false, 0, 0xffff⟩,
  ⟨0x3200, 1, 0xb, 1, 5, 1, 0, 0, 8, true, false, false, false, 0, 0xffffffffffffffff⟩,
  ⟨0x3200, 1, 0xc, 1, 5, 1, 0, 0, 8, true, false, false, false, 0, 0xffffffffffffffff⟩,
  ⟨0x3200, 1, 0xd, 1, 5, 1, 0, 0, 8, true, false, false, false, 0, 0xffffffffffffffff⟩]

/-- Rows of the object tables, part 2. -/
def objRows2 : List ObjRow := [
  ⟨0x3200, 1, 0xe, 1, 4, 1, 0, 0, 4, true, false, false, false, 0, 0xffffffff⟩,
  ⟨0x3200, 1, 0x10, 1, 5, 1, 0, 0, 8, true, false, false, false, 0, 0xffffffffffffffff⟩,
  ⟨0x3200, 1, 0x11, 1, 4, 1, 0, 0, 4, true, false, false, false, 0, 0xffffffff⟩,
  ⟨0x3200, 1, 0x12, 1, 5, 1, 0, 0, 8, true, false, false, false, 0, 0xffffffffffffffff⟩,
  ⟨0x3200, 1, 0x13, 1, 5, 1, 0, 0, 8, true, false, false, false, 0, 0xffffffffffffffff⟩,
  ⟨0x3200, 1, 0x14, 1, 2, 0, 1, 1, 1, true, false, false, false, 0, 0xff⟩,
  ⟨0x3300, 1, 1, 1, 2, 0, 1, 1, 1, true, false, false, false, 0, 0xff⟩,
  ⟨0x3300, 1, 2, 1, 5, 1, 0, 0, 8, true, false, false, false, 0, 0xffffffffffffffff⟩,
  ⟨0x3300, 1, 3, 1, 5, 1, 0, 0, 8, true, false, false, false, 0, 0xffffffffffffffff⟩,
  ⟨0x3300, 1, 4, 1, 5, 1, 0, 0, 8, true, false, false, false, 0, 0xffffffffffffffff⟩,
  ⟨0x3300, 1, 5, 1, 5, 1, 0, 0, 8, true, false, false, false, 0, 0xffffffffffffffff⟩,
  ⟨0x3300, 1, 6, 1, 4, 1, 0, 0, 4, true, false, false, false, 0, 0xffffffff⟩,
  ⟨0x4000, 1, 1, 1, 2, 0, 4, 4, 1, true, false, false, false, 0, 0xff⟩,
  ⟨0x4000, 1, 2, 1, 2, 2, 2, 2, 1, true, true, false, false, 1, 7⟩,
  ⟨0x4000, 1, 3, 1, 3, 2, 0x20, 0x20, 2, true, true, false, false, 8, 0x80⟩,
  ⟨0x4000, 1, 4, 1, 3, 2, 0x30, 0x30, 2, true, true, false, false, 0, 0x100⟩,
  ⟨0x4000, 1, 5, 1, 3, 2, 0x100, 0x100, 2, true, true, false, false, 0, 0x400⟩,
  ⟨0x4000, 1, 6, 1, 3, 2, 0x10, 0x10, 2, true, true, false, false, 0, 0x80⟩,
  ⟨0x4000, 1, 7, 1, 3, 2, 8, 8, 2, true, true, false, false, 0, 0x40⟩,
  ⟨0x4000, 1, 8, 1, 2, 2, 4, 4, 1, true, true, false, false, 1, 0x10⟩,
  ⟨0x4000, 1, 9, 1, 2, 2, 8, 8, 1, true, true, false, false, 1, 0x40⟩,
  ⟨0x4000, 1, 0x10, 1, 5, 1, 0, 0, 8, true, false, false, false, 0, 0xffffffffffffffff⟩,
  ⟨0x4000, 1, 0x11, 1, 5, 1, 0, 0, 8, true, false, false, false, 0, 0xffffffffffffffff⟩,
  ⟨0x4000, 1, 0x12, 1, 5, 1, 0, 0, 8, true, false, false, false, 0, 0xffffffffffffffff⟩,
  ⟨0x4000, 1, 0x13, 1, 4, 1, 0, 0, 4, true, false, false, false, 0, 0xffffffff⟩,
  ⟨0x4000, 1, 0x14, 1, 1, 1, 0, 0, 1, true, false, false, false, 0, 0xff⟩,
  ⟨0x4000, 1, 0x15, 1, 5, 1, 0, 0, 8, true, false, false, false, 0, 0xffffffffffffffff⟩,
  ⟨0x4000, 1, 0x16, 1, 2, 1, 0, 0, 1, true, false, false, false, 0, 0xff⟩,
  ⟨0x4100, 36, 1, 1, 2, 1, 0, 0, 1, true, false, false, false, 0, 0xff⟩,
  ⟨0x4100, 36, 2, 1, 2, 0, 0, 0, 1, true, false, false, false, 0, 0xff⟩]

/-- Rows of the object tables, part 3. -/
def objRows3 : List ObjRow := [
  ⟨0x4100, 36, 3, 1, 2, 1, 0, 0, 1, true, false, false, false, 0, 0xff⟩,
  ⟨0x4100, 36, 4, 1, 2, 1, 0, 0, 1, true, false, false, false, 0, 0xff⟩,
  ⟨0x4100, 36, 5, 1, 4, 1, 0, 0, 4, true, false, false, false, 0, 0xffffffff⟩,
  ⟨0x4100, 36, 6, 1, 3, 1, 0, 0, 2, true, false, false, false, 0, 0xffff⟩,
  ⟨0x4100, 36, 7, 1, 2, 1, 0, 0, 1, true, false, false, false, 0, 0xff⟩,
  ⟨0x4100, 36, 8, 1, 8, 1, 0, 0, 4, true, false, false, false, 0, 0xffffffff⟩,
  ⟨0x4100, 36, 9, 1, 5, 1, 0, 0, 8, true, false, false, false, 0, 0xffffffffffffffff⟩,
  ⟨0x4100, 36, 0xa, 1, 5, 1, 0, 0, 8, true, false, false, false, 0, 0xffffffffffffffff⟩,
  ⟨0x4100, 36, 0xb, 1, 5, 1, 0, 0, 8, true, false, false, false, 0, 0xffffffffffffffff⟩,
  ⟨0x4100, 36, 0xc, 1, 4, 1, 0, 0, 4, true, false, false, false, 0, 0xffffffff⟩,
  ⟨0x4100, 36, 0xd, 1, 4, 1, 0xffffffff, 0xffffffff, 4, true, false, false, false, 0, 0xffffffff⟩,
  ⟨0x4100, 36, 0xe, 1, 1, 4, 1, 1, 1, true, false, false, true, 0, 0xff⟩,
  ⟨0x4100, 36, 0xf, 1, 2, 2, 8, 8, 1, true, true, false, false, 1, 0x20⟩,
  ⟨0x4100, 36, 0x10, 1, 5, 1, 0, 0, 8, true, false, false, false, 0, 0xffffffffffffffff⟩,
  ⟨0x4100, 36, 0x11, 1, 5, 1, 0, 0, 8, true, false, false, false, 0, 0xffffffffffffffff⟩,
  ⟨0x4100, 36, 0x12, 1, 5, 1, 0, 0, 8, true, false, false, false, 0, 0xffffffffffffffff⟩,
  ⟨0x4100, 36, 0x13, 1, 4, 1, 0, 0, 4, true, false, false, false, 0, 0xffffffff⟩,
  ⟨0x4200, 1, 1, 1, 3, 2, 0xffff, 0xffff, 2, true, true, false, false, 0, 0xffff⟩,
  ⟨0x4200, 1, 2, 1, 3, 2, 0x333, 0x333, 2, true, true, false, false, 0, 0xffff⟩,
  ⟨0x4200, 1, 3, 6, 2, 2, 0xff, 0xff, 1, true, true, false, false, 0, 0xff⟩,
  ⟨0x4200, 1, 9, 1, 1, 4, 0, 0, 1, true, true, false, false, 0, 0xff⟩,
  ⟨0x4200, 1, 0xa, 1, 2, 1, 0, 0, 1, true, false, false, false, 0, 0xff⟩,
  ⟨0x4200, 1, 0xb, 1, 2, 1, 0xff, 0xff, 1, true, false, false, false, 0, 0xff⟩,
  ⟨0x4200, 1, 0xc, 1, 3, 2, 0xffff, 0xffff, 2, true, true, false, false, 0, 0xffff⟩,
  ⟨0x4200, 1, 0xd, 1, 3, 2, 0, 0, 2, true, true, false, false, 0, 0xffff⟩,
  ⟨0x4200, 1, 0xe, 1, 3, 2, 0, 0, 2, true, true, false, false, 0, 0xffff⟩,
  ⟨0x4200, 1, 0xf, 1, 2, 2, 0, 0, 1, true, true, false, false, 0, 0xff⟩,
  ⟨0x4200, 1, 0x10, 3, 3, 2, 0, 0, 2, true, true, false, false, 0, 0xffff⟩,
  ⟨0x4200, 1, 0x13, 1, 9, 2, 0, 0, 8, true, true, false, false, 0, 0xffffffffffffffff⟩,
  ⟨0x4200, 1, 0x14, 1, 2, 1, 0, 0, 1, true, false, false, false, 0, 0xff⟩]

/-- Rows of the object tables, part 4. -/
def objRows4 : List ObjRow := [
  ⟨0x4200, 1, 0x15, 1, 6, 1, 0, 0, 2, true, false, false, false, 0, 0xffff⟩,
  ⟨0x4200, 1, 0x16, 1, 3, 1, 0x77, 0x87, 2, true, false, false, false, 0, 0xffff⟩,
  ⟨0x4200, 1, 0x17, 1, 3, 1, 0xe1, 0xff, 2, true, false, false, false, 0, 0xffff⟩,
  ⟨0x4200, 1, 0x18, 1, 3, 1, 0xad, 0xc4, 2, true, false, false, false, 0, 0xffff⟩,
  ⟨0x4200, 1, 0x19, 1, 5, 1, 0, 0, 8, true, false, false, false, 0, 0xffffffffffffffff⟩,
  ⟨0x4200, 1, 0x1a, 1, 4, 1, 0, 0, 4, true, false, false, false, 0, 0xffffffff⟩,
  ⟨0x5000, 1, 1, 1, 2, 0, 0x10, 0x10, 1, true, false, false, false, 0, 0xff⟩,
  ⟨0x5000, 1, 2, 1, 2, 2, 8, 8, 1, true, true, false, false, 3, 0xff⟩,
  ⟨0x5000, 1, 3, 1, 3, 2, 0x200, 0x200, 2, true, true, false, false, 1, 0x1000⟩,
  ⟨0x5000, 1, 4, 1, 2, 0, 0x10, 0x10, 1, true, false, false, false, 0, 0xff⟩,
  ⟨0x5000, 1, 5, 1, 4, 1, 1, 1, 4, true, false, false, false, 0, 0xffffffff⟩,
  ⟨0x5000, 1, 6, 1, 2, 1, 0, 0, 1, true, false, false, false, 0, 0xff⟩,
  ⟨0x5000, 1, 7, 1, 2, 1, 0, 0, 1, true, false, false, false, 0, 0xff⟩,
  ⟨0x5000, 1, 8, 1, 4, 1, 0, 0, 4, true, false, false, false, 0, 0xffffffff⟩,
  ⟨0x5000, 1, 9, 1, 4, 2, 0, 0, 4, true, false, false, false, 0, 0xffffffff⟩,
  ⟨0x5000, 1, 0xa, 1, 4, 0, 0x10000, 0x10000, 4, true, false, false, false, 0, 0xffffffff⟩,
  ⟨0x5000, 1, 0xb, 1, 5, 1, 0, 0, 8, true, false, false, false, 0, 0xffffffffffffffff⟩,
  ⟨0x5000, 1, 0xc, 1, 5, 1, 0, 0, 8, true, false, false, false, 0, 0xffffffffffffffff⟩,
  ⟨0x5000, 1, 0xd, 1, 4, 1, 0, 0, 4, true, false, false, false, 0, 0xffffffff⟩,
  ⟨0x5000, 1, 0xe, 1, 3, 1, 0, 0, 2, true, false, false, false, 0, 0xffff⟩,
  ⟨0x5000, 1, 0xf, 1, 4, 1, 0, 0, 4, true, false, false, false, 0, 0xffffffff⟩,
  ⟨0x5000, 1, 0x10, 16, 5, 1, 0, 0, 8, true, false, true, false, 0, 0xffffffffffffffff⟩,
  ⟨0x5100, 1, 1, 1, 4, 2, 0, 0, 4, true, true, false, false, 0, 0xffffffff⟩,
  ⟨0x5100, 1, 2, 1, 4, 2, 0, 0, 4, true, true, false, false, 0, 0xffffffff⟩,
  ⟨0x5100, 1, 3, 1, 4, 2, 0, 0, 4, true, true, false, false, 0, 0xffffffff⟩,
  ⟨0x5100, 1, 4, 1, 4, 2, 0, 0, 4, true, true, false, false, 0, 0xffffffff⟩,
  ⟨0x5100, 1, 5, 1, 3, 1, 0, 0, 2, true, false, false, false, 0, 0xffff⟩,
  ⟨0x5100, 1, 6, 1, 4, 2, 0, 0, 4, true, false, false, false, 0, 0xffffffff⟩,
  ⟨0x5100, 1, 7, 1, 4, 1, 0, 0, 4, true, false, false, false, 0, 0xffffffff⟩,
  ⟨0x5100, 1, 8, 1, 4, 1, 0, 0, 4, true, false, false, false, 0, 0xffffffff⟩]

/-- Rows of the object tables, part 5. -/
def objRows5 : List ObjRow := [
  ⟨0x5100, 1, 9, 1, 4, 1, 0, 0, 4, true, false, false, false, 0, 0xffffffff⟩,
  ⟨0x5100, 1, 0xa, 1, 5, 1, 0, 0, 8, true, false, false, false, 0, 0xffffffffffffffff⟩,
  ⟨0x5100, 1, 0xb, 1, 5, 1, 0, 0, 8, true, false, false, false, 0, 0xffffffffffffffff⟩,
  ⟨0x5100, 1, 0xc, 1, 4, 1, 0, 0, 4, true, false, false, false, 0, 0xffffffff⟩,
  ⟨0x5100, 1, 0xd, 1, 5, 1, 0, 0, 8, true, false, true, false, 0, 0xffffffffffffffff⟩,
  ⟨0x5100, 1, 0xe, 1, 5, 1, 0, 0, 8, true, false, true, false, 0, 0xffffffffffffffff⟩,
  ⟨0x5100, 1, 0xf, 1, 5, 1, 0, 0, 8, true, false, true, false, 0, 0xffffffffffffffff⟩,
  ⟨0x5100, 1, 0x10, 1, 3, 0, 0x400, 0x400, 2, true, false, false, false, 0, 0xffff⟩,
  ⟨0x5100, 1, 0x11, 1, 2, 1, 0, 0, 1, true, false, false, false, 0, 0xff⟩,
  ⟨0x5200, 1, 1, 1, 2, 0, 0x10, 0x10, 1, true, false, false, false, 0, 0xff⟩,
  ⟨0x5200, 1, 2, 1, 2, 1, 0, 0, 1, true, false, false, false, 0, 0xff⟩,
  ⟨0x5200, 1, 3, 1, 5, 1, 0, 0, 8, true, false, false, false, 0, 0xffffffffffffffff⟩,
  ⟨0x5200, 1, 4, 1, 5, 1, 0, 0, 8, true, false, false, false, 0, 0xffffffffffffffff⟩,
  ⟨0x5200, 1, 5, 1, 5, 1, 0, 0, 8, true, false, false, false, 0, 0xffffffffffffffff⟩,
  ⟨0x5200, 1, 6, 1, 4, 1, 0, 0, 4, true, false, false, false, 0, 0xffffffff⟩,
  ⟨0x5200, 1, 7, 1, 3, 0, 0x40, 0x40, 2, true, false, false, false, 0, 0xffff⟩,
  ⟨0x5200, 1, 8, 8, 4, 2, 0xffff0000, 0xffff0000, 4, true, false, false, false, 0, 0xffffffff⟩,
  ⟨0x5200, 1, 0x10, 16, 11, 2, 0, 0, 128, true, false, false, false, 0, 0⟩,
  ⟨0x5200, 1, 0x20, 16, 5, 1, 0, 0, 8, true, false, false, false, 0, 0xffffffffffffffff⟩,
  ⟨0x5200, 1, 0x30, 16, 11, 1, 0, 0, 40, true, false, false, false, 0, 0⟩,
  ⟨0x6000, 1, 1, 1, 2, 1, 0, 0, 1, true, false, false, false, 0, 0xff⟩,
  ⟨0x6000, 1, 2, 1, 3, 1, 0, 0, 2, true, false, false, false, 0, 0xffff⟩,
  ⟨0x6000, 1, 3, 1, 9, 1, 0, 0, 8, true, false, false, false, 0, 0xffffffffffffffff⟩,
  ⟨0x6000, 1, 4, 1, 5, 1, 0, 0, 8, true, false, false, false, 0, 0xffffffffffffffff⟩,
  ⟨0x6000, 1, 5, 1, 4, 1, 0xffffffff, 0xffffffff, 4, true, false, false, false, 0, 0xffffffff⟩,
  ⟨0x6000, 1, 6, 1, 4, 1, 0, 0, 4, true, false, false, false, 0, 0xffffffff⟩,
  ⟨0x6000, 1, 7, 1, 4, 1, 0, 0, 4, true, false, false, false, 0, 0xffffffff⟩,
  ⟨0x6000, 1, 8, 1, 1, 3, 0, 0, 1, true, false, false, false, 0, 0xff⟩,
  ⟨0x6000, 1, 9, 1, 4, 4, 0, 0, 4, true, false, false, false, 0, 0xffffffff⟩,
  ⟨0x6000, 1, 0x10, 1, 1, 1, 0, 0, 1, true, false, false, false, 0, 0xff⟩]

/-- Rows of the object tables, part 6. -/
def objRows6 : List ObjRow := [
  ⟨0x6000, 1, 0x11, 1, 3, 1, 0, 0, 2, true, false, false, false, 0, 0xffff⟩,
  ⟨0x6000, 1, 0x12, 1, 2, 1, 0, 0, 1, true, false, false, false, 0, 0xff⟩,
  ⟨0x6000, 1, 0x13, 1, 4, 1, 0, 0, 4, true, false, false, false, 0, 0xffffffff⟩,
  ⟨0x6000, 1, 0x14, 1, 4, 1, 0, 0, 4, true, false, false, false, 0, 0xffffffff⟩,
  ⟨0x6000, 1, 0x15, 1, 3, 1, 0, 0, 2, true, false, false, false, 0, 0xffff⟩,
  ⟨0x6000, 1, 0x16, 1, 3, 4, 0x2d0, 0x2d0, 2, true, false, false, false, 1, 0x2238⟩,
  ⟨0x6000, 1, 0x17, 1, 1, 4, 1, 1, 1, true, false, false, true, 0, 0xff⟩,
  ⟨0x6000, 1, 0x18, 1, 4, 0, 0xe10, 0xe10, 4, true, false, false, false, 0, 0xffffffff⟩,
  ⟨0x6000, 1, 0x19, 1, 4, 4, 0, 0, 4, true, false, false, false, 0, 0xffffffff⟩,
  ⟨0x6000, 1, 0x1a, 1, 1, 1, 0, 0, 1, true, false, false, false, 0, 0xff⟩,
  ⟨0x6001, 1, 1, 64, 11, 1, 0, 0, 32, true, false, false, false, 0, 0⟩,
  ⟨0x6002, 1, 1, 9, 11, 1, 0, 0, 32, true, false, false, false, 0, 0⟩,
  ⟨0x6100, 1, 1, 1, 11, 0, 0, 0, 32, true, false, false, false, 0, 0⟩,
  ⟨0x6100, 1, 2, 1, 11, 0, 0, 0, 1952, true, false, false, false, 0, 0⟩,
  ⟨0x6100, 1, 3, 1, 11, 0, 0, 0, 16, true, false, false, false, 0, 0⟩,
  ⟨0x6100, 1, 4, 1, 11, 1, 0, 0, 65535, false, false, false, false, 0, 0⟩,
  ⟨0x6100, 1, 5, 1, 11, 1, 0, 0, 65535, false, false, false, false, 0, 0⟩,
  ⟨0x6100, 1, 6, 1, 2, 1, 0, 0, 1, true, false, false, false, 0, 0xff⟩,
  ⟨0x6100, 1, 7, 1, 4, 1, 0, 0, 4, true, false, false, false, 0, 0xffffffff⟩,
  ⟨0x6100, 1, 8, 1, 2, 1, 0, 0, 1, true, false, false, false, 0, 0xff⟩,
  ⟨0x6100, 1, 9, 8, 11, 1, 0, 0, 48, true, false, false, false, 0, 0⟩,
  ⟨0x6100, 1, 0x11, 1, 2, 1, 0, 0, 1, true, false, false, false, 0, 0xff⟩,
  ⟨0x6100, 1, 0x12, 1, 2, 1, 0, 0, 1, true, false, false, false, 0, 0xff⟩,
  ⟨0x6100, 1, 0x13, 1, 4, 1, 0, 0, 4, true, false, false, false, 0, 0xffffffff⟩,
  ⟨0x6100, 1, 0x14, 1, 2, 2, 0, 0, 1, true, false, false, false, 0, 0xff⟩,
  ⟨0x6100, 1, 0x15, 1, 4, 1, 0, 0, 4, true, false, false, false, 0, 0xffffffff⟩,
  ⟨0x6100, 1, 0x16, 1, 5, 1, 0, 0, 8, true, false, false, false, 0, 0xffffffffffffffff⟩,
  ⟨0x6100, 1, 0x17, 1, 4, 1, 0, 0, 4, true, false, false, false, 0, 0xffffffff⟩,
  ⟨0x1000, 1, 1, 1, 10, 0, 0, 0, 9, false, false, false, false, 0, 0⟩,
  ⟨0x1000, 1, 2, 1, 10, 0, 0, 0, 10, false, false, false, false, 0, 0⟩]

/-- Rows of the object tables, part 7. -/
def objRows7 : List ObjRow := [
  ⟨0x1000, 1, 3, 1, 10, 0, 0, 0, 10, false, false, false, false, 0, 0⟩,
  ⟨0x1000, 1, 4, 1, 2, 0, 0xa, 0xb, 1, true, false, false, false, 0, 0xff⟩,
  ⟨0x1000, 1, 5, 1, 2, 0, 0, 1, 1, true, false, false, false, 0, 0xff⟩,
  ⟨0x1000, 1, 6, 1, 10, 0, 0, 0, 12, false, false, false, false, 0, 0⟩,
  ⟨0x1000, 1, 7, 1, 2, 0, 0, 0, 1, true, false, false, false, 0, 0xff⟩,
  ⟨0x1000, 1, 8, 1, 4, 0, 0, 0, 4, true, false, false, false, 0, 0xffffffff⟩,
  ⟨0x1000, 1, 9, 1, 4, 1, 0, 0, 4, true, false, false, false, 0, 0xffffffff⟩,
  ⟨0x1000, 1, 0xa, 1, 3, 0, 1, 1, 2, true, false, false, false, 0, 0xffff⟩,
  ⟨0x1000, 1, 0xb, 1, 10, 4, 0, 0, 32, false, false, false, false, 0, 0⟩,
  ⟨0x1001, 1, 1, 1, 2, 0, 0, 1, 1, true, false, false, false, 0, 0xff⟩,
  ⟨0x1001, 1, 2, 1, 2, 0, 1, 3, 1, true, false, false, false, 0, 0xff⟩,
  ⟨0x1001, 1, 3, 1, 2, 0, 2, 2, 1, true, false, false, false, 0, 0xff⟩,
  ⟨0x1001, 1, 4, 1, 2, 1, 0xff, 0xff, 1, true, false, false, false, 0, 0xff⟩,
  ⟨0x1001, 1, 5, 1, 2, 1, 0xff, 0xff, 1, true, false, false, false, 0, 0xff⟩,
  ⟨0x1001, 1, 6, 1, 2, 0, 0x40, 0x48, 1, true, false, false, false, 0, 0xff⟩,
  ⟨0x1001, 1, 7, 1, 3, 0, 0x960, 0x7d0, 2, true, false, false, false, 0, 0xffff⟩,
  ⟨0x1002, 1, 1, 1, 5, 1, 0, 0, 8, true, false, false, false, 0, 0xffffffffffffffff⟩,
  ⟨0x1002, 1, 2, 1, 5, 1, 0, 0, 8, true, false, false, false, 0, 0xffffffffffffffff⟩,
  ⟨0x1002, 1, 3, 1, 4, 1, 0, 0, 4, true, false, false, false, 0, 0xffffffff⟩,
  ⟨0x1002, 1, 4, 1, 4, 1, 0, 0, 4, true, false, false, false, 0, 0xffffffff⟩,
  ⟨0x1002, 1, 5, 1, 1, 2, 0, 0, 1, true, true, false, false, 0, 0xff⟩,
  ⟨0x9000, 1, 1, 1, 2, 1, 0, 0, 1, true, false, false, false, 0, 0xff⟩,
  ⟨0x9000, 1, 2, 1, 4, 4, 0x7a120, 0x7a120, 4, true, false, false, false, 0, 0xffffffff⟩,
  ⟨0x9000, 1, 3, 1, 4, 4, 0x1e8480, 0x1e8480, 4, true, false, false, false, 0, 0xffffffff⟩,
  ⟨0x9000, 1, 4, 1, 1, 4, 0, 0, 1, true, false, false, false, 0, 0xff⟩,
  ⟨0x9000, 1, 5, 1, 2, 4, 1, 1, 1, true, false, false, false, 0, 1⟩,
  ⟨0x9000, 1, 6, 1, 3, 2, 0x3e8, 0x3e8, 2, true, false, false, false, 0, 0xea60⟩,
  ⟨0x9000, 1, 7, 1, 2, 1, 0, 0, 1, true, false, false, false, 0, 0xff⟩,
  ⟨0x9000, 1, 8, 1, 4, 1, 0, 0, 4, true, false, false, false, 0, 0xffffffff⟩,
  ⟨0x9000, 1, 9, 1, 5, 1, 0, 0, 8, true, false, false, false, 0, 0xffffffffffffffff⟩]

/-- Rows of the object tables, part 8. -/
def objRows8 : List ObjRow := [
  ⟨0x9000, 1, 0xa, 1, 4, 1, 0, 0, 4, true, false, false, false, 0, 0xffffffff⟩,
  ⟨0x9000, 1, 0xb, 1, 4, 1, 0, 0, 4, true, false, false, false, 0, 0xffffffff⟩,
  ⟨0x9001, 1, 1, 1, 1, 4, 1, 1, 1, true, false, false, true, 0, 0xff⟩,
  ⟨0x9001, 1, 2, 1, 2, 4, 0, 0, 1, true, false, false, false, 0, 1⟩,
  ⟨0x9001, 1, 3, 1, 4, 4, 0, 0, 4, true, false, false, false, 0, 0xffffffff⟩,
  ⟨0x9001, 1, 4, 1, 11, 4, 0, 0, 16, true, false, false, false, 0, 0⟩,
  ⟨0x9001, 1, 5, 1, 3, 4, 0xbacc, 0xbacc, 2, true, false, false, false, 0x400, 0xffff⟩,
  ⟨0x9001, 1, 6, 1, 2, 1, 0, 0, 1, true, false, false, false, 0, 0xff⟩,
  ⟨0x9001, 1, 7, 1, 11, 0, 0, 0, 6, true, false, false, false, 0, 0⟩,
  ⟨0x9001, 1, 8, 1, 11, 3, 0, 0, 32, true, false, false, false, 0, 0⟩,
  ⟨0x9001, 1, 9, 1, 1, 1, 0, 0, 1, true, false, false, false, 0, 0xff⟩,
  ⟨0x9001, 1, 0xa, 1, 5, 1, 0, 0, 8, true, false, false, false, 0, 0xffffffffffffffff⟩,
  ⟨0x9001, 1, 0xb, 1, 5, 1, 0, 0, 8, true, false, false, false, 0, 0xffffffffffffffff⟩,
  ⟨0x9002, 1, 1, 36, 2, 1, 0, 0, 1, true, false, false, false, 0, 0xff⟩,
  ⟨0x9002, 1, 0x25, 1, 2, 1, 0, 0, 1, true, false, false, false, 0, 0xff⟩,
  ⟨0x9002, 1, 0x26, 1, 2, 1, 0, 0, 1, true, false, false, false, 0, 0xff⟩,
  ⟨0x8000, 1, 1, 1, 3, 0, 0, 0, 2, true, false, false, false, 0, 0xffff⟩,
  ⟨0x8000, 1, 2, 1, 2, 1, 0, 0, 1, true, false, false, false, 0, 0xff⟩,
  ⟨0x8000, 1, 3, 1, 2, 1, 0, 0, 1, true, false, false, false, 0, 0xff⟩,
  ⟨0x8000, 1, 4, 1, 1, 1, 0, 0, 1, true, false, false, false, 0, 0xff⟩,
  ⟨0x8000, 1, 5, 1, 3, 1, 0x80, 0x80, 2, true, false, false, false, 0, 0xffff⟩,
  ⟨0x8000, 1, 6, 1, 5, 1, 0, 0, 8, true, false, false, false, 0, 0xffffffffffffffff⟩,
  ⟨0x8000, 1, 7, 1, 4, 1, 0, 0, 4, true, false, false, false, 0, 0xffffffff⟩,
  ⟨0x8000, 1, 8, 1, 4, 1, 0, 0, 4, true, false, false, false, 0, 0xffffffff⟩,
  ⟨0x8000, 1, 9, 1, 2, 1, 0, 0, 1, true, false, false, false, 0, 0xff⟩,
  ⟨0x8000, 1, 0xa, 1, 5, 1, 0, 0, 8, true, false, false, false, 0, 0xffffffffffffffff⟩,
  ⟨0x8000, 1, 0xb, 1, 5, 1, 0, 0, 8, true, false, false, false, 0, 0xffffffffffffffff⟩,
  ⟨0x8000, 1, 0xc, 1, 2, 1, 0, 0, 1, true, false, false, false, 0, 0xff⟩,
  ⟨0x8000, 1, 0xd, 1, 4, 1, 0, 0, 4, true, false, false, false, 0, 0xffffffff⟩,
  ⟨0x8100, 2, 1, 1, 2, 1, 0, 0, 1, true, false, false, false, 0, 0xff⟩]

/-- Rows of the object tables, part 9. -/
def objRows9 : List ObjRow := [
  ⟨0x8100, 2, 2, 1, 11, 0, 0, 0, 6, true, false, false, false, 0, 0⟩,
  ⟨0x8100, 2, 3, 1, 4, 4, 0, 0, 4, true, true, false, false, 0, 0xffffffff⟩,
  ⟨0x8100, 2, 4, 1, 11, 4, 0, 0, 16, true, true, false, false, 0, 0⟩,
  ⟨0x8100, 2, 5, 1, 3, 4, 0xbad6, 0xbad6, 2, true, true, false, false, 0x400, 0xffff⟩,
  ⟨0x8100, 2, 6, 1, 11, 4, 0, 0, 17, true, true, false, false, 0, 0⟩,
  ⟨0x8100, 2, 7, 1, 11, 2, 0, 0, 32, true, true, false, false, 0, 0⟩,
  ⟨0x8100, 2, 8, 1, 5, 1, 0, 0, 8, true, false, false, false, 0, 0xffffffffffffffff⟩,
  ⟨0x8100, 2, 9, 1, 5, 1, 0, 0, 8, true, false, false, false, 0, 0xffffffffffffffff⟩,
  ⟨0x8100, 2, 0xa, 1, 5, 1, 0, 0, 8, true, false, false, false, 0, 0xffffffffffffffff⟩,
  ⟨0x8100, 2, 0xb, 1, 5, 1, 0, 0, 8, true, false, false, false, 0, 0xffffffffffffffff⟩,
  ⟨0x8100, 2, 0xc, 1, 5, 1, 0, 0, 8, true, false, false, false, 0, 0xffffffffffffffff⟩,
  ⟨0x8100, 2, 0xd, 1, 5, 1, 0, 0, 8, true, false, false, false, 0, 0xffffffffffffffff⟩,
  ⟨0x8102, 1, 1, 8, 11, 2, 0, 0, 48, true, true, false, false, 0, 0⟩,
  ⟨0x8102, 1, 9, 1, 4, 2, 0x64, 0x64, 4, true, true, false, false, 0xa, 0x186a0⟩,
  ⟨0x8102, 1, 0x11, 8, 4, 1, 0, 0, 4, true, false, false, false, 0, 0xffffffff⟩,
  ⟨0x8102, 1, 0x19, 8, 5, 1, 0, 0, 8, true, false, false, false, 0, 0xffffffffffffffff⟩,
  ⟨0x7000, 1, 1, 1, 2, 2, 0, 0, 1, true, false, false, false, 0, 0xff⟩,
  ⟨0x7000, 1, 2, 1, 11, 2, 0, 0, 6432, true, true, false, false, 0, 0⟩,
  ⟨0x7000, 1, 3, 1, 5, 2, 0, 0, 8, true, false, false, false, 0, 0xffffffffffffffff⟩,
  ⟨0x7000, 1, 4, 1, 2, 1, 0, 0, 1, true, false, false, false, 0, 0xff⟩,
  ⟨0x7000, 1, 5, 1, 5, 1, 0, 0, 8, true, false, false, false, 0, 0xffffffffffffffff⟩,
  ⟨0x7000, 1, 6, 1, 9, 1, 0, 0, 8, true, false, false, false, 0, 0xffffffffffffffff⟩,
  ⟨0x7000, 1, 8, 1, 3, 2, 0, 0, 2, true, false, false, false, 0, 0xffff⟩,
  ⟨0x7000, 1, 9, 1, 5, 1, 0, 0, 8, true, false, false, false, 0, 0xffffffffffffffff⟩,
  ⟨0x7000, 1, 0xa, 1, 5, 1, 0, 0, 8, true, false, false, false, 0, 0xffffffffffffffff⟩,
  ⟨0x7000, 1, 0xb, 1, 4, 1, 0, 0, 4, true, false, false, false, 0, 0xffffffff⟩,
  ⟨0x7000, 1, 0xc, 1, 5, 1, 0, 0, 8, true, false, false, false, 0, 0xffffffffffffffff⟩,
  ⟨0x7000, 1, 0x10, 8, 11, 2, 0, 0, 16, true, false, false, false, 0, 0⟩,
  ⟨0x7100, 1, 1, 1, 1, 2, 0, 0, 1, true, false, false, false, 0, 0xff⟩,
  ⟨0x7100, 1, 2, 4, 4, 1, 0, 0, 4, true, false, false, false, 0, 0xffffffff⟩]

/-- Rows of the object tables, part 10. -/
def objRows10 : List ObjRow := [
  ⟨0x7100, 1, 6, 4, 4, 2, 0, 0, 4, true, false, false, false, 0, 0xffffffff⟩,
  ⟨0x7100, 1, 0xa, 1, 3, 2, 0x800, 0x800, 2, true, false, false, false, 1, 0x1000⟩,
  ⟨0x7100, 1, 0xb, 1, 5, 1, 0, 0, 8, true, false, false, false, 0, 0xffffffffffffffff⟩,
  ⟨0x7100, 1, 0xc, 1, 5, 1, 0, 0, 8, true, false, false, false, 0, 0xffffffffffffffff⟩,
  ⟨0x2000, 1, 1, 1, 4, 1, 0, 0, 4, true, false, false, false, 0, 0xffffffff⟩,
  ⟨0x2000, 1, 2, 1, 4, 1, 0, 0, 4, true, false, false, false, 0, 0xffffffff⟩,
  ⟨0x2000, 1, 3, 1, 3, 2, 0x960, 0x7d0, 2, true, false, false, false, 0, 0xffff⟩,
  ⟨0x2000, 1, 4, 1, 3, 2, 0x32, 0x32, 2, true, false, false, false, 0xa, 0xc8⟩,
  ⟨0x2000, 1, 5, 1, 3, 2, 0xa, 0xa, 2, true, true, false, false, 0xa, 0x3e8⟩,
  ⟨0x2000, 1, 6, 1, 2, 2, 0x64, 0x64, 1, true, false, false, false, 0x50, 0x68⟩,
  ⟨0x2000, 1, 7, 1, 6, 1, 0, 0, 2, true, false, false, false, 0, 0xffff⟩,
  ⟨0x2000, 1, 8, 1, 6, 1, 0, 0, 2, true, false, false, false, 0, 0xffff⟩,
  ⟨0x2000, 1, 9, 1, 3, 1, 0, 0, 2, true, false, false, false, 0, 0xffff⟩,
  ⟨0x2000, 1, 0xa, 1, 2, 1, 0, 0, 1, true, false, false, false, 0, 0xff⟩,
  ⟨0x2000, 1, 0xb, 1, 5, 1, 0, 0, 8, true, false, false, false, 0, 0xffffffffffffffff⟩,
  ⟨0x2000, 1, 0xc, 1, 4, 1, 0, 0, 4, true, false, false, false, 0, 0xffffffff⟩,
  ⟨0x2000, 1, 0xd, 1, 4, 1, 0, 0, 4, true, false, false, false, 0, 0xffffffff⟩,
  ⟨0x2000, 1, 0xe, 1, 3, 1, 0, 0, 2, true, false, false, false, 0, 0xffff⟩,
  ⟨0x2000, 1, 0xf, 1, 4, 4, 0, 0, 4, true, false, false, false, 0, 0xffffffff⟩,
  ⟨0x2200, 1, 1, 1, 2, 1, 0, 0, 1, true, false, false, false, 0, 0xff⟩,
  ⟨0x2200, 1, 2, 1, 2, 1, 0, 0, 1, true, false, false, false, 0, 0xff⟩,
  ⟨0x2200, 1, 3, 1, 2, 1, 0, 0, 1, true, false, false, false, 0, 0xff⟩,
  ⟨0x2200, 1, 4, 1, 4, 4, 0, 0, 4, true, false, false, false, 0, 0xffffffff⟩,
  ⟨0x2200, 1, 5, 1, 2, 2, 3, 3, 1, true, false, false, false, 0, 8⟩,
  ⟨0x2200, 1, 6, 1, 2, 1, 0, 0, 1, true, false, false, false, 0, 0xff⟩,
  ⟨0x2200, 1, 7, 1, 1, 3, 0, 0, 1, true, true, false, false, 0, 0xff⟩,
  ⟨0x2200, 1, 8, 1, 1, 4, 0, 0, 1, true, false, false, false, 0, 0xff⟩,
  ⟨0x2200, 1, 9, 1, 4, 1, 0, 0, 4, true, false, false, false, 0, 0xffffffff⟩,
  ⟨0x2201, 1, 1, 64, 11, 1, 0, 0, 64, true, false, false, false, 0, 0⟩,
  ⟨0x2202, 1, 1, 1, 2, 1, 0xff, 0xff, 1, true, false, false, false, 0, 0xff⟩]

/-- Rows of the object tables, part 11. -/
def objRows11 : List ObjRow := [
  ⟨0x2202, 1, 2, 1, 2, 1, 0, 0, 1, true, false, false, false, 0, 0xff⟩,
  ⟨0x2202, 1, 3, 1, 2, 1, 0, 0, 1, true, false, false, false, 0, 0xff⟩,
  ⟨0x2202, 1, 4, 1, 2, 4, 0, 0, 1, true, false, false, false, 0, 1⟩,
  ⟨0x2202, 1, 5, 1, 4, 1, 0, 0, 4, true, false, false, false, 0, 0xffffffff⟩,
  ⟨0x2202, 1, 6, 1, 2, 1, 0, 0, 1, true, false, false, false, 0, 0xff⟩,
  ⟨0x2202, 1, 7, 1, 4, 1, 0, 0, 4, true, false, false, false, 0, 0xffffffff⟩]

/-- Every row of the object tables. -/
def objTable : List ObjRow := objRows0 ++ objRows1 ++ objRows2 ++ objRows3 ++ objRows4 ++ objRows5 ++ objRows6 ++ objRows7 ++ objRows8 ++ objRows9 ++ objRows10 ++ objRows11

/-- Whether a row covers an entry. -/
def ObjRow.covers (r : ObjRow) (i j : Nat) : Bool :=
  r.idx ≤ i && i < r.idx + r.n && r.sub ≤ j && j < r.sub + r.m

/-- The row of an entry. -/
def objRow? (i j : Nat) : Option ObjRow := objTable.find? fun r => r.covers i j

/-- The highest subindex of an index; `none` where the module does not implement the index (R375). -/
def highSub? (i : Nat) : Option Nat :=
  (objTable.filter fun r => r.idx ≤ i && i < r.idx + r.n).foldl
    (fun o r => some (max (o.getD 0) (r.sub + r.m - 1))) none

end Sys2Proof.Machine
end

