-- ==== Sys2Proof/Config.lean ====
section
/-! DEFINITION. What an implementation fixes and what the manual leaves open: the latency profile table (R58),
constants of R18, and the free values, which are opaque constants with no body. -/

namespace Sys2Proof.Config

/-! ## Latency profiles (R58) -/

/-- Region crossing, nominal delay, receiver cycles. -/
def crossing (profile : Nat) : Nat := if profile = 0 then 3 else 2
/-- Side-link row landing: 2 transfer, 1 selector or bypass, one crossing. -/
def sideLanding (profile : Nat) : Nat := 2 + 1 + crossing profile
/-- Mesh injection plus ejection. -/
def meshInjEj (profile : Nat) : Nat := if profile = 0 then 5 else 4
/-- Drain, accumulator row to bobbin. -/
def drainLat (profile : Nat) : Nat := if profile = 0 then 6 else 5
/-- Bridge crossing, adjacent dies. -/
def bridgeLat (profile : Nat) : Nat := if profile = 0 then 10 else 8
/-- Relay, C0–C3 or C1–C2. -/
def relayLat (profile : Nat) : Nat := if profile = 0 then 28 else 24
/-- Mesh hop, cycles per logical hop. -/
def meshHop : Nat := 2
/-- Mesh pad, hops per die traversed. -/
def meshPadHops : Nat := 2
/-- Mesh row serialisation. -/
def meshSerial : Nat := 8
/-- Bobbin or register row write, issue to readable. -/
def bobbinWrite : Nat := 1
/-- Beam row write, issue to readable. -/
def beamWrite : Nat := 8
/-- Beam row read by distance: own column 7, orthogonal neighbour 11 (R97). -/
def beamRead (neighbour : Bool) : Nat := if neighbour then 11 else 7
/-- Activation row issue to accumulator (R132). -/
def accLat : Nat := 8

/-- The native latency profile of a stepping (R4). -/
def nativeProfile : Stepping → Nat
  | .A0 => 0
  | .B0 => 1

/-- Whether a stepping provides a latency profile (R4). -/
def providesProfile : Stepping → Nat → Bool
  | .A0, p => p == 0
  | .B0, p => p == 0 || p == 1

/-- Whether a module provides a numeric profile (R4). -/
def providesNumeric (p : Nat) : Bool := p == 1

/-- Shortest pace in ticks (R26, 0x1001:06). -/
def minPace : Grade → Nat
  | .A => 64
  | .B => 72

/-- Longest pace in ticks (R26, 0x4300:04). -/
def maxPace : Nat := 128

/-- Maximum power in W (R1, 0x1001:07). -/
def maxPower : Grade → Nat
  | .A => 2400
  | .B => 2000

/-- Arithmetic cycles in a pick of `p` ticks (R27's table): 1.7 GHz or 1.5 GHz over ticks of 1.25 ns, whole cycles. -/
def cyclesPerPick : Grade → Nat → Nat
  | .A, p => p * 17 / 8
  | .B, p => p * 15 / 8

/-! ## Free values: opaque, so that no proof can lean on one -/

/-- A yes or no the manual leaves open, fresh for each value of the state's counter. -/
opaque freeBool : Nat → Bool
/-- A number the manual leaves open, fresh for each value of the state's counter. -/
opaque freeNat : Nat → Nat
/-- The data of a row whose contents the manual leaves open (R103), by the state's counter and the row address. -/
opaque freeRow : Nat → Nat → Bytes
/-- Whether a snapshot entry read before its transfer is complete is the new one (R429), by tick and event number. -/
opaque snapshotNew : Nat → Nat → Bool
/-- A 128-bit seed from the entropy source (R82, R200), fresh for each value of the state's counter. -/
opaque entropySeed : Nat → BitVec 128
/-- Fresh private key material of the security block (R362), fresh for each value of the state's counter. -/
opaque freshSecret : Nat → Bytes

/-! ## What the manual leaves open of a layout -/

/-- Which element of an adapter's A rows, of rank `r`, is that of depth `i` and rank position `j` of a depth slice; the
manual gives the rows of A and their number, not the order of elements in them (R140). -/
opaque adapterA : Nat → Nat → Nat → Nat
/-- Which element of an adapter's B rows, of rank `r`, is that of rank position `j` and column `c` of a column block. -/
opaque adapterB : Nat → Nat → Nat → Nat

/-! ## What manufacture fixes, of which the manual gives no value -/

/-- The fused unique secret of C0 (R354). -/
opaque uniqueSecret : Bytes
/-- 0x1000:06. -/
opaque serialNumber : Bytes
/-- 0x1000:07. -/
opaque boardIssue : Nat
/-- 0x1000:08. -/
opaque manufactureDate : Nat
/-- 0x1000:09. -/
opaque mgmtFirmwareVersion : Nat
/-- The management controller's firmware image, measured into register 2 (R360). -/
opaque mgmtFirmware : Bytes
/-- The boot ROM's version bytes, measured into register 0 (R360). -/
opaque romVersion : Bytes
/-- The ROM's SHA-384 hash of the two public keys of a signing key slot (R357). -/
opaque romKeyHash : Nat → Bytes
/-- 0x8000:01. -/
opaque pciVendorId : Nat
/-- 0x9001:07 and 0x810p:02: MAC addresses, the management port first. -/
opaque macAddress : Nat → Bytes
/-- 0x6100:04 and 0x6100:05 (R355). -/
opaque certificateChain : Bool → Bytes
/-- The Galsewald service keys of signed writes (R374): Ed25519, ML-DSA-65. -/
opaque serviceKeyEd : Bytes
opaque serviceKeyMl : Bytes

/-! ## Public-key operations named by published standards that the manual does not reproduce -/

/-- RFC 8032: the public key of a private seed. -/
opaque ed25519Public : Bytes → Bytes
/-- RFC 8032: a signature under a private seed. -/
opaque ed25519Sign : Bytes → Bytes → Bytes
/-- RFC 8032: whether a signature verifies under a public key. -/
opaque ed25519Verify : Bytes → Bytes → Bytes → Bool
/-- FIPS 204: the public key of a key generation seed. -/
opaque mldsaPublic : Bytes → Bytes
/-- FIPS 204: a signature with a context string. -/
opaque mldsaSign : Bytes → Bytes → Bytes → Bytes
/-- FIPS 204: whether a signature with a context string verifies. -/
opaque mldsaVerify : Bytes → Bytes → Bytes → Bytes → Bool
/-- RFC 7748: the public key of a private key. -/
opaque x25519Public : Bytes → Bytes
/-- RFC 7748: the shared secret of a private key and a public key. -/
opaque x25519Shared : Bytes → Bytes → Bytes
/-- FIPS 203: the encapsulation key of fresh key material. -/
opaque mlkemPublic : Bytes → Bytes
/-- FIPS 203: the shared secret of a ciphertext. -/
opaque mlkemDecaps : Bytes → Bytes → Bytes

end Sys2Proof.Config
end

