-- ==== Sys2Proof/Machine/State.lean ====
section
/-! DEFINITION. State as plain data: every register, memory, queue, counter, mode and pin the manual gives the
module, the waiting commands, and the machine right after reset. -/

namespace Sys2Proof.Machine

/-- A sparse table by number: keys strictly rising, no entry equal to the table's default. -/
abbrev SMap (α : Type) := List (Nat × α)

/-! ## Tiles -/

/-- One open loop of a tile's sequencer (R70): depth, first bundle of the body, passes still to begin. -/
structure LoopFrame where
  depth : Nat
  body  : Nat
  left  : Nat
  deriving DecidableEq, Repr

/-- A tile's sequencer (R67, R70, R71, R27). Its cycles are the tile's own count, in which the cycles of `Tile.stops`
are left out. -/
structure Sequencer where
  /-- a schedule is running on the tile -/
  running   : Bool
  /-- the tile stands at its pick-boundary wait -/
  waiting   : Bool
  /-- directory index of the running schedule -/
  sched     : Nat
  /-- the bundle of the tile's newest issue cycle -/
  bundle    : Nat
  /-- the tile's newest issue cycle -/
  cycle     : Nat
  loops     : List LoopFrame
  /-- after a SELECT with its flag set: the last bundle of the first arm and the arm's length -/
  arm       : Option (Nat × Nat)
  /-- the cycle in which the current pick's first bundle issues -/
  pickStart : Nat
  /-- local-stall cycles of the current pick (R31) -/
  stall     : Nat
  /-- stretched periods of the current pick (R25) -/
  stretches : Nat
  /-- the cycle of the newest stretched period (R25) -/
  stretched : Option Nat
  /-- schedule picks begun that the tile, having overrun, has still to begin (R32) -/
  behind    : Nat
  /-- schedule that begins once an overrunning task has ended (R32) -/
  next      : Option Nat
  /-- cycle in which the newest task began (R282) -/
  begun     : Option Nat
  deriving DecidableEq, Repr

/-- One row that an operation in flight reads: where, in which cycle of the tile's own count, the cycles for which its
slice has refused it (R100), whether it awaits the landed bit, and the frame once read (R31). -/
structure RowRead where
  addr  : Nat
  due   : Nat
  slip  : Nat
  await : Bool
  val   : Option RowFrame
  deriving DecidableEq, Repr

/-- A weight latch (R123, R126): format code, weight element codes depth-major, scale codes, column sums; whether a
load has written it since S8, and since the swap that last made it idle. -/
structure Latch where
  fmt    : Nat
  elems  : List Nat
  scales : List Nat
  sums   : List Nat
  loaded : Bool
  fresh  : Bool
  deriving DecidableEq, Repr

/-- An adapter descriptor (R139). -/
structure Descriptor where
  baseRow : Nat
  stride  : Nat
  aOff    : Nat
  bOff    : Nat
  slots   : Nat
  rank    : Nat
  fmt     : Nat
  scale   : Nat
  list    : Nat
  table   : List Nat
  deriving DecidableEq, Repr

/-- What an operation in flight is. -/
inductive Work where
  /-- a V-slot operation and the stipple fields it has drawn -/
  | v (op : VSlot) (fields : List Nat)
  /-- a STREAM: its fields, the block it streams against, whether it reads scales -/
  | stream (f : MStream) (block : Latch)
  /-- an ADOWN: its fields, the descriptor, the slot of its row -/
  | adown (f : MAdown) (desc : Descriptor) (slot : Nat)
  /-- an AUP: its fields, the descriptor, the slots of its rows -/
  | aup (f : MAup) (desc : Descriptor) (slots : List Nat)
  /-- a DRAIN, the stipple fields it has drawn, the exponent bound it names -/
  | drain (f : MDrain) (fields : List Nat) (bound : Int)
  /-- a latch load: format code, cycles from issue to ready -/
  | load (fmt : Nat) (lat : Nat)
  /-- an ASET whose five rows are being read: descriptor register, fields read -/
  | aset (reg : Nat) (desc : Option Descriptor)
  /-- a row transfer of the T slot: destination rows, in order -/
  | move (op : TOp) (dst : List Nat)
  /-- an S-slot send whose rows leave as they are read -/
  | send (op : SOp) (f : SSlot)
  deriving DecidableEq, Repr

/-- An operation in flight: its number in the tile, what it is, its issue cycle and bundle, its row reads, results
already delivered. -/
structure InFlight where
  id    : Nat
  work  : Work
  issue : Nat
  bundle : Nat
  reads : List RowRead
  done  : Nat
  deriving DecidableEq, Repr

/-- An accumulator row (R129 to R131): 64 output accumulators, the checksum accumulator, the exponent register, the
contribution count, the mode tag (true: i32 mode) and the overflow flag. -/
structure AccRow where
  acc    : List (BitVec 32)
  chk    : BitVec 32
  expo   : Int
  count  : Nat
  tag    : Option Bool
  ovf    : Bool
  deriving DecidableEq, Repr

/-- A lane of the stipple unit (R194, R207): its two words and the stored parity bit. -/
structure Lane where
  s0  : BitVec 64
  s1  : BitVec 64
  par : Bool
  deriving DecidableEq, Repr

/-- An access of a beam slice (R99): the slice, the cycle in which it is requested or served, its rank, the number of
its operation in its tile. -/
structure Access where
  slice : Nat
  cycle : Nat
  rank  : Nat
  op    : Nat
  deriving DecidableEq, Repr

/-- A receive window (R116, R117): generation, whether it is open, the first row's address, the number of rows. -/
structure Window where
  gen    : BitVec 16
  opened : Bool
  first  : Nat
  rows   : Nat
  deriving DecidableEq, Repr

/-- An arm (with its range) or a close waiting for the boundary (R117, R118). -/
structure WinAct where
  window : Nat
  arm    : Option (Nat × Nat)
  bundle : Nat
  deriving DecidableEq, Repr

/-- A row waiting in the landing queue (R90): what it names, frame, for a background write its generation and sender, for
a row of a data-port packet the packet's stream and sequence (R415), the cycle of its arrival. -/
structure LandRow where
  hdr   : LandHdr
  row   : RowFrame
  back  : Option BackHdr
  port  : Option (Nat × Nat)
  since : Nat
  deriving DecidableEq, Repr

/-- A digest descriptor (R275) with its progress: rows already counted and the XOR of their row digests. -/
structure Digest where
  send   : Bool
  n      : Nat
  sbase  : Nat
  soff   : Nat
  dbase  : Nat
  doff   : Nat
  window : Nat
  first  : Nat
  seen   : List Nat
  /-- cycle in which the newest of its rows was read (R273) -/
  lastAt : Nat
  acc    : BitVec 64
  row    : Option RowFrame
  deriving DecidableEq, Repr

/-- A tile (Table: Tile units): sequencer, operations in flight, matrix engine, flags, stipple unit, windows, landing
queue, port claims, senders, scrubber of its column. -/
structure Tile where
  seq      : Sequencer
  pipe     : List InFlight
  /-- number of the next operation, from 1; 0 names none -/
  ops      : Nat
  /-- cycles in which the tile's clock has stood still, rising: freezes (R100) and stretched periods (R25) -/
  stops    : List Nat
  /-- live base words 12 to 15 and parameter block (R75, R282) -/
  base     : List RowAddr
  params   : Bytes
  /-- shadow base words, parameter block and seed of the next task (R282, R202) -/
  shBase   : List RowAddr
  shParams : Bytes
  shSeed   : BitVec 128
  latch0   : Latch
  latch1   : Latch
  /-- true when `latch1` is the active latch -/
  active1  : Bool
  accs     : SMap AccRow
  /-- exponent-bound registers 0 to 7 (R136) -/
  bounds   : List Int
  descs    : List Descriptor
  /-- cycle up to which the array path is busy (R142) -/
  arrayBusy : Nat
  /-- cycle up to which the drain unit is busy (R142) -/
  drainBusy : Nat
  /-- flags 0 to 15 by SETFLAG, 16 to 31 by broadcast words (R193, R288) -/
  flags    : BitVec 32
  lanes    : SMap Lane
  shLanes  : SMap Lane
  /-- the shadow set is set up and not yet exchanged (R202) -/
  shReady  : Bool
  /-- the exchange of the running task's lane set is still to come (R202) -/
  exchange : Bool
  /-- cycle of the first draw requested before the exchange (R202) -/
  drawWait : Option Nat
  /-- lanes found in error by draws taken ahead of the exchange (R207) -/
  laneErrs : List Nat
  draws    : Nat
  windows  : SMap Window
  acts     : List WinAct
  /-- landing queue, one list of up to four rows per input, in the order of R90 -/
  queue    : List (List LandRow)
  /-- rows of each input that find no free entry and stay with their sender (R91) -/
  kept     : List (List LandRow)
  /-- rows waiting at the column landing port for beam windows -/
  column   : List LandRow
  /-- landings in the beam not yet readable: cycle from which each is, row, frame (R97) -/
  sinking  : List (Nat × Nat × RowFrame)
  /-- rows written and not yet readable: cycle from which each is readable, row, frame (R134) -/
  writes   : List (Nat × Nat × RowFrame)
  /-- claims of ports and of rows written: claim code, cycle, number of the operation (R69, R89, R96, R104) -/
  claims   : List (Nat × Nat × Nat)
  /-- the same of the vector pipeline, which every local stall holds (R173) -/
  vclaims  : List (Nat × Nat)
  /-- accesses of the column's beam slices (R99) -/
  slices   : List Access
  /-- cycle up to which each sender is busy: +x, −x, +y, −y, mesh injector (R209) -/
  senders  : List Nat
  digests  : List Digest
  /-- the scrubber of the column: next row, ticks from `State.scrubBase` to the pass's start, late pass already counted -/
  scrubRow : Nat
  scrubAt  : Nat
  scrubLate : Bool
  /-- write-back queue entries: row of the column and whether the frame is poisoned (R108, R111) -/
  writeBack : List (Nat × Bool)
  /-- scrub passes of this job that corrected a row (R113) -/
  corrected : SMap Nat
  deriving DecidableEq, Repr

/-! ## The hold -/

/-- What a module still awaits before it may send RELEASE (R37, R40, R45). -/
inductive Awaited where
  /-- a row of this module -/
  | row (addr : Nat)
  /-- a frame of a link, by sequence -/
  | frame (link : Nat) (seq : Nat)
  /-- a row handed to a link in an SP -/
  | handoff (link : Nat) (sp : Nat)
  /-- a publication of a word with an effect SP -/
  | word (w : Nat) (effect : Nat)
  /-- the records of an admission pick (R45) -/
  | records (admSp : Nat)
  /-- the power controller's emergency (R48) -/
  | power
  deriving DecidableEq, Repr

/-- An item the schedule expects by the end of an SP (R33). -/
structure Expected where
  item : Awaited
  land : Nat
  ocls : BitVec 4
  oidx : BitVec 10
  deriving DecidableEq, Repr

/-- A pace change that waits for its effect SP (R46): sender and throttle request; sender `none` for the pace floor
of R47. -/
structure PaceChange where
  effect : Nat
  sender : Option Coord
  value  : Nat
  deriving DecidableEq, Repr

/-- The hold unit (R37 to R42): the variables of the manual's sketch, sequence counters, requests on their way. -/
structure Hold where
  stop     : Option Nat
  held     : Bool
  stopTp   : Nat
  seen     : Nat
  resume   : Nat
  sent     : Bool
  /-- items this module awaits before RELEASE (R37) -/
  awaited  : List Awaited
  expected : List Expected
  /-- expected sequence by sender and kind (R42) -/
  seqs     : SMap Nat
  /-- own next sequence by kind (R42) -/
  own      : SMap Nat
  /-- hold request queued at a router output (R222) -/
  routers  : SMap HoldReq
  /-- smallest request of the pending hold: SP, origin, reason (R222, 0x4300:11, 0x4300:12) -/
  first    : Option (Nat × Coord × BitVec 4 × BitVec 10 × BitVec 8)
  /-- emergency HOLD to apply at the stop pick: sender and argument (R48) -/
  emergency : List (Coord × Nat)
  paces    : List PaceChange
  /-- throttle request in force of each module of the slice, by coordinates (R46) -/
  throttle : SMap Nat
  /-- pace floor at job start (R47, R269) -/
  floor0   : Nat
  deriving DecidableEq, Repr

/-! ## What the module drives out -/

/-- A background write the module has sent and that is not yet accepted (R122). -/
structure BackWrite where
  ref     : Nat
  /-- die and activity of the unit that sends it -/
  die     : Nat
  act     : Nat
  dest    : Coord
  tile    : Nat
  window  : Nat
  woff    : Nat
  gen     : BitVec 16
  row     : RowFrame
  refused : Nat
  /-- first time pick in which it may be sent again; `none` while an acknowledgement is awaited -/
  retryTp : Option Nat
  deriving DecidableEq, Repr

/-- A response (request and response header table). -/
structure Response where
  txn    : BitVec 5
  opcode : BitVec 8
  index  : BitVec 16
  sub    : BitVec 8
  status : BitVec 8
  data   : Bytes
  deriving DecidableEq, Repr

/-- An item that leaves the module on one of its ports, or a flit that leaves a unit inside it. -/
inductive Output where
  | controlWord (link : Nat) (kind : CwKind) (tr : Travel) (w : ControlWord)
  | holdRequest (r : HoldReq)
  /-- a row on a side link: its two cycles, 256 data bytes and the sideband of each (R208) -/
  | sideRow (src dst : Nat) (cycles : List (Bytes × BitVec 64))
  /-- a row on the mesh: its flits, 64 payload bytes and the lane of each (R210), and its latency -/
  | meshRow (src dst : Nat) (flits : List (Bytes × BitVec 80)) (latency : Nat)
  | publish (tile word : Nat) (value : BitVec 64)
  | linkFrame (link position : Nat) (f : Frame)
  | linkSymbols (link position : Nat) (bytes : Bytes)
  /-- a retry request in the next header or control block of a link (R240) -/
  | retry (link seq : Nat)
  /-- a pick of a link: its time pick, its control block, in a sealed job its encrypted positions, the ticks of alignment
  markers that fill it (R225) -/
  | linkPick (link tp : Nat) (block body : Bytes) (fill : Nat)
  | symbol (link : Nat) (type : Nat) (payload : Bytes)
  | faultSymbol (link : Nat) (code : BitVec 16) (origin : Coord) (stamp : Nat)
  | classB (link : Nat) (level : Bool) (f : Frame)
  /-- a background write on the mesh to a tile: mesh header and landing (R121, R210) -/
  | landing (t : Nat) (h : Route) (r : LandRow)
  /-- a row of a staging write on its way: stream and sequence of its packet, row address and frame (R415) -/
  | stagingIn (stream seq a : Nat) (f : RowFrame)
  /-- a precise sample record on its way to the buffer of its die (R434) -/
  | sampleIn (die : Nat) (record : Bytes)
  /-- a chain frame of a source on its way through the module: the dies still to be crossed (R323, R324) -/
  | chainIn (source : Nat) (dies : List Nat) (f : Frame)
  /-- a control word that a selvedge router has sent to the hold unit (R221) -/
  | wordIn (kind : CwKind) (w : ControlWord)
  /-- an acknowledgement of a background write, on its way to the module that sent it (R121) -/
  | backAck (dest : Coord) (a : BackAck)
  /-- a received notice that a selvedge router has sent to the treadle (R244, R285) -/
  | noticeIn (h : NoticeHdr) (n : Notice)
  | backWrite (w : BackWrite)
  | interrupt (vector : Nat)
  | response (path : Path) (r : Response)
  | canFrame (ident : Nat) (bytes : Bytes)
  | datagram (bytes : Bytes)
  | packet (port : Nat) (bytes : Bytes)
  | completion (bytes : Bytes) (poisoned : Bool)
  | address (port : Nat) (bytes : Bytes)
  | dmaRead (addr len : Nat)
  | readFrame (node : Nat) (txn : BitVec 5) (seq : Nat)
  | pcieTraining
  deriving DecidableEq, Repr

/-! ## Links and the network -/

/-- A frame kept by a link's sender (R240). -/
structure SentFrame where
  tp    : Nat
  seq   : Nat
  frame : Frame
  deriving DecidableEq, Repr

/-- What a position of a pick carries: a frame, or control symbols in the reserve slot (R226). -/
inductive Slot where
  | frame (f : Frame)
  | symbols (bytes : Bytes)
  deriving DecidableEq, Repr

/-- A row that a selvedge port is to send (R232, R234, R236): its slot, the SP in which it was handed, the hand-off it
belongs to (tile and issue cycle; tile 768 for a forwarded frame), the cycle in which it reaches the send buffer (`none`: not yet read), late rows. -/
structure Handed where
  slot    : Nat
  sp      : Nat
  tile    : Nat
  issue   : Nat
  woff    : Nat
  ready   : Option Nat
  frame   : Frame
  late    : Bool
  deriving DecidableEq, Repr

/-- A link port (R224 to R252). -/
structure Link where
  /-- handed and forwarded frames waiting for their SP -/
  handed   : List Handed
  /-- class B frames waiting: tick of arrival, whether of notice level, frame (R243) -/
  bulk     : List (Nat × Bool × Frame)
  /-- frames sent in the last 17 time picks (R240) -/
  sent     : List SentFrame
  /-- control block of the time pick, and what its positions carry, those of empty frames left out -/
  block    : Bytes
  used     : List (Nat × Slot)
  /-- retransmissions requested by the peer, class S first, with the tick of each request (R240) -/
  resend   : List (Nat × SentFrame)
  /-- landing queue (R65, R239) -/
  landing  : List Frame
  /-- retry requests to place in the next header or control block, with the tick of each (R240) -/
  retries  : List (Nat × Nat)
  /-- control symbols waiting for a control position, with the tick of each (R246) -/
  symbols  : List (Nat × Output)
  /-- authentication value of the newest pick, for the next one's first IDLE symbol (R368) -/
  tag      : Bytes
  /-- times each frame has been uncorrectable (R241) -/
  failures : SMap Nat
  /-- training step reached and the round trips measured so far (R248, R250) -/
  step     : Nat
  trips    : List Nat
  coords   : Nat
  trainings : Nat
  /-- stepping code of the peer's newest COORD symbol (R229) -/
  stepping : Option Nat
  /-- t₀ of the exchange in progress (R250, R266) -/
  t0       : Option Nat
  deriving DecidableEq, Repr

/-- A class B packet waiting at its injection point (R221): activity, flits, what leaves with it. -/
structure WaitB where
  act   : Nat
  flits : Nat
  items : List Output
  deriving DecidableEq, Repr

/-- A claim of a router output or bridge port by a flit of class S (R220): output, cycle, place in the input order. -/
structure OutClaim where
  out   : Nat
  cycle : Nat
  order : Nat
  deriving DecidableEq, Repr

/-- A class S row on its way to a tile, or to the port of a link: what names it at its arrival, the receiver cycle of its
nominal landing (R58), tile and issue cycle of its send, the link whose port it goes to, the claims of each of its flits. -/
structure NetRow where
  dst    : Nat
  inp    : LandIn
  hdr    : LandHdr
  row    : RowFrame
  due    : Nat
  src    : Nat × Nat
  port   : Option Nat
  flits  : List (List OutClaim)
  deriving DecidableEq, Repr

/-- The module's network (R208 to R223): budgets spent by die and activity in this time pick, waiting packets by die
and level (3 die + level: control, notice, bulk), rows of class S on their way. -/
structure Net where
  spent    : SMap Nat
  waiting  : List (List WaitB)
  rows     : List NetRow
  /-- items that have reached their unit inside the module -/
  arrived  : List Output
  backs    : List BackWrite
  nextRef  : Nat
  /-- failed routers of the module's tiles (R211) -/
  routers  : List Nat
  deriving DecidableEq, Repr

/-! ## Patterns and the treadle -/

/-- A schedule directory entry (R464) with what the loader derives: publications by SP offset (R289). -/
structure Schedule where
  group   : Nat
  length  : Nat
  bundles : Nat
  stream  : Nat
  offset  : Nat
  pubs    : List (Nat × Nat)
  deriving DecidableEq, Repr

/-- A loaded pattern (R77, R464, R231, R238, R275, R276, R302). -/
structure Pattern where
  file     : Bytes
  latency  : Nat
  numeric  : Nat
  horizon  : Nat
  groups   : Nat
  shape    : List Nat
  variants : Nat
  hash     : Bytes
  scheds   : List Schedule
  /-- assumed delay dₐ of each physical link of this module, 0 unused -/
  delays   : List Nat
  /-- base words 0 to 11 of each group, final addresses -/
  bases    : List (List RowAddr)
  /-- row extents of base words 12 to 15 of each group -/
  extents  : List (List Nat)
  /-- machine coordinates of module table entries 1 to 15 of each group -/
  modules  : List (List Coord)
  /-- send tables of C0 to C3, relocated -/
  sends    : List (List (BitVec 64))
  /-- forward tables by physical link, relocated -/
  forwards : List (List (BitVec 16))
  /-- group of each tile, 0xFF none -/
  map      : List Nat
  digests  : SMap (List Digest)
  /-- step schedules of the variant table with their table tiles (R302) -/
  steps    : List (Nat × Nat)
  deriving DecidableEq, Repr

/-- Where a task stands. -/
inductive TaskState where
  | waiting
  | running (start stop : Nat)
  | ended (start stop : Nat) (status : Nat)
  | skipped (at_ : Nat)
  deriving DecidableEq, Repr

/-- An admitted task (R287, R290). -/
structure Task where
  graphSeq : Nat
  graphId  : Nat
  index    : Nat
  admSp    : Nat
  scanPos  : Nat
  effect   : Nat
  rec_     : TaskRec
  state    : TaskState
  /-- the plate hash of its lineage message, taken at its start (R83) -/
  plates   : Bytes
  /-- its result records are in the ring -/
  recorded : Bool
  deriving DecidableEq, Repr

/-- A graph known to the treadle. -/
structure Graph where
  seq     : Nat
  id      : Nat
  tasks   : Nat
  admSp   : Nat
  scanPos : Nat
  effect  : Nat
  recorded : Bool
  deriving DecidableEq, Repr

/-- Records of one admission pick received so far (R45, R285). -/
structure Admission where
  admSp   : Nat
  summary : Option (Nat × Nat)
  graphs  : Nat
  notices : Nat
  deriving DecidableEq, Repr

/-- A broadcast word waiting for its effect SP (R288). -/
structure PendingWord where
  word   : Nat
  value  : BitVec 64
  effect : Nat
  deriving DecidableEq, Repr

/-- The treadle (R276 to R296). -/
structure Treadle where
  tasks     : List Task
  graphs    : List Graph
  admits    : List Admission
  /-- expected notice sequence by sender (R285) -/
  seqs      : SMap Nat
  ownSeq    : Nat
  /-- broadcast words 0 to 15 in force -/
  words     : List (BitVec 64)
  pending   : List PendingWord
  /-- publications received: word, effect SP (R289) -/
  got       : List (Nat × Nat)
  /-- publications expected: word, effect SP, landing pick (R289) -/
  expects   : List (Nat × Nat × Nat)
  /-- admission holds raised: admission SPs (R44) -/
  lateAt    : List Nat
  /-- snapshot: requested SP on the lead, effect SP announced (R428) -/
  snapReq   : Option Nat
  snapAt    : Option Nat
  /-- pace floor to send with the next admission records (R47) -/
  floorReq  : Option Nat
  /-- history of TP boundaries: TP, tick, SP in force (R343), newest first -/
  history   : List (Nat × Nat × Nat)
  /-- result records written since the newest boundary (R296) -/
  wrote     : Bool
  deriving DecidableEq, Repr

/-! ## Plates, faults, repair -/

/-- A load slot's progress (R322, R326). The record itself is the entry 0x5200:10–1F. -/
structure Load where
  state  : Nat
  reason : Nat
  landed : Nat
  base   : Nat
  deriving DecidableEq, Repr

/-- A fault record (R336). -/
structure FaultRec where
  code  : BitVec 16
  flags : BitVec 8
  site  : FaultSite
  stamp : Nat
  sp    : Nat
  modl  : Coord
  deriving DecidableEq, Repr

/-- An invalidation record of a result stream (R344, R420): destination, packet sequence, packet, tick of its
newest sending. -/
structure Invalid where
  dest  : Nat
  seq   : Nat
  bytes : Bytes
  sent  : Nat
  deriving DecidableEq, Repr

/-- The contents of the repair table (R349): rows, tiles and ports marked; rows mapped to spares; die rows (16 die +
row) whose spare tile is in use, with the column of the bad tile; spare rows in use by slice number 24 t + s, or
18432 + 8 t + bank; reserve ports in use by bridge pair. -/
structure RepairTable where
  markRows  : List Nat
  markTiles : List Nat
  markPorts : List (Nat × Nat)
  mapped    : List Nat
  shifts    : SMap Nat
  spareUse  : SMap Nat
  portUse   : SMap Nat
  deriving DecidableEq, Repr

/-- The fault units, the fault log, the safe stop and the repair state (R336 to R352). -/
structure Integrity where
  /-- records on their way from each die's fault unit to C0 -/
  dies      : List (List FaultRec)
  first     : Option FaultRec
  ring      : List FaultRec
  saved     : List FaultRec
  /-- headers of the landings that fault 0x5004 dropped: tile and header (R53) -/
  dropped   : List (Nat × LandHdr)
  /-- the stop line is asserted -/
  stopLine  : Bool
  /-- the lead has completed the result ring (R344) -/
  withdrawn : Bool
  /-- restart pending of R346 -/
  endLatched : Bool
  /-- invalidation records not yet acknowledged (R344) -/
  invalid   : List Invalid
  /-- strikes: tile and hour (R347) -/
  strikes   : List (Nat × Nat)
  hours     : Nat
  markRows  : List Nat
  markTiles : List Nat
  markPorts : List (Nat × Nat)
  /-- rows mapped to spares (R114) -/
  mapped    : List Nat
  /-- die rows (16 die + row) whose spare tile is in use, with the column of the bad tile -/
  shifts    : SMap Nat
  /-- repair table copies: sequence and contents (R349) -/
  copies    : List (Nat × RepairTable)
  /-- spares found unusable by self-test: kind, die or tile, number (R352) -/
  unusable  : List (Nat × Nat × Nat)
  /-- spare rows in use: slice number 24 t + s, or 18432 + 8 t + bank -/
  spareUse  : SMap Nat
  /-- reserve ports in use by bridge pair -/
  portUse   : SMap Nat
  /-- twice the consecutive starts in which a link has trained degraded, plus 1 where this start is one (R351) -/
  degraded  : SMap Nat
  /-- hard faults recorded: 0x2007 and 0x3011 (R115, R350) -/
  hardRow   : Bool
  hardTile  : Bool
  deriving DecidableEq, Repr

/-! ## Security -/

/-- A plate entry of an accepted key bundle (R364): plate hash, module digest, plate key. -/
structure PlateKey where
  hash   : Bytes
  digest : Bytes
  key    : Bytes
  deriving DecidableEq, Repr

/-- The security block's volatile state (R360 to R373). -/
structure Security where
  /-- measurement registers 0 to 7 (R360) -/
  measure  : List Bytes
  offer    : Bytes
  nonce    : Bytes
  secret   : Bytes
  th       : Bytes
  kBundle  : Bytes
  bundles  : Nat
  /-- pattern hash and slice fields of the first bundle (R365) -/
  bound    : Option (Bytes × Nat × Nat × Nat)
  linkKey  : Bytes
  reqKey   : Bytes
  resKey   : Bytes
  ringKey  : Bytes
  plates   : List PlateKey
  /-- IDE keys (R373) -/
  ide      : Bytes
  /-- the running firmware image: header bytes 0x000–0x8BF, version, security version (R360) -/
  image    : Bytes
  /-- keys derived from the unique secret at start (R354) -/
  idEd     : Bytes
  idMl     : Bytes
  deriving DecidableEq, Repr

/-! ## Access paths and ports -/

/-- Where a response goes: to the sender on a path, to a request slot (R397), into a datagram with its counter and
whether it was tagged (R395), to the CAN FD port (R391), or nowhere (R402). -/
inductive ReplyTo where
  | sender (p : Path)
  | slot (k : Nat)
  | datagram (counter : Nat) (tagged : Bool)
  | canPort
  | nowhere
  deriving DecidableEq, Repr

/-- A flash store that is not yet complete (R385): entry, its value as a number and as bytes, the response that waits. -/
structure Store where
  key   : Nat
  num   : Nat
  oct   : Bytes
  rcpt    : ReplyTo
  resp  : Response
  deriving DecidableEq, Repr

/-- A function of the function state machine (R387, R389). -/
structure Fn where
  state   : Nat
  restart : Bool
  stopP   : Bool
  fail    : Nat
  deriving DecidableEq, Repr

/-- A segmented CAN FD transfer (R391): the request so far and what is still to come, or a response being sent. -/
structure Transfer where
  req    : Request
  total  : Nat
  next   : Nat
  deriving DecidableEq, Repr

/-- The CAN FD port (R390 to R394). -/
structure Can where
  open_    : Option Transfer
  last     : Option Response
  sending  : Option (Response × Nat)
  /-- ticks of the newest fault notices (R393) -/
  notices  : List Nat
  deriving DecidableEq, Repr

/-- A result destination's stream (R418, R419): its records in number order from 1, each with its record sequence in
the ring and the tick of its writing; the last record acknowledged; packets not yet acknowledged: sequence, first record
number, records; the next packet's sequence; the tick of the newest progress of acknowledgement. -/
structure Dest where
  log      : List (Nat × Nat)
  acked    : Nat
  unacked  : List (Nat × Nat × Nat)
  nextSeq  : Nat
  progress : Nat
  deriving DecidableEq, Repr

/-- The data ports (R411 to R420). -/
structure Ports where
  /-- highest sequence accepted, or sent, on each stream (R413) -/
  streams  : SMap Nat
  /-- port by which the newest packet of each stream came -/
  via      : SMap Nat
  /-- refusal entries to send, by stream -/
  refusals : List (Nat × Bytes)
  /-- accepted packets not yet acknowledged, by stream -/
  unsent   : SMap Nat
  dests    : List Dest
  egress   : Bool
  deriving DecidableEq, Repr

/-- One performance counter (R422, R423): count, wrap flag, the last cycle or tick in which the event was present. -/
structure Counter where
  count : Nat
  wrap  : Bool
  last  : Option Nat
  deriving DecidableEq, Repr

/-- An overflow selector in force (R430): the 16 bytes last loaded, its shadow counter, whether a written value waits for
the boundary, whether it has overflowed and the tick of its newest interrupt. -/
structure Shadow where
  sel   : Bytes
  count : Nat
  load  : Bool
  irqAt : Option Nat
  deriving DecidableEq, Repr

/-- A precise sample waiting for its operation to complete (R432, R433). -/
structure Sample where
  stamp : Nat
  sp    : Nat
  bundle : Nat
  event : Nat
  slot  : Nat
  met   : Bool
  nominal : Nat
  actual  : Nat
  sched : Nat
  deriving DecidableEq, Repr

/-- The counting unit (R421 to R435). -/
structure Counting where
  live     : SMap Counter
  snap     : SMap Counter
  /-- the snapshot before the newest one, readable until its transfer is complete (R429) -/
  prev     : SMap Counter
  shadows  : List Shadow
  samples  : List Sample
  dropped  : List Bool
  /-- flits of the newest snapshot that each die has still to carry to port memory (R429) -/
  left     : List Nat
  /-- selected event number by access path (0x7000:08) -/
  select   : SMap Nat
  deriving DecidableEq, Repr

/-- Power and thermal control (R436 to R444). -/
structure Power where
  /-- the input is valid -/
  input     : Bool
  /-- the main rails are up -/
  rails     : Bool
  /-- PERST# has been deasserted (R400) -/
  perst     : Bool
  /-- request SP of the newest PACE message (R46), stop pick of the newest own emergency hold (R48) -/
  lastPace  : Option Nat
  lastEmerg : Option Nat
  /-- throttling by temperature or coolant is on (R443, R444) -/
  hot       : Bool
  /-- a coolant reading has been taken (R444) -/
  coolant   : Bool
  /-- energy since reset in µJ (0x2000:0B) -/
  energy    : Nat
  deriving DecidableEq, Repr

/-- The start sequence and its journal (R447, R448, R450). -/
structure Start where
  cause    : Nat
  first    : Nat
  outcomes : List Nat
  journal  : List Bytes
  /-- what the hardware finds, kept from START for the steps after S9 -/
  facts    : Option StartFacts
  /-- the start has failed and an automatic restart may follow (R448) -/
  halted   : Bool
  /-- step that failed on the last start, the input in use then, the links that failed training at the newest S11, which
  the next start skips (R252) -/
  failed   : Option Nat
  lastRef  : Nat
  failLinks : List Nat
  /-- this start: fault code, tick of its beginning, tiles marked, recovery path, full beam and tile test -/
  code     : Nat
  since    : Nat
  marked   : Nat
  recovery : Bool
  fullBeam : Bool
  fullTile : Bool
  /-- echoes of S12 not yet judged: link and offset θ, doubled (R266) -/
  echoes   : List (Nat × Int)
  /-- flash holds this image in place of the one that START names; the recovery image on its way to flash (R359) -/
  firmware : Option Bytes
  copy     : Option Bytes
  deriving DecidableEq, Repr

/-! ## The machine -/

/-- A clock region other than a tile in the current pick (R25): stretched periods, cycle of the newest, cycles by which
it began the pick late (R32). -/
structure Region where
  stretches : Nat
  stretched : Option Nat
  lag       : Nat
  deriving DecidableEq, Repr

/-- Grade and stepping, fixed for the life of the module (R1, R4). -/
structure Ident where
  grade    : Grade
  stepping : Stepping
  deriving DecidableEq, Repr

/-- The state of one Chropa M20 module and its queue of waiting commands. -/
structure State where
  ident    : Ident
  /-- the time counter, unbounded; its 64-bit register is this modulo 2^64 (R22, R23) -/
  tick     : Nat
  /-- tick of the newest pick boundary bₙ (R26) -/
  boundary : Nat
  /-- arithmetic cycle, counted in nominal periods, in which the newest pick began (the model's own numbering) -/
  cycle0   : Nat
  tp       : Nat
  sp       : Nat
  /-- a job is in progress (R378) -/
  job      : Bool
  /-- time pick 0 has begun (R268) -/
  started  : Bool
  /-- the job runs sealed (R365) -/
  sealedJob : Bool
  /-- numeric object entries by 256 index + subindex; a missing entry holds its default (R377) -/
  objs     : SMap Nat
  /-- byte-string object entries, likewise -/
  octets   : SMap Bytes
  /-- persistent copies of RWP entries (R385) and stores not yet complete -/
  flash    : SMap Nat
  flashOct : SMap Bytes
  stores   : List Store
  /-- rows of bobbin, beam, schedule store and vector registers: byte b of row address a at 520 a + b -/
  mem      : List Host.Cell
  /-- port memory on C0 (R401): BAR0 bytes -/
  pmem     : List Host.Cell
  /-- upset stored bits of a row, by row address (R105, R465) -/
  upsets   : SMap (List Nat)
  /-- rows whose stored frame is poisoned (R111) -/
  poison   : SMap Bool
  /-- landed bits, by row address; a missing entry is set (R31) -/
  landed   : SMap Bool
  tiles    : SMap Tile
  /-- network regions of dies 0 to 3, and 4 + the die of a selvedge region (R25) -/
  regions  : SMap Region
  /-- what the time counter, as set now, read when the scrubbers began after S8; below 0 where a step has set it back -/
  scrubBase : Int
  hold     : Hold
  links    : SMap Link
  net      : Net
  pattern  : Option Pattern
  treadle  : Treadle
  loads    : List Load
  integrity : Integrity
  security : Security
  fns      : List Fn
  can      : Can
  ports    : Ports
  /-- MSI-X: masked and pending vectors (R409) -/
  masked   : BitVec 32
  pendVec  : BitVec 32
  /-- load command in progress: sequence (R405) -/
  loadSeq  : Option (BitVec 32)
  /-- the management controller is resetting (R353) -/
  mgmtDown : Bool
  counting : Counting
  power    : Power
  start    : Start
  /-- counter of free values drawn (the model's own) -/
  free     : Nat
  /-- what the module has driven out, oldest first (the model's own) -/
  out      : List Output
  /-- commands waiting, first in first out -/
  pending  : List Instr
  deriving DecidableEq, Repr

/-! ## Stops -/

/-- Reasons the model stops with a fault. No meaning raises one: every fault the manual names is an effect on State. -/
inductive Fault where
  /-- raised by nothing: the manual's faults are records in State; safe -/
  | none
  deriving DecidableEq, Repr

/-- Reasons the model refuses a command. -/
inductive Refusal where
  /-- raised by `exec` for a command that has no meaning yet; safe -/
  | notModelled (mnemonic : String)
  deriving DecidableEq, Repr

/-! ## Reset -/

/-- A sequencer at reset: nothing runs. -/
def Sequencer.reset : Sequencer where
  running := false
  waiting := false
  sched := 0
  bundle := 0
  cycle := 0
  loops := []
  arm := none
  pickStart := 0
  stall := 0
  stretches := 0
  stretched := none
  behind := 0
  next := none
  begun := none

/-- A weight latch into which no load has written (R126). -/
def Latch.reset : Latch where
  fmt := 0
  elems := []
  scales := []
  sums := []
  loaded := false
  fresh := false

/-- An adapter descriptor that no ASET has read: every field 0; an entry past the end of a table reads 0. -/
def Descriptor.reset : Descriptor where
  baseRow := 0
  stride := 0
  aOff := 0
  bOff := 0
  slots := 0
  rank := 0
  fmt := 0
  scale := 0
  list := 0
  table := []

/-- An accumulator row as S8 leaves it: zeros, count 0, the exponent register at its least value, no mode tag (R131). -/
def AccRow.reset : AccRow where
  acc := List.replicate 64 0
  chk := 0
  expo := -127
  count := 0
  tag := none
  ovf := false

/-- A stipple lane at reset. -/
def Lane.reset : Lane where
  s0 := 0
  s1 := 1
  par := true

/-- A receive window at reset: closed, generation 0. -/
def Window.reset : Window where
  gen := 0
  opened := false
  first := 0
  rows := 0

/-- A tile at reset. -/
def Tile.reset : Tile where
  seq := Sequencer.reset
  pipe := []
  ops := 1
  stops := []
  base := List.replicate 4 0
  params := List.replicate 64 0
  shBase := List.replicate 4 0
  shParams := List.replicate 64 0
  shSeed := 0
  latch0 := Latch.reset
  latch1 := Latch.reset
  active1 := false
  accs := []
  bounds := List.replicate 8 127
  descs := List.replicate 4 Descriptor.reset
  arrayBusy := 0
  drainBusy := 0
  flags := 0
  lanes := []
  shLanes := []
  shReady := false
  exchange := false
  drawWait := none
  laneErrs := []
  draws := 0
  windows := []
  acts := []
  queue := List.replicate 6 []
  kept := List.replicate 6 []
  column := []
  sinking := []
  writes := []
  claims := []
  vclaims := []
  slices := []
  senders := List.replicate 5 0
  digests := []
  scrubRow := 0
  scrubAt := 0
  scrubLate := false
  writeBack := []
  corrected := []

/-- A clock region with no stretched period. -/
def Region.reset : Region where
  stretches := 0
  stretched := none
  lag := 0

/-- The hold unit at reset and at job start. -/
def Hold.reset : Hold where
  stop := none
  held := false
  stopTp := 0
  seen := 0
  resume := 0
  sent := false
  awaited := []
  expected := []
  seqs := []
  own := []
  routers := []
  first := none
  emergency := []
  paces := []
  throttle := []
  floor0 := 0

/-- A link port at reset: down, untrained. -/
def Link.reset : Link where
  handed := []
  bulk := []
  sent := []
  block := []
  used := []
  resend := []
  landing := []
  retries := []
  symbols := []
  tag := []
  failures := []
  step := 0
  trips := []
  coords := 0
  trainings := 0
  stepping := none
  t0 := none

/-- The network at reset. -/
def Net.reset : Net where
  spent := []
  waiting := List.replicate 12 []
  rows := []
  arrived := []
  backs := []
  nextRef := 0
  routers := []

/-- The treadle at reset and at job start. -/
def Treadle.reset : Treadle where
  tasks := []
  graphs := []
  admits := []
  seqs := []
  ownSeq := 0
  words := List.replicate 16 0
  pending := []
  got := []
  expects := []
  lateAt := []
  snapReq := none
  snapAt := none
  floorReq := none
  history := []
  wrote := false

/-- An empty load slot. -/
def Load.reset : Load where
  state := 0
  reason := 0
  landed := 0
  base := 0

/-- A repair table with no repairs. -/
def RepairTable.empty : RepairTable where
  markRows := []
  markTiles := []
  markPorts := []
  mapped := []
  shifts := []
  spareUse := []
  portUse := []

/-- The fault units and the repair state of a module that has never been repaired. -/
def Integrity.reset : Integrity where
  dies := List.replicate 4 []
  first := none
  ring := []
  saved := []
  dropped := []
  stopLine := false
  withdrawn := false
  endLatched := false
  invalid := []
  strikes := []
  hours := 0
  markRows := []
  markTiles := []
  markPorts := []
  mapped := []
  shifts := []
  copies := [(0, RepairTable.empty), (0, RepairTable.empty)]
  unusable := []
  spareUse := []
  portUse := []
  degraded := []
  hardRow := false
  hardTile := false

/-- The security block at reset: measurement registers 0, no keys. -/
def Security.reset : Security where
  measure := List.replicate 8 (List.replicate 48 0)
  offer := []
  nonce := []
  secret := []
  th := []
  kBundle := []
  bundles := 0
  bound := none
  linkKey := []
  reqKey := []
  resKey := []
  ringKey := []
  plates := []
  ide := []
  image := []
  idEd := []
  idMl := []

/-- A function that is OFF. -/
def Fn.reset : Fn where
  state := 0
  restart := false
  stopP := false
  fail := 0

/-- The CAN FD port at reset. -/
def Can.reset : Can where
  open_ := none
  last := none
  sending := none
  notices := []

/-- A result destination's stream at reset and at job start. -/
def Dest.reset : Dest where
  log := []
  acked := 0
  unacked := []
  nextSeq := 1
  progress := 0

/-- The data ports at reset. -/
def Ports.reset : Ports where
  streams := []
  via := []
  refusals := []
  unsent := []
  dests := List.replicate 8 Dest.reset
  egress := true

/-- The counting unit at reset. -/
def Counting.reset : Counting where
  live := []
  snap := []
  prev := []
  shadows := List.replicate 8 { sel := List.replicate 16 0, count := 0, load := false, irqAt := none }
  samples := []
  dropped := List.replicate 4 false
  left := List.replicate 4 0
  select := []

/-- Power before the input has been seen. -/
def Power.reset : Power where
  input := false
  rails := false
  perst := false
  lastPace := none
  lastEmerg := none
  hot := false
  coolant := false
  energy := 0

/-- The start sequence before its first step. -/
def Start.reset : Start where
  cause := 0
  first := 0
  outcomes := List.replicate 14 0
  journal := []
  facts := none
  halted := false
  failed := none
  lastRef := 255
  failLinks := []
  code := 0
  since := 0
  marked := 0
  recovery := false
  fullBeam := false
  fullTile := false
  echoes := []
  firmware := none
  copy := none

/-- The module right after reset: every object at its default, start state 0 (starting), nothing listed in memory, no
job, no waiting command. Grade A and stepping B0, the production part GW-CHM20-A (R460). -/
def State.reset : State where
  ident := { grade := .A, stepping := .B0 }
  tick := 0
  boundary := 0
  cycle0 := 0
  tp := 0
  sp := 0
  job := false
  started := false
  sealedJob := false
  objs := []
  octets := []
  flash := []
  flashOct := []
  stores := []
  mem := []
  pmem := []
  upsets := []
  poison := []
  landed := []
  tiles := []
  regions := []
  scrubBase := 0
  hold := Hold.reset
  links := []
  net := Net.reset
  pattern := none
  treadle := Treadle.reset
  loads := List.replicate 16 Load.reset
  integrity := Integrity.reset
  security := Security.reset
  fns := List.replicate 38 Fn.reset
  can := Can.reset
  ports := Ports.reset
  masked := 0xFFFFFFFF
  pendVec := 0
  loadSeq := none
  mgmtDown := false
  counting := Counting.reset
  power := Power.reset
  start := Start.reset
  free := 0
  out := []
  pending := []

end Sys2Proof.Machine
end

