-- ==== Sys2Proof/Machine/Ops.lean ====
section
/-! DEFINITION. The named operations over State: tables, object entries, rows of memory, counters, interrupts, faults,
the safe stop, hold requests, and the effect record that slot commands answer with. -/

namespace Sys2Proof.Machine

/-! ## Sparse tables -/

/-- The entry of a table at a key, or the default. -/
def mget {α : Type} (d : α) (m : SMap α) (k : Nat) : α := (m.lookup k).getD d

/-- A table with an entry set; an entry equal to the default is removed, so equal tables are equal lists. -/
def mset {α : Type} [DecidableEq α] (d : α) (m : SMap α) (k : Nat) (v : α) : SMap α :=
  if v = d then m.filter (·.1 < k) ++ m.filter (k < ·.1)
  else m.filter (·.1 < k) ++ (k, v) :: m.filter (k < ·.1)

/-- A table with an entry at a key, whatever its value. -/
def mput {α : Type} (m : SMap α) (k : Nat) (v : α) : SMap α := m.filter (·.1 < k) ++ (k, v) :: m.filter (k < ·.1)

/-- A table with no entry at a key. -/
def mdel {α : Type} (m : SMap α) (k : Nat) : SMap α := m.filter (·.1 != k)

/-- A list with its element `i` replaced; unchanged past its end. -/
def lset {α : Type} (l : List α) (i : Nat) (v : α) : List α := l.set i v

/-- The element `i` of a list of numbers, 0 past its end. -/
def nat (l : List Nat) (i : Nat) : Nat := l.getD i 0

/-! ## Object entries -/

/-- The default of a numeric entry (R377): by grade, and for the stepping's entries by stepping. -/
def objDefault (id : Ident) (i j : Nat) : Nat :=
  match objRow? i j with
  | none => 0
  | some r =>
    if i == 0x1001 && j ≤ 2 || i == 0x1000 && j == 5 then
      (match id.stepping with | .A0 => r.dA | .B0 => r.dB)
    else match id.grade with | .A => r.dA | .B => r.dB

/-- The key of an entry in the object store. -/
def objKey (i j : Nat) : Nat := 256 * i + j

/-- The stored value of a numeric entry. -/
def objGet (s : State) (i j : Nat) : Nat := mget (objDefault s.ident i j) s.objs (objKey i j)

/-- A numeric entry set. -/
def objSet (i j v : Nat) (s : State) : State :=
  { s with objs := mset (objDefault s.ident i j) s.objs (objKey i j) v }

/-- A count of the object dictionary advanced by `n`. -/
def bump (i j n : Nat) (s : State) : State := if n = 0 then s else objSet i j (objGet s i j + n) s

/-- A numeric entry raised to `v` if it is less. -/
def objMax (i j v : Nat) (s : State) : State := if objGet s i j < v then objSet i j v s else s

/-- The length of an entry of fixed length (R376). -/
def objLen (i j : Nat) : Nat := ((objRow? i j).map (·.len)).getD 0

/-- The default of a byte-string entry: zeros of a fixed length, empty where the length is not fixed. -/
def octDefault (i j : Nat) : Bytes :=
  match objRow? i j with
  | none => []
  | some r => if r.fixed then zeros r.len else []

/-- The stored value of a byte-string entry. -/
def octGet (s : State) (i j : Nat) : Bytes := mget (octDefault i j) s.octets (objKey i j)

/-- A byte-string entry set. -/
def octSet (i j : Nat) (v : Bytes) (s : State) : State :=
  { s with octets := mset (octDefault i j) s.octets (objKey i j) v }

/-- The hold horizon H (0x4300:02). -/
def horizon (s : State) : Nat := objGet s 0x4300 2
/-- The pace in force (0x4300:01). -/
def paceNow (s : State) : Nat := objGet s 0x4300 1
/-- The admission horizon A (0x5000:02). -/
def admitHorizon (s : State) : Nat := objGet s 0x5000 2
/-- The session state (0x6100:11). -/
def session (s : State) : Nat := objGet s 0x6100 0x11
/-- The safe stop state (0x6000:01). -/
def stopState (s : State) : Nat := objGet s 0x6000 1
/-- The start state (0x2200:01). -/
def startState (s : State) : Nat := objGet s 0x2200 1
/-- A job is in progress until the module is ready for a new start tick, so through the clearing of a sealed one too
(R378, R372). -/
def jobOn (s : State) : Bool := s.job || session s == 5
/-- Arithmetic cycles of a pick at the pace in force (R27). -/
def cyclesNow (s : State) : Nat := Config.cyclesPerPick s.ident.grade (paceNow s)

/-- The arithmetic cycle, in nominal periods, of the tick of the time base. -/
def cycleNow (s : State) : Nat := s.cycle0 + Config.cyclesPerPick s.ident.grade (s.tick - s.boundary)

/-- Coordinates of an entry laid out as 0x4200:01. -/
def coordOf (v : Nat) : Coord where
  x := BitVec.ofNat 4 (bits v 8 4)
  y := BitVec.ofNat 4 (bits v 4 4)
  z := BitVec.ofNat 4 (bits v 0 4)

/-- Coordinates laid out as 0x4200:01. -/
def coordNat (c : Coord) : Nat := 256 * c.x.toNat + 16 * c.y.toNat + c.z.toNat

/-- The module's machine coordinates (0x4200:01). -/
def ownCoord (s : State) : Coord := coordOf (objGet s 0x4200 1)

/-- Whether the module is the lead module of its slice: its slice coordinate is (0,0,0). -/
def isLead (s : State) : Bool := objGet s 0x4200 0xE == 0

/-! ## Which units answer (R384, R400, R436) -/

/-- The object service runs on C0: the rails are up, the start has reached S4, no recovery path (R384). -/
def codeRunning (s : State) : Bool := s.power.rails && startState s != 3 && decide (4 ≤ objGet s 0x2200 2)

/-- The management controller answers: AUX is good and it is not resetting (R353, R436). -/
def mgmtUp (s : State) : Bool := s.power.input && bitOf (objGet s 0x2000 0xE) 1 && !s.mgmtDown

/-- The PCIe port is up (R400): PERST# is deasserted and S4 has ended, or the recovery path has powered C0. -/
def pcieUp (s : State) : Bool :=
  s.power.rails && s.power.perst && (startState s == 3 || decide (4 < objGet s 0x2200 2))

/-- An access path carries requests: PCIe and its mailbox, CAN FD with a node id (R390) and
no wiring fault (R394), management Ethernet with its
port on (R387). -/
def pathOpen (s : State) : Path → Bool
  | .pcie | .doe => pcieUp s
  | .can => mgmtUp s && objGet s 0x9000 1 != 0 && objGet s 0x9000 7 != 3
  | .mgmt | .mgmtTagged => mgmtUp s && (s.fns.getD 37 Fn.reset).state == 2

/-! ## Tiles, dies and links -/

/-- A tile. -/
def tileAt (s : State) (t : Nat) : Tile := mget Tile.reset s.tiles t

/-- A tile set. -/
def tileSet (t : Nat) (v : Tile) (s : State) : State := { s with tiles := mset Tile.reset s.tiles t v }

/-- Tile x and y of an index (R13). -/
def tileX (t : Nat) : Nat := t % 24
def tileY (t : Nat) : Nat := t / 24

/-- The die of a tile (R13). -/
def dieOf (t : Nat) : DieIx :=
  if tileY t < 16 then (if tileX t < 12 then 0 else 1) else (if tileX t < 12 then 2 else 3)

/-- A link port. -/
def linkAt (s : State) (l : Nat) : Link := mget Link.reset s.links l

/-- A link port set. -/
def linkSet (l : Nat) (v : Link) (s : State) : State := { s with links := mset Link.reset s.links l v }

/-- The state of a link (0x41nn:01): 2 and 3 are up. -/
def linkState (s : State) (l : Nat) : Nat := objGet s (0x4100 + l) 1

/-- Whether a link is up. -/
def linkUp (s : State) (l : Nat) : Bool := linkState s l == 2 || linkState s l == 3

/-- The torus direction of a link (R18): 0 +x, 1 −x, 2 +y, 3 −y, 4 +z, 5 −z. -/
def linkDir (l : Nat) : Nat :=
  let d := l / 9
  let k := l % 9
  if k < 3 then (if d % 2 == 1 then 0 else 1)
  else if k < 6 then (if d ≥ 2 then 2 else 3)
  else if k == 6 then 4
  else if k == 7 then (if d == 0 || d == 3 then 4 else 5)
  else 5

/-- The links of a direction, in link order. -/
def linksOf (dir : Nat) : List Nat := (List.range 36).filter fun l => linkDir l == dir

/-- The row address of R73. -/
def rowAddr (t space row : Nat) : Nat := tileX t * 2 ^ 27 + tileY t * 2 ^ 22 + space * 2 ^ 20 + row

/-- The tile of a row address: `none` where its x or y lies off the grid. -/
def addrTile (a : Nat) : Option Nat :=
  let x := bits a 27 5
  let y := bits a 22 5
  if x < 24 && y < 32 then some (24 * y + x) else none

/-- The space of a row address: 0 bobbin, 1 beam, 2 schedule store, 3 registers. -/
def addrSpace (a : Nat) : Nat := bits a 20 2

/-- The row of a row address. -/
def addrRow (a : Nat) : Nat := bits a 0 20

/-- Rows of a space (R85, R92, R167, R67). -/
def spaceRows (space : Nat) : Nat :=
  if space == 0 then 4096 else if space == 1 then 737280 else 1024

/-! ## Memory -/

/-- The proof word of a row of zeros. -/
def zeroProof : BitVec 32 := 0x30FCEDC0

/-- What byte `b` of a row frame that nothing has written reads as: the zero row that step S7 leaves (R87). -/
def rowDefault (b : Nat) : Byte := if b < 516 then 0 else BitVec.ofNat 8 (bits zeroProof.toNat (8 * (b - 516)) 8)

/-- A byte of memory. -/
def byteAt (m : List Host.Cell) (a : Nat) : Byte := (m.lookup a).getD (rowDefault (a % 520))

/-- Memory's canonical form: addresses rising, no entry equal to what an unlisted address reads as. -/
def memWf : List Host.Cell → Bool
  | [] => true
  | [c] => c.2 != rowDefault (c.1 % 520)
  | c :: d :: r => c.2 != rowDefault (c.1 % 520) && decide (c.1 < d.1) && memWf (d :: r)

/-- The bytes of a row frame (R85): data, reserved, tag, proof word. -/
def frameBytes (f : RowFrame) : Bytes :=
  slice f.data 0 512 ++ zeros 2 ++ leBytes 2 f.tag.toNat ++ leBytes 4 f.proof.toNat

/-- The row frame that 520 bytes spell. -/
def frameOf (bs : Bytes) : RowFrame where
  data  := slice bs 0 512
  tag   := BitVec.ofNat 16 (leAt bs 514 2)
  proof := BitVec.ofNat 32 (leAt bs 516 4)

/-- Bytes as cells from an address, those equal to the default left out. -/
def cellsOf : Nat → Bytes → List Host.Cell
  | _, [] => []
  | a, b :: bs => if b = rowDefault (a % 520) then cellsOf (a + 1) bs else (a, b) :: cellsOf (a + 1) bs

/-- Memory with bytes written from an address. -/
def memPut (m : List Host.Cell) (a : Nat) (bs : Bytes) : List Host.Cell :=
  m.filter (·.1 < a) ++ cellsOf a bs ++ m.filter (a + bs.length ≤ ·.1)

/-- `n` bytes of memory from an address. -/
def memGet (m : List Host.Cell) (a n : Nat) : Bytes := (List.range n).map fun i => byteAt m (a + i)

/-- The stored frame of a row. -/
def rowGet (s : State) (a : Nat) : RowFrame := frameOf (memGet s.mem (520 * a) 520)

/-- A row frame stored: the stored bits are those of the frame, and the row is no longer poisoned. -/
def rowPut (a : Nat) (f : RowFrame) (s : State) : State :=
  { s with mem := memPut s.mem (520 * a) (frameBytes f), upsets := mdel s.upsets a, poison := mdel s.poison a }

/-- A row frame with data and tag and a fresh proof word (R85). -/
def freshFrame (data : Bytes) (tag : BitVec 16) : RowFrame where
  data  := slice data 0 512
  tag   := tag
  proof := crc32c (slice data 0 512)

/-- Whether a frame's proof word matches its data (R107). -/
def proofOk (f : RowFrame) : Bool := f.proof == crc32c (slice f.data 0 512)

/-- The landed bit of a row (R31). -/
def isLanded (s : State) (a : Nat) : Bool := mget true s.landed a

/-- The landed bit of a row written. -/
def landedSet (a : Nat) (v : Bool) (s : State) : State := { s with landed := mset true s.landed a v }

/-! ## Port memory (R401) -/

/-- A byte of port memory; a byte nothing has written reads 0. -/
def portByte (s : State) (a : Nat) : Byte := (s.pmem.lookup a).getD 0

/-- `n` bytes of port memory. -/
def portGet (s : State) (a n : Nat) : Bytes := (List.range n).map fun i => portByte s (a + i)

/-- Bytes as cells of port memory, zeros left out. -/
def portCells : Nat → Bytes → List Host.Cell
  | _, [] => []
  | a, b :: bs => if b = 0 then portCells (a + 1) bs else (a, b) :: portCells (a + 1) bs

/-- Port memory with bytes written. -/
def portPut (a : Nat) (bs : Bytes) (s : State) : State :=
  { s with pmem := s.pmem.filter (·.1 < a) ++ portCells a bs ++ s.pmem.filter (a + bs.length ≤ ·.1) }

/-! ## Free values, outputs, interrupts -/

/-- The next free number. -/
def freeNat (s : State) : Nat × State := (Config.freeNat s.free, { s with free := s.free + 1 })

/-- An item driven out of the module. -/
def emit (o : Output) (s : State) : State := { s with out := s.out ++ [o] }

/-- Items driven out in order. -/
def emits (os : List Output) (s : State) : State := { s with out := s.out ++ os }

/-- An MSI-X vector raised (R409): a masked vector sets its pending bit. -/
def raiseVector (v : Nat) (s : State) : State :=
  if s.masked.getLsbD v then { s with pendVec := s.pendVec ||| (1#32 <<< v) } else emit (.interrupt v) s

/-- The PCIe port trains (R399, R400): rate, width and Flit mode are what the partner supports, which the manual leaves
open within the characteristics table. -/
def pcieTrain (s : State) : State :=
  let rate := Config.freeNat s.free % 7
  let width := (Config.freeNat (s.free + 1) % 3)
  let s1 := emit .pcieTraining { s with free := s.free + 3 }
  if rate = 0 then objSet 0x8000 4 0 (objSet 0x8000 3 0 (objSet 0x8000 2 0 s1))
  else objSet 0x8000 4 (if Config.freeBool (s.free + 2) then 1 else 0)
    (objSet 0x8000 3 (2 ^ width) (objSet 0x8000 2 rate s1))

/-! ## Performance counters (R421 to R424, R430) -/

/-- Whether event number `v` counts in edge mode (R422). -/
def edgeMode (s : State) (v : Nat) : Bool := (octGet s 0x7000 2).getD (v / 8) 0 |>.getLsbD (v % 8)

/-- What one cycle with count `c` of an event adds (R422). -/
def countStep (edge : Bool) (last : Option Nat) (now c : Nat) : Nat :=
  if c = 0 then 0
  else if edge then (if last = some now || now ≠ 0 && last = some (now - 1) then 0 else 1)
  else c

/-- A counter advanced by `n` (R423). -/
def Counter.add (k : Counter) (now n : Nat) : Counter where
  count := (k.count + n) % 2 ^ 48
  wrap  := k.wrap || decide (2 ^ 48 ≤ k.count + n)
  last  := some now

/-- An untouched counter. -/
def Counter.zero : Counter where
  count := 0
  wrap := false
  last := none

/-- The event number, flags and period of a selector (R430). -/
def selEvent (b : Bytes) : Nat := leAt b 0 2
def selFlags (b : Bytes) : Nat := leAt b 2 1
def selPeriod (b : Bytes) : Nat := leAt b 8 8 % 2 ^ 48

/-- Whether an event is one of those a sealed job withholds (R435). -/
def eventWithheld (v : Nat) : Bool :=
  if v < 0xC000 then v % 64 == 1 || v % 64 == 3 || v % 64 == 0x1A
  else v == 0xC813 || v == 0xC814 || v == 0xC815

/-- Whether the items of R371 are withheld: from session state 3 until clearing is complete. -/
def withholding (s : State) : Bool := 3 ≤ session s && session s ≤ 5

/-- The selectors' shadow counters with `n` added for event `v` (R430, R435). -/
def shadowAdd (s : State) (v n : Nat) : List Shadow :=
  s.counting.shadows.map fun h =>
    if selFlags h.sel % 2 == 1 && selEvent h.sel == v && !(withholding s && eventWithheld v)
    then { h with count := h.count + n } else h

/-- Event `v` presents count `c` in the cycle `now` of its clock (R422). -/
def countEvent (v c now : Nat) (s : State) : State :=
  let k := mget Counter.zero s.counting.live v
  let n := countStep (edgeMode s v) k.last now c
  if c = 0 then s
  else { s with counting := { s.counting with
    live := mset Counter.zero s.counting.live v (k.add now n), shadows := shadowAdd s v n } }

/-- A module event, clocked by ticks. -/
def countModule (e c : Nat) (s : State) : State := countEvent (0xC800 + e) c s.tick s

/-- A link event, clocked by ticks. -/
def countLink (l e c : Nat) (s : State) : State := countEvent (0xC000 + 32 * l + e) c s.tick s

/-- A tile event, clocked by the tile's cycles. -/
def countTile (t e c now : Nat) (s : State) : State := countEvent (64 * t + e) c now s

/-! ## Faults (R336 to R340) -/

/-- The non-stopping codes of R461. -/
def nonStopping : List Nat :=
  [0x1005, 0x1031, 0x2007, 0x2009, 0x2010, 0x3010, 0x3011, 0x4004, 0x7001, 0x7002, 0x7003, 0x7013, 0x7020, 0x8010]

/-- The stopping codes: every other code that a table or rule of the manual defines (R461). -/
def stopping : List Nat :=
  [0x1001, 0x1003, 0x1004, 0x1010, 0x1012, 0x1013, 0x1030, 0x2001, 0x2002, 0x2003, 0x2004, 0x2005, 0x2006, 0x2008] ++
  [0x3001, 0x3002, 0x3003, 0x3004, 0x3005, 0x3006, 0x3007, 0x3008, 0x3009, 0x300A, 0x4001, 0x4002, 0x4003, 0x4005] ++
  [0x4010, 0x4011, 0x4012, 0x4013, 0x4014, 0x4015, 0x4016, 0x4020, 0x4021, 0x4022, 0x4023, 0x5001, 0x5002, 0x5003] ++
  [0x5004, 0x5005, 0x5006, 0x6001, 0x6002, 0x6003, 0x6010, 0x6020, 0x6021, 0x7010, 0x7011, 0x7012, 0x8001]

/-- Whether a code is stopping (R461). -/
def isStopping (code : Nat) : Bool := stopping.contains code

/-- The stamp of an event of this tick (R50): the counter is read after the event has passed the synchroniser, and the
synchroniser delay is subtracted. -/
def stampNow (s : State) : Nat := s.tick + objGet s 0x2100 3 - objGet s 0x2100 3

/-- The SP in force; in a held pick the pending stop pick (R336). -/
def spField (s : State) : Nat := if s.hold.held then s.hold.stop.getD s.sp else s.sp

/-- Where a fault of a tile arose: a row address, a bundle and a code-specific detail. -/
def tileSite (t addr bundle detail : Nat) : FaultSite where
  ocls   := 0
  die    := dieOf t
  oidx   := BitVec.ofNat 16 (tileX t * 2048 + tileY t * 64)
  addr   := BitVec.ofNat 32 addr
  bundle := BitVec.ofNat 14 bundle
  detail := BitVec.ofNat 18 detail
  router := none

/-- Where a fault of another unit arose: origin class, die, index. -/
def unitSite (ocls die oidx detail : Nat) : FaultSite where
  ocls   := BitVec.ofNat 4 ocls
  die    := Fin.ofNat 4 die
  oidx   := BitVec.ofNat 16 oidx
  addr   := 0
  bundle := 0
  detail := BitVec.ofNat 18 detail
  router := none

/-- A site with the address and detail fields withheld (R337). -/
def hideSite (f : FaultSite) : FaultSite := { f with addr := 0, bundle := 0, detail := 0 }

/-- The record that a die's fault unit makes (R336, R337). -/
def makeRecord (s : State) (code : Nat) (site : FaultSite) : FaultRec where
  code  := BitVec.ofNat 16 code
  flags := BitVec.ofNat 8
    ((if isStopping code then 1 else 0) + (if s.integrity.stopLine then 2 else 0) + (if s.sealedJob then 8 else 0))
  site  := if s.sealedJob then hideSite site else site
  stamp := stampNow s
  sp    := spField s
  modl  := ownCoord s

/-- A control symbol goes to the port of a link: on an up link it waits for a control position (R246). -/
def toPort (l : Nat) (o : Output) (s : State) : State :=
  let s1 := emit o (bump (0x4100 + l) 0x11 1 s)
  if linkUp s l then linkSet l { linkAt s1 l with symbols := (linkAt s1 l).symbols ++ [(s.tick, o)] } s1 else s1

/-- The FAULT symbols of a safe stop: one on every up link (R247). -/
def sendFaults (code : BitVec 16) (origin : Coord) (stamp : Nat) (s : State) : State :=
  ((List.range 36).filter (linkUp s)).foldl (fun s l => toPort l (.faultSymbol l code origin stamp) s) s

/-- The safe stop begins (R340): the stop line is asserted, the egress gates close and a FAULT symbol leaves on every
up link. A pending snapshot is abandoned (R429). -/
def beginStop (code : BitVec 16) (origin : Coord) (stamp : Nat) (s : State) : State :=
  let s1 := sendFaults code origin stamp s
  let s2 := { s1 with
    integrity := { s1.integrity with stopLine := true }
    ports := { s1.ports with egress := false }
    treadle := { s1.treadle with snapReq := none, snapAt := none } }
  if objGet s2 0x7000 4 = 1 then objSet 0x7000 4 0 s2 else s2

/-- A unit raises a fault (R336, R339, R340): the record goes to its die's fault unit; a stopping code during a job
begins the safe stop unless one has begun. -/
def raiseFault (code : Nat) (site : FaultSite) (s : State) : State :=
  let r := makeRecord s code site
  let d := site.die.val
  let s1 := { s with integrity := { s.integrity with
    dies := s.integrity.dies.set d (s.integrity.dies.getD d [] ++ [r]) } }
  if isStopping code && s.job && !s.integrity.stopLine then beginStop r.code r.modl r.stamp s1 else s1

/-- Faults raised in order. -/
def raiseFaults (fs : List (Nat × FaultSite)) (s : State) : State := fs.foldl (fun s f => raiseFault f.1 f.2 s) s

/-! ## Hold requests (R33, R41, R424) -/

/-- The budget of an activity in flits per time pick (R221); control and notice are activities 1 and 2. `none` for an
activity to which the budget table gives none. -/
def budget (s : State) (act : Nat) : Option Nat :=
  if act = 1 then some (objGet s 0x4000 2)
  else if act = 2 then some (objGet s 0x4000 3)
  else if 4 ≤ act && act ≤ 9 then some (objGet s 0x4000 act) else none

/-- What an activity has spent in die `d` in this time pick (R221). -/
def spentBy (s : State) (d act : Nat) : Nat := mget 0 s.net.spent (16 * d + act)

/-- That amount set. -/
def setSpent (d act n : Nat) (s : State) : State :=
  { s with net := { s.net with spent := mset 0 s.net.spent (16 * d + act) n } }

/-- Whether an activity has spent its budget in die `d` in this time pick (R221). -/
def isSpent (s : State) (d act : Nat) : Bool :=
  match budget s act with
  | none => false
  | some b => decide (b ≤ spentBy s d act)

/-- The level of an activity (R219): 0 control, 1 notice, 2 bulk. -/
def levelOf (act : Nat) : Nat := if act = 1 then 0 else if act = 2 then 1 else 2

/-- An item of a class B packet goes on its way: a frame for a link joins the class B queue of its port, what is for a
unit of the module reaches it. -/
def depart (s : State) (o : Output) : State :=
  match o with
  | .classB l level f => linkSet l { linkAt s l with bulk := (linkAt s l).bulk ++ [(s.tick, level, f)] } s
  | .controlWord l k tr w => toPort l (.controlWord l k tr w) s
  | .landing _ _ _ => { s with net := { s.net with arrived := s.net.arrived ++ [o] } }
  | .stagingIn _ _ _ _ => { s with net := { s.net with arrived := s.net.arrived ++ [o] } }
  | .sampleIn _ _ => { s with net := { s.net with arrived := s.net.arrived ++ [o] } }
  | .chainIn _ _ _ => { s with net := { s.net with arrived := s.net.arrived ++ [o] } }
  | .wordIn _ _ => { s with net := { s.net with arrived := s.net.arrived ++ [o] } }
  | .noticeIn _ _ => { s with net := { s.net with arrived := s.net.arrived ++ [o] } }
  | .backAck _ _ => { s with net := { s.net with arrived := s.net.arrived ++ [o] } }
  | o => emit o s

/-- A packet of an activity leaves its injection point in die `d`: its flits count against the budget (R221). -/
def departAll (d : Nat) (w : WaitB) (s : State) : State :=
  w.items.foldl depart (setSpent d w.act (spentBy s d w.act + w.flits) s)

/-- A class B packet of `n` flits enters the mesh of die `d` (R221), or waits at its injection point, in the buffer of its
level, where its activity has spent its budget in this time pick or others of its activity wait already. Outside a job
there are no time picks and nothing waits. -/
def inject (d act n : Nat) (items : List Output) (s : State) : State :=
  let w : WaitB := { act := act, flits := n, items := items }
  let k := 3 * d + levelOf act
  let queue := s.net.waiting.getD k []
  if items.isEmpty then s
  else if !s.job || !isSpent s d act && !queue.any (·.act == act) then departAll d w s
  else
    countModule 0x18 1 (bump 0x4000 0x12 1 { s with net := { s.net with
      waiting := s.net.waiting.set k (queue ++ [w]) } })

/-- Whether a unit may raise a hold request: none is raised while the slice is held or in a safe stop (R41, R340). -/
def mayHold (s : State) : Bool := s.job && !s.hold.held && !s.integrity.stopLine

/-- A unit of die `d` raises a hold request, which travels to the hold unit as a control flit (R41, R222). -/
def sendHold (d : Nat) (r : HoldReq) (s : State) : State := if mayHold s then inject d 1 1 [.holdRequest r] s else s

/-- The same of a unit with a hold-origin event, which counts at once (R424): the caller names it. -/
def raiseHold (event now d : Nat) (r : HoldReq) (s : State) : State :=
  if mayHold s then sendHold d r (countEvent event 1 now s) else s

/-- A hold request of a tile: reason 1 counts in tile event 0x30, reason 3 in 0x31. -/
def tileHold (t sp reason now : Nat) (s : State) : State :=
  raiseHold (64 * t + (if reason = 3 then 0x31 else 0x30)) now (dieOf t).val
    { sp := sp, reason := BitVec.ofNat 8 reason, ocls := 0,
      oidx := BitVec.ofNat 10 (tileX t * 32 + tileY t), count := 1 } s

/-- A hold request of a link, reason 2 (link event 0x06), or of its selvedge port, reason 1 (link event 0x07). -/
def linkHold (l sp reason : Nat) (s : State) : State :=
  raiseHold (0xC000 + 32 * l + (if reason = 2 then 6 else 7)) s.tick (l / 9)
    { sp := sp, reason := BitVec.ofNat 8 reason, ocls := if reason = 2 then 3 else 2,
      oidx := BitVec.ofNat 10 (if reason = 2 then l else l / 9), count := 1 } s

/-- A hold request of the selvedge region of a die that has overrun SP `sp` (R32). -/
def portsHold (d sp : Nat) (s : State) : State :=
  sendHold d { sp := sp, reason := 3, ocls := 2, oidx := BitVec.ofNat 10 d, count := 1 } s

/-- A hold request of another unit: its module event, origin class and die. -/
def unitHold (event ocls die sp reason count : Nat) (s : State) : State :=
  raiseHold (0xC800 + event) s.tick die
    { sp := sp, reason := BitVec.ofNat 8 reason, ocls := BitVec.ofNat 4 ocls, oidx := BitVec.ofNat 10 die,
      count := count } s

/-! ## The effect of a slot command -/

/-- What a command of a tile does beyond its own tile: rows written, counts, events, faults, hold requests, items
driven out, free values drawn. -/
structure Fx where
  /-- row address and frame, in order -/
  rows   : List (Nat × RowFrame)
  /-- object entry and amount -/
  bumps  : List ((Nat × Nat) × Nat)
  /-- tile event code and amount -/
  events : List (Nat × Nat)
  faults : List (Nat × FaultSite)
  /-- request SP and reason -/
  holds  : List (Nat × Nat)
  outs   : List Output
  /-- largest row exponent register seen at a drain (0x3200:0A) -/
  expo   : Option Int
  frees  : Nat
  /-- beam rows queued for write-back (R108), by row address -/
  fixes  : List Nat
  /-- accesses of beam rows requested: row, cycle, rank, number of the operation (R99) -/
  asks   : List (Nat × Nat × Nat × Nat)
  /-- local stalls of issue: cycle of the tile's own count and length; beam accesses of vector operations move (R173) -/
  stalls : List (Nat × Nat)
  deriving DecidableEq, Repr

/-- No effect. -/
def Fx.none : Fx where
  rows := []
  bumps := []
  events := []
  faults := []
  holds := []
  outs := []
  expo := .none
  frees := 0
  fixes := []
  asks := []
  stalls := []

/-- One effect after another. -/
def Fx.also (a b : Fx) : Fx where
  rows := a.rows ++ b.rows
  bumps := a.bumps ++ b.bumps
  events := a.events ++ b.events
  faults := a.faults ++ b.faults
  holds := a.holds ++ b.holds
  outs := a.outs ++ b.outs
  expo := match a.expo, b.expo with
    | .some x, .some y => some (max x y)
    | .some x, .none => some x
    | .none, e => e
  frees := a.frees + b.frees
  fixes := a.fixes ++ b.fixes
  asks := a.asks ++ b.asks
  stalls := a.stalls ++ b.stalls

/-- A count of the object dictionary. -/
def Fx.bump (i j n : Nat) : Fx := { Fx.none with bumps := [((i, j), n)] }
/-- A tile event. -/
def Fx.event (e n : Nat) : Fx := { Fx.none with events := [(e, n)] }
/-- A fault of the tile. -/
def Fx.fault (code : Nat) (site : FaultSite) : Fx := { Fx.none with faults := [(code, site)] }
/-- Row frames written. -/
def Fx.put (rows : List (Nat × RowFrame)) : Fx := { Fx.none with rows := rows }
/-- Items driven out. -/
def Fx.send (os : List Output) : Fx := { Fx.none with outs := os }

/-! ## A tile's own count of cycles (R25, R100) -/

/-- The tile's own count of the first of its cycles that is not before cycle `c`. -/
def Tile.count (c : Nat) (t : Tile) : Nat := c - (t.stops.filter (· < c)).length

/-- The cycle in which the tile's own count is `l`. -/
def Tile.cycleOf (l : Nat) (t : Tile) : Nat := t.stops.foldl (fun c x => if x ≤ c then c + 1 else c) l

/-- The tile's clock stands still in cycle `c`. -/
def Tile.stopAt (c : Nat) (t : Tile) : Tile :=
  if t.stops.contains c then t else { t with stops := t.stops.filter (· < c) ++ c :: t.stops.filter (c < ·) }

/-- The cycle in which a read takes place. -/
def Tile.readAt (r : RowRead) (t : Tile) : Nat := t.cycleOf r.due + r.slip

/-- The columns that a tile reaches, and the tiles that reach a column: its own and the four beside it (R98). -/
def columnsOf (t : Nat) : List Nat := [t, t + 1, t - 1, t + 24, t - 24].eraseDups

/-! ## Rows written -/

/-- What the reads in flight of a tile see of a row whose write is readable from cycle `w` (R91, R92, R102): those due
from then on the new frame. -/
def Tile.see (a w : Nat) (f : RowFrame) (t : Tile) : Tile :=
  if t.pipe = [] then t
  else { t with pipe := t.pipe.map fun p => { p with
      reads := p.reads.map fun r =>
        if r.addr = a && w ≤ t.readAt r && r.val.isSome then { r with val := some f } else r } }

/-- The frame whose contents R103 leaves open. -/
def openFrame (s : State) (a : Nat) (f : RowFrame) : RowFrame := { f with data := slice (Config.freeRow s.free a) 0 512 }

/-- What the reads in flight of a tile see of a beam row written by another, readable from cycle `w`, its issue cycle
plus 8 (R103): those at least 9 cycles after the issue the new frame, those after it and nearer contents that are not
defined. -/
def Tile.seeBeside (s : State) (a w : Nat) (f : RowFrame) (t : Tile) : Tile :=
  if t.pipe = [] then t
  else { t with pipe := t.pipe.map fun p => { p with
      reads := p.reads.map fun r =>
        if r.addr = a && r.val.isSome then
          if w < t.readAt r then { r with val := some f }
          else if w ≤ t.readAt r + 8 then { r with val := some (openFrame s a f) } else r
        else r } }

/-- The reads in flight of the other tiles that reach the column of a beam row see it written. -/
def seenBeside (t w a : Nat) (f : RowFrame) (s : State) : State :=
  if addrSpace a ≠ 1 then s
  else match addrTile a with
  | none => s
  | some u =>
    let near := (columnsOf u).filter fun v => v != t && (tileAt s v).pipe.any fun p =>
      p.reads.any fun r => r.addr == a
    if near.isEmpty then s
    else
      let s1 := near.foldl (fun s v => tileSet v ((tileAt s v).seeBeside s a w f) s) s
      { s1 with free := s1.free + 1 }

/-- A write of a row removes it from the write-back queue of its slice (R110). -/
def dropFix (a : Nat) (s : State) : State :=
  match addrTile a with
  | none => s
  | some u =>
    let col := tileAt s u
    if addrSpace a = 1 && col.writeBack.any (·.1 == addrRow a) then
      bump 0x3100 0xA 1 (tileSet u { col with writeBack := col.writeBack.filter (·.1 != addrRow a) } s)
    else s

/-- A row written by tile `t`, readable from cycle `w`: stored, its landed bit untouched, seen by the reads in flight
that are due from then on, a write-back of the row removed (R110). -/
def rowWrite (t w a : Nat) (f : RowFrame) (s : State) : State :=
  let s1 := rowPut a f s
  dropFix a (seenBeside t w a f (tileSet t ((tileAt s1 t).see a w f) s1))

/-! ## Local stalls (R31) -/

/-- Whether an operation runs in the vector pipeline. -/
def InFlight.vector (p : InFlight) : Bool := match p.work with
  | .v _ _ => true
  | _ => false

/-- An operation that a local stall of `k` cycles from cycle `f` holds. -/
def InFlight.hold (f k : Nat) (p : InFlight) : InFlight :=
  { p with issue := p.issue + k, reads := p.reads.map fun r => if f ≤ r.due then { r with due := r.due + k } else r }

/-- Claim codes: beam ports A, B and W, bobbin ports read 0 to 3 and write 0 and 1 (R88, R96); rows written. -/
def portA : Nat := 0
def portB : Nat := 1
def portW : Nat := 2
def portRead (i : Nat) : Nat := 3 + i
def portWrite (i : Nat) : Nat := 7 + i
def rowClaim (a : Nat) : Nat := 16 + a

/-- Issue to data of a row read (R58, R97). -/
def readLat (t a : Nat) : Nat :=
  if addrSpace a = 1 then Config.beamRead (addrTile a != some t) else 1

/-- The cycle in which destination row `k` of a transfer is written: the source data at their latency, one row a
cycle. -/
def moveWrite (t : Nat) (reads : List RowRead) : Nat → Nat
  | 0 => match reads[0]? with
    | some r => r.due + readLat t r.addr
    | none => 0
  | k + 1 => match reads[k + 1]? with
    | some r => max (r.due + readLat t r.addr) (moveWrite t reads k + 1)
    | none => 0

/-- The cycle of tile `t` from which a local stall that holds a claim of an operation moves it: a claim of a read from
the stall on, one of a transfer's write from the write of the first row that is read from then on. -/
def InFlight.movesFrom (t f : Nat) (write : Bool) (p : InFlight) : Nat :=
  match p.work with
  | .move _ _ =>
    if write then moveWrite t p.reads ((p.reads.takeWhile fun r => decide (r.due < f)).length) else f
  | _ => f

/-- Whether a claim is of a write: of a write port or of a row written. -/
def writeClaim (code : Nat) : Bool := code == portW || decide (7 ≤ code)

/-- A tile local-stalls for `k` cycles from cycle `f` of its own count (R31): its issue and its vector pipeline are
held (R173), and the operations that the stall is for, with their claims; its other pipelines run on (R133). A sender
moves with a send that is held before its first row has left (R209). -/
def Tile.hold (me f k : Nat) (held : InFlight → Bool) (t : Tile) : Tile :=
  if k = 0 then t else
  let move (x : Nat) := if f ≤ x then x + k else x
  let mine := t.pipe.filter held
  let sends := mine.filter fun p => p.done == 0 && (match p.work with | .send _ _ => true | _ => false)
  let drains := mine.any fun p => match p.work with | .drain _ _ _ => true | _ => false
  { t with
    seq := { t.seq with cycle := t.seq.cycle + k, stall := t.seq.stall + k }
    pipe := t.pipe.map fun p => if p.vector || held p then p.hold f k else p
    drainBusy := if drains then move t.drainBusy else t.drainBusy
    senders := if sends.isEmpty then t.senders else t.senders.map move
    claims := t.claims.map fun x => match mine.find? (·.id == x.2.2) with
      | none => x
      | some p => if p.movesFrom me f (writeClaim x.1) ≤ x.2.1 then (x.1, x.2.1 + k, x.2.2) else x
    vclaims := t.vclaims.map fun x => (x.1, move x.2) }

/-- A beam row queued for write-back in its slice's queue of 4 (R108). -/
def queueFix (a : Nat) (s : State) : State :=
  match addrTile a with
  | none => s
  | some u =>
    let col := tileAt s u
    let r := addrRow a
    if col.writeBack.any (·.1 == r) || 4 ≤ (col.writeBack.filter (·.1 % 24 == r % 24)).length then s
    else tileSet u { col with writeBack := col.writeBack ++ [(r, false)] } s

/-- Ranks of R99, ten apart; the neighbours of ranks 2 and 4 in the order +x, −x, +y, −y of the requester as the
column sees it. -/
def ownStatic : Nat := 10
def ownData : Nat := 30
def rankLanding : Nat := 50
def rankWriteBack : Nat := 60
def rankBackground : Nat := 70

/-- The tile whose access holds a claim of column `u` with a rank. -/
def rankTile (u rank : Nat) : Nat :=
  if rank % 10 = 1 then u + 1 else if rank % 10 = 2 then u - 1
  else if rank % 10 = 3 then u + 24 else if rank % 10 = 4 then u - 24 else u

/-! ## Slice arbitration (R99 to R101) -/

/-- Whether access `x` is refused for access `y` of its slice: `y` keeps the slice busy, or goes before it in the same
cycle, `x` listed after it where they rank alike. Landings, write-backs and background accesses refuse no tile. -/
def Access.losesTo (x y : Access) (later : Bool) : Bool :=
  x.slice == y.slice && decide (x.rank < rankLanding) && decide (y.rank < rankLanding) &&
    (x.cycle == y.cycle + 1 || x.cycle == y.cycle && (decide (y.rank < x.rank) || x.rank == y.rank && later))

/-- The refused access of earliest cycle among some of a slice's column, each judged against all of them. -/
def refusedGo (all : List Access) : Nat → List Access → Option Access
  | _, [] => none
  | i, x :: r =>
    let rest := refusedGo all (i + 1) r
    if all.zipIdx.any fun y => y.2 != i && x.losesTo y.1 (decide (y.2 < i)) then
      match rest with
      | some z => if z.cycle < x.cycle then some z else some x
      | none => some x
    else rest

/-- The refused access of earliest cycle in some columns, with its column. -/
def refusedFirst (s : State) : List Nat → Option (Nat × Access)
  | [] => none
  | u :: r =>
    match refusedGo (tileAt s u).slices 0 (tileAt s u).slices, refusedFirst s r with
    | none, z => z
    | some x, none => some (u, x)
    | some x, some z => if z.2.cycle < x.cycle then some z else some (u, x)

/-- The accesses of tile `t` after cycle `c` come one cycle later. -/
def slipAccesses (t c : Nat) (s : State) : State :=
  (columnsOf t).foldl (fun s u =>
    let col := tileAt s u
    let mine := fun e : Access => decide (e.rank < rankLanding) && rankTile u e.rank == t && decide (c < e.cycle)
    if col.slices.any mine then
      tileSet u { col with slices := col.slices.map fun e => if mine e then { e with cycle := e.cycle + 1 } else e } s
    else s) s

/-- The clock of tile `t` stands still in the cycle after `c`: what it still has to do comes a cycle later. -/
def stopTile (t c : Nat) (s : State) : State :=
  if (tileAt s t).stops.contains (c + 1) then s
  else slipAccesses t c (tileSet t ((tileAt s t).stopAt (c + 1)) s)

/-- Slice `x.slice` of column `u` refuses access `x` (R100): it retries in the next cycle, in which its tile freezes; a
freeze is a local stall, and counts once a cycle. -/
def refuse (u : Nat) (x : Access) (s : State) : State :=
  let t := rankTile u x.rank
  let fresh := !(tileAt s t).stops.contains (x.cycle + 1)
  let s1 := stopTile t x.cycle s
  let col := tileAt s1 u
  let s2 := tileSet u { col with slices := col.slices.erase x ++ [{ x with cycle := x.cycle + 1 }] } s1
  let tile := tileAt s2 t
  let here := fun r : RowRead => addrSpace r.addr == 1 && addrTile r.addr == some u
    && addrRow r.addr % 24 == x.slice && tile.readAt r == x.cycle
  let s3 := tileSet t { tile with pipe := tile.pipe.map fun p =>
    if p.id = x.op then { p with reads := p.reads.map fun r => if here r then { r with slip := r.slip + 1 } else r } else p } s2
  if fresh then countTile t 1 1 (x.cycle + 1) (countTile t 3 1 (x.cycle + 1) (bump 0x3100 0xD 1 s3)) else s3

/-- Refused accesses of some columns in the order of their cycles, one a time; a tile that freezes brings in the columns
it reaches. -/
def arbitrate : Nat → List Nat → State → State
  | 0, _, s => s
  | k + 1, us, s =>
    match refusedFirst s us with
    | none => s
    | some (u, x) => arbitrate k (us ++ columnsOf (rankTile u x.rank)).eraseDups (refuse u x s)

/-- Accesses of beam rows are requested: row, cycle, rank, number of the operation. Accesses long past are dropped. -/
def requestAccess (x : Nat × Nat × Nat × Nat) (s : State) : State :=
  match addrTile x.1 with
  | none => s
  | some u =>
    let col := tileAt s u
    tileSet u { col with slices := col.slices.filter (x.2.1 ≤ ·.cycle + 512) ++
      [{ slice := addrRow x.1 % 24, cycle := x.2.1, rank := x.2.2.1, op := x.2.2.2 }] } s

/-- A bound on the refused cycles that the accesses of State can meet. -/
def arbFuel (s : State) : Nat := 2 * ((s.tiles.map (·.2.slices.length)).foldl (· + ·) 0) ^ 2 + 2

/-- Accesses requested by a tile and what the slices make of them (R99, R100). -/
def requestAll (xs : List (Nat × Nat × Nat × Nat)) (s : State) : State :=
  if xs.isEmpty then s
  else
    let s1 := xs.foldl (fun s x => requestAccess x s) s
    arbitrate (arbFuel s1) (xs.filterMap fun x => addrTile x.1).eraseDups s1

/-- The accesses of the operations that a local stall of `k` cycles from cycle `c` holds come as much later. -/
def holdAccesses (t c k : Nat) (ids : List Nat) (s : State) : State :=
  (columnsOf t).foldl (fun s u =>
    let col := tileAt s u
    let mine := fun e : Access =>
      decide (e.rank < rankLanding) && rankTile u e.rank == t && decide (c ≤ e.cycle) && ids.contains e.op
    if col.slices.any mine then
      tileSet u { col with slices := col.slices.map fun e => if mine e then { e with cycle := e.cycle + k } else e } s
    else s) s

/-- Local stalls of issue move the accesses of the vector operations in flight (R173). -/
def stallAccesses (t : Nat) (x : Nat × Nat) (s : State) : State :=
  let tile := tileAt s t
  holdAccesses t (tile.cycleOf x.1) x.2 ((tile.pipe.filter (·.vector)).map (·.id)) s

/-- A landing, a write-back or a background access is served in cycle `c` (R101). -/
def serveSlice (a c rank : Nat) (s : State) : State := requestAccess (a, c, rank, 0) s

/-- The spare store of a row: a slice of its column, or a bank of its bobbin; `none` for other spaces (R113). -/
def spareKey (a : Nat) : Option Nat :=
  match addrTile a with
  | none => none
  | some u =>
    if addrSpace a = 1 then some (24 * u + addrRow a % 24)
    else if addrSpace a = 0 then some (18432 + 8 * u + addrRow a % 8) else none

/-- Spare rows of a store: 128 of a slice, 8 of a bank. -/
def spareRows (key : Nat) : Nat := if key < 18432 then 128 else 8

/-- Spares of a store found unusable by self-test (R352). -/
def spareBad (s : State) (key : Nat) : Nat :=
  let who := if key < 18432 then (1, key / 24, key % 24) else (2, (key - 18432) / 8, (key - 18432) % 8)
  (s.integrity.unusable.filter (· == who)).length

/-- Spares of a store that no mapped or marked row needs. -/
def spareLeft (s : State) (key : Nat) : Nat :=
  spareRows key - (mget 0 s.integrity.spareUse key + spareBad s key
    + (s.integrity.markRows.filter fun a => spareKey a == some key).length)

/-- The repair table in force. -/
def tableOf (i : Integrity) : RepairTable where
  markRows := i.markRows
  markTiles := i.markTiles
  markPorts := i.markPorts
  mapped := i.mapped
  shifts := i.shifts
  spareUse := i.spareUse
  portUse := i.portUse

/-- The repair table is written to the copy of lower sequence, with the higher sequence plus 1 (R349). -/
def tableWrite (s : State) : State :=
  match s.integrity.copies with
  | [a, b] =>
    let n := (max a.1 b.1 + 1, tableOf s.integrity)
    { s with integrity := { s.integrity with copies := if a.1 ≤ b.1 then [n, b] else [a, n] } }
  | _ => s

/-- A row is marked for repair (R113); with no spare left that is the hard fault 0x2007 (R115). -/
def markRow (a : Nat) (s : State) : State :=
  match spareKey a, addrTile a with
  | some key, some u =>
    if s.integrity.markRows.contains a then s
    else if spareLeft s key = 0 then raiseFault 0x2007 (tileSite u a 0 0) s
    else bump 0x3100 0xC 1 (tableWrite { s with integrity := { s.integrity with
      markRows := s.integrity.markRows ++ [a] } })
  | _, _ => s

/-- Rows that faults of a read name are marked for repair (R113). -/
def markFaulted (fs : List (Nat × FaultSite)) (s : State) : State :=
  fs.foldl (fun s f => if f.1 = 0x2001 || f.1 = 0x2002 || f.1 = 0x2003 then markRow f.2.addr.toNat s else s) s

/-- The effect of a slot command of tile `t` in cycle `c` applied. -/
def applyFx (t c : Nat) (x : Fx) (s : State) : State :=
  let s1 := x.rows.foldl (fun s r => rowWrite t c r.1 r.2 s) s
  let s2 := x.bumps.foldl (fun s b => bump b.1.1 b.1.2 b.2 s) s1
  let s3 := x.events.foldl (fun s e => countTile t e.1 e.2 c s) s2
  let s4 := { s3 with free := s3.free + x.frees, out := s3.out ++ x.outs }
  let s5 := match x.expo with
    | none => s4
    | some e => if signed 16 (objGet s4 0x3200 0xA) < e then objSet 0x3200 0xA (unsigned 16 e) s4 else s4
  let s6 := x.holds.foldl (fun s h => tileHold t h.1 h.2 c s) s5
  let s7 := x.fixes.foldl (fun s a => queueFix a s) s6
  markFaulted x.faults (raiseFaults x.faults (requestAll x.asks (x.stalls.foldl (fun s a => stallAccesses t a s) s7)))

/-- A tile command: the tile's new state and its effect on the rest. -/
def onTile (t : Nat) (c : Nat) (f : State → Tile → Tile × Fx) (s : State) : State :=
  let r := f s (tileAt s t)
  applyFx t c r.2 (tileSet t r.1 s)

/-! ## Time passing -/

/-- One tick of the time base with no command waiting. -/
def idleTick (s : State) : State := { s with tick := s.tick + 1 }

end Sys2Proof.Machine
end

