-- ==== Sys2Proof/Machine/Operands.lean ====
section
/-! DEFINITION. Operands of slots: base words and effective rows (R75, R76, R463), the correction stage of a read
(R105 to R108), port and row claims (R69, R89, R96, R104), slice arbitration (R99, R100), issue in the sequencer
(R67, R70), local stalls (R31). -/

namespace Sys2Proof.Machine

/-! ## Base words and effective rows -/

/-- The latency profile in force (0x1001:04): the loaded pattern's; the native one where none is loaded (R4). -/
def profile (s : State) : Nat :=
  match s.pattern with
  | none => Config.nativeProfile s.ident.stepping
  | some p => p.latency

/-- The tile group of a tile in the loaded pattern (R276): 0xFF for none. -/
def groupOf (s : State) (t : Nat) : Nat :=
  match s.pattern with
  | none => 0xFF
  | some p => p.map.getD t 0xFF

/-- A base word of a tile: words 0 to 11 as the loader placed them, 12 to 15 as the treadle loaded them (R75). -/
def baseWord (s : State) (t : Nat) (tile : Tile) (b : Nat) : Nat :=
  if b < 12 then
    match s.pattern with
    | none => 0
    | some p => ((p.bases.getD (groupOf s t) []).getD b 0).toNat
  else (tile.base.getD (b - 12) 0).toNat

/-- The tile that a T-slot column field names (R463): `none` off the grid. -/
def colTile (t col : Nat) : Option Nat :=
  if col = 0 then some t
  else if col = 1 then (if tileX t < 23 then some (t + 1) else none)
  else if col = 2 then (if 0 < tileX t then some (t - 1) else none)
  else if col = 3 then (if tileY t < 31 then some (t + 24) else none)
  else if col = 4 then (if 0 < tileY t then some (t - 24) else none)
  else none

/-- The effective rows of an operand of `n` rows, as row addresses; on an address fault (R76, R463) the address that
the record names. Space 1 operands of the T slot are moved by the column field. -/
def operandRows (s : State) (t : Nat) (tile : Tile) (base off n : Nat) (spaces : List Nat) (col : Nat) :
    Except Nat (List Nat) :=
  let w := baseWord s t tile base
  let space := addrSpace w
  let row := addrRow w + off
  match colTile t (if space = 1 then col else 0) with
  | none => .error (rowAddr t space row % 2 ^ 32)
  | some u =>
    if spaces.contains space && row + n ≤ spaceRows space
    then .ok ((List.range n).map fun i => rowAddr u space (row + i))
    else .error (rowAddr u space row % 2 ^ 32)

/-! ## The correction stage -/

/-- The codeword of a bit of a row frame (R465): 32 for the trailer's. -/
def codewordOf (b : Nat) : Nat := if b < 4096 then b % 32 else 32

/-- Upset bits in each of the 33 codewords of a row. -/
def upsetCounts (s : State) (a : Nat) : List Nat :=
  let fl := mget [] s.upsets a
  (List.range 33).map fun w => (fl.filter (codewordOf · == w)).length

/-- A frame with stored bits flipped. -/
def flipFrame (bits_ : List Nat) (f : RowFrame) : RowFrame :=
  frameOf (bits_.foldl (fun bs b => bs.set (b / 8) (bs.getD (b / 8) 0 ^^^ (1#8 <<< (b % 8)))) (frameBytes f))

/-- What a read of a row meets (R105, R106): the frame delivered, codewords corrected, whether a codeword is
uncorrectable. Of three or more upsets in one codeword the manual states no outcome: whether the code detects them is
a free value, and an undetected one delivers the stored bits. -/
structure Fetched where
  frame     : RowFrame
  corrected : Nat
  bad       : Bool
  deriving DecidableEq, Repr

/-- A read of a row through the correction stage. -/
def fetchRow (s : State) (a : Nat) : Fetched :=
  let fl := mget [] s.upsets a
  if fl = [] then { frame := rowGet s a, corrected := 0, bad := mget false s.poison a }
  else
    let n := upsetCounts s a
    let many := n.any (2 < ·)
    { frame := if many then flipFrame fl (rowGet s a) else rowGet s a
      corrected := (n.filter (· == 1)).length
      bad := mget false s.poison a || n.any (· == 2) || many && Config.freeBool s.free }

/-- What a read of a row by tile `t` does beyond delivering it (R105 to R108, R169): corrected reads count and queue a
write-back, an uncorrectable codeword or, from the beam, a proof word mismatch raises its fault. -/
def fetchFx (s : State) (t a bundle : Nat) : Fx :=
  let r := fetchRow s a
  let space := addrSpace a
  let site := tileSite t a bundle 0
  let fix : Fx :=
    if r.corrected = 0 then { Fx.none with frees := if (upsetCounts s a).any (2 < ·) then 1 else 0 }
    else
      { Fx.none with
        bumps := [(if space = 1 then (0x3100, 4) else if space = 0 then (0x3100, 5) else (0x3200, 0x13), 1)]
        events := [(0x22, r.corrected)]
        frees := if (upsetCounts s a).any (2 < ·) then 1 else 0
        fixes := if space = 1 then [a] else [] }
  if r.bad then
    fix.also (Fx.fault (if space = 1 then 0x2001 else if space = 0 then 0x2002 else 0x3009) site)
  else if space = 1 && !proofOk r.frame then fix.also (Fx.fault 0x2003 site)
  else fix

/-- Whether a tile has claimed something for cycle `c`. -/
def Tile.claims? (t : Tile) (code c : Nat) : Bool :=
  t.claims.any (fun k => k.1 == code && t.cycleOf k.2.1 == c) || t.vclaims.any fun k => k.1 == code && t.cycleOf k.2 == c

/-- Whether another tile wrote a beam row less than 9 cycles before a read of it by tile `t` in cycle `c` (R103): which
contents the read returns is not defined. -/
def unsettled (s : State) (t a c : Nat) : Bool :=
  if addrSpace a ≠ 1 then false
  else match addrTile a with
  | none => false
  | some u => (columnsOf u).any fun v => v != t && (List.range 9).any fun k => decide (k ≤ c) && (tileAt s v).claims? (rowClaim a) (c - k)

/-- The frame that a read of tile `t` in its cycle `due` delivers. -/
def readFrame (s : State) (t a due : Nat) : RowFrame :=
  if unsettled s t a ((tileAt s t).cycleOf due) then openFrame s a (fetchRow s a).frame else (fetchRow s a).frame

/-- The reads of an operation, at their cycles: a row that the read awaits and that has not landed is not read yet. -/
def readsOf (s : State) (t : Nat) (await : Bool) (rows : List (Nat × Nat)) : List RowRead :=
  rows.map fun r =>
    { addr := r.1, due := r.2, slip := 0, await := await
      val := if await && !isLanded s r.1 then none else some (readFrame s t r.1 r.2) }

/-- The effects of those reads that find their rows. -/
def readsFx (s : State) (t bundle : Nat) (await : Bool) (rows : List (Nat × Nat)) : Fx :=
  let x := rows.foldl (fun x r => if await && !isLanded s r.1 then x else x.also (fetchFx s t r.1 bundle)) Fx.none
  if rows.any (fun r => unsettled s t r.1 ((tileAt s t).cycleOf r.2)) then { x with frees := x.frees + 1 } else x

/-! ## Claims -/

/-- Whether a claim is already taken in its cycle. -/
def Tile.taken (t : Tile) (x : Nat × Nat) : Bool := t.claims.any (fun k => k.1 == x.1 && k.2.1 == x.2) || t.vclaims.contains x

/-- Claims made in a tile: the tile with them, and the first that was already taken in its cycle (R69, R89, R96,
R104). Claims long past are dropped. -/
def Tile.claim (now op : Nat) (new : List (Nat × Nat)) (t : Tile) : Tile × Option (Nat × Nat) :=
  ({ t with claims := t.claims.filter (now ≤ ·.2.1 + 512) ++ new.map fun x => (x.1, x.2, op) }, new.find? t.taken)

/-- The same of an operation of the vector pipeline. -/
def Tile.claimV (now : Nat) (new : List (Nat × Nat)) (t : Tile) : Tile × Option (Nat × Nat) :=
  ({ t with vclaims := t.vclaims.filter (now ≤ ·.2 + 512) ++ new }, new.find? t.taken)

/-- The first of claims of tile `t` on a beam row that another tile which reaches the column has made for the same cycle
(R104). -/
def takenBeside (s : State) (t : Nat) (new : List (Nat × Nat)) : Option (Nat × Nat) :=
  new.find? fun x => decide (16 ≤ x.1) && addrSpace (x.1 - 16) == 1 &&
    match addrTile (x.1 - 16) with
    | none => false
    | some u => (columnsOf u).any fun v => v != t && (tileAt s v).claims? x.1 ((tileAt s t).cycleOf x.2)

/-- The effect of a claim that was taken: fault 0x2005. -/
def claimFx (t bundle : Nat) (hit : Option (Nat × Nat)) : Fx :=
  match hit with
  | none => Fx.none
  | some x => Fx.fault 0x2005 (tileSite t (if 16 ≤ x.1 then x.1 - 16 else 0) bundle 0)

/-! ## Slice arbitration (R99, R100) -/

/-- Where tile `t` lies as seen from column `u`: 0 own, 1 +x, 2 −x, 3 +y, 4 −y. -/
def sideOf (t u : Nat) : Nat :=
  if t = u then 0
  else if t = u + 1 then 1
  else if t + 1 = u then 2
  else if t = u + 24 then 3
  else 4

/-- The rank of an access of tile `t` to column `u`, static or data-dependent. -/
def rankOf (t u : Nat) (static : Bool) : Nat :=
  if static then (if t = u then ownStatic else 20 + sideOf t u) else (if t = u then ownData else 40 + sideOf t u)

/-- The accesses that reads and writes of operation `op` of tile `t` make to beam rows, at cycles of the tile's own count
(R99). -/
def asksOf (t : Nat) (tile : Tile) (static : Bool) (op : Nat) (rows : List (Nat × Nat)) : List (Nat × Nat × Nat × Nat) :=
  rows.filterMap fun x =>
    if addrSpace x.1 = 1 then (addrTile x.1).map fun u => (x.1, tile.cycleOf x.2, rankOf t u static, op) else none

/-- After a local stall has moved claims from cycle `f` on: the first that now meets another (R69, R89, R96, R104). -/
def heldClash (s : State) (t f : Nat) (tile : Tile) : Option (Nat × Nat) :=
  let all := ((tile.claims.map fun x => (x.1, x.2.1)) ++ tile.vclaims).filter (f ≤ ·.2)
  (all.find? fun x => decide (1 < (all.filter (· == x)).length)).or (takenBeside s t all)

/-- Tile `t` local-stalls for `k` cycles from cycle `f` of its own count, for the operations `held` (R31, R173): claims
that meet others by it are fault 0x2005, and moved accesses of beam slices are arbitrated anew. -/
def holdTile (t f k : Nat) (held : InFlight → Bool) (s : State) : State :=
  if k = 0 then s
  else
    let tile := tileAt s t
    let ids := (tile.pipe.filter fun p => p.vector || held p).map (·.id)
    let tile1 := tile.hold t f k held
    let s1 := holdAccesses t (tile.cycleOf f) k ids (tileSet t tile1 s)
    let s2 := match heldClash s1 t f tile1 with
      | none => s1
      | some x => raiseFault 0x2005 (tileSite t (if 16 ≤ x.1 then x.1 - 16 else 0) tile.seq.bundle 0) s1
    arbitrate (arbFuel s2) (columnsOf t) s2

/-! ## Issue -/

/-- Whether regions still issue: none begins a cycle once a safe stop has reached its boundary (R340). -/
def issuing (s : State) : Bool := stopState s == 0

/-- The bundle `n` cycles on from a bundle, an open SELECT arm passed over at its end (R71). -/
def bundleOn (q : Sequencer) (n : Nat) : Nat × Option (Nat × Nat) :=
  match q.arm with
  | none => (q.bundle + n, none)
  | some (last, len) => if q.bundle + n ≤ last then (q.bundle + n, q.arm) else (q.bundle + n + len, none)

/-- The sequencer as the bundle of cycle `c` of its own count issues. -/
def Sequencer.advance (c : Nat) (q : Sequencer) : Sequencer :=
  if c ≤ q.cycle then q
  else
    let b := bundleOn q (c - q.cycle)
    { q with cycle := c, bundle := b.1, arm := b.2 }

/-- The bundle of cycle `c` of the tile's own count issues (R27): a schedule runs, the tile does not stand at its
pick-boundary wait, in which only the bundle that began it has issued, and the pick has had fewer than 128 scheduled
cycles. -/
def Sequencer.issues (c : Nat) (q : Sequencer) : Bool :=
  q.running && !q.waiting && decide (max c q.cycle < q.pickStart + q.stall + 128) || q.waiting && decide (c ≤ q.cycle)

/-- Whether tile `t` issues its bundle of cycle `c` (R27, R276, R277, R340). -/
def tileIssues (s : State) (t c : Nat) : Bool := issuing s && (tileAt s t).seq.issues ((tileAt s t).count c)

/-- A slot of the bundle of cycle `c` issues: tile event 0x00 counts the bundle once. -/
def Tile.issueAt (s : State) (t c : Nat) (tile : Tile) : Tile × Fx :=
  ({ tile with seq := tile.seq.advance (tile.count c) },
   if (mget Counter.zero s.counting.live (64 * t)).last = some c then Fx.none else Fx.event 0 1)

/-- The slot list entries of rows read. -/
def slotEntries (rs : List RowRead) : List Nat :=
  rs.flatMap fun x => (List.range 256).map fun i => leAt ((x.val.map (·.data)).getD []) (2 * i) 2

/-- An ASET whose five rows have been read by cycle `c` (R139). -/
def InFlight.descRead (c : Nat) (p : InFlight) : Bool :=
  match p.work with
  | .aset _ _ => decide (p.issue + 5 ≤ c)
  | _ => false

/-- The descriptors whose five rows have been read by cycle `c` of the tile's own count are in their registers
(R139). -/
def Tile.loadDescs (c : Nat) (tile : Tile) : Tile :=
  if tile.pipe.any (·.descRead c) then
    { tile with
      pipe := tile.pipe.filter fun p => !p.descRead c
      descs := (tile.pipe.filter (·.descRead c)).foldl (fun ds p => match p.work with
        | .aset r (some d) => ds.set r { d with table := slotEntries (p.reads.drop 1) }
        | _ => ds) tile.descs }
  else tile

/-- Rows of a tile that have become readable by cycle `c` of its own count are stored (R134), and descriptors read
(R139). -/
def settle (t c : Nat) (s : State) : State :=
  let tile := (tileAt s t).loadDescs c
  if tile.writes.any (·.1 ≤ c) then
    (tile.writes.filter (·.1 ≤ c)).foldl (fun s x => rowWrite t (tile.cycleOf x.1) x.2.1 x.2.2 s)
      (tileSet t { tile with writes := tile.writes.filter (c < ·.1) } s)
  else tileSet t tile s

/-- The part of a slot command before the slot's own effect: rows that have become readable are stored and the bundle
issues. -/
def slotIssue (t : TileIx) (c : Nat) (f : Nat → State → Tile → Tile × Fx) (s : State) : State :=
  let l := (tileAt s t.val).count c
  if tileIssues s t.val c then
    onTile t.val c (fun s tile =>
      let i := tile.issueAt s t.val c
      let r := f l s i.1
      (r.1, i.2.also r.2)) (settle t.val l s)
  else s

/-- A local stall of issue and the vector pipeline for `k` cycles before an operation issues: the tile and its effect. -/
def Tile.stallIssue (s : State) (t k : Nat) (tile : Tile) : Tile × Fx :=
  let f := tile.seq.cycle
  let tile1 := tile.hold t f k fun _ => false
  (tile1, match if k = 0 then none else heldClash s t f tile1 with
    | none => Fx.none
    | some x => Fx.fault 0x2005 (tileSite t (if 16 ≤ x.1 then x.1 - 16 else 0) tile.seq.bundle 0))

/-- Issue waits for `k` cycles for a unit of the tile that is busy, a local stall with events 0x01 and `event` and the
object count (R127, R142, R209). -/
def Tile.stallFor (s : State) (t k event : Nat) (obj : Nat × Nat) (tile : Tile) : Tile × Fx :=
  if k = 0 then (tile, Fx.none)
  else
    let h := tile.stallIssue s t k
    (h.1, h.2.also { Fx.none with
      events := [(1, k), (event, k)], bumps := [(obj, k)], stalls := [(tile.seq.cycle, k)] })

end Sys2Proof.Machine
end

