-- ==== Sys2Proof/Machine/Shuttle.lean ====
section
/-! DEFINITION. The shuttle: row transfers of the T slot (R96, R102, R463), receive windows (R116), and the K slot
(R70 to R72). -/

namespace Sys2Proof.Machine

/-! ## Row transfers -/

/-- The space a transfer reads and the space it writes (R463). -/
def moveSpaces : TOp → Nat × Nat
  | .beamBobbin => (1, 0)
  | .bobbinBeam => (0, 1)
  | .bobbinReg  => (0, 3)
  | .regBobbin  => (3, 0)
  | .beamReg    => (1, 3)
  | .regBeam    => (3, 1)
  | .latch      => (1, 3)
  | .window     => (0, 0)

/-- Issue to readable of a row write (R58). -/
def writeLat (a : Nat) : Nat := if addrSpace a = 1 then Config.beamWrite else Config.bobbinWrite

/-- The cycle in which read `i` of a transfer issues: two beam rows in a cycle, otherwise one (R96). -/
def moveDue (c : Nat) (beam : Bool) (i : Nat) : Nat := if beam then c + i / 2 else c + i

/-- Port and row claims of a transfer: source rows read and destination rows written, with their cycles (R69, R88, R96,
R104). -/
def moveClaims (src dst : List (Nat × Nat)) : List (Nat × Nat) :=
  (src.mapIdx fun i x =>
    if addrSpace x.1 = 1 then [(if i % 2 = 0 then portA else portB, x.2)]
    else if addrSpace x.1 = 0 then [(portRead 1, x.2)] else []).flatten
  ++ dst.flatMap fun x =>
    (if addrSpace x.1 = 1 then [(portW, x.2)] else if addrSpace x.1 = 0 then [(portWrite 1, x.2)] else [])
      ++ [(rowClaim x.1, x.2)]

/-- A row transfer of the T slot issues: operand checks, reads, claims, slice arbitration; its rows become readable
later. -/
def transfer (op : TOp) (t c : Nat) (f : TSlot) (s : State) (tile : Tile) : Tile × Fx :=
  let n := f.count.toNat + 1
  let col := f.column.toNat
  let b := tile.seq.bundle
  let sp := moveSpaces op
  match operandRows s t tile f.sbase.toNat f.soff.toNat n [sp.1] col,
        operandRows s t tile f.dbase.toNat f.doff.toNat n [sp.2] col with
  | .error a, _ => (tile, Fx.fault 0x2004 (tileSite t a b 0))
  | .ok _, .error a => (tile, Fx.fault 0x2004 (tileSite t a b 0))
  | .ok src, .ok dst =>
    let beam := sp.1 = 1
    let lat := readLat t (src.headD 0)
    let reads := src.mapIdx fun i a => (a, moveDue c beam i)
    let writes := dst.mapIdx fun i a => (a, c + lat + i)
    let own := fun a => addrTile a == some t
    let claims := moveClaims reads writes
    let cl := tile.claim c tile.ops claims
    let item : InFlight :=
      { id := tile.ops, work := .move op dst, issue := c, bundle := b, reads := readsOf s t f.await reads, done := 0 }
    ({ cl.1 with pipe := cl.1.pipe ++ [item], ops := cl.1.ops + 1 },
     (readsFx s t b f.await reads).also
       { claimFx t b (cl.2.or (takenBeside s t claims)) with
         asks := asksOf t tile true tile.ops (reads ++ writes)
         events := (if sp.1 = 1 && src.all own then [(0x20, n)] else [])
           ++ (if sp.2 = 1 && dst.all own then [(0x21, n)] else []) })

/-- The next row of a transfer in flight, where it is read and readable by cycle `c`: destination, frame, cycle from
which it is readable. -/
def moveNext (t c : Nat) (p : InFlight) : Option (Nat × RowFrame × Nat) :=
  match p.work with
  | .move _ dst =>
    match p.reads[p.done]?, dst[p.done]? with
    | some r, some a =>
      let w := moveWrite t p.reads p.done + writeLat a
      match r.val with
      | some f => if w ≤ c then some (a, f, w) else none
      | none => none
    | _, _ => none
  | _ => none

/-- The first operation in flight for which `g` answers, with its place. -/
def firstReady {α : Type} (g : InFlight → Option α) : List InFlight → Option (Nat × InFlight × α)
  | [] => none
  | p :: r => match g p with
    | some x => some (0, p, x)
    | none => (firstReady g r).map fun y => (y.1 + 1, y.2)

/-- The pipe after item `i` has delivered one result of `n`. -/
def delivered (i n : Nat) (p : InFlight) (pipe : List InFlight) : List InFlight :=
  if n ≤ p.done + 1 then pipe.eraseIdx i else pipe.set i { p with done := p.done + 1 }

/-- A row of a transfer becomes readable (R102). -/
def transferRow (t c : Nat) (s : State) : State :=
  let tile := tileAt s t
  match firstReady (moveNext t (tile.count c)) tile.pipe with
  | none => s
  | some (i, p, a, f, w) =>
    rowWrite t (tile.cycleOf w) a f (tileSet t { tile with pipe := delivered i p.reads.length p tile.pipe } s)

/-- BEAM_TO_BOBBIN (R96). -/
def execBeamToBobbin (t : TileIx) (c : Nat) (f : TSlot) (s : State) : Host.Outcome State Fault Refusal :=
  .next (slotIssue t c (fun l => transfer .beamBobbin t.val l f) s)

/-- BOBBIN_TO_BEAM (R96). -/
def execBobbinToBeam (t : TileIx) (c : Nat) (f : TSlot) (s : State) : Host.Outcome State Fault Refusal :=
  .next (slotIssue t c (fun l => transfer .bobbinBeam t.val l f) s)

/-- BOBBIN_TO_REGISTERS (R463). -/
def execBobbinToRegs (t : TileIx) (c : Nat) (f : TSlot) (s : State) : Host.Outcome State Fault Refusal :=
  .next (slotIssue t c (fun l => transfer .bobbinReg t.val l f) s)

/-- REGISTERS_TO_BOBBIN (R463). -/
def execRegsToBobbin (t : TileIx) (c : Nat) (f : TSlot) (s : State) : Host.Outcome State Fault Refusal :=
  .next (slotIssue t c (fun l => transfer .regBobbin t.val l f) s)

/-- BEAM_TO_REGISTERS (R463). -/
def execBeamToRegs (t : TileIx) (c : Nat) (f : TSlot) (s : State) : Host.Outcome State Fault Refusal :=
  .next (slotIssue t c (fun l => transfer .beamReg t.val l f) s)

/-- REGISTERS_TO_BEAM (R463). -/
def execRegsToBeam (t : TileIx) (c : Nat) (f : TSlot) (s : State) : Host.Outcome State Fault Refusal :=
  .next (slotIssue t c (fun l => transfer .regBeam t.val l f) s)

/-- TRANSFER_ROW_READABLE (R102): the next transferred row of the tile whose latency has passed by cycle `c`. -/
def execTransferReadable (t : TileIx) (c : Nat) (s : State) : Host.Outcome State Fault Refusal :=
  .next (if issuing s then transferRow t.val c s else s)

/-! ## Receive windows -/

/-- An arm or close issues (R116): it waits for the boundary; an arm's rows must lie in bobbin, beam or registers. -/
def windowAct (arm : Bool) (t : Nat) (f : TSlot) (s : State) (tile : Tile) : Tile × Fx :=
  let n := f.count.toNat + 1
  let w := f.doff.toNat % 256
  let b := tile.seq.bundle
  if arm then
    match operandRows s t tile f.sbase.toNat f.soff.toNat n [0, 1, 3] 0 with
    | .error a => (tile, Fx.fault 0x2004 (tileSite t a b w))
    | .ok rows => ({ tile with acts := tile.acts ++ [{ window := w, arm := some (rows.headD 0, n), bundle := b }] }, Fx.none)
  else ({ tile with acts := tile.acts ++ [{ window := w, arm := none, bundle := b }] }, Fx.none)

/-- ARM_RECEIVE_WINDOW (R116). -/
def execArmWindow (t : TileIx) (c : Nat) (f : TSlot) (s : State) : Host.Outcome State Fault Refusal :=
  .next (slotIssue t c (fun _ => windowAct true t.val f) s)

/-- CLOSE_RECEIVE_WINDOW (R116). -/
def execCloseWindow (t : TileIx) (c : Nat) (f : TSlot) (s : State) : Host.Outcome State Fault Refusal :=
  .next (slotIssue t c (fun _ => windowAct false t.val f) s)

/-- A receive window of a tile. -/
def windowAt (tile : Tile) (w : Nat) : Window := mget Window.reset tile.windows w

/-- A waiting arm or close takes effect (R117): the generation rises at an arm, and a receive digest of the window starts
anew with it (R274). -/
def applyAct (tile : Tile) (a : WinAct) : Tile :=
  let w := windowAt tile a.window
  let w1 : Window := match a.arm with
    | none => { w with opened := false }
    | some (first, n) => { gen := w.gen + 1, opened := true, first := first, rows := n }
  { tile with
    windows := mset Window.reset tile.windows a.window w1
    digests := if a.arm.isNone then tile.digests else tile.digests.map fun d =>
      if !d.send && d.window == a.window then { d with seen := [], lastAt := 0, acc := 0, row := none } else d }

/-- Rows whose landed bits the waiting arms clear (R117). -/
def armedRows (acts : List WinAct) : List Nat :=
  acts.flatMap fun a => match a.arm with
    | none => []
    | some (first, n) => (List.range n).map (first + ·)

/-- Whether two row ranges share a row (R119). -/
def overlap (a m b n : Nat) : Bool := a < b + n && b < a + m

/-- Windows armed at a boundary whose final range meets another open window of the tile (R119): window, first row and
bundle. -/
def overlaps (tile : Tile) (acts : List WinAct) : List (Nat × Nat × Nat) :=
  acts.filterMap fun a =>
    let w := windowAt tile a.window
    if a.arm.isSome && w.opened
        && tile.windows.any (fun o => o.1 != a.window && o.2.opened && overlap w.first w.rows o.2.first o.2.rows)
    then some (a.window, w.first, a.bundle) else none

/-- A read that awaits a row whose landed bit is cleared before it is due has not read it yet (R31). -/
def Tile.unread (rows : List Nat) (now : Nat) (tile : Tile) : Tile :=
  { tile with pipe := tile.pipe.map fun p => { p with
      reads := p.reads.map fun r =>
        if r.await && tile.count now ≤ r.due && rows.contains r.addr then { r with val := none } else r } }

/-- Every window of a tile closes at the end of its task (R117). -/
def closeWindows (tile : Tile) : Tile :=
  { tile with windows := tile.windows.map fun w => (w.1, { w.2 with opened := false }) }

/-- The arms and closes of a tile take effect at a boundary in cycle `c`, in issue order (R117, R118); the overlap check
follows the last of them (R119). Where the boundary ends the tile's task every window closes after them, and none is
left to overlap. -/
def windowBoundary (ending : Bool) (t c : Nat) (s : State) : State :=
  let tile := tileAt s t
  if tile.acts = [] && !ending then s
  else
    let rows := armedRows tile.acts
    let tile1 := tile.acts.foldl applyAct tile
    let tile2 := { (if ending then closeWindows tile1 else tile1) with acts := [] }
    let s1 := rows.foldl (fun s a => landedSet a false s) (tileSet t (tile2.unread rows c) s)
    if ending then s1
    else raiseFaults ((overlaps tile1 tile.acts).map fun x => (0x2006, tileSite t x.2.1 x.2.2 x.1)) s1

/-! ## The K slot -/

/-- A LOOP opens its body with the next bundle (R70). -/
def kLoop (depth trip : Nat) (tile : Tile) : Tile :=
  { tile with seq := { tile.seq with
      loops := { depth := depth, body := tile.seq.bundle + 1, left := trip - 1 } :: tile.seq.loops } }

/-- An ENDLOOP begins the next pass of the innermost loop or leaves it (R70). -/
def kEndloop (tile : Tile) : Tile :=
  let q := tile.seq
  match q.loops with
  | [] => tile
  | l :: r =>
    if l.left = 0 then { tile with seq := { q with loops := r } }
    else { tile with seq := { q with
      loops := { l with left := l.left - 1 } :: r, bundle := l.body, cycle := q.cycle + 1 } }

/-- The tile's next bundle issues in cycle `c`, the first of a pick. -/
def Sequencer.resume (c : Nat) (q : Sequencer) : Sequencer :=
  let b := bundleOn q 1
  { q with waiting := false, cycle := c, bundle := b.1, arm := b.2, pickStart := c, stall := 0, stretches := 0 }

/-- A PICKWAIT ends the tile's schedule pick (R27, R70): it waits at the boundary, or, late after an overrun, begins the
next pick at once (R32). -/
def kPickwait (tile : Tile) : Tile :=
  let q := tile.seq
  if q.behind = 0 then { tile with seq := { q with waiting := true } }
  else { tile with seq := { q.resume (q.cycle + 1) with behind := q.behind - 1 } }

/-- A task's schedule begins on tile `t` in cycle `c` of its own count (R282): the shadow base words and parameter block
become live, and the parameter block is written to bobbin row 4,095, readable from cycle `c + 1`.
The draw counter is 0 (R197) and the exponent bounds are 127 (R135). The exchange of the lane sets is still to come
(R202). -/
def beginTask (t c sched : Nat) (tile : Tile) : Tile × Fx :=
  let a := rowAddr t 0 4095
  let cl := tile.claim c 0 [(rowClaim a, c)]
  ({ cl.1 with
      seq := { Sequencer.reset with running := true, sched := sched, cycle := c, pickStart := c, begun := some c }
      base := tile.shBase, params := tile.shParams, exchange := true, drawWait := none
      draws := 0, bounds := List.replicate 8 127
      writes := tile.writes ++ [(c + 1, a, freshFrame (slice tile.shParams 0 64 ++ zeros 448) 0)] },
   claimFx t 0 cl.2)

/-- A SELECT samples its flag (R71): with it set the arm after SELECT issues and the second is passed over, with it
clear the first is passed over. -/
def kSelect (flag len : Nat) (tile : Tile) : Tile :=
  let q := tile.seq
  let n := len + 1
  if tile.flags.getLsbD flag then { tile with seq := { q with arm := some (q.bundle + n, n) } }
  else { tile with seq := { q with bundle := q.bundle + n + 1, cycle := q.cycle + 1 } }

/-- An END ends the schedule (R70); after an overrun the next task begins at once, with the picks still owed (R32). -/
def kEnd (t : Nat) (tile : Tile) : Tile × Fx :=
  let q := { tile.seq with waiting := true, running := false, behind := 0, next := none }
  match tile.seq.next with
  | none => ({ tile with seq := q }, Fx.none)
  | some sched =>
    let r := beginTask t (tile.seq.cycle + 1) sched { tile with seq := q }
    ({ r.1 with seq := { r.1.seq with behind := tile.seq.behind - 1 } }, r.2)

/-- LOOP (R70). -/
def execLoop (t : TileIx) (c : Nat) (depth : BitVec 2) (trip : BitVec 24) (s : State) :
    Host.Outcome State Fault Refusal :=
  .next (slotIssue t c (fun _ _ tile => (kLoop depth.toNat trip.toNat tile, Fx.none)) s)

/-- ENDLOOP (R70). -/
def execEndloop (t : TileIx) (c : Nat) (_depth : BitVec 2) (s : State) : Host.Outcome State Fault Refusal :=
  .next (slotIssue t c (fun _ _ tile => (kEndloop tile, Fx.none)) s)

/-- A tile that has overrun ends its schedule pick after the boundary: the boundary's arms and closes take effect on it
now, its windows closing where the pick was its task's last (R32, R117). -/
def lateBoundary (ending : Bool) (t : TileIx) (c : Nat) (s s1 : State) : State :=
  if tileIssues s t.val c && (tileAt s t.val).seq.behind ≠ 0 then windowBoundary ending t.val c s1 else s1

/-- PICKWAIT (R70). -/
def execPickwait (t : TileIx) (c : Nat) (s : State) : Host.Outcome State Fault Refusal :=
  .next (lateBoundary false t c s (slotIssue t c (fun _ _ tile => (kPickwait tile, Fx.none)) s))

/-- SELECT (R71). -/
def execSelect (t : TileIx) (c : Nat) (flag : BitVec 5) (len : BitVec 11) (s : State) :
    Host.Outcome State Fault Refusal :=
  .next (slotIssue t c (fun _ _ tile => (kSelect flag.toNat len.toNat tile, Fx.none)) s)

/-- END (R70). -/
def execEndSchedule (t : TileIx) (c : Nat) (s : State) : Host.Outcome State Fault Refusal :=
  .next (lateBoundary true t c s (slotIssue t c (fun _ _ tile => kEnd t.val tile) s))

end Sys2Proof.Machine
end

