-- ==== Sys2Proof/Machine/Stipple.lean ====
section
/-! DEFINITION. The stipple unit (R194 to R202, R207): lanes, draws, seeding, the shadow set and its exchange. -/

namespace Sys2Proof.Machine

/-- The parity of a lane's 128 state bits. -/
def laneParity (s0 s1 : BitVec 64) : Bool :=
  (List.range 64).foldl (fun p i => xor p (s0.getLsbD i)) false !=
    (List.range 64).foldl (fun p i => xor p (s1.getLsbD i)) false

/-- A lane with its parity. -/
def laneOf (s0 s1 : BitVec 64) : Lane where
  s0 := s0
  s1 := s1
  par := laneParity s0 s1

/-- A lane state in error: parity mismatch or all zero (R207). -/
def laneBad (l : Lane) : Bool := l.par != laneParity l.s0 l.s1 || l.s0 == 0 && l.s1 == 0

/-- The state step of R194. -/
def laneStep (p : BitVec 64 × BitVec 64) : BitVec 64 × BitVec 64 :=
  let t := p.2 ^^^ p.1
  (p.1.rotateLeft 24 ^^^ t ^^^ (t <<< 16), t.rotateLeft 37)

/-- The draw of a lane state (R194). -/
def laneDraw (s0 : BitVec 64) : BitVec 64 := s0 * 0xE35A7BD126C49F85#64

/-- The polynomial of 2^64 steps modulo the characteristic polynomial of the step, bit i the coefficient of x^i
(R196). -/
def jumpPoly : Nat := 0x170865DF4B3201FCDF900294D8F554A5

/-- `k` terms of the jump: the states whose coefficients are 1, added. -/
def jumpGo : Nat → Nat → BitVec 64 × BitVec 64 → BitVec 64 × BitVec 64 → BitVec 64 × BitVec 64
  | 0, _, _, acc => acc
  | k + 1, p, st, acc =>
    jumpGo k (p / 2) (laneStep st) (if p % 2 = 1 then (acc.1 ^^^ st.1, acc.2 ^^^ st.2) else acc)

/-- The state 2^64 steps on (R196). -/
def jump (st : BitVec 64 × BitVec 64) : BitVec 64 × BitVec 64 := jumpGo 128 jumpPoly st (0, 0)

/-- mix64 (R201). -/
def mix64 (z0 : BitVec 64) : BitVec 64 :=
  let z1 := (z0 ^^^ (z0 >>> 31)) * 0xA4C173E55B9D2E47#64
  let z2 := (z1 ^^^ (z1 >>> 29)) * 0x8F2D61B3C9750E1D#64
  z2 ^^^ (z2 >>> 32)

/-- The tile code (R201): slice coordinate and logical tile coordinates. -/
def tileCode (s : State) (t : Nat) : BitVec 64 :=
  let c := coordOf (objGet s 0x4200 0xE)
  BitVec.ofNat 64 (c.x.toNat * 2 ^ 18 + c.y.toNat * 2 ^ 14 + c.z.toNat * 2 ^ 10 + tileX t * 2 ^ 5 + tileY t)

/-- The base state of a tile (R201). -/
def baseState (code : BitVec 64) (seed : BitVec 128) : BitVec 64 × BitVec 64 :=
  let lo := seed.setWidth 64
  let hi := (seed >>> 64).setWidth 64
  let s0 := mix64 (lo ^^^ code)
  let s1 := mix64 (hi ^^^ (code <<< 22))
  if s0 == 0 && s1 == 0 then (0, 1) else (s0, s1)

/-- `n` lanes from lane `l` on, each 2^64 steps after the one before (R196). -/
def lanesFrom : Nat → Nat → BitVec 64 × BitVec 64 → SMap Lane
  | 0, _, _ => []
  | n + 1, l, st =>
    let v := laneOf st.1 st.2
    if v = Lane.reset then lanesFrom n (l + 1) (jump st) else (l, v) :: lanesFrom n (l + 1) (jump st)

/-- The 256 lanes that a seed gives a tile (R201). -/
def seedLanes (s : State) (t : Nat) (seed : BitVec 128) : SMap Lane :=
  lanesFrom 256 0 (baseState (tileCode s t) seed)

/-- The shadow set set up from the delivered seed, once (R202). -/
def Tile.setup (s : State) (t : Nat) (tile : Tile) : Tile × Fx :=
  if tile.shReady then (tile, Fx.none)
  else ({ tile with shLanes := seedLanes s t tile.shSeed, shReady := true }, Fx.bump 0x3300 4 1)

/-- Draws `d` to `d + n - 1` of a lane set: outputs, the set after them, the lanes read in error (R197, R207). -/
def drawGo : Nat → Nat → SMap Lane → List (BitVec 64) × SMap Lane × List Nat
  | 0, _, m => ([], m, [])
  | n + 1, d, m =>
    let l := mget Lane.reset m (d % 256)
    let st := laneStep (l.s0, l.s1)
    let r := drawGo n (d + 1) (mset Lane.reset m (d % 256) (laneOf st.1 st.2))
    (laneDraw l.s0 :: r.1, r.2.1, if laneBad l then d % 256 :: r.2.2 else r.2.2)

/-- The four fields of a draw (R195). -/
def drawFields (v : BitVec 64) : List Nat := (List.range 4).map fun k => bits v.toNat (16 * k) 16

/-- Fault 0x300A of a lane. -/
def laneFault (t bundle lane : Nat) : Fx :=
  (Fx.bump 0x3300 6 1).also (Fx.fault 0x300A (tileSite t 0 bundle lane))

/-- Faults 0x300A of lanes. -/
def laneFaults (t bundle : Nat) (ls : List Nat) : Fx := ls.foldl (fun x l => x.also (laneFault t bundle l)) Fx.none

/-- An operation of `n` fields takes its draws (R197, R161): from the active set, or, where the exchange of the task's
set is still to come, from the shadow set that the exchange will make active; the tile then stalls until it (R202), and
a lane in error is found at it (R207). -/
def Tile.drawn (s : State) (t c n bundle : Nat) (tile : Tile) : List Nat × Tile × Fx :=
  if n = 0 then ([], tile, Fx.none)
  else
    let k := (n + 3) / 4
    let su := if tile.exchange then tile.setup s t else (tile, Fx.none)
    let set := if tile.exchange then su.1.shLanes else su.1.lanes
    let r := drawGo k su.1.draws set
    let tile1 := if tile.exchange
      then { su.1 with shLanes := r.2.1, drawWait := some (su.1.drawWait.getD c), draws := su.1.draws + k
                       laneErrs := su.1.laneErrs ++ r.2.2 }
      else { su.1 with lanes := r.2.1, draws := su.1.draws + k }
    ((r.1.flatMap drawFields).take n, tile1,
     su.2.also ((if tile.exchange then Fx.none else laneFaults t bundle r.2.2).also
       { Fx.none with bumps := [((0x3300, 2), k)], events := [(0x19, k)] }))

/-- The lanes of a set that are in error. -/
def badLanes (m : SMap Lane) : List Nat := (m.filter fun x => laneBad x.2).map (·.1)

/-- The exchange of the lane sets in cycle `c` of the tile's own count (R202): the tile has stalled since the first draw
requested before it. -/
def laneSwap (t c : Nat) (s : State) (tile : Tile) : Tile × Fx :=
  if !tile.exchange then (tile, Fx.none)
  else
    let su := tile.setup s t
    let k := match su.1.drawWait with | none => 0 | some w => c - w
    let bad := (su.1.laneErrs ++ badLanes su.1.shLanes ++ badLanes su.1.lanes).eraseDups
    let tile1 := { su.1 with
      lanes := su.1.shLanes, shLanes := su.1.lanes, shReady := false, exchange := false, drawWait := none, laneErrs := [] }
    let held := tile1.hold t (c - k) k fun p => match p.work with
      | .drain _ fields _ => fields != [] && decide (c - k ≤ p.issue)
      | _ => false
    let clash := if k = 0 then none else heldClash s t (c - k) held
    (held, su.2.also ((laneFaults t tile.seq.bundle bad).also
      (if k = 0 then Fx.none else { claimFx t tile.seq.bundle clash with
        bumps := [((0x3300, 5), k)], events := [(1, k)], stalls := [(c - k, k)] })))

/-- SHADOW_SET_SETUP (R202). -/
def execShadowSetup (t : TileIx) (s : State) : Host.Outcome State Fault Refusal :=
  .next (if issuing s then
      onTile t.val ((tileAt s t.val).cycleOf (tileAt s t.val).seq.cycle) (fun s tile => tile.setup s t.val) s
    else s)

/-- LANE_SET_EXCHANGE (R202). -/
def execLaneExchange (t : TileIx) (c : Nat) (s : State) : Host.Outcome State Fault Refusal :=
  .next (if issuing s then onTile t.val c (fun s tile => laneSwap t.val (tile.count c) s tile) s else s)

end Sys2Proof.Machine
end

