-- ==== Sys2Proof/Machine/Matrix.lean ====
section
/-! DEFINITION. The matrix engine (R123 to R142) and the heddle (R149 to R159): latch loads, streams, contributions,
drains, the adapter side pass. -/

namespace Sys2Proof.Machine

/-! ## Weight blocks (R151 to R158) -/

/-- The element codes of a codebook block, depth-major: index `n` of the index string looked up in the table of its
subblock (R154, R155). -/
def bookElems (code : Nat) (str : Nat) (table : Bytes) : List Nat :=
  let b := bookBits code
  let w := elemWidth (weightFmt code)
  (List.range (64 * depth code)).map fun n => elemAt w table (2 ^ b * (n / 256) + bits str (b * n) b)

/-- The sum of the looked-up entries of one depth (R158). -/
def bookSum (code : Nat) (es : List Nat) : Nat :=
  let f := weightFmt code
  if i32Mode code then unsigned 32 ((es.map fun e => signed (elemWidth f) e).foldl (· + ·) 0)
  else toF32 (Num.sum (es.map (elemNum f)))

/-- A block as the heddle writes it into a latch, from the data of the rows read, in order (R151, R152, R156). -/
def parseBlock (code : Nat) (rows : List Bytes) : Latch :=
  let n := elemRows code
  if bookBits code = 0 then
    let sideAt := (rows.drop n).flatten
    let es := (unpackElems (elemWidth (weightFmt code)) (rows.take n).flatten).take (columns code * depth code)
    let scaled := code ≠ 6 && !i32Mode code
    { fmt := code, elems := es
      scales := if scaled then (sideAt.take (64 * (depth code / 32))).map BitVec.toNat else []
      sums := (List.range (depth code)).map fun k => leAt sideAt ((if code = 6 then 0 else 512) + 4 * k) 4
      loaded := true, fresh := true }
  else
    let first := bookHalf code = 1 || bookBits code = 4
    let side := if first then rows.headD [] else rows.getLastD []
    let str := leNat (if first then (rows.drop 1).flatten else (rows.take n).flatten)
    let table := side.drop (if bookHalf code = 1 then 256 else 0)
    let es := bookElems code str table
    { fmt := code, elems := es, scales := []
      sums := (pieces 64 (depth code) es).map (bookSum code), loaded := true, fresh := true }

/-! ## Contributions (R123, R129, R130) -/

/-- A contribution of one item: its mode, 64 columns as encodings, the checksum column, overflow of an output column,
the largest exponent of its products and results (R138). -/
structure Contribution where
  ints : Bool
  outs : List (BitVec 32)
  chk  : BitVec 32
  ovf  : Bool
  expo : Option Int
  deriving DecidableEq, Repr

/-- The larger of two exponents. -/
def maxExpo (a b : Option Int) : Option Int :=
  match a, b with
  | some x, some y => some (max x y)
  | some x, none => some x
  | none, e => e

/-- The largest exponent of values. -/
def expoOf (xs : List Num) : Option Int := xs.foldl (fun m x => maxExpo m x.expo) none

/-- Products summed exactly and rounded once to f32 (R129): the encoding and the largest exponent seen. -/
def dotF32 (ps : List Num) : BitVec 32 × Option Int :=
  let r := toF32 (Num.sum ps)
  (BitVec.ofNat 32 r, maxExpo (expoOf ps) (f32 r).expo)

/-- A contribution in f32 mode from activation values and columns of weight values, the checksum column last. -/
def contribF32 (acts : List Num) (cols : List (List Num)) (sums : List Num) : Contribution :=
  let rs := cols.map fun w => dotF32 (List.zipWith Num.mul w acts)
  let k := dotF32 (List.zipWith Num.mul sums acts)
  { ints := false, outs := rs.map (·.1) ++ List.replicate (64 - rs.length) 0, chk := k.1, ovf := false
    expo := rs.foldl (fun m r => maxExpo m r.2) k.2 }

/-- Whether an integer lies outside i32. -/
def overI32 (v : Int) : Bool := decide (v < -(2 ^ 31 : Int)) || decide ((2 ^ 31 : Int) ≤ v)

/-- A contribution in i32 mode: exact dot products, wrapped (R130). -/
def contribI32 (acts : List Int) (cols : List (List Int)) (sums : List Int) : Contribution :=
  let dot := fun w : List Int => (List.zipWith (· * ·) w acts).foldl (· + ·) 0
  let rs := cols.map dot
  { ints := true, outs := (rs.map fun v => BitVec.ofInt 32 v) ++ List.replicate (64 - rs.length) 0
    chk := BitVec.ofInt 32 (dot sums), ovf := rs.any overI32, expo := none }

/-- The contribution of a vector of 128 bytes against a block, with the activation scale codes (R128, R147). -/
def streamContrib (b : Latch) (vec : Bytes) (scales : List Nat) : Contribution :=
  let wf := weightFmt b.fmt
  let af := actFmt b.fmt
  let n := columns b.fmt
  let d := depth b.fmt
  let raw := (unpackElems (elemWidth af) vec).take d
  let col := fun c => (List.range d).map fun k => b.elems.getD (n * k + c) 0
  if i32Mode b.fmt then
    contribI32 (raw.map fun v => signed (elemWidth af) v)
      ((List.range n).map fun c => (col c).map fun v => signed (elemWidth wf) v)
      (b.sums.map fun v => signed 32 v)
  else
    let acts := raw.mapIdx fun k v =>
      if af = 6 then elemNum af v else (elemNum af v).mul (scaleNum af (scales.getD (k / blockLen af) 0))
    let cols := (List.range n).map fun c => (col c).mapIdx fun k v =>
      if b.scales.isEmpty then elemNum wf v else (elemNum wf v).mul (decodeE8M0 (b.scales.getD (64 * (k / 32) + c) 0))
    contribF32 acts cols (b.sums.map f32)

/-- A contribution reaches an accumulator row (R129 to R131): the row, or `none` where its mode differs from the
row's tag. -/
def applyContrib (ovr : Bool) (k : Contribution) (r : AccRow) : Option AccRow :=
  if ovr then
    some { acc := k.outs, chk := k.chk, expo := max (-127) (k.expo.getD (-127)), count := 1
           tag := some k.ints, ovf := k.ovf }
  else if r.tag = some (!k.ints) then none
  else if k.ints then
    let vs := List.zipWith (fun a c : BitVec 32 => a.toInt + c.toInt) r.acc k.outs
    some { r with acc := vs.map fun v => BitVec.ofInt 32 v, chk := r.chk + k.chk, count := r.count + 1
                  tag := some true, ovf := r.ovf || k.ovf || vs.any overI32 }
  else
    let vs := List.zipWith (fun a c : BitVec 32 => BitVec.ofNat 32 (f32Add a.toNat c.toNat)) r.acc k.outs
    let ck := BitVec.ofNat 32 (f32Add r.chk.toNat k.chk.toNat)
    let e := maxExpo k.expo (expoOf ((ck :: vs).map fun v => f32 v.toNat))
    some { r with acc := vs, chk := ck, count := r.count + 1, tag := some false
                  expo := match e with | none => r.expo | some x => max r.expo x }

/-- An accumulator row of a tile; row numbers wrap modulo 1,024. -/
def accAt (tile : Tile) (r : Nat) : AccRow := mget AccRow.reset tile.accs (r % 1024)

/-- An accumulator row set. -/
def accSet (r : Nat) (v : AccRow) (tile : Tile) : Tile :=
  { tile with accs := mset AccRow.reset tile.accs (r % 1024) v }

/-! ## Latch loads -/

/-- Read cycles of a load (R125). -/
def readCycles (rows : Nat) : Nat := (rows + 1) / 2

/-- Whether the table row of a codebook block is read last (R155): every write then falls in the load's last cycle
(R157). -/
def tableLast (code : Nat) : Bool := bookBits code != 0 && bookHalf code != 1 && bookBits code != 4

/-- Cycle of a load's first write and cycle in which it is ready (R125, R157). -/
def loadSpan (p : InFlight) : Option (Nat × Nat) :=
  match p.work with
  | .load fmt lat => some (p.issue + lat - (if tableLast fmt then 1 else readCycles (loadRows fmt)), p.issue + lat)
  | _ => none

/-- The latch that is idle, and the active one. -/
def idleLatch (tile : Tile) : Latch := if tile.active1 then tile.latch0 else tile.latch1
def activeLatch (tile : Tile) : Latch := if tile.active1 then tile.latch1 else tile.latch0

/-- The idle latch written. -/
def setIdle (v : Latch) (tile : Tile) : Tile :=
  if tile.active1 then { tile with latch0 := v } else { tile with latch1 := v }

/-- A latch load issues (R125, R126): its writes may not meet those of an earlier load. -/
def latchLoad (t c : Nat) (f : TSlot) (s : State) (tile : Tile) : Tile × Fx :=
  let n := f.count.toNat + 1
  let b := tile.seq.bundle
  let code := f.doff.toNat / 2 ^ 15
  match operandRows s t tile f.sbase.toNat f.soff.toNat n [1] f.column.toNat with
  | .error a => (tile, Fx.fault 0x2004 (tileSite t a b 0))
  | .ok src =>
    let reads := src.mapIdx fun i a => (a, c + i / 2)
    let cl := tile.claim c tile.ops (moveClaims reads [])
    let near := readLat t (src.headD 0) = Config.beamRead false
    let lat := readCycles n + 7 + (if bookBits code = 0 then 0 else 2) + (if near then 0 else 4)
    let item : InFlight :=
      { id := tile.ops, work := .load code lat, issue := c, bundle := b, reads := readsOf s t f.await reads, done := 0 }
    let clash := cl.1.pipe.any fun p => match loadSpan p, loadSpan item with
      | some x, some y => decide (x.1 < y.2) && decide (y.1 < x.2)
      | _, _ => false
    ({ cl.1 with pipe := cl.1.pipe ++ [item], ops := cl.1.ops + 1 },
     (readsFx s t b f.await reads).also
       ({ claimFx t b cl.2 with
          asks := asksOf t tile true tile.ops reads, events := if near then [(0x20, n)] else [] }.also
        (if clash then Fx.fault 0x3002 (tileSite t 0 b 0) else Fx.none)))

/-- The data of reads that have taken place; `none` while one is outstanding. -/
def readData (rs : List RowRead) : Option (List Bytes) := rs.mapM fun r => r.val.map (·.data)

/-- A load in flight that is ready by cycle `c`, with its block. -/
def loadDone (c : Nat) (p : InFlight) : Option Latch :=
  match p.work, loadSpan p with
  | .load code _, some (_, r) => if r ≤ c then (readData p.reads).map (parseBlock code) else none
  | _, _ => none

/-- The block of a load is ready in the idle latch (R125, R126). -/
def blockReady (c : Nat) (tile : Tile) : Tile × Fx :=
  match firstReady (loadDone c) tile.pipe with
  | none => (tile, Fx.none)
  | some (i, _, b) =>
    (setIdle b { tile with pipe := tile.pipe.eraseIdx i },
     if bookBits b.fmt = 0 then Fx.none else Fx.bump 0x3200 0xB 1)

/-- BEAM_TO_IDLE_WEIGHT_LATCH (R125). -/
def execBeamToLatch (t : TileIx) (c : Nat) (f : TSlot) (s : State) : Host.Outcome State Fault Refusal :=
  .next (slotIssue t c (fun l => latchLoad t.val l f) s)

/-- WEIGHT_BLOCK_READY (R125). -/
def execWeightBlockReady (t : TileIx) (c : Nat) (s : State) : Host.Outcome State Fault Refusal :=
  .next (if issuing s then onTile t.val c (fun _ tile => blockReady (tile.count c) tile) s else s)

/-! ## STREAM -/

/-- The ready cycle of a load that writes the idle latch before cycle `c`, which a swap in cycle `c` must wait for
(R127). -/
def swapWait (c : Nat) (tile : Tile) : Option Nat :=
  tile.pipe.findSome? fun p => match loadSpan p with
    | some (w, r) => if w < c && (readData p.reads).isSome then some r else none
    | none => none

/-- The swap of the latches in cycle `c` (R126, R127): waits for the block, then exchanges; `none` on a sequencing
error. -/
def swapLatches (s : State) (t c : Nat) (tile : Tile) : Option (Tile × Fx × Nat) :=
  let w := swapWait c tile
  let k := match w with | some r => r - c | none => 0
  let b := match w with | some r => blockReady (max r c) tile | none => (tile, Fx.none)
  let st := b.1.stallFor s t k 4 (0x3200, 8)
  let idle := idleLatch st.1
  if idle.fresh then
    let old := activeLatch st.1
    let t1 := { st.1 with active1 := !st.1.active1 }
    some (setIdle { old with fresh := false } t1,
      b.2.also (st.2.also { Fx.none with bumps := [((0x3200, 7), 1)], events := [(0x11, 1)] }), c + k)
  else none

/-- Bytes of activation scales of a vector (R128). -/
def scaleBytes (code : Nat) : Nat :=
  if code = 6 || i32Mode code then 0 else if elemWidth (actFmt code) = 4 then 8 else 4

/-- The rows of vectors `v` to `v + n - 1`, each with the number of the vector that reads it first: four vectors of
128 bytes in a row. -/
def vectorRows (v n : Nat) : List (Nat × Nat) :=
  (List.range ((v + n - 1) / 4 - v / 4 + 1)).map fun i => (v / 4 + i, if i = 0 then 0 else 4 * i - v % 4)

/-- The rows that hold the scales of those vectors, `k` bytes each. -/
def scaleRowsOf (v n k : Nat) : List (Nat × Nat) :=
  if k = 0 then []
  else (List.range (((v + n) * k - 1) / 512 - v * k / 512 + 1)).map fun i =>
    (v * k / 512 + i, if i = 0 then 0 else (512 * (v * k / 512 + i) - v * k) / k)

/-- Bobbin rows of a base word at row offsets (R463): `none` outside bobbin. -/
def bobbinRows (s : State) (t : Nat) (tile : Tile) (base : Nat) (offs : List (Nat × Nat)) :
    Except Nat (List (Nat × Nat)) :=
  let w := baseWord s t tile base
  let lim := offs.foldl (fun m x => max m x.1) 0
  if addrSpace w = 0 && addrRow w + lim < 4096
  then .ok (offs.map fun x => (rowAddr t 0 (addrRow w + x.1), x.2))
  else .error (rowAddr t (addrSpace w) (addrRow w + lim) % 2 ^ 32)

/-- A STREAM issues (R126 to R128, R131, R142). -/
def streamIssue (t c : Nat) (f : MStream) (s : State) (tile : Tile) : Tile × Fx :=
  let b := tile.seq.bundle
  let st := tile.stallFor s t (tile.arrayBusy - c) 4 (0x3200, 8)
  let c1 := max c tile.arrayBusy
  let sw := if f.swap then swapLatches s t c1 st.1
    else if (activeLatch st.1).loaded then some (st.1, Fx.none, c1) else none
  match sw with
  | none => (st.1, st.2.also (Fx.fault 0x3002 (tileSite t 0 b f.row.toNat)))
  | some (tile2, fx2, c2) =>
    let n := f.count.toNat + 1
    let v := f.vidx.toNat
    let block := activeLatch tile2
    match bobbinRows s t tile2 f.abase.toNat (vectorRows v n),
          (if scaleBytes block.fmt = 0 then .ok [] else
            bobbinRows s t tile2 f.sbase.toNat (scaleRowsOf v n (scaleBytes block.fmt))) with
    | .error a, _ => (tile2, st.2.also (fx2.also (Fx.fault 0x2004 (tileSite t a b f.row.toNat))))
    | .ok _, .error a => (tile2, st.2.also (fx2.also (Fx.fault 0x2004 (tileSite t a b f.row.toNat))))
    | .ok rows, .ok srows =>
      let acts := rows.map fun x => (x.1, c2 + x.2)
      let reads := acts ++ srows.map fun x => (x.1, c2 + x.2)
      let cl := tile2.claim c tile2.ops (acts.map fun x => (portRead 0, x.2))
      let item : InFlight :=
        { id := tile2.ops, work := .stream f block, issue := c2, bundle := b, reads := readsOf s t false reads, done := 0 }
      ({ cl.1 with pipe := cl.1.pipe ++ [item], ops := cl.1.ops + 1, arrayBusy := c2 + n },
       st.2.also (fx2.also ((readsFx s t b false reads).also
         { claimFx t b cl.2 with events := [(0x10, n)] })))

/-- STREAM (R131). -/
def execStream (t : TileIx) (c : Nat) (f : MStream) (s : State) : Host.Outcome State Fault Refusal :=
  .next (slotIssue t c (fun l => streamIssue t.val l f) s)

/-! ## Adapters (R139 to R141) -/

/-- The descriptor that a bobbin row spells. -/
def parseDescriptor (d : Bytes) (table : List Nat) : Descriptor where
  baseRow := leAt d 0 4
  stride := leAt d 4 4
  aOff := leAt d 8 4
  bOff := leAt d 12 4
  slots := leAt d 16 2
  rank := leAt d 18 1
  fmt := leAt d 19 1
  scale := leAt d 20 1
  list := leAt d 22 2
  table := table

/-- Whether a descriptor's fields lie in their ranges (R139). DEDUCED (log 124): the rows that one slot uses are those of
one depth slice of A, and those of one column block of B. -/
def descriptorOk (d : Bytes) : Bool :=
  let x := parseDescriptor d []
  x.baseRow % 24 == 0 && x.baseRow < 737280 && x.stride % 24 == 0
    && max (x.aOff + (x.rank + 1) / 2) (x.bOff + (x.rank + 3) / 4) ≤ x.stride
    && 1 ≤ x.slots && x.slots ≤ 1024 && 1 ≤ x.rank && x.rank ≤ 64
    && (x.fmt == 2 || x.fmt == 3 || x.fmt == 5) && x.scale ≤ 15 && leAt d 21 1 == 0
    && x.list + 4 ≤ 4096 && allZero (slice d 24 488)

/-- A descriptor of a tile. -/
def descAt (tile : Tile) (i : Nat) : Descriptor := tile.descs.getD i Descriptor.reset

/-- The adapter slot of an accumulator row: `none` where the entry is invalid (R141). -/
def slotOf (d : Descriptor) (r : Nat) : Option Nat :=
  let s := d.table.getD (r % 1024) 0
  if s < d.slots || s = 0xFFFF then some s else none

/-- An ASET issues (R139, R142): it reads the descriptor row and the four slot list rows it names, one a cycle. -/
def asetIssue (t c : Nat) (f : MAset) (s : State) (tile : Tile) : Tile × Fx :=
  let b := tile.seq.bundle
  let st := tile.stallFor s t (tile.arrayBusy - c) 4 (0x3200, 8)
  let c1 := max c tile.arrayBusy
  match bobbinRows s t tile f.base.toNat [(f.off.toNat, 0)] with
  | .error a => (st.1, st.2.also (Fx.fault 0x2004 (tileSite t a b 0)))
  | .ok rows =>
    let a := (rows.headD (0, 0)).1
    let d := (readFrame s t a c1).data
    let x := parseDescriptor d []
    if descriptorOk d then
      let reads := (a, c1) :: (List.range 4).map fun i => (rowAddr t 0 (x.list + i), c1 + 1 + i)
      let cl := st.1.claim c st.1.ops (reads.map fun r => (portRead 0, r.2))
      let item : InFlight :=
        { id := st.1.ops, work := .aset f.desc.toNat (some x), issue := c1, bundle := b
          reads := readsOf s t false reads, done := 0 }
      ({ cl.1 with pipe := cl.1.pipe ++ [item], ops := cl.1.ops + 1, arrayBusy := c1 + 5 },
       st.2.also ((readsFx s t b false reads).also (claimFx t b cl.2)))
    else (st.1, st.2.also ((fetchFx s t a b).also (Fx.fault 0x3006 (tileSite t a b 0))))

/-- Cycles that an item of ADOWN or AUP takes (R141). -/
def downCycles (r : Nat) : Nat := (r + 3) / 4
def upCycles (r : Nat) : Nat := (r + 7) / 8

/-- The beam rows of one adapter item from row `first`, two a cycle from cycle `c` (R140). -/
def adapterRows (t first n c : Nat) : List (Nat × Nat) :=
  (List.range n).map fun m => (rowAddr t 1 (first + m), c + m / 2)

/-- Port claims of adapter rows; a slot of 0xFFFF claims the same ports (R141). -/
def adapterClaims (n c : Nat) : List (Nat × Nat) :=
  (List.range n).map fun m => (if m % 2 = 0 then portA else portB, c + m / 2)

/-- An ADOWN issues (R140 to R142). -/
def adownIssue (t c : Nat) (f : MAdown) (s : State) (tile : Tile) : Tile × Fx :=
  let b := tile.seq.bundle
  let st := tile.stallFor s t (tile.arrayBusy - c) 4 (0x3200, 8)
  let c1 := max c tile.arrayBusy
  let d := descAt tile f.desc.toNat
  let n := f.count.toNat + 1
  let v := f.vidx.toNat
  let q := downCycles d.rank
  let ar := (d.rank + 1) / 2
  match slotOf d f.row.toNat with
  | none => (st.1, st.2.also (Fx.fault 0x3006 (tileSite t 0 b f.row.toNat)))
  | some slot =>
    let first := fun i => d.baseRow + slot * d.stride + d.aOff + (f.slice.toNat + i) * ar
    match bobbinRows s t tile f.abase.toNat (vectorRows v n),
          bobbinRows s t tile d.scale (scaleRowsOf v n 4) with
    | .error a, _ => (st.1, st.2.also (Fx.fault 0x2004 (tileSite t a b f.row.toNat)))
    | .ok _, .error a => (st.1, st.2.also (Fx.fault 0x2004 (tileSite t a b f.row.toNat)))
    | .ok rows, .ok srows =>
      if slot ≠ 0xFFFF && 737280 < first (n - 1) + ar then
        (st.1, st.2.also (Fx.fault 0x2004 (tileSite t (rowAddr t 1 (first (n - 1))) b f.row.toNat)))
      else
        let want := if slot = 0xFFFF then [] else
          (List.range n).flatMap fun i => adapterRows t (first i) ar (c1 + q * i)
        let acts := rows.map fun x => (x.1, c1 + q * x.2)
        let reads := acts ++ (srows.map fun x => (x.1, c1 + q * x.2)) ++ want
        let cl := st.1.claim c st.1.ops ((acts.map fun x => (portRead 0, x.2)) ++
          (List.range n).flatMap fun i => adapterClaims ar (c1 + q * i))
        let item : InFlight :=
          { id := st.1.ops, work := .adown f d slot, issue := c1, bundle := b, reads := readsOf s t false reads, done := 0 }
        ({ cl.1 with pipe := cl.1.pipe ++ [item], ops := cl.1.ops + 1, arrayBusy := c1 + q * n },
         st.2.also ((readsFx s t b false reads).also
           { claimFx t b cl.2 with
             asks := asksOf t st.1 true st.1.ops want, bumps := [((0x3200, 9), n)], events := [(0x13, n)] }))

/-- The slots of rows in turn up to the first whose entry is invalid. -/
def validSlots (d : Descriptor) (rows : List Nat) : List Nat :=
  ((rows.map (slotOf d)).takeWhile (·.isSome)).filterMap id

/-- An AUP issues (R140 to R142): its items up to the first whose slot entry is invalid take their rows; that one is the
operation's last, a fault when its turn comes. -/
def aupIssue (t c : Nat) (f : MAup) (s : State) (tile : Tile) : Tile × Fx :=
  let b := tile.seq.bundle
  let st := tile.stallFor s t (tile.arrayBusy - c) 4 (0x3200, 8)
  let c1 := max c tile.arrayBusy
  let d := descAt tile f.desc.toNat
  let n := f.count.toNat + 1
  let v := f.vidx.toNat
  let q := upCycles d.rank
  let br := (d.rank + 3) / 4
  let slots := validSlots d ((List.range n).map fun i => f.row.toNat + i)
  let first := fun slot => d.baseRow + slot * d.stride + d.bOff + f.block.toNat * br
  match bobbinRows s t tile f.base.toNat (vectorRows v n) with
  | .error a => (st.1, st.2.also (Fx.fault 0x2004 (tileSite t a b f.row.toNat)))
  | .ok rows =>
    match slots.find? fun x => x != 0xFFFF && decide (737280 < first x + br) with
    | some x => (st.1, st.2.also (Fx.fault 0x2004 (tileSite t (rowAddr t 1 (first x)) b f.row.toNat)))
    | none =>
      let want := (slots.mapIdx fun i x => if x = 0xFFFF then [] else adapterRows t (first x) br (c1 + q * i)).flatten
      let acts := rows.map fun x => (x.1, c1 + q * x.2)
      let reads := acts ++ want
      let cl := st.1.claim c st.1.ops ((acts.map fun x => (portRead 0, x.2)) ++
        (List.range slots.length).flatMap fun i => adapterClaims br (c1 + q * i))
      let item : InFlight :=
        { id := st.1.ops, work := .aup f d slots, issue := c1, bundle := b, reads := readsOf s t false reads, done := 0 }
      ({ cl.1 with pipe := cl.1.pipe ++ [item], ops := cl.1.ops + 1, arrayBusy := c1 + q * n },
       st.2.also ((readsFx s t b false reads).also
         { claimFx t b cl.2 with
           asks := asksOf t st.1 true st.1.ops want, bumps := [((0x3200, 9), slots.length)]
           events := [(0x13, slots.length)] }))

/-- ADOWN (R141). -/
def execAdown (t : TileIx) (c : Nat) (f : MAdown) (s : State) : Host.Outcome State Fault Refusal :=
  .next (slotIssue t c (fun l => adownIssue t.val l f) s)

/-- AUP (R141). -/
def execAup (t : TileIx) (c : Nat) (f : MAup) (s : State) : Host.Outcome State Fault Refusal :=
  .next (slotIssue t c (fun l => aupIssue t.val l f) s)

/-- ASET (R139). -/
def execAset (t : TileIx) (c : Nat) (f : MAset) (s : State) : Host.Outcome State Fault Refusal :=
  .next (slotIssue t c (fun l => asetIssue t.val l f) s)

/-- SETBOUND (R136). -/
def execSetbound (t : TileIx) (c : Nat) (f : MSetbound) (s : State) : Host.Outcome State Fault Refusal :=
  .next (slotIssue t c (fun _ _ tile => ({ tile with bounds := tile.bounds.set f.reg.toNat f.val.toInt }, Fx.none)) s)

/-- The contribution of a side-array item: values of the vector, an element of the adapter matrix by depth position and
column, columns written; the checksum contribution from the column sums of the rows read, each rounded once to f32. -/
def sideContrib (acts : List Num) (elem : Nat → Nat → Num) (cols : Nat) : Contribution :=
  let d := acts.length
  contribF32 acts ((List.range cols).map fun j => (List.range d).map fun k => elem k j)
    ((List.range d).map fun k => f32 (toF32 (Num.sum ((List.range cols).map fun j => elem k j))))

/-- Vector `v` of a stream whose first vector is `v0`, from the data of its rows. -/
def vectorOf (data : List Bytes) (v0 v : Nat) : Bytes :=
  slice (data.getD (v / 4 - v0 / 4) []) (128 * (v % 4)) 128

/-- The scale codes of vector `v`, `k` bytes of them, `w` bytes each, from the data of the scale rows. -/
def scalesOf (data : List Bytes) (v0 v k w : Nat) : List Nat :=
  (pieces w k (slice (data.getD (v * k / 512 - v0 * k / 512) []) (v * k % 512) k)).map leNat

/-- Item `i` of an array operation: accumulator row, whether it overwrites, contribution; none where its slot entry is
invalid (R141). DEDUCED (log 124): a row with slot 0xFFFF takes a contribution of zeros as any other. -/
def itemContrib (p : InFlight) (data : List Bytes) : Option (Nat × Bool × Option Contribution) :=
  let i := p.done
  match p.work with
  | .stream f b =>
    let v0 := f.vidx.toNat
    let na := (vectorRows v0 (f.count.toNat + 1)).length
    some (f.row.toNat + i, !f.acc,
      some (streamContrib b (vectorOf data v0 (v0 + i)) (scalesOf (data.drop na) v0 (v0 + i) (scaleBytes b.fmt) 1)))
  | .adown f d slot =>
    let v0 := f.vidx.toNat
    let n := f.count.toNat + 1
    let na := (vectorRows v0 n).length
    let ns := (scaleRowsOf v0 n 4).length
    let ar := (d.rank + 1) / 2
    let a := ((data.drop (na + ns + ar * i)).take ar).flatten
    let w := if d.fmt = 5 then 2 else 1
    let sc := scalesOf (data.drop na) v0 (v0 + i) 4 w
    let acts := (unpackElems 8 (vectorOf data v0 (v0 + i))).mapIdx fun k x =>
      (elemNum d.fmt x).mul (scaleNum d.fmt (sc.getD (k / blockLen d.fmt) 0))
    some (f.row.toNat, !f.acc && i == 0,
      some (if slot = 0xFFFF then sideContrib [] (fun _ _ => Num.zero) 0
        else sideContrib acts (fun k j => elemNum 6 (elemAt 16 a (Config.adapterA d.rank k j % (256 * ar)))) d.rank))
  | .aup f d slots =>
    let v0 := f.vidx.toNat
    let na := (vectorRows v0 (f.count.toNat + 1)).length
    let br := (d.rank + 3) / 4
    let k := ((slots.take i).filter (· != 0xFFFF)).length
    let bm := ((data.drop (na + br * k)).take br).flatten
    let u := ((unpackElems 16 (vectorOf data v0 (v0 + i))).take d.rank).map (elemNum 6)
    some (f.row.toNat + i, false,
      slots[i]?.map fun x => if x = 0xFFFF then sideContrib [] (fun _ _ => Num.zero) 0
        else sideContrib u (fun j c => elemNum 6 (elemAt 16 bm (Config.adapterB d.rank j c % (256 * br)))) 64)
  | _ => none

/-- Items of an array operation and the cycles each takes. -/
def itemShape (p : InFlight) : Option (Nat × Nat) :=
  match p.work with
  | .stream f _ => some (f.count.toNat + 1, 1)
  | .adown f d _ => some (f.count.toNat + 1, downCycles d.rank)
  | .aup f d _ => some (f.count.toNat + 1, upCycles d.rank)
  | _ => none

/-- The next item of an array operation whose contribution reaches its row by cycle `c`: 8 cycles after the item's last
cycle (R132). -/
def itemDone (c : Nat) (p : InFlight) : Option (Nat × Nat × Bool × Option Contribution) :=
  match itemShape p with
  | none => none
  | some (n, q) =>
    if p.issue + (p.done + 1) * q - 1 + Config.accLat ≤ c then
      match readData p.reads with
      | none => none
      | some data => (itemContrib p data).map fun x => (n, x.1, x.2.1, x.2.2)
    else none

/-- A contribution reaches its accumulator row (R131, R132); an invalid slot entry is fault 0x3006 and ends its
operation (R141). -/
def contribute (t c : Nat) (tile : Tile) : Tile × Fx :=
  match firstReady (itemDone c) tile.pipe with
  | none => (tile, Fx.none)
  | some (i, p, _, row, _, none) =>
    ({ tile with pipe := tile.pipe.eraseIdx i }, Fx.fault 0x3006 (tileSite t 0 p.bundle (row % 1024)))
  | some (i, p, n, row, ovr, some k) =>
    let tile1 := { tile with pipe := delivered i n p tile.pipe }
    match applyContrib ovr k (accAt tile row) with
    | none => (tile1, Fx.fault 0x3002 (tileSite t 0 p.bundle (row % 1024)))
    | some r => (accSet row r tile1, Fx.none)

/-- CONTRIBUTION_REACHES_ACCUMULATOR (R132). -/
def execContribution (t : TileIx) (c : Nat) (s : State) : Host.Outcome State Fault Refusal :=
  .next (if issuing s then onTile t.val c (fun _ tile => contribute t.val (tile.count c) tile) s else s)

/-! ## DRAIN (R134 to R138) -/

/-- Accumulator rows of a destination row: two, or four to bf16 (R134). -/
def drainPer (fmt : Nat) : Nat := if fmt = 6 then 4 else 2

/-- A DRAIN issues (R134, R136, R142): fields are drawn for bf16 in every rounding mode. DESIGN CHOICE (log 111): it takes
the exponent bound it names as it issues. -/
def drainIssue (t c : Nat) (f : MDrain) (s : State) (tile : Tile) : Tile × Fx :=
  let b := tile.seq.bundle
  let st := tile.stallFor s t (tile.drainBusy - c) 4 (0x3200, 8)
  let c1 := max c tile.drainBusy
  let n := f.count.toNat + 1
  match operandRows s t tile f.dbase.toNat f.doff.toNat n [0] 0 with
  | .error a => (st.1, st.2.also (Fx.fault 0x2004 (tileSite t a b f.row.toNat)))
  | .ok dst =>
    let dr := st.1.drawn s t c1 (if f.fmt.toNat = 6 then 256 * n else 0) b
    let w := Config.drainLat (profile s) - 1
    let at_ := dst.mapIdx fun k a => (a, c1 + k)
    let cl := dr.2.1.claim c dr.2.1.ops (at_.flatMap fun x => [(portWrite 0, x.2 + w), (rowClaim x.1, x.2 + w)])
    let item : InFlight :=
      { id := dr.2.1.ops, work := .drain f dr.1 (tile.bounds.getD f.bound.toNat 127), issue := c1, bundle := b
        reads := at_.map fun x => { addr := x.1, due := x.2, slip := 0, await := false, val := none }, done := 0 }
    ({ cl.1 with pipe := cl.1.pipe ++ [item], ops := cl.1.ops + 1, drainBusy := c1 + n },
     st.2.also (dr.2.2.also (claimFx t b cl.2)))

/-- Whether S and C differ by more than n × 2^(e − t) (R138). -/
def checksumOff (r : AccRow) (tol : Nat) : Bool :=
  let d := (Num.sum (r.acc.map fun v => f32 v.toNat)).add (f32 r.chk.toNat).neg
  let bound := Num.fin false r.count (r.expo - tol)
  match d with
  | .fin _ m e => bound.lt (.fin false m e)
  | _ => false

/-- The checks of a drained row in the order of R135: the fault of the first that fails. -/
def drainCheck (r : AccRow) (tol : Nat) (bound : Int) : Option Nat :=
  if r.tag = some true then
    if (r.acc.foldl (· + ·) 0) != r.chk then some 0x3001
    else if r.ovf then some 0x3005
    else if r.acc.any (fun v => decide (2 ^ (bound + 1).toNat ≤ v.toInt.natAbs * 2 ^ (-(bound + 1)).toNat)) then some 0x3004
    else none
  else
    let vs := r.acc.map fun v => f32 v.toNat
    if !(vs.all Num.isFin && (f32 r.chk.toNat).isFin) then some 0x3003
    else if checksumOff r tol then some 0x3001
    else if vs.any (fun x => match x with | .fin _ m e => !(Num.fin false m e).lt (.fin false 1 (bound + 1)) | _ => true)
    then some 0x3004
    else none

/-- The object counter of a drain fault. -/
def drainCounter (code : Nat) : Nat :=
  if code = 0x3001 then 3 else if code = 0x3004 then 4 else if code = 0x3003 then 5 else 6

/-- The first accumulator row of a destination row that fails, with its fault; rows checked (R134, R135). DESIGN CHOICE
(log 111): a row without a mode tag fails as one of the other mode does. -/
def drainScan (tile : Tile) (ints : Bool) (tol : Nat) (bound : Int) : List Nat → Nat → Option (Nat × Nat) × Nat
  | [], k => (none, k)
  | r :: rs, k =>
    let a := accAt tile r
    if a.tag ≠ some ints then (some (r % 1024, 0x3002), k)
    else match drainCheck a tol bound with
      | some code => (some (r % 1024, code), k + 1)
      | none => drainScan tile ints tol bound rs (k + 1)

/-- The data of a destination row and the saturations of its conversion (R136). -/
def drainData (f : MDrain) (tile : Tile) (rows : List Nat) (fields : List Nat) : Bytes × Nat :=
  let vs := rows.flatMap fun r => (accAt tile r).acc
  if f.fmt.toNat = 6 then
    let k := toFloats 6 f.round.toNat (vs.map fun v => f32 v.toNat) fields
    (packElems 16 k.elems, k.sats)
  else (vs.flatMap fun v => leBytes 4 v.toNat, 0)

/-- A DRAIN in flight whose next destination row is due by cycle `c`. -/
def drainDue (c : Nat) (p : InFlight) : Option (MDrain × List Nat × Int × Nat) :=
  match p.work, p.reads[p.done]? with
  | .drain f us bound, some r => if p.issue + p.done ≤ c then some (f, us, bound, r.addr) else none
  | _, _ => none

/-- The drain unit reads the accumulator rows of the next destination row, checks and converts them; the bobbin row is
readable at the drain latency (R134 to R138). DESIGN CHOICE (log 111): after a row that fails, the rest of the operation
writes nothing. -/
def drainNext (t c : Nat) (s : State) (tile : Tile) : Tile × Fx :=
  match firstReady (drainDue c) tile.pipe with
  | none => (tile, Fx.none)
  | some (i, p, f, us, bound, a) =>
    let per := drainPer f.fmt.toNat
    let rows := (List.range per).map fun j => (f.row.toNat + per * p.done + j) % 1024
    let scan := drainScan tile (f.fmt.toNat = 8) (objGet s 0x3200 1) bound rows 0
    let seen := rows.take scan.2
    let fx : Fx := { Fx.none with
      bumps := [((0x3200, 2), scan.2)], events := [(0x12, scan.2)]
      expo := some ((seen.map fun r => (accAt tile r).expo).foldl max (-127)) }
    match scan.1 with
    | some (r, code) =>
      ({ tile with pipe := tile.pipe.eraseIdx i },
       fx.also ({ Fx.fault code (tileSite t 0 p.bundle r) with
         bumps := if code = 0x3002 then [] else [((0x3200, drainCounter code), 1)] }))
    | none =>
      let d := drainData f tile rows (us.drop (256 * p.done))
      let w := p.issue + p.done + Config.drainLat (profile s)
      ({ tile with
         pipe := delivered i p.reads.length p tile.pipe
         writes := tile.writes ++ [(w, a, freshFrame d.1 0)] },
       fx.also { Fx.none with bumps := [((0x3200, 0xC), d.2)], events := [(0x1A, d.2)] })

/-- DRAIN (R134). -/
def execDrain (t : TileIx) (c : Nat) (f : MDrain) (s : State) : Host.Outcome State Fault Refusal :=
  .next (slotIssue t c (fun l => drainIssue t.val l f) s)

/-- DRAIN_DESTINATION_ROW (R134). -/
def execDrainRow (t : TileIx) (c : Nat) (s : State) : Host.Outcome State Fault Refusal :=
  .next (if issuing s then onTile t.val c (fun s tile => drainNext t.val (tile.count c) s tile) s else s)

end Sys2Proof.Machine
end

