-- ==== Sys2Proof/Machine/Tables.lean ====
section
/-! DEFINITION. The function tables (R179, R180) and the Gumbel table (R203, R204), rebuilt by the manual's rule: knots
rounded to f32 from values computed in integers, coefficients from the knots, quadratic evaluation. -/

namespace Sys2Proof.Machine

/-! ## Integer functions -/

/-- Newton's iteration for a square root from above, `k` steps at most. -/
def isqrtGo : Nat → Nat → Nat → Nat
  | 0, _, x => x
  | k + 1, n, x =>
    let y := (x + n / x) / 2
    if y < x then isqrtGo k n y else x

/-- floor(sqrt n) for the sizes used here. -/
def isqrt (n : Nat) : Nat := if n = 0 then 0 else isqrtGo 64 n (2 ^ (Nat.log2 n / 2 + 1))

/-- `k` square roots in turn: floor of the 2^k-th root. -/
def rootGo : Nat → Nat → Nat
  | 0, n => n
  | k + 1, n => rootGo k (isqrt n)

/-- Fraction bits of the fixed-point values below. -/
def fixBits : Nat := 192

/-- Terms z^(2i+1) / (2i+1) summed from `i` on, in fixed point; `zp` is z^(2i+1). -/
def atanhGo : Nat → Nat → Int → Int → Int → Int
  | 0, _, _, _, acc => acc
  | k + 1, i, z2, zp, acc => atanhGo k (i + 1) z2 (zp * z2 / (2 ^ fixBits : Nat)) (acc + zp / (2 * i + 1 : Nat))

/-- ln(p / q) for 1/2 < p / q < 2 as 2 artanh((p − q) / (p + q)), in fixed point. -/
def lnNear (p q : Nat) : Int :=
  let z : Int := ((p : Int) - q) * (2 ^ fixBits : Nat) / (p + q : Nat)
  2 * atanhGo 64 0 (z * z / (2 ^ fixBits : Nat)) z 0

/-- ln 2 in fixed point, as ln(4/3) + ln(3/2). -/
def ln2Fix : Int := lnNear 4 3 + lnNear 3 2

/-- ln(p / q) in fixed point. -/
def lnFix (p q : Nat) : Int :=
  let e : Int := (Nat.log2 p : Int) - Nat.log2 q
  let w := pow2 e
  e * ln2Fix + lnNear (p * w.2) (q * w.1)

/-- Terms of the exponential series of k / 128 in fixed point. -/
def expGo : Nat → Nat → Nat → Nat → Nat → Nat
  | 0, _, _, _, acc => acc
  | f + 1, n, k, term, acc => expGo f (n + 1) k (term * k / (128 * (n + 1))) (acc + term)

/-- e^(k / 128) in fixed point. -/
def expFix (k : Nat) : Nat := expGo 160 0 k (2 ^ fixBits) 0

/-- A positive ratio rounded to f32. -/
def f32Ratio (p q : Nat) : Nat := roundMag 0 0 p q fmtF32

/-! ## Knots, each rounded to f32 by nearest-even (R179) -/

/-- 2^(k / 512). -/
def knotExp2 (k : Nat) : Nat := toF32 (.fin false (2 * rootGo 9 (2 ^ (512 * 40 + k)) + (if k % 512 = 0 then 0 else 1)) (-41))

/-- log2(1 + k / 512). -/
def knotLog2 (k : Nat) : Nat :=
  if k = 0 then 0 else if k = 512 then toF32 (.fin false 1 0)
  else f32Ratio (lnFix (512 + k) 512).toNat ln2Fix.toNat

/-- 1 / (1 + k / 512). -/
def knotRcp (k : Nat) : Nat := f32Ratio 512 (512 + k)

/-- (p / q)^(−1/2) for 1 ≤ p / q ≤ 4. -/
def knotRsqrt (p q : Nat) : Nat :=
  let r := isqrt (q * 2 ^ 80 / p)
  toF32 (.fin false (2 * r + (if r * r * p = q * 2 ^ 80 then 0 else 1)) (-41))

/-- 1 / (1 + e^(−k / 128)). -/
def knotSigm (k : Nat) : Nat := f32Ratio (expFix k) (expFix k + 2 ^ fixBits)

/-! ## Evaluation -/

/-- A value times a power of two. -/
def Num.scale (x : Num) (e : Int) : Num := x.mul (.fin false 1 e)

/-- The f32 encoding of a × b + c with one rounding. -/
def f32Fma (a b c : Num) : Nat := toF32 ((a.mul b).add c)

/-- The segment value q at t for knots y₀, y₁, y₂ of a segment of width 2^(−e) (R179). -/
def segEval (y0 y1 y2 e : Nat) (t : Num) : Nat :=
  let n (k : Int) (y : Nat) := (f32 y).mul (Num.ofInt k)
  let c1 := toF32 (((n 4 y1).add ((n (-3) y0).add (n (-1) y2))).scale e)
  let c2 := toF32 (((n 2 y0).add ((n (-4) y1).add (n 2 y2))).scale (2 * e))
  f32Fma (f32 (f32Fma (f32 c2) t (f32 c1))) t (f32 y0)

/-- A dyadic m·2^s ≥ 0 split at 2^(−e): segment number and remainder. -/
def segOf (m : Nat) (s : Int) (e : Nat) : Nat × Num :=
  let w := s + e
  if 0 ≤ w then (m * 2 ^ w.toNat, Num.zero)
  else
    let d := 2 ^ (-w).toNat
    (m / d, .fin false (m % d) s)

/-- EXP2 of an f32 encoding (R180). -/
def fnExp2 (x : Num) : Nat :=
  match x with
  | .nan => fmtF32.nan
  | .inf n => if n then 0 else 0x7F800000
  | .fin n m s =>
    if !n && !x.lt (.fin false 128 0) then 0x7F800000
    else if x.lt (.fin true 150 0) then 0
    else
      let v := mantAt n m s (min s 0)
      let d : Nat := 2 ^ (-(min s 0)).toNat
      let i := v / d
      let g := segOf (v % d).toNat (min s 0) 8
      let k := g.1
      toF32 ((f32 (segEval (knotExp2 (2 * k)) (knotExp2 (2 * k + 1)) (knotExp2 (2 * k + 2)) 8 g.2)).scale i)

/-- A positive finite value as 2^e × u with u in [1, 2): e, the segment of u − 1 of width 2^(−8), the rest. -/
def unitSeg (m : Nat) (s : Int) : Int × Nat × Num :=
  let b := Nat.log2 m
  let g := segOf (m - 2 ^ b) (-(b : Int)) 8
  (b + s, g.1, g.2)

/-- LOG2 (R180). -/
def fnLog2 (x : Num) : Nat :=
  match x with
  | .nan => fmtF32.nan
  | .inf n => if n then fmtF32.nan else 0x7F800000
  | .fin n m s =>
    if m = 0 then 0xFF800000
    else if n then fmtF32.nan
    else
      let g := unitSeg m s
      let k := g.2.1
      f32Add (toF32 (Num.ofInt g.1)) (segEval (knotLog2 (2 * k)) (knotLog2 (2 * k + 1)) (knotLog2 (2 * k + 2)) 8 g.2.2)

/-- RCP (R180). -/
def fnRcp (x : Num) : Nat :=
  match x with
  | .nan => fmtF32.nan
  | .inf n => withSign fmtF32 n 0
  | .fin n m s =>
    if m = 0 then withSign fmtF32 n 0x7F800000
    else
      let g := unitSeg m s
      let k := g.2.1
      let q := f32 (segEval (knotRcp (2 * k)) (knotRcp (2 * k + 1)) (knotRcp (2 * k + 2)) 8 g.2.2)
      withSign fmtF32 n (toF32 (q.scale (-g.1)))

/-- RSQRT (R180): u in [1, 2) has segments of 2^(−7), u in [2, 4) of 2^(−6). -/
def fnRsqrt (x : Num) : Nat :=
  match x with
  | .nan => fmtF32.nan
  | .inf n => if n then fmtF32.nan else 0
  | .fin n m s =>
    if m = 0 then withSign fmtF32 n 0x7F800000
    else if n then fmtF32.nan
    else
      let b := Nat.log2 m
      let e := (b + s) / 2
      let odd := (b + s) % 2 = 1
      let h := if odd then 6 else 7
      let lo := if odd then 2 else 1
      let g := segOf (m - 2 ^ b) (if odd then 1 - (b : Int) else -(b : Int)) h
      let y (j : Nat) := knotRsqrt (lo * 2 ^ (h + 1) + 2 * g.1 + j) (2 ^ (h + 1))
      toF32 ((f32 (segEval (y 0) (y 1) (y 2) h g.2)).scale (-e))

/-- SIGM (R180). -/
def fnSigm (x : Num) : Nat :=
  match x with
  | .nan => fmtF32.nan
  | .inf n => if n then 0 else 0x3F800000
  | .fin n m s =>
    let g := segOf m s 6
    let k := g.1
    let q := if 1024 ≤ k then 0x3F800000
      else segEval (knotSigm (2 * k)) (knotSigm (2 * k + 1)) (knotSigm (2 * k + 2)) 6 g.2
    if n && m ≠ 0 then f32Add 0x3F800000 (q + 2 ^ 31) else q

/-! ## Gumbel noise (R203, R204) -/

/-- The field of knot `i`. -/
def gumbelKnot (i : Nat) : Nat := if i = 0 then 0 else 64 * i + 63

/-- T[i] = −ln(−ln((v + 1) / 65,537)), rounded to f32. -/
def gumbelTable (i : Nat) : Nat :=
  let w := (lnFix 65537 (gumbelKnot i + 1)).toNat
  let g := lnFix (2 ^ fixBits) w
  toF32 (.fin (decide (g < 0)) g.natAbs (-(fixBits : Int)))

/-- A value divided by a positive number and rounded to a format, overflow to infinity. -/
def roundOver (f : FloatFmt) (x : Num) (d : Nat) : Nat :=
  match x with
  | .nan => f.nan
  | .inf n => withSign f n (f.top + 1)
  | .fin n m e =>
    if m = 0 then withSign f n 0
    else
      let r := (Num.fin n m e).ratio
      withSign f n (min (f.top + 1) (roundMag 0 0 r.1 (r.2 * d) f))

/-- a plus the Gumbel value of field `v`, rounded once to a format (R187, R204). -/
def gumbelAdd (f : FloatFmt) (a : Num) (v : Nat) : Nat :=
  let i := min 1022 (if v < 127 then 0 else (v - 63) / 64)
  let lo := gumbelKnot i
  let d := gumbelKnot (i + 1) - lo
  let t0 := f32 (gumbelTable i)
  let t1 := f32 (gumbelTable (i + 1))
  let g := (t0.mul (Num.ofInt d)).add ((t1.add t0.neg).mul (Num.ofInt ((v : Int) - lo)))
  roundOver f ((a.mul (Num.ofInt d)).add g) d

end Sys2Proof.Machine
end

