-- ==== Sys2Proof/Machine/Vector.lean ====
section
/-! DEFINITION. The vector engine (R167 to R193): element arithmetic, functions, reductions, conversion, stipple
operations, row moves, gather and scatter, bound check and flags. -/

namespace Sys2Proof.Machine

/-! ## Types and lanes -/

/-- Width of a type code. -/
def tyWidth (ty : Nat) : Nat := if ty = 1 then 16 else if ty = 3 then 8 else 32

/-- Whether a type code is a floating-point type. -/
def tyFloat (ty : Nat) : Bool := decide (ty ≤ 1)

/-- The floating-point format of a type code. -/
def tyFmt (ty : Nat) : FloatFmt := if ty = 1 then fmtBf16 else fmtF32

/-- A value rounded once by nearest-even to a floating-point type (R176). -/
def tyRound (ty : Nat) (x : Num) : Nat := if ty = 1 then toBf16 x else toF32 x

/-- An integer result wrapped, or limited where saturating (R177). -/
def narrow (w : Nat) (sat : Bool) (v : Int) : Nat :=
  if sat then unsigned w (max (-(2 ^ (w - 1) : Nat) : Int) (min v ((2 ^ (w - 1) : Nat) - 1))) else unsigned w v

/-- FMAX or FMIN of two values: NaN if either is NaN, −0 below +0 (R176). -/
def fmaxmin (mx : Bool) (a b : Num) : Num :=
  if a = .nan || b = .nan then .nan
  else if a.lt b then (if mx then b else a)
  else if b.lt a then (if mx then a else b)
  else if mx = a.isNeg then b else a

/-- Whether a CMP condition holds of two floating-point values (R178). -/
def cmpF (code : Nat) (a b : Num) : Bool :=
  let un := a = .nan || b = .nan
  let eq := !un && !a.lt b && !b.lt a
  if code = 0 then eq
  else if code = 1 then !eq
  else if code = 2 then a.lt b
  else if code = 3 then a.lt b || eq
  else if code = 4 then b.lt a
  else if code = 5 then b.lt a || eq
  else un

/-- Whether a CMP condition holds of two integers. -/
def cmpI (code : Nat) (a b : Int) : Bool :=
  if code = 0 then a == b
  else if code = 1 then a != b
  else if code = 2 then decide (a < b)
  else if code = 3 then decide (a ≤ b)
  else if code = 4 then decide (b < a)
  else if code = 5 then decide (b ≤ a)
  else false

/-- The value of a function-table operation on an f32 encoding's value. -/
def fnTable (op : EOp) (x : Num) : Nat :=
  match op with
  | .exp2 => fnExp2 x
  | .log2 => fnLog2 x
  | .rcp => fnRcp x
  | .rsqrt => fnRsqrt x
  | _ => fnSigm x

/-- A scalar of bf16 type that these operations read as the f32 element 0 (R176). -/
def wideScalar (op : EOp) (f : FormE) : Bool :=
  f.ty == 1 && f.bmode == 1 &&
    (op == .fadd || op == .fsub || op == .fmul || op == .fma || op == .fmax || op == .fmin || op == .cmp)

/-- One lane of an elementwise operation: elements of a, b and c and a stipple field give the element written. -/
def lane (op : EOp) (f : FormE) (a b c u : Nat) : Nat :=
  let ty := f.ty.toNat
  let w := tyWidth ty
  let A := (tyFmt ty).decode a
  let B := (if wideScalar op f then fmtF32 else tyFmt ty).decode b
  let i := signed w a
  let j := signed w b
  let sh := b % w
  match op with
  | .fadd => tyRound ty (A.add B)
  | .fsub => tyRound ty (A.add B.neg)
  | .fmul => tyRound ty (A.mul B)
  | .fma => tyRound ty ((A.mul B).add ((tyFmt ty).decode c))
  | .fmax => tyRound ty (fmaxmin true A B)
  | .fmin => tyRound ty (fmaxmin false A B)
  | .iadd => narrow w f.sat (i + j)
  | .isub => narrow w f.sat (i - j)
  | .imul => narrow w f.sat (i * j)
  | .imax => unsigned w (max i j)
  | .imin => unsigned w (min i j)
  | .and => a &&& b
  | .or => a ||| b
  | .xor => a ^^^ b
  | .andn => a &&& (2 ^ w - 1 - b)
  | .shl => a * 2 ^ sh % 2 ^ w
  | .shr => a / 2 ^ sh
  | .sra => unsigned w (i / (2 ^ sh : Nat))
  | .cmp => if (if tyFloat ty then cmpF f.c.toNat A B else cmpI f.c.toNat i j) then 2 ^ w - 1 else 0
  | .sel => if c ≠ 0 then a else b
  | .rand => u
  | .gumb => gumbelAdd (tyFmt ty) A u
  | .exp2 | .log2 | .rcp | .rsqrt | .sigm => if ty = 1 then toBf16 (f32 (fnTable op A)) else fnTable op A
  | .setflag | .bchk | .rsum | .rmax | .rmin | .rdot | .argmax | .topk => 0

/-! ## Reductions (R182 to R184) -/

/-- One level of the tree: neighbours combined. -/
def pairUp (g : Nat → Nat → Nat) : List Nat → List Nat
  | a :: b :: r => g a b :: pairUp g r
  | l => l

/-- `j` levels of the tree over all groups at once. -/
def treeGo (g : Nat → Nat → Nat) : Nat → List Nat → List Nat
  | 0, l => l
  | j + 1, l => treeGo g j (pairUp g l)

/-- How two values of a reduction combine. -/
def combine (op : EOp) (f : FormE) (a b : Nat) : Nat :=
  let ty := f.ty.toNat
  let w := tyWidth ty
  if op = .rsum || op = .rdot then
    (if tyFloat ty then f32Add a b else narrow 32 f.sat (signed 32 a + signed 32 b))
  else
    let mx := op == .rmax
    if tyFloat ty then tyRound ty (fmaxmin mx ((tyFmt ty).decode a) ((tyFmt ty).decode b))
    else unsigned w (if mx then max (signed w a) (signed w b) else min (signed w a) (signed w b))

/-- The leaves of a reduction: of a floating-point type the element's value in the type combined, a NaN canonical
(R146). -/
def leaf (op : EOp) (f : FormE) (a b : Nat) : Nat :=
  let ty := f.ty.toNat
  let w := tyWidth ty
  match op with
  | .rsum => if tyFloat ty then toF32 ((tyFmt ty).decode a) else unsigned 32 (signed w a)
  | .rdot =>
    if tyFloat ty then toF32 (((tyFmt ty).decode a).mul ((tyFmt ty).decode b))
    else narrow 32 f.sat (signed w a * signed w b)
  | _ => if tyFloat ty then tyRound ty ((tyFmt ty).decode a) else a

/-- The place of an element in the order of R183. -/
def orderKey (ty v : Nat) : Int :=
  let w := tyWidth ty
  if tyFloat ty then
    let m := v % 2 ^ (w - 1)
    if (tyFmt ty).top + 1 < m then 2 ^ w else if bitOf v (w - 1) then -(m : Int) - 1 else m
  else signed w v

/-- The first of the largest elements of a list of (key, value, index). -/
def bestOf : List (Int × Nat × Nat) → Option (Int × Nat × Nat)
  | [] => none
  | x :: r => match bestOf r with
    | none => some x
    | some y => if x.1 < y.1 then some y else some x

/-- The `k` largest, largest first, the lower index first among equals. -/
def topGo : Nat → List (Int × Nat × Nat) → List (Int × Nat × Nat)
  | 0, _ => []
  | k + 1, l => match bestOf l with
    | none => []
    | some x => x :: topGo k (l.filter (·.2.2 != x.2.2))

/-- The group exponent and k of a reduction's immediate. -/
def groupExp (f : FormE) : Nat := bits f.imm.toNat 12 4
def topCount (f : FormE) : Nat := bits f.imm.toNat 6 6 + 1

/-- Elements in groups with keys and indices. -/
def ranked (f : FormE) (es : List Nat) : List (List (Int × Nat × Nat)) :=
  (pieces (2 ^ groupExp f) es.length es).map fun g => g.mapIdx fun i v => (orderKey f.ty.toNat v, v, i)

/-- The results of a reduction: lists for the destination register and for the next. -/
def reduceAll (op : EOp) (f : FormE) (as bs : List Nat) : List Nat × List Nat :=
  match op with
  | .argmax => ((ranked f as).map fun g => match bestOf g with | some x => x.2.2 | none => 0, [])
  | .topk =>
    let r := (ranked f as).flatMap (topGo (topCount f))
    (r.map (·.2.1), r.map (·.2.2))
  | _ => (treeGo (combine op f) (groupExp f) (List.zipWith (leaf op f) as bs), [])

/-! ## Bound check (R192) -/

/-- Whether an element passes a BCHK, `lim` the named bound register. -/
def bchkPass (f : FormE) (lim : Int) (a b : Nat) : Bool :=
  let ty := f.ty.toNat
  let x := if tyFloat ty then (tyFmt ty).decode a else Num.ofInt (signed (tyWidth ty) a)
  if f.c.toNat = 0 then
    (match x with
     | .fin _ m e => (Num.fin false m e).lt (.fin false 1 (lim + 1))
     | _ => false)
  else if f.c.toNat = 1 then decide (a < b)
  else x.isFin

/-! ## What an operation reads -/

/-- A source read chunk by chunk: register, bytes in a chunk, bytes in all. -/
structure Source where
  reg   : Nat
  chunk : Nat
  total : Nat
  deriving DecidableEq, Repr

/-- The rows of the register that chunk `j` lies in. -/
def sourceRows (x : Source) (j : Nat) : List Nat :=
  let lo := j * x.chunk
  let hi := min (lo + x.chunk) x.total
  if hi ≤ lo then [] else (List.range ((hi - 1) / 512 - lo / 512 + 1)).map fun i => 32 * x.reg + lo / 512 + i

/-- The bytes of chunk `j` from the data of its rows. -/
def sourceBytes (x : Source) (j : Nat) (ds : List Bytes) : Bytes :=
  let lo := j * x.chunk
  slice ds.flatten (lo % 512) (min (lo + x.chunk) x.total - lo)

/-- Width in bits of the widest operand (R168, R185). -/
def vWidth : VSlot → Nat
  | .e _ f => tyWidth f.ty.toNat
  | .cvt f => max (elemWidth f.sfmt.toNat) (elemWidth f.dfmt.toNat)
  | _ => 32

/-- Elements of an operation. -/
def vCount : VSlot → Nat
  | .e _ f => f.count.toNat + 1
  | .cvt f => f.count.toNat + 1
  | .ldr f | .str f => f.rows.toNat + 1
  | .gath f | .scat f => f.rows.toNat + 1

/-- Issue cycles n of an operation (R58, R172). -/
def vCycles (v : VSlot) : Nat :=
  match v with
  | .e _ _ | .cvt _ => (vCount v * vWidth v + 8191) / 8192
  | .ldr _ | .str _ => vCount v
  | .gath _ | .scat _ => vCount v + 1

/-- Elements in a chunk. -/
def vChunk (v : VSlot) : Nat := 8192 / vWidth v

/-- Whether an operation of form E uses its source b. -/
def usesB (op : EOp) (f : FormE) : Bool :=
  match op with
  | .fadd | .fsub | .fmul | .fma | .fmax | .fmin | .iadd | .isub | .imul | .imax | .imin => true
  | .and | .or | .xor | .andn | .shl | .shr | .sra | .cmp | .sel | .rdot => true
  | .bchk => f.c == 1
  | .setflag | .exp2 | .log2 | .rcp | .rsqrt | .sigm | .rsum | .rmax | .rmin | .argmax | .topk | .rand | .gumb => false

/-- Whether the whole result of an operation appears at once. -/
def isWhole : VSlot → Bool
  | .e op _ => op == .rsum || op == .rmax || op == .rmin || op == .rdot || op == .argmax || op == .topk
      || op == .setflag || op == .bchk
  | _ => false

/-- The base of an operation. -/
def vBase : VSlot → Nat
  | .e op f =>
    (match op with
     | .exp2 | .log2 | .rcp | .rsqrt | .sigm | .rand | .gumb => 6
     | .rsum | .rmax | .rmin | .rdot | .argmax => 12
     | .topk => 12 + topCount f
     | _ => 4)
  | _ => 4

/-- A source of `v` whose elements are `w` bits wide. -/
def elemSource (v : VSlot) (reg w : Nat) : Source where
  reg := reg
  chunk := vChunk v * w / 8
  total := (vCount v * w + 7) / 8

/-- Whether a format's blocks carry scales in a conversion (R147, R186). -/
def scaled (fmt : Nat) (unsc : Bool) : Bool := fmt ≤ 3 || (fmt == 4 || fmt == 5) && !unsc

/-- Bytes of one scale. -/
def scaleSize (fmt : Nat) : Nat := if isIntFmt fmt then 2 else 1

/-- The source of a conversion's scales. -/
def scaleSource (v : VSlot) (reg fmt : Nat) : Source where
  reg := reg
  chunk := vChunk v / blockLen fmt * scaleSize fmt
  total := (vCount v + blockLen fmt - 1) / blockLen fmt * scaleSize fmt

/-- The sources that an operation reads chunk by chunk, in order. -/
def vSources (v : VSlot) : List Source :=
  match v with
  | .e op f =>
    let w := tyWidth f.ty.toNat
    (if op = .rand then [] else [elemSource v f.a.toNat w])
    ++ (if usesB op f && f.bmode == 0 then [elemSource v f.b.toNat w] else [])
    ++ (if op = .fma || op = .sel then [elemSource v f.c.toNat w] else [])
  | .cvt f =>
    elemSource v f.src.toNat (elemWidth f.sfmt.toNat)
    :: (if scaled f.sfmt.toNat f.unsc then [scaleSource v f.sscale.toNat f.sfmt.toNat] else [])
  | _ => []

/-- The register of a scalar operand. -/
def vScalar : VSlot → List Nat
  | .e op f => if usesB op f && f.bmode == 1 then [32 * f.b.toNat] else []
  | _ => []

/-- Rows of the register file that an operation of form E or C reads, with their cycles. -/
def vReads (t c : Nat) (v : VSlot) : List (Nat × Nat) :=
  (vScalar v).map (fun r => (rowAddr t 3 r, c)) ++
    (List.range (vCycles v)).flatMap fun j =>
      (vSources v).flatMap fun x => (sourceRows x j).map fun r => (rowAddr t 3 r, c + j)

/-- Rows read in a full chunk. -/
def vStride (v : VSlot) : Nat := ((vSources v).map fun x => max 1 (x.chunk / 512)).foldl (· + ·) 0

/-- The bytes of each source in chunk `j`, in the order of the reads. -/
def splitChunk (j : Nat) : List Source → List Bytes → List Bytes
  | [], _ => []
  | x :: xs, ds =>
    let n := (sourceRows x j).length
    sourceBytes x j (ds.take n) :: splitChunk j xs (ds.drop n)

/-- The bytes of each source in chunk `j` of an operation in flight. -/
def chunkBytes (v : VSlot) (reads : List RowRead) (j : Nat) : List Bytes :=
  let o := (vScalar v).length + j * vStride v
  splitChunk j (vSources v) ((reads.drop o).map fun r => ((r.val.map (·.data)).getD []))

/-- Elements in chunk `j`. -/
def chunkLen (v : VSlot) (j : Nat) : Nat := min (vChunk v) (vCount v - j * vChunk v)

/-- The immediate of B mode 2 at the type's width. -/
def immOf (f : FormE) : Nat :=
  let ty := f.ty.toNat
  if ty = 0 then f.imm.toNat * 65536
  else if ty = 1 then f.imm.toNat
  else if ty = 2 then unsigned 32 f.imm.toInt
  else f.imm.toNat % 256

/-- The elements of a, b and c in chunk `j` of an operation of form E. -/
def operands (op : EOp) (f : FormE) (reads : List RowRead) (j : Nat) : List Nat × List Nat × List Nat :=
  let v := VSlot.e op f
  let w := tyWidth f.ty.toNat
  let n := chunkLen v j
  let es := (chunkBytes v reads j).map (unpackElems w)
  let a := if op = .rand then List.replicate n 0 else es.headD []
  let bvec := usesB op f && f.bmode == 0
  let b :=
    if !usesB op f then List.replicate n 0
    else if f.bmode = 0 then es.getD 1 []
    else if f.bmode = 1 then
      let d := ((reads.head?.bind (·.val)).map (·.data)).getD []
      List.replicate n (leAt d 0 ((if wideScalar op f then 32 else w) / 8))
    else List.replicate n (immOf f)
  let c := if op = .fma || op = .sel then es.getD (if bvec then 2 else 1) [] else List.replicate n 0
  (a, b, c)

/-- `lane` over lists. -/
def lanes3 (g : Nat → Nat → Nat → Nat → Nat) : List Nat → List Nat → List Nat → List Nat → List Nat
  | a :: as, b :: bs, c :: cs, us => g a b c (us.headD 0) :: lanes3 g as bs cs us.tail
  | _, _, _, _ => []

/-! ## What an operation writes -/

/-- What one delivery does: elements written (register, first element, width, elements), a flag, a fault with its
detail, saturations and blocks with scale 0xFF counted. -/
structure VOut where
  puts   : List (Nat × Nat × Nat × List Nat)
  flag   : Option (Nat × Bool)
  fail   : Option (Nat × Nat)
  sats   : Nat
  nonfin : Nat
  deriving DecidableEq, Repr

/-- A delivery that writes elements. -/
def VOut.put (ps : List (Nat × Nat × Nat × List Nat)) : VOut where
  puts := ps
  flag := none
  fail := none
  sats := 0
  nonfin := 0

/-- The values of a conversion's source in a chunk (R147, R186). -/
def cvtValues (f : FormC) (es scs : List Nat) : List Num :=
  let sf := f.sfmt.toNat
  es.mapIdx fun i e =>
    if scaled sf f.unsc then (elemNum sf e).mul (scaleNum sf (scs.getD (i / blockLen sf) 0)) else elemNum sf e

/-- Values into unscaled i4 or i8 (R186). -/
def toPlainInts (w mode : Nat) (xs : List Num) (us : List Nat) : Converted :=
  match xs.findIdx? fun x => !x.isFin with
  | some i => { elems := [], scales := [], sats := 0, nonfin := 0, bad := some i }
  | none =>
    let rs := xs.mapIdx fun i v =>
      let r := v.ratio
      toIntElem mode (us.getD i 0) v.isNeg r.1 r.2 (2 ^ (w - 1) - 1) true
    { elems := rs.map fun r => unsigned w r.1, scales := [], sats := (rs.filter (·.2)).length, nonfin := 0, bad := none }

/-- Chunk `j` of a conversion. -/
def cvtChunk (f : FormC) (us : List Nat) (reads : List RowRead) (j : Nat) : Converted :=
  let v := VSlot.cvt f
  let bs := chunkBytes v reads j
  let es := (unpackElems (elemWidth f.sfmt.toNat) (bs.headD [])).take (chunkLen v j)
  let scs := unpackElems (8 * scaleSize f.sfmt.toNat) (bs.getD 1 [])
  let xs := cvtValues f es scs
  let u := us.drop (j * vChunk v)
  let df := f.dfmt.toNat
  if (df = 4 || df = 5) && f.unsc then toPlainInts (elemWidth df) f.round.toNat xs u
  else convertTo df f.round.toNat xs u

/-- What chunk `j` of a conversion writes; the scale register is written with the last chunk (R185). -/
def cvtOut (f : FormC) (us : List Nat) (reads : List RowRead) (j : Nat) : VOut :=
  let v := VSlot.cvt f
  let df := f.dfmt.toNat
  let k := cvtChunk f us reads j
  match k.bad with
  | some i => { VOut.put [] with fail := some (0x3007, j * vChunk v + i) }
  | none =>
    let scs := if scaled df f.unsc && j + 1 = vCycles v then
        [(f.dscale.toNat, 0, 8 * scaleSize df,
          (List.range (vCycles v)).flatMap fun i => (cvtChunk f us reads i).scales)] else []
    { VOut.put ((f.dst.toNat, j * vChunk v, elemWidth df, k.elems) :: scs) with sats := k.sats, nonfin := k.nonfin }

/-- The whole operands of a reduction, SETFLAG or BCHK. -/
def wholeOperands (op : EOp) (f : FormE) (reads : List RowRead) : List Nat × List Nat :=
  let js := List.range (vCycles (.e op f))
  (js.flatMap fun j => (operands op f reads j).1, js.flatMap fun j => (operands op f reads j).2.1)

/-- The whole result of a reduction, SETFLAG or BCHK, `lim` the exponent bound that a BCHK names. -/
def wholeOut (op : EOp) (f : FormE) (lim : Int) (reads : List RowRead) : VOut :=
  let x := wholeOperands op f reads
  let w := tyWidth f.ty.toNat
  let d := f.dst.toNat
  match op with
  | .setflag => { VOut.put [] with flag := some (d % 16, x.1.any (· != 0)) }
  | .bchk =>
    { VOut.put [] with
      fail := ((List.zipWith (fun a b => bchkPass f lim a b) x.1 x.2).findIdx? (!·)).map
        fun i => (0x3008, i) }
  | .topk =>
    let r := reduceAll op f x.1 x.2
    VOut.put [(d, 0, w, r.1), (d + 1, 0, 32, r.2)]
  | .rmax | .rmin => VOut.put [(d, 0, w, (reduceAll op f x.1 x.2).1)]
  | _ => VOut.put [(d, 0, 32, (reduceAll op f x.1 x.2).1)]

/-- What an operation of form E or C keeps from its issue: the stipple fields it has drawn; a BCHK the value of the
exponent-bound register it names, raised by 128 (R192). -/
def vKept (v : VSlot) (bounds : List Int) (us : List Nat) : List Nat :=
  match v with
  | .e .bchk f => [(bounds.getD (f.dst.toNat % 8) 0 + 128).toNat]
  | _ => us

/-- What delivery `j` of an operation of form E or C does. -/
def vOut (v : VSlot) (us : List Nat) (reads : List RowRead) (j : Nat) : VOut :=
  match v with
  | .e op f =>
    if isWhole v then wholeOut op f ((us.headD 0 : Int) - 128) reads
    else
      let x := operands op f reads j
      VOut.put [(f.dst.toNat, j * vChunk v, tyWidth f.ty.toNat,
        lanes3 (lane op f) x.1 x.2.1 x.2.2 (us.drop (j * vChunk v)))]
  | .cvt f => cvtOut f us reads j
  | _ => VOut.put []

/-- Elements written into a register of tile `t`: the frames of its rows, tag 0 and a fresh proof word (R167). -/
def regFrames (s : State) (t : Nat) (p : Nat × Nat × Nat × List Nat) : List (Nat × RowFrame) :=
  let w := p.2.2.1
  let es := p.2.2.2
  let lo := p.2.1 * w / 8
  let old := fun r => (rowGet s (rowAddr t 3 (32 * p.1 + r))).data
  let es1 := if w = 4 && es.length % 2 = 1 then
      es ++ [bits ((old ((lo + es.length / 2) / 512)).getD ((lo + es.length / 2) % 512) 0).toNat 4 4] else es
  let bs := packElems w es1
  let hi := lo + bs.length
  if hi ≤ lo then []
  else (List.range ((hi - 1) / 512 - lo / 512 + 1)).map fun i =>
    let r := lo / 512 + i
    let a := max lo (512 * r)
    (rowAddr t 3 (32 * p.1 + r), freshFrame (patch (old r) (a % 512) ((bs.drop (a - lo)).take (512 * (r + 1) - a))) 0)

/-- Row and write cycle of each result row of an operation of form E or C, for the claims of R104. -/
def vWrites (t c : Nat) (v : VSlot) : List (Nat × Nat) :=
  let rows := fun (x : Source) j k => (sourceRows x j).map fun r => (rowAddr t 3 r, k)
  let last := c + vBase v + vCycles v - 1
  let all := fun reg w n => (List.range ((n * w + 4095) / 4096)).map fun r => (rowAddr t 3 (32 * reg + r), last)
  match v with
  | .e op f =>
    if op = .setflag || op = .bchk then []
    else if op = .topk then
      all f.dst.toNat (tyWidth f.ty.toNat) (vCount v / 2 ^ groupExp f * topCount f)
        ++ all (f.dst.toNat + 1) 32 (vCount v / 2 ^ groupExp f * topCount f)
    else if isWhole v then
      all f.dst.toNat (if op = .rmax || op = .rmin then tyWidth f.ty.toNat else 32) (vCount v / 2 ^ groupExp f)
    else (List.range (vCycles v)).flatMap fun j =>
      rows (elemSource v f.dst.toNat (tyWidth f.ty.toNat)) j (c + vBase v + j)
  | .cvt f =>
    ((List.range (vCycles v)).flatMap fun j =>
      rows (elemSource v f.dst.toNat (elemWidth f.dfmt.toNat)) j (c + vBase v + j))
    ++ (if scaled f.dfmt.toNat f.unsc then
          (List.range (vCycles v)).flatMap fun j => rows (scaleSource v f.dscale.toNat f.dfmt.toNat) j last
        else [])
  | _ => []

/-! ## Row moves, gather and scatter (R188 to R191) -/

/-- The target row that index `x` names for tile `t`, or the address that the fault record names (R188). -/
def indexRow (s : State) (t : Nat) (tile : Tile) (tbase : Nat) (reach : Bool) (x : Nat) : Except Nat Nat :=
  let w := baseWord s t tile tbase
  let space := addrSpace w
  let row := addrRow w + bits x 0 20
  let col := bits x 29 3
  let bad := bits x 20 9 ≠ 0 || col ≠ 0 && (space ≠ 1 || !reach) || spaceRows space ≤ row
  match colTile t col with
  | none => .error (rowAddr t space row % 2 ^ 32)
  | some u => if bad then .error (rowAddr u space row % 2 ^ 32) else .ok (rowAddr u space row)

/-- The target rows that an index row names. -/
def indexRows (s : State) (t : Nat) (tile : Tile) (f : FormG) (d : Bytes) : Except Nat (List Nat) :=
  (List.range (f.rows.toNat + 1)).mapM fun i =>
    indexRow s t tile f.tbase.toNat f.reach (leAt d (4 * (f.iindex.toNat + i)) 4)

/-- Rows of this tile's own column in a list of beam rows. -/
def ownBeam (t : Nat) (rows : List Nat) : Nat :=
  (rows.filter fun a => addrSpace a == 1 && addrTile a == some t).length

/-- A GATH or SCAT whose index row has been read: its target rows are known. The item with its reads and destination
rows, the tile and the effect of the accesses. -/
def expandG (s : State) (t : Nat) (tile : Tile) (p : InFlight) (scat : Bool) (f : FormG) (d : Bytes) :
    Tile × Option InFlight × Fx :=
  match indexRows s t tile f d with
  | .error a => (tile, none, Fx.fault 0x2004 (tileSite t a p.bundle 0))
  | .ok rows =>
    let n := f.rows.toNat + 1
    let beam := addrSpace (rows.headD 0) = 1
    let regs := (List.range n).map fun i => rowAddr t 3 (32 * f.reg.toNat + f.first.toNat + i)
    let want := rows.mapIdx fun i a => (a, p.issue + (if scat then 4 else 1) + i)
    let reads := if scat then regs.mapIdx fun i a => (a, p.issue + 1 + i) else want
    let wait := !scat && !beam && f.await
    let claims := if scat then want.map fun x => (rowClaim x.1, x.2) else []
    let cl := tile.claimV p.issue claims
    (cl.1,
     some { p with reads := p.reads ++ readsOf s t wait reads,
                   work := .v (if scat then .scat f else .gath f) (if scat then rows else regs) },
     (readsFx s t p.bundle wait reads).also { claimFx t p.bundle (cl.2.or (takenBeside s t claims)) with
       asks := asksOf t tile false p.id want
       events := if ownBeam t rows = 0 then [] else [(if scat then 0x21 else 0x20, ownBeam t rows)] })

/-- Port and row claims of a GATH or SCAT that do not depend on the index row (R189). -/
def claimsG (t c : Nat) (scat beam : Bool) (f : FormG) : List (Nat × Nat) :=
  let is := List.range (f.rows.toNat + 1)
  (portRead 2, c) :: (if scat then is.map fun i => (if beam then portW else portWrite 0, c + 4 + i)
    else (is.map fun i => (if beam then portB else portRead 2, c + 1 + i))
      ++ is.map fun i => (rowClaim (rowAddr t 3 (32 * f.reg.toNat + f.first.toNat + i)),
        c + 4 + i + (if beam then Config.beamRead f.reach else 0)))

/-- A GATH or SCAT issues. -/
def issueG (scat : Bool) (t c : Nat) (f : FormG) (s : State) (tile : Tile) : Tile × Fx :=
  let b := tile.seq.bundle
  let n := f.rows.toNat + 1
  let tw := baseWord s t tile f.tbase.toNat
  match operandRows s t tile f.ibase.toNat f.ioff.toNat 1 [0] 0 with
  | .error a => (tile, Fx.fault 0x2004 (tileSite t a b 0))
  | .ok irows =>
    if 2 ≤ addrSpace tw then (tile, Fx.fault 0x2004 (tileSite t (tw % 2 ^ 32) b 0))
    else
      let v := if scat then VSlot.scat f else VSlot.gath f
      let rd := [(irows.headD 0, c)]
      let p : InFlight := { id := tile.ops, work := .v v [], issue := c, bundle := b, reads := readsOf s t f.await rd, done := 0 }
      let cl := tile.claimV c (claimsG t c scat (addrSpace tw = 1) f)
      let fx := (readsFx s t b f.await rd).also { claimFx t b cl.2 with
        bumps := [((0x3200, 0x10), n + 1), ((0x3200, 0x12), n)], events := [(0x18, n + 1), (0x1B, n)] }
      match (p.reads.head?.bind (·.val)) with
      | none => ({ cl.1 with pipe := cl.1.pipe ++ [p], ops := cl.1.ops + 1 }, fx)
      | some fr =>
        let x := expandG s t { cl.1 with ops := cl.1.ops + 1 } p scat f fr.data
        ({ x.1 with pipe := x.1.pipe ++ x.2.1.toList }, fx.also x.2.2)

/-- An LDR or STR issues (R189). -/
def issueL (str : Bool) (t c : Nat) (f : FormL) (s : State) (tile : Tile) : Tile × Fx :=
  let b := tile.seq.bundle
  let n := f.rows.toNat + 1
  match operandRows s t tile f.base.toNat f.off.toNat n [0] 0 with
  | .error a => (tile, Fx.fault 0x2004 (tileSite t a b 0))
  | .ok bob =>
    let regs := (List.range n).map fun i => rowAddr t 3 (32 * f.reg.toNat + f.first.toNat + i)
    let reads := (if str then regs else bob).mapIdx fun i a => (a, c + i)
    let dst := if str then bob else regs
    let ports := (List.range n).map fun i => if str then (portWrite 0, c + 4 + i) else (portRead 2, c + i)
    let cl := tile.claimV c (ports ++ dst.mapIdx fun i a => (rowClaim a, c + 4 + i))
    let await := f.await && !str
    let p : InFlight := { id := tile.ops, work := .v (if str then .str f else .ldr f) dst, issue := c, bundle := b,
                          reads := readsOf s t await reads, done := 0 }
    ({ cl.1 with pipe := cl.1.pipe ++ [p], ops := cl.1.ops + 1 },
     (readsFx s t b await reads).also { claimFx t b cl.2 with
       bumps := [((0x3200, 0x10), n)], events := [(0x18, n)] })

/-! ## Issue -/

/-- Stipple fields that an operation takes (R161, R187). -/
def vFields : VSlot → Nat
  | .e op f => if op = .rand || op = .gumb then f.count.toNat + 1 else 0
  | .cvt f => f.count.toNat + 1
  | _ => 0

/-- An operation of form E or C issues (R170). -/
def issueE (v : VSlot) (t c : Nat) (s : State) (tile : Tile) : Tile × Fx :=
  let b := tile.seq.bundle
  let reads := vReads t c v
  let dr := tile.drawn s t c (vFields v) b
  let cl := dr.2.1.claimV c (vWrites t c v |>.map fun x => (rowClaim x.1, x.2))
  let p : InFlight := { id := tile.ops, work := .v v (vKept v tile.bounds dr.1), issue := c, bundle := b, reads := readsOf s t false reads, done := 0 }
  ({ cl.1 with pipe := cl.1.pipe ++ [p], ops := cl.1.ops + 1 },
   (readsFx s t b false reads).also (dr.2.2.also { claimFx t b cl.2 with
     bumps := [((0x3200, 0x10), vCycles v)], events := [(0x18, vCycles v)] }))

/-- Whether the loader accepts the fields of an operation of form E that decide its meaning (R174, R175). -/
def legalE (op : EOp) (f : FormE) : Bool :=
  let ty := f.ty.toNat
  decide (ty ≤ 3) && f.bmode != 3 && decide (f.count.toNat < 131072 / tyWidth ty) &&
    (match op with
     | .fadd | .fsub | .fmul | .fma | .fmax | .fmin | .exp2 | .log2 | .rcp | .rsqrt | .sigm | .gumb => decide (ty ≤ 1)
     | .iadd | .isub | .imul | .imax | .imin | .shl | .shr | .sra => decide (2 ≤ ty)
     | .rand => ty == 2
     | .cmp => decide (f.c.toNat ≤ 6)
     | .bchk => decide (f.c.toNat ≤ 2) && (f.c != 1 || decide (2 ≤ ty)) && (f.c != 2 || decide (ty ≤ 1))
     | .setflag => decide (f.dst.toNat ≤ 15)
     | .rsum | .rmax | .rmin | .rdot | .argmax =>
       groupExp f != 15 && f.bmode != 2 && (f.count.toNat + 1) % 2 ^ groupExp f == 0
     | .topk =>
       groupExp f != 15 && f.bmode != 2 && (f.count.toNat + 1) % 2 ^ groupExp f == 0
         && decide (topCount f ≤ 2 ^ groupExp f) && f.dst != 31
     | .and | .or | .xor | .andn | .sel => true)

/-- Whether the loader accepts a conversion's fields (R174, R175, R185). -/
def legalC (f : FormC) : Bool :=
  let ok := fun x : Nat => 1 ≤ x && x ≤ 8
  ok f.sfmt.toNat && ok f.dfmt.toNat && f.round != 3
    && decide (f.count.toNat < 131072 / max (elemWidth f.sfmt.toNat) (elemWidth f.dfmt.toNat))

/-- Whether the loader accepts an operation's fields. -/
def legalV : VSlot → Bool
  | .e op f => legalE op f
  | .cvt f => legalC f
  | .ldr f | .str f => decide (f.first.toNat + f.rows.toNat < 32)
  | .gath f | .scat f => decide (f.first.toNat + f.rows.toNat < 32) && decide (f.iindex.toNat + f.rows.toNat < 128)

/-- A V-slot operation issues. One that the loader refuses (R174, R175) is in no schedule: it has no effect here. -/
def vIssue (v : VSlot) (t c : Nat) (s : State) (tile : Tile) : Tile × Fx :=
  if legalV v then
    match v with
    | .ldr f => issueL false t c f s tile
    | .str f => issueL true t c f s tile
    | .gath f => issueG false t c f s tile
    | .scat f => issueG true t c f s tile
    | .e _ _ | .cvt _ => issueE v t c s tile
  else (tile, Fx.none)

/-! ## Delivery -/

/-- Deliveries of an operation. -/
def vDeliveries (v : VSlot) : Nat :=
  match v with
  | .e _ _ | .cvt _ => if isWhole v then 1 else vCycles v
  | _ => vCount v

/-- The cycle from which delivery `j` of an operation issued in cycle `c` is readable (R170, R189). -/
def vReadable (v : VSlot) (dst : List Nat) (beamSrc : Bool) (c j : Nat) : Nat :=
  match v with
  | .e _ _ | .cvt _ => if isWhole v then c + vBase v + vCycles v else c + vBase v + j + 1
  | .ldr _ | .str _ => c + 5 + j
  | .gath f => c + 5 + j + (if beamSrc then Config.beamRead f.reach else 0)
  | .scat _ => if addrSpace (dst.headD 0) = 1 then c + 12 + j else c + 5 + j

/-- Whether the reads that delivery `j` needs have taken place. -/
def vHas (v : VSlot) (reads : List RowRead) (j : Nat) : Bool :=
  match v with
  | .e _ _ | .cvt _ => true
  | .ldr _ | .str _ => match reads[j]? with | some r => r.val.isSome | none => false
  | .gath _ | .scat _ => match reads[j + 1]? with | some r => r.val.isSome | none => false

/-- Whether a GATH reads beam rows. -/
def beamSource (reads : List RowRead) : Bool := match reads[1]? with | some r => addrSpace r.addr = 1 | none => false

/-- A V operation in flight with a result readable by cycle `c`: the operation, its fields or destination rows, the
cycle. -/
def vDue (c : Nat) (p : InFlight) : Option (VSlot × List Nat × Nat) :=
  match p.work with
  | .v v us =>
    let w := vReadable v us (beamSource p.reads) p.issue p.done
    if w ≤ c && vHas v p.reads p.done then some (v, us, w) else none
  | _ => none

/-- The rows that delivery `j` of an operation writes, and its effect on counts, flags and faults. -/
def vDeliver (s : State) (t : Nat) (tile : Tile) (p : InFlight) (v : VSlot) (us : List Nat) :
    List (Nat × RowFrame) × Tile × Fx :=
  let j := p.done
  match v with
  | .e _ _ | .cvt _ =>
    let o := vOut v us p.reads j
    let tile1 := match o.flag with
      | none => tile
      | some (i, b) => { tile with flags := if b then tile.flags ||| (1#32 <<< i) else tile.flags &&& ~~~(1#32 <<< i) }
    (o.puts.flatMap (regFrames s t), tile1,
     { (match o.fail with
        | none => Fx.none
        | some (code, d) => Fx.fault code (tileSite t 0 p.bundle d)) with
       bumps := [((0x3200, 0xC), o.sats), ((0x3200, 0xD), o.nonfin)]
         ++ (match o.fail with
             | some (0x3008, _) => [((0x3200, 0x11), 1)]
             | some (0x3007, _) => [((0x3200, 0xE), 1)]
             | _ => [])
       events := [(0x1A, o.sats)] })
  | _ =>
    let d := ((p.reads[if v matches .gath _ | .scat _ then j + 1 else j]?.bind (·.val)).map (·.data)).getD []
    ([(us.getD j 0, freshFrame d 0)], tile, Fx.none)

/-- The next result of the tile's vector engine becomes readable. -/
def vectorNext (t c : Nat) (s : State) : State :=
  let tile := tileAt s t
  match firstReady (vDue (tile.count c)) tile.pipe with
  | none => s
  | some (i, p, v, us, w) =>
    let r := vDeliver s t { tile with pipe := delivered i (vDeliveries v) p tile.pipe } p v us
    let s1 := r.1.foldl (fun s x => rowWrite t (tile.cycleOf w) x.1 x.2 s) (tileSet t r.2.1 s)
    applyFx t c r.2.2 s1

/-- VECTOR_RESULT_READABLE (R170). -/
def execVectorReadable (t : TileIx) (c : Nat) (s : State) : Host.Outcome State Fault Refusal :=
  .next (if issuing s then vectorNext t.val c s else s)

/-- A V slot command. -/
def vSlot (v : VSlot) (t : TileIx) (c : Nat) (s : State) : State := slotIssue t c (fun l => vIssue v t.val l) s

/-- FADD (R176). -/
def execFadd (t : TileIx) (c : Nat) (f : FormE) (s : State) : Host.Outcome State Fault Refusal :=
  .next (vSlot (.e .fadd f) t c s)

/-- FSUB (R176). -/
def execFsub (t : TileIx) (c : Nat) (f : FormE) (s : State) : Host.Outcome State Fault Refusal :=
  .next (vSlot (.e .fsub f) t c s)

/-- FMUL (R176). -/
def execFmul (t : TileIx) (c : Nat) (f : FormE) (s : State) : Host.Outcome State Fault Refusal :=
  .next (vSlot (.e .fmul f) t c s)

/-- FMA (R176). -/
def execFma (t : TileIx) (c : Nat) (f : FormE) (s : State) : Host.Outcome State Fault Refusal :=
  .next (vSlot (.e .fma f) t c s)

/-- FMAX (R176). -/
def execFmax (t : TileIx) (c : Nat) (f : FormE) (s : State) : Host.Outcome State Fault Refusal :=
  .next (vSlot (.e .fmax f) t c s)

/-- FMIN (R176). -/
def execFmin (t : TileIx) (c : Nat) (f : FormE) (s : State) : Host.Outcome State Fault Refusal :=
  .next (vSlot (.e .fmin f) t c s)

/-- IADD (R177). -/
def execIadd (t : TileIx) (c : Nat) (f : FormE) (s : State) : Host.Outcome State Fault Refusal :=
  .next (vSlot (.e .iadd f) t c s)

/-- ISUB (R177). -/
def execIsub (t : TileIx) (c : Nat) (f : FormE) (s : State) : Host.Outcome State Fault Refusal :=
  .next (vSlot (.e .isub f) t c s)

/-- IMUL (R177). -/
def execImul (t : TileIx) (c : Nat) (f : FormE) (s : State) : Host.Outcome State Fault Refusal :=
  .next (vSlot (.e .imul f) t c s)

/-- IMAX (R174). -/
def execImax (t : TileIx) (c : Nat) (f : FormE) (s : State) : Host.Outcome State Fault Refusal :=
  .next (vSlot (.e .imax f) t c s)

/-- IMIN (R174). -/
def execImin (t : TileIx) (c : Nat) (f : FormE) (s : State) : Host.Outcome State Fault Refusal :=
  .next (vSlot (.e .imin f) t c s)

/-- AND (R174). -/
def execAnd (t : TileIx) (c : Nat) (f : FormE) (s : State) : Host.Outcome State Fault Refusal :=
  .next (vSlot (.e .and f) t c s)

/-- OR (R174). -/
def execOr (t : TileIx) (c : Nat) (f : FormE) (s : State) : Host.Outcome State Fault Refusal :=
  .next (vSlot (.e .or f) t c s)

/-- XOR (R174). -/
def execXor (t : TileIx) (c : Nat) (f : FormE) (s : State) : Host.Outcome State Fault Refusal :=
  .next (vSlot (.e .xor f) t c s)

/-- ANDN (R174). -/
def execAndn (t : TileIx) (c : Nat) (f : FormE) (s : State) : Host.Outcome State Fault Refusal :=
  .next (vSlot (.e .andn f) t c s)

/-- SHL (R177). -/
def execShl (t : TileIx) (c : Nat) (f : FormE) (s : State) : Host.Outcome State Fault Refusal :=
  .next (vSlot (.e .shl f) t c s)

/-- SHR (R177). -/
def execShr (t : TileIx) (c : Nat) (f : FormE) (s : State) : Host.Outcome State Fault Refusal :=
  .next (vSlot (.e .shr f) t c s)

/-- SRA (R177). -/
def execSra (t : TileIx) (c : Nat) (f : FormE) (s : State) : Host.Outcome State Fault Refusal :=
  .next (vSlot (.e .sra f) t c s)

/-- CMP (R178). -/
def execCmp (t : TileIx) (c : Nat) (f : FormE) (s : State) : Host.Outcome State Fault Refusal :=
  .next (vSlot (.e .cmp f) t c s)

/-- SEL (R178). -/
def execSel (t : TileIx) (c : Nat) (f : FormE) (s : State) : Host.Outcome State Fault Refusal :=
  .next (vSlot (.e .sel f) t c s)

/-- SETFLAG (R193). -/
def execSetflag (t : TileIx) (c : Nat) (f : FormE) (s : State) : Host.Outcome State Fault Refusal :=
  .next (vSlot (.e .setflag f) t c s)

/-- EXP2 (R180). -/
def execExp2 (t : TileIx) (c : Nat) (f : FormE) (s : State) : Host.Outcome State Fault Refusal :=
  .next (vSlot (.e .exp2 f) t c s)

/-- LOG2 (R180). -/
def execLog2 (t : TileIx) (c : Nat) (f : FormE) (s : State) : Host.Outcome State Fault Refusal :=
  .next (vSlot (.e .log2 f) t c s)

/-- RCP (R180). -/
def execRcp (t : TileIx) (c : Nat) (f : FormE) (s : State) : Host.Outcome State Fault Refusal :=
  .next (vSlot (.e .rcp f) t c s)

/-- RSQRT (R180). -/
def execRsqrt (t : TileIx) (c : Nat) (f : FormE) (s : State) : Host.Outcome State Fault Refusal :=
  .next (vSlot (.e .rsqrt f) t c s)

/-- SIGM (R180). -/
def execSigm (t : TileIx) (c : Nat) (f : FormE) (s : State) : Host.Outcome State Fault Refusal :=
  .next (vSlot (.e .sigm f) t c s)

/-- RSUM (R182). -/
def execRsum (t : TileIx) (c : Nat) (f : FormE) (s : State) : Host.Outcome State Fault Refusal :=
  .next (vSlot (.e .rsum f) t c s)

/-- RMAX (R182). -/
def execRmax (t : TileIx) (c : Nat) (f : FormE) (s : State) : Host.Outcome State Fault Refusal :=
  .next (vSlot (.e .rmax f) t c s)

/-- RMIN (R182). -/
def execRmin (t : TileIx) (c : Nat) (f : FormE) (s : State) : Host.Outcome State Fault Refusal :=
  .next (vSlot (.e .rmin f) t c s)

/-- RDOT (R182). -/
def execRdot (t : TileIx) (c : Nat) (f : FormE) (s : State) : Host.Outcome State Fault Refusal :=
  .next (vSlot (.e .rdot f) t c s)

/-- ARGMAX (R183). -/
def execArgmax (t : TileIx) (c : Nat) (f : FormE) (s : State) : Host.Outcome State Fault Refusal :=
  .next (vSlot (.e .argmax f) t c s)

/-- TOPK (R184). -/
def execTopk (t : TileIx) (c : Nat) (f : FormE) (s : State) : Host.Outcome State Fault Refusal :=
  .next (vSlot (.e .topk f) t c s)

/-- RAND (R187). -/
def execRand (t : TileIx) (c : Nat) (f : FormE) (s : State) : Host.Outcome State Fault Refusal :=
  .next (vSlot (.e .rand f) t c s)

/-- GUMB (R204). -/
def execGumb (t : TileIx) (c : Nat) (f : FormE) (s : State) : Host.Outcome State Fault Refusal :=
  .next (vSlot (.e .gumb f) t c s)

/-- A BCHK in flight whose elements have all been read by cycle `c` of the tile's own count. -/
def checkDue (c : Nat) (p : InFlight) : Option (VSlot × List Nat) :=
  match p.work with
  | .v (.e .bchk f) us => if p.issue + vCycles (.e .bchk f) ≤ c then some (.e .bchk f, us) else none
  | _ => none

/-- The first BCHK of a tile whose elements have been read by cycle `c` is judged (R192). -/
def judgeCheck (t c : Nat) (s : State) : State :=
  let tile := tileAt s t
  match firstReady (checkDue (tile.count c)) tile.pipe with
  | none => s
  | some (i, p, v, us) =>
    let r := vDeliver s t { tile with pipe := tile.pipe.eraseIdx i } p v us
    applyFx t c r.2.2 (tileSet t r.2.1 s)

/-- BCHK (R192): its elements are judged once they have been read, which is at once where they are read in its issue
cycle and nothing of the tile is in flight; otherwise by a later VECTOR_RESULT_READABLE, or at the pick's end. -/
def execBchk (t : TileIx) (c : Nat) (f : FormE) (s : State) : Host.Outcome State Fault Refusal :=
  let s1 := vSlot (.e .bchk f) t c s
  .next (if tileIssues s t.val c && ((tileAt s t.val).pipe).isEmpty && vCycles (.e .bchk f) == 1
    then judgeCheck t.val (c + 1) s1 else s1)

/-- CVT (R185). -/
def execCvt (t : TileIx) (c : Nat) (f : FormC) (s : State) : Host.Outcome State Fault Refusal :=
  .next (vSlot (.cvt f) t c s)

/-- LDR (R189). -/
def execLdr (t : TileIx) (c : Nat) (f : FormL) (s : State) : Host.Outcome State Fault Refusal :=
  .next (vSlot (.ldr f) t c s)

/-- STR (R189). -/
def execStr (t : TileIx) (c : Nat) (f : FormL) (s : State) : Host.Outcome State Fault Refusal :=
  .next (vSlot (.str f) t c s)

/-- GATH (R191). -/
def execGath (t : TileIx) (c : Nat) (f : FormG) (s : State) : Host.Outcome State Fault Refusal :=
  .next (vSlot (.gath f) t c s)

/-- SCAT (R190). -/
def execScat (t : TileIx) (c : Nat) (f : FormG) (s : State) : Host.Outcome State Fault Refusal :=
  .next (vSlot (.scat f) t c s)

end Sys2Proof.Machine
end

