-- ==== Sys2Proof/Machine/Codec.lean ====
section
/-! DEFINITION. The words of a bundle's slots (R67, R68, R142, R174), of control words (R42), written and read by one
list of fields each, and what the loader accepts of them (R150, R174, R175, R185, R463). -/

namespace Sys2Proof.Machine

/-! ## Fields -/

/-- Bits in a list of fields. -/
def fieldBits (fs : List (Nat × Nat)) : Nat := (fs.map (·.1)).foldr (· + ·) 0

/-- Fields of (width, value), the most significant first, as a word. -/
def pack : List (Nat × Nat) → Nat
  | [] => 0
  | (w, v) :: r => v % 2 ^ w * 2 ^ fieldBits r + pack r

/-- The value of a Bool as a field. -/
def flag (b : Bool) : Nat := if b then 1 else 0

/-- Bits `[hi : lo]` of a word as a bit vector. -/
def fld (n x lo : Nat) : BitVec n := BitVec.ofNat n (bits x lo n)

/-! ## M slot (R142) -/

/-- The word of an M slot. -/
def encodeM : MSlot → Nat
  | .stream f => pack [(6, 1), (1, flag f.swap), (1, flag f.acc), (4, f.abase.toNat), (14, f.vidx.toNat),
      (4, f.sbase.toNat), (10, f.row.toNat), (8, f.count.toNat)]
  | .drain f => pack [(6, 2), (5, f.fmt.toNat), (2, f.round.toNat), (3, f.bound.toNat), (4, f.dbase.toNat),
      (12, f.doff.toNat), (10, f.row.toNat), (6, f.count.toNat)]
  | .adown f => pack [(6, 4), (2, f.desc.toNat), (4, f.abase.toNat), (14, f.vidx.toNat), (8, f.slice.toNat),
      (10, f.row.toNat), (1, flag f.acc), (3, f.count.toNat)]
  | .aup f => pack [(6, 5), (2, f.desc.toNat), (4, f.base.toNat), (12, f.vidx.toNat), (8, f.block.toNat),
      (10, f.row.toNat), (6, f.count.toNat)]
  | .aset f => pack [(6, 6), (2, f.desc.toNat), (4, f.base.toNat), (12, f.off.toNat), (24, 0)]
  | .setbound f => pack [(6, 7), (3, f.reg.toNat), (8, f.val.toNat), (31, 0)]

/-- The operation that an M-slot word spells, reserved fields not yet judged. -/
def readM (x : Nat) : Option MSlot :=
  let op := bits x 42 6
  if op = 1 then some (.stream { swap := bitOf x 41, acc := bitOf x 40, abase := fld 4 x 36, vidx := fld 14 x 22,
                                 sbase := fld 4 x 18, row := fld 10 x 8, count := fld 8 x 0 })
  else if op = 2 then some (.drain { fmt := fld 5 x 37, round := fld 2 x 35, bound := fld 3 x 32, dbase := fld 4 x 28,
                                     doff := fld 12 x 16, row := fld 10 x 6, count := fld 6 x 0 })
  else if op = 4 then some (.adown { desc := fld 2 x 40, abase := fld 4 x 36, vidx := fld 14 x 22, slice := fld 8 x 14,
                                     row := fld 10 x 4, acc := bitOf x 3, count := fld 3 x 0 })
  else if op = 5 then some (.aup { desc := fld 2 x 40, base := fld 4 x 36, vidx := fld 12 x 24, block := fld 8 x 16,
                                   row := fld 10 x 6, count := fld 6 x 0 })
  else if op = 6 then some (.aset { desc := fld 2 x 40, base := fld 4 x 36, off := fld 12 x 24 })
  else if op = 7 then some (.setbound { reg := fld 3 x 39, val := fld 8 x 31 })
  else none

/-- Whether the loader accepts an M-slot operation's fields: a drain's format and rounding, a bound of −126 or more. -/
def legalM : MSlot → Bool
  | .drain f => (f.fmt == 6 || f.fmt == 7 || f.fmt == 8) && f.round != 3
  | .setbound f => f.val != 0x80 && f.val != 0x81
  | .stream _ | .adown _ | .aup _ | .aset _ => true

/-! ## V slot (R174) -/

/-- The opcode of a form E operation. -/
def eCode : EOp → Nat
  | .fadd => 0x01 | .fsub => 0x02 | .fmul => 0x03 | .fma => 0x04 | .fmax => 0x05 | .fmin => 0x06
  | .iadd => 0x08 | .isub => 0x09 | .imul => 0x0A | .imax => 0x0B | .imin => 0x0C
  | .and => 0x10 | .or => 0x11 | .xor => 0x12 | .andn => 0x13 | .shl => 0x14 | .shr => 0x15 | .sra => 0x16
  | .cmp => 0x18 | .sel => 0x19 | .setflag => 0x1A | .bchk => 0x1B
  | .exp2 => 0x20 | .log2 => 0x21 | .rcp => 0x22 | .rsqrt => 0x23 | .sigm => 0x24
  | .rsum => 0x28 | .rmax => 0x29 | .rmin => 0x2A | .rdot => 0x2B | .argmax => 0x2C | .topk => 0x2D
  | .rand => 0x34 | .gumb => 0x35

/-- Every form E operation. -/
def eOps : List EOp :=
  [.fadd, .fsub, .fmul, .fma, .fmax, .fmin, .iadd, .isub, .imul, .imax, .imin, .and, .or, .xor, .andn, .shl, .shr,
   .sra, .cmp, .sel, .setflag, .bchk, .exp2, .log2, .rcp, .rsqrt, .sigm, .rsum, .rmax, .rmin, .rdot, .argmax, .topk,
   .rand, .gumb]

/-- The word of a V slot. -/
def encodeV : VSlot → Nat
  | .e op f => pack [(7, eCode op), (3, f.ty.toNat), (5, f.dst.toNat), (5, f.a.toNat), (5, f.b.toNat), (5, f.c.toNat),
      (1, flag f.sat), (2, f.bmode.toNat), (16, f.imm.toNat), (15, f.count.toNat)]
  | .cvt f => pack [(7, 0x30), (5, f.sfmt.toNat), (5, f.dfmt.toNat), (5, f.dst.toNat), (5, f.src.toNat),
      (5, f.dscale.toNat), (5, f.sscale.toNat), (2, f.round.toNat), (1, flag f.unsc), (9, 0), (15, f.count.toNat)]
  | .ldr f => formL 0x38 f
  | .str f => formL 0x39 f
  | .gath f => formG 0x3A f
  | .scat f => formG 0x3B f
where
  /-- Form L. -/
  formL (op : Nat) (f : FormL) : Nat :=
    pack [(7, op), (5, f.reg.toNat), (5, f.first.toNat), (4, f.base.toNat), (20, f.off.toNat), (1, flag f.await),
      (5, f.rows.toNat), (17, 0)]
  /-- Form G. -/
  formG (op : Nat) (f : FormG) : Nat :=
    pack [(7, op), (5, f.reg.toNat), (5, f.first.toNat), (4, f.tbase.toNat), (4, f.ibase.toNat), (12, f.ioff.toNat),
      (7, f.iindex.toNat), (5, f.rows.toNat), (1, flag f.await), (1, flag f.reach), (13, 0)]

/-- Form E, C, L and G fields of a word. -/
def readE (x : Nat) : FormE where
  ty := fld 3 x 54
  dst := fld 5 x 49
  a := fld 5 x 44
  b := fld 5 x 39
  c := fld 5 x 34
  sat := bitOf x 33
  bmode := fld 2 x 31
  imm := fld 16 x 15
  count := fld 15 x 0

def readC (x : Nat) : FormC where
  sfmt := fld 5 x 52
  dfmt := fld 5 x 47
  dst := fld 5 x 42
  src := fld 5 x 37
  dscale := fld 5 x 32
  sscale := fld 5 x 27
  round := fld 2 x 25
  unsc := bitOf x 24
  count := fld 15 x 0

def readL (x : Nat) : FormL where
  reg := fld 5 x 52
  first := fld 5 x 47
  base := fld 4 x 43
  off := fld 20 x 23
  await := bitOf x 22
  rows := fld 5 x 17

def readG (x : Nat) : FormG where
  reg := fld 5 x 52
  first := fld 5 x 47
  tbase := fld 4 x 43
  ibase := fld 4 x 39
  ioff := fld 12 x 27
  iindex := fld 7 x 20
  rows := fld 5 x 15
  await := bitOf x 14
  reach := bitOf x 13

/-- The operation that a V-slot word spells. -/
def readV (x : Nat) : Option VSlot :=
  let op := bits x 57 7
  match eOps.find? fun o => eCode o == op with
  | some o => some (.e o (readE x))
  | none =>
    if op = 0x30 then some (.cvt (readC x))
    else if op = 0x38 then some (.ldr (readL x))
    else if op = 0x39 then some (.str (readL x))
    else if op = 0x3A then some (.gath (readG x))
    else if op = 0x3B then some (.scat (readG x))
    else none

/-- Whether an operation has a group exponent in its immediate. -/
def isReduce (op : EOp) : Bool :=
  op == .rsum || op == .rmax || op == .rmin || op == .rdot || op == .argmax || op == .topk

/-- Whether the unused fields of a form E operation are 0 (R175). -/
def unusedE (op : EOp) (f : FormE) : Bool :=
  (op != .rand || f.a == 0)
  && (usesB op f && f.bmode != 2 || f.b == 0)
  && (usesB op f || f.bmode == 0)
  && (op == .fma || op == .sel || op == .cmp || op == .bchk || f.c == 0)
  && (((op == .iadd || op == .isub || op == .imul || op == .rsum || op == .rdot) && decide (2 ≤ f.ty.toNat)) || !f.sat)
  && (if isReduce op then f.imm.toNat % 64 == 0 && (op == .topk || bits f.imm.toNat 6 6 == 0)
      else if f.bmode = 2 then (f.ty != 3 || decide (f.imm.toNat < 256)) else f.imm == 0)
  && (op != .bchk || decide (f.dst.toNat < 8))

/-- Whether a conversion's registers are distinct and its unused fields 0 (R174, R185). -/
def unusedC (f : FormC) : Bool :=
  let i := fun x : Nat => x == 4 || x == 5
  let d := scaled f.dfmt.toNat f.unsc
  let s := scaled f.sfmt.toNat f.unsc
  let regs := [f.dst, f.src] ++ (if d then [f.dscale] else []) ++ (if s then [f.sscale] else [])
  (!f.unsc || i f.sfmt.toNat || i f.dfmt.toNat) && (d || f.dscale == 0) && (s || f.sscale == 0)
    && regs.length == regs.eraseDups.length

/-- Whether the loader accepts a V-slot operation. -/
def loaderV (v : VSlot) : Bool :=
  legalV v && match v with
  | .e op f => unusedE op f
  | .cvt f => unusedC f
  | .str f => !f.await
  | .ldr _ | .gath _ | .scat _ => true

/-! ## T, S and K slots -/

/-- The opcode of a T-slot operation. -/
def tCode : TOp → Nat
  | .latch => 1 | .beamBobbin => 2 | .bobbinBeam => 3 | .bobbinReg => 4
  | .regBobbin => 5 | .beamReg => 6 | .regBeam => 7 | .window => 8

/-- Every T-slot operation. -/
def tOps : List TOp := [.latch, .beamBobbin, .bobbinBeam, .bobbinReg, .regBobbin, .beamReg, .regBeam, .window]

/-- The word of a T slot. -/
def encodeT (op : TOp) (f : TSlot) : Nat :=
  pack [(5, tCode op), (1, flag f.await), (3, f.column.toNat), (4, f.sbase.toNat), (20, f.soff.toNat),
    (4, f.dbase.toNat), (20, f.doff.toNat), (7, f.count.toNat)]

/-- The operation that a T-slot word spells. -/
def readT (x : Nat) : Option (TOp × TSlot) :=
  (tOps.find? fun o => tCode o == bits x 59 5).map fun o =>
    (o, { await := bitOf x 58, column := fld 3 x 55, sbase := fld 4 x 51, soff := fld 20 x 31, dbase := fld 4 x 27,
          doff := fld 20 x 7, count := fld 7 x 0 })

/-- Whether the loader accepts a T-slot operation (R116, R125, R150, R463): column codes, a latch load's format and
rows, a window's action. -/
def legalT (op : TOp) (f : TSlot) : Bool :=
  decide (f.column.toNat ≤ 4) &&
  match op with
  | .latch => f.dbase == 0 && f.doff.toNat % 2 ^ 15 == 0 && isLoadCode (f.doff.toNat / 2 ^ 15)
    && f.count.toNat + 1 == loadRows (f.doff.toNat / 2 ^ 15)
  | .bobbinReg | .regBobbin => f.column == 0
  | .window => f.column == 0 && decide (f.dbase.toNat ≤ 1) && decide (f.doff.toNat < 256)
  | .beamBobbin | .bobbinBeam | .beamReg | .regBeam => true

/-- The opcode of an S-slot operation. -/
def sCode : SOp → Nat
  | .side => 1 | .mesh => 2 | .selvedge => 3 | .publish => 4

/-- Every S-slot operation. -/
def sOps : List SOp := [.side, .mesh, .selvedge, .publish]

/-- The word of an S slot. -/
def encodeS (op : SOp) (f : SSlot) : Nat :=
  pack [(4, sCode op), (1, flag f.await), (5, f.dx.toNat), (5, f.dy.toNat), (4, f.modl.toNat), (4, f.sbase.toNat),
    (12, f.soff.toNat), (8, f.window.toNat), (5, f.count.toNat)]

/-- The operation that an S-slot word spells. -/
def readS (x : Nat) : Option (SOp × SSlot) :=
  (sOps.find? fun o => sCode o == bits x 44 4).map fun o =>
    (o, { await := bitOf x 43, dx := fld 5 x 38, dy := fld 5 x 33, modl := fld 4 x 29, sbase := fld 4 x 25,
          soff := fld 12 x 13, window := fld 8 x 5, count := fld 5 x 0 })

/-- Whether the loader accepts an S-slot operation: the module field of a hand-off is 0, the reserved fields of a
publication are 0 (S slot table of R288). -/
def legalS (op : SOp) (f : SSlot) : Bool :=
  match op with
  | .selvedge => f.modl == 0
  | .publish => f.dx == 0 && f.dy == 0 && f.modl == 0 && decide (f.window.toNat < 16) && f.count == 0
  | .side | .mesh => true

/-- The word of a K slot. -/
def encodeK : KSlot → Nat
  | .loop d n => pack [(4, 1), (2, d.toNat), (2, 0), (24, n.toNat)]
  | .endloop d => pack [(4, 2), (2, d.toNat), (26, 0)]
  | .pickwait => pack [(4, 3), (28, 0)]
  | .select f n => pack [(4, 4), (4, 0), (5, f.toNat), (11, n.toNat), (8, 0)]
  | .endS => pack [(4, 5), (28, 0)]

/-- The operation that a K-slot word spells. -/
def readK (x : Nat) : Option KSlot :=
  let op := bits x 28 4
  if op = 1 then some (.loop (fld 2 x 26) (fld 24 x 0))
  else if op = 2 then some (.endloop (fld 2 x 26))
  else if op = 3 then some .pickwait
  else if op = 4 then some (.select (fld 5 x 19) (fld 11 x 8))
  else if op = 5 then some .endS
  else none

/-! ## Bundles -/

/-- A slot word judged (R68): all zeros is no operation; otherwise it must spell an operation that the loader accepts,
with every reserved field 0. -/
def judge {α : Type} (read : Nat → Option α) (enc : α → Nat) (ok : α → Bool) (x : Nat) : Option (Option α) :=
  if x = 0 then some none
  else match read x with
  | none => none
  | some o => if enc o = x && ok o then some (some o) else none

/-- The slots of a bundle word. -/
def decodeMSlot (x : Nat) : Option (Option MSlot) := judge readM encodeM legalM x
def decodeVSlot (x : Nat) : Option (Option VSlot) := judge readV encodeV loaderV x
def decodeTSlot (x : Nat) : Option (Option (TOp × TSlot)) :=
  judge readT (fun o => encodeT o.1 o.2) (fun o => legalT o.1 o.2) x
def decodeSSlot (x : Nat) : Option (Option (SOp × SSlot)) :=
  judge readS (fun o => encodeS o.1 o.2) (fun o => legalS o.1 o.2) x
def decodeKSlot (x : Nat) : Option (Option KSlot) := judge readK encodeK (fun _ => true) x

/-- The bundle that 256 bits spell (R67); `none` where the loader refuses a slot with status 0x0A. -/
def decodeBundle (x : Nat) : Option Bundle :=
  match decodeMSlot (bits x 208 48), decodeVSlot (bits x 144 64), decodeTSlot (bits x 80 64),
        decodeSSlot (bits x 32 48), decodeKSlot (bits x 0 32) with
  | some m, some v, some t, some s, some k => some { m := m, v := v, t := t, s := s, k := k }
  | _, _, _, _, _ => none

/-- The word of a slot that may be empty. -/
def encodeSlot {α : Type} (enc : α → Nat) : Option α → Nat
  | none => 0
  | some a => enc a

/-- The 256 bits of a bundle. -/
def encodeBundle (b : Bundle) : Nat :=
  pack [(48, encodeSlot encodeM b.m), (64, encodeSlot encodeV b.v), (64, encodeSlot (fun o => encodeT o.1 o.2) b.t),
    (48, encodeSlot (fun o => encodeS o.1 o.2) b.s), (32, encodeSlot encodeK b.k)]

/-- Whether the loader accepts every slot of a bundle. -/
def legalBundle (b : Bundle) : Bool :=
  (b.m.map legalM).getD true && (b.v.map loaderV).getD true && (b.t.map fun o => legalT o.1 o.2).getD true
    && (b.s.map fun o => legalS o.1 o.2).getD true

/-! ## Control words (R42) -/

/-- The code of a control word's kind. -/
def kindCode : CwKind → Nat
  | .hold => 1 | .release => 2 | .pace => 3

/-- The 128 bits of a control word. -/
def encodeCw (k : CwKind) (w : ControlWord) : Nat :=
  pack [(4, kindCode k), (4, w.sender.x.toNat), (4, w.sender.y.toNat), (4, w.sender.z.toNat), (16, w.seq.toNat),
    (8, w.reason.toNat), (4, w.ocls.toNat), (10, w.oidx.toNat), (10, w.arg.toNat), (32, w.pick.toNat),
    (32, w.stamp.toNat)]

/-- The kind that a code names. -/
def kindOf (n : Nat) : Option CwKind :=
  if n = 1 then some .hold else if n = 2 then some .release else if n = 3 then some .pace else none

/-- The control word that 128 bits spell; `none` for a reserved kind. -/
def decodeCw (x : Nat) : Option (CwKind × ControlWord) :=
  (kindOf (bits x 124 4)).map fun k =>
    (k, { sender := { x := fld 4 x 120, y := fld 4 x 116, z := fld 4 x 112 }, seq := fld 16 x 96, reason := fld 8 x 88,
          ocls := fld 4 x 84, oidx := fld 10 x 74, arg := fld 10 x 64, pick := fld 32 x 32, stamp := fld 32 x 0 })

/-! ## Schedule streaming (R72) -/

/-- The word of bundle `b` of a schedule in the pattern file. -/
def bundleWord (p : Pattern) (d : Schedule) (b : Nat) : Nat := leAt p.file (d.offset + 32 * b) 32

/-- The K slot of a bundle. -/
def bundleK (p : Pattern) (d : Schedule) (b : Nat) : Option KSlot := (decodeKSlot (bundleWord p d b % 2 ^ 32)).join

/-- The bundles that the static issue sequence holds up to the end of its pick, from bundle `b` with the open loops
`ls`: the bundles, and where the next pick starts (`none` after END). Of a SELECT both arms are in the sequence. -/
def pickSeq (p : Pattern) (d : Schedule) : Nat → Nat → List (Nat × Nat) → List Nat × Option (Nat × List (Nat × Nat))
  | 0, b, ls => ([], some (b, ls))
  | fuel + 1, b, ls =>
    let next := fun (b' : Nat) ls' => let r := pickSeq p d fuel b' ls'; (b :: r.1, r.2)
    match bundleK p d b with
    | some .pickwait => ([b], some (b + 1, ls))
    | some .endS => ([b], none)
    | some (.loop _ n) => next (b + 1) ((b + 1, n.toNat - 1) :: ls)
    | some (.endloop _) =>
      match ls with
      | [] => next (b + 1) []
      | (body, left) :: r => if left = 0 then next (b + 1) r else next body ((body, left - 1) :: r)
    | _ => next (b + 1) ls

/-- Fuel for the bundles of two picks of at most 128 issue cycles, both arms of each SELECT counted. -/
def pickFuel : Nat := 300

/-- Whether a schedule streams. -/
def Schedule.streams (d : Schedule) : Bool := decide (16384 < d.bundles)

/-- The stream rows that hold some bundles, in issue order. -/
def rowsOf (bs : List Nat) : List Nat := (bs.map (· / 16)).eraseDups

/-- The stream rows of the pick after the tile's current one, in issue order; none after END. -/
def streamRows (p : Pattern) (d : Schedule) (q : Sequencer) : List Nat :=
  match (pickSeq p d pickFuel q.bundle (q.loops.map fun l => (l.body, l.left))).2 with
  | none => []
  | some (b, ls) => rowsOf (pickSeq p d pickFuel b ls).1

/-- The schedule of the task that a tile's group begins in the next SP. -/
def nextSchedule (s : State) (p : Pattern) (t : Nat) : Option Schedule :=
  (s.treadle.tasks.find? fun k => k.rec_.group == groupOf s t && (match k.state with
    | .running a _ => a == s.sp + 1
    | _ => false)).bind fun k => p.scheds[k.rec_.sched]?

/-- What a tile streams in the current pick, one pick ahead of issue (R72): the schedule and its rows. A tile whose
schedule does not go on streams the first pick of the task that follows. The manual gives no pick ahead to the first pick
of an idle start (log 24). -/
def streamAhead (s : State) (p : Pattern) (t : Nat) (q : Sequencer) : Option (Schedule × List Nat) :=
  let ahead := (nextSchedule s p t).bind fun d => if d.streams then some (d, rowsOf (pickSeq p d pickFuel 0 []).1) else none
  match p.scheds[q.sched]? with
  | none => ahead
  | some d =>
    if q.running && d.streams then
      match streamRows p d q, ahead with
      | [], some x => some x
      | rows, _ => some (d, rows)
    else ahead

/-- Store row that receives a stream row: the manual gives no place in the store, and the model takes the row number
modulo the store's 1,024 rows. -/
def storeRow (r : Nat) : Nat := r % 1024

/-- The index within the pick of cycle `l` of a tile's own count. -/
def pickIndex (s : State) (l : Nat) (tile : Tile) : Nat :=
  if tile.seq.running then l - tile.seq.pickStart - tile.seq.stall else l - tile.count s.cycle0

/-- A stream read of tile `t` in cycle `l` of its own count: cycle index 15 modulo 16 of the pick takes the second
crossbar read, whether or not a row is left to read, and reads the next row, a static access of rank 1. -/
def streamRead (t l : Nat) (s : State) (tile : Tile) : Tile × Fx :=
  match s.pattern with
  | none => (tile, Fx.none)
  | some p =>
    match streamAhead s p t tile.seq with
    | none => (tile, Fx.none)
    | some (d, rows) =>
      let k := pickIndex s l tile
      if k % 16 ≠ 15 || 128 ≤ k then (tile, Fx.none)
      else
        let cl := tile.claim l tile.ops [(portB, l)]
        let fault := claimFx t tile.seq.bundle cl.2
        match rows[k / 16]? with
        | none => (cl.1, fault)
        | some r =>
          let a := rowAddr t 1 (addrRow (baseWord s t tile 11) + d.stream + r)
          ({ cl.1 with ops := cl.1.ops + 1 },
           (fetchFx s t a tile.seq.bundle).also
             { fault with
               rows := [(rowAddr t 2 (storeRow r), (fetchRow s a).frame)]
               asks := asksOf t tile true tile.ops [(a, l)], events := [(0x20, 1)] })

/-- SCHEDULE_STREAM_READ (R72). -/
def execStreamRead (t : TileIx) (c : Nat) (s : State) : Host.Outcome State Fault Refusal :=
  .next (if issuing s then onTile t.val c (fun s tile => streamRead t.val (tile.count c) s tile) s else s)

end Sys2Proof.Machine
end

