-- ==== Sys2Proof/Machine/Broadcast.lean ====
section
/-! DEFINITION. The slice (R258 to R262), the broadcast tree (R243, R245), notices (R285) and broadcast words (R288,
R289). -/

namespace Sys2Proof.Machine

/-! ## The slice -/

/-- The extents of the slice (0x4200:0D), by axis. -/
def extent (s : State) (axis : Nat) : Nat := bits (objGet s 0x4200 0xD) (8 - 4 * axis) 4 + 1

/-- The module's slice coordinate on an axis (0x4200:0E). -/
def sliceAt (s : State) (axis : Nat) : Nat := bits (objGet s 0x4200 0xE) (8 - 4 * axis) 4

/-- Whether an axis of the slice is a ring (0x4200:0F, R260). -/
def isRing (s : State) (axis : Nat) : Bool := bitOf (objGet s 0x4200 0xF) axis

/-- Modules of the slice, and the module's place in slice order (R259). -/
def sliceSize (s : State) : Nat := extent s 0 * extent s 1 * extent s 2
def sliceIndex (s : State) : Nat := sliceAt s 0 + extent s 0 * (sliceAt s 1 + extent s 1 * sliceAt s 2)

/-- Whether a module belongs to the slice by the masks (R261). -/
def inSlice (s : State) (c : Coord) : Bool :=
  bitOf (objGet s 0x4200 0x10) c.x.toNat && bitOf (objGet s 0x4200 0x11) c.y.toNat
    && bitOf (objGet s 0x4200 0x12) c.z.toNat

/-- The hop count of a word that this module originates in direction `dir` (R262). -/
def hopCount (s : State) (dir : Nat) : Nat :=
  let n := extent s (dir / 2)
  let c := sliceAt s (dir / 2)
  if isRing s (dir / 2) then (if dir % 2 = 0 then n / 2 else n - 1 - n / 2)
  else if dir % 2 = 0 then n - 1 - c else c

/-- The broadcast link of a direction: the lowest-numbered that is up (R245). -/
def broadcastLink (s : State) (dir : Nat) : Option Nat := (linksOf dir).find? (linkUp s)

/-- The copies sent in some directions with their full hop counts: link and travel fields. -/
def fullCopies (s : State) (dirs : List Nat) : List (Nat × Travel) :=
  dirs.filterMap fun d =>
    if hopCount s d = 0 then none
    else (broadcastLink s d).map fun l => (l, { dir := BitVec.ofNat 3 d, hops := BitVec.ofNat 4 (hopCount s d - 1) })

/-- The copies of a word that this module originates (R245). -/
def originCopies (s : State) : List (Nat × Travel) := fullCopies s [0, 1, 2, 3, 4, 5]

/-- The copies in which a received word is relayed (R245). -/
def relayCopies (s : State) (tr : Travel) : List (Nat × Travel) :=
  let d := tr.dir.toNat
  let on := if 6 ≤ d || tr.hops = 0 then []
    else ((broadcastLink s d).map fun l => (l, ({ tr with hops := tr.hops - 1 } : Travel))).toList
  let side := if d ≤ 1 then fullCopies s [2, 3, 4, 5] else if d ≤ 3 then fullCopies s [4, 5] else []
  on ++ side

/-- The die whose selvedge router injects a word that arrived in a direction: that of the broadcast link toward its
sender. -/
def arrivalDie (s : State) (tr : Travel) : Nat :=
  let d := tr.dir.toNat
  match broadcastLink s (if d % 2 = 0 then d + 1 else d - 1) with
  | some l => l / 9
  | none => 0

/-- A control word leaves on links as one control flit of a die (R245, R221). -/
def sendCopies (d : Nat) (cs : List (Nat × Travel)) (k : CwKind) (w : ControlWord) (s : State) : State :=
  inject d 1 1 (cs.map fun c => .controlWord c.1 k c.2 w) s

/-! ## Notices -/

/-- A notice row (R285): header and items. -/
def noticeBytes (ntype nitems dir hops seq sp gseq first scan : Nat) (items : Bytes) : Bytes :=
  slice (leBytes 1 ntype ++ leBytes 1 nitems ++ leBytes 1 dir ++ leBytes 1 hops ++ leBytes 4 seq ++ leBytes 8 sp
    ++ leBytes 4 gseq ++ leBytes 2 first ++ leBytes 1 scan ++ zeros 9 ++ items) 0 512

/-- The kind 0x5 frame that carries a notice row on a link (R227). -/
def noticeFrame (data : Bytes) : Frame where
  kind := .notice
  activity := 2
  dest := { x := 0, y := 0, z := 0 }
  tx := 0
  ty := 0
  window := 0
  woff := 0
  gen := 0
  landSp := 0
  seq := 0
  retry := none
  sendSp := 0
  row := freshFrame data 0

/-- A notice row set on its way in copies, as class B notice traffic of a die: 9 flits. -/
def sendRows (d : Nat) (cs : List (Nat × Travel)) (row : Travel → Bytes) (s : State) : State :=
  inject d 2 9 (cs.map fun c => .classB c.1 true (noticeFrame (row c.2))) s

/-- The module originates a notice (R285). -/
def sendNotice (ntype nitems sp gseq first scan : Nat) (items : Bytes) (s : State) : State :=
  let q := s.treadle.ownSeq
  sendRows 0 (originCopies s)
    (fun tr => noticeBytes ntype nitems tr.dir.toNat tr.hops.toNat q sp gseq first scan items)
    { s with treadle := { s.treadle with ownSeq := (q + 1) % 2 ^ 32 } }

/-- The copies in which a received notice row goes on (R245, R285). -/
def relayNotice (s : State) (ntype nitems : Nat) (h : NoticeHdr) (items : Bytes) : List Output :=
  (relayCopies s h.travel).map fun c => .classB c.1 true (noticeFrame
    (noticeBytes ntype nitems c.2.dir.toNat c.2.hops.toNat h.seq.toNat h.sp h.graphSeq h.first h.scanPos items))

/-! ## Items awaited -/

/-- RELEASE waits no longer for an item (R37). -/
def stopAwaiting (i : Awaited) (s : State) : State :=
  { s with hold := { s.hold with awaited := s.hold.awaited.filter (· != i) } }

/-- An item that has landed is no longer expected or awaited (R37, R41). -/
def itemLanded (i : Awaited) (s : State) : State :=
  { s with hold := { s.hold with
      awaited := s.hold.awaited.filter (· != i), expected := s.hold.expected.filter (·.item != i) } }

/-! ## Broadcast words -/

/-- The item of a type 0x4 notice (R288). -/
def wordItem (word : Nat) (value : BitVec 64) (pubModule : Coord) (pubTile : Nat) : Bytes :=
  slice (leBytes 1 word ++ zeros 7 ++ leBytes 8 value.toNat ++ leBytes 2 (coordNat pubModule)
    ++ leBytes 1 (tileX pubTile) ++ leBytes 1 (tileY pubTile)) 0 32

/-- The treadle receives a publication made in SP `p` (R288, R289): it takes effect at p + A and is expected no more; a
second one of the word with the same effect SP is fault 0x6002. -/
def takeWord (word : Nat) (value : BitVec 64) (p : Nat) (s : State) : State :=
  let e := p + admitHorizon s
  if s.treadle.got.contains (word, e) then raiseFault 0x6002 (unitSite 4 0 0 word) s
  else
    itemLanded (.word word e) { s with treadle := { s.treadle with
      got := s.treadle.got.filter (fun w => s.sp ≤ w.2 + 4096) ++ [(word, e)]
      pending := s.treadle.pending ++ [{ word := word, value := value, effect := e }]
      expects := s.treadle.expects.eraseP fun x => x.1 == word && x.2.1 == e } }

/-- A tile's publication reaches C0 (R288): the module sends its notice and its own treadle takes the word. -/
def publishNow (t word : Nat) (value : BitVec 64) (p : Nat) (s : State) : State :=
  takeWord word value p (sendNotice 4 1 p 0 0 0 (wordItem word value (ownCoord s) t) s)

end Sys2Proof.Machine
end

