-- ==== Sys2Proof/Machine/Landing.lean ====
section
/-! DEFINITION. Landings (R31, R51 to R53, R90, R107, R120, R121), the landing queue and the scrubber (R108 to R113). -/

namespace Sys2Proof.Machine

/-! ## A row lands -/

/-- The cycles by which a row readable from cycle `w` of the tile's own count is late for the reads of the tile that
await it (R31). -/
def lateFor (a w : Nat) (tile : Tile) : Nat :=
  (tile.pipe.flatMap (·.reads)).foldl
    (fun k r => if r.addr = a && r.await && r.val.isNone then max k (w - r.due) else k) 0

/-- Whether an operation awaits a row that has not landed. -/
def InFlight.awaits (a : Nat) (p : InFlight) : Bool := p.reads.any fun r => r.addr == a && r.await && r.val.isNone

/-- The reads of a tile that awaited a row take it. -/
def Tile.take (a : Nat) (f : RowFrame) (tile : Tile) : Tile :=
  { tile with pipe := tile.pipe.map fun p => { p with
      reads := p.reads.map fun r => if r.addr = a && r.await && r.val.isNone then { r with val := some f } else r } }

/-- An awaiting GATH or SCAT whose index row has now been read goes on to its target rows. -/
def openIndex (t : Nat) (s : State) : State :=
  let tile := tileAt s t
  let want := fun p : InFlight => match p.work, p.reads with
    | .v (.gath f) _, [r] => r.val.map fun d => (false, f, d)
    | .v (.scat f) _, [r] => r.val.map fun d => (true, f, d)
    | _, _ => none
  match firstReady want tile.pipe with
  | none => s
  | some (i, p, scat, f, d) =>
    let x := expandG s t { tile with pipe := tile.pipe.eraseIdx i } p scat f d.data
    applyFx t (tile.cycleOf p.issue) x.2.2
      (tileSet t { x.1 with pipe := x.1.pipe.take i ++ x.2.1.toList ++ x.1.pipe.drop i } s)

/-- A row frame lands in row `a` of tile `t`, readable from cycle `w`: it is written and its landed bit set; a read that
awaited it and was due earlier has stalled the tile since (R31). -/
def landRow (t w a : Nat) (f : RowFrame) (s : State) : State :=
  let s1 := landedSet a true (rowWrite t w a f s)
  let l := (tileAt s1 t).count w
  let k := lateFor a l (tileAt s1 t)
  let s2 := holdTile t (l - k) k (·.awaits a) s1
  let s3 := tileSet t ((tileAt s2 t).take a f) s2
  itemLanded (.row a) (openIndex t (countTile t 0x2A 1 w (countTile t 2 k w (countTile t 1 k w s3))))

/-- Where a fault of a landing arose: the row, the window number and offset; no bundle is involved (R336). -/
def landSite (t a : Nat) (h : LandHdr) : FaultSite := tileSite t a 0 (h.window % 256 + 256 * (h.woff % 128))

/-- A row lands in a window of tile `t` in cycle `c`, readable at the row's write latency (R92, R97): a closed window is fault 0x5004
and keeps the landing's header (R53), an offset past the window 0x2008 (R120), a proof mismatch 0x2003 (R107), a
pipeline write of the row in the same cycle 0x2005 (R104). -/
def landInto (t c : Nat) (h : LandHdr) (f : RowFrame) (s : State) : State :=
  let tile := tileAt s t
  let w := windowAt tile h.window
  if !w.opened then raiseFault 0x5004 (landSite t 0 h)
      { s with integrity := { s.integrity with dropped := s.integrity.dropped ++ [(t, h)] } }
  else if w.rows ≤ h.woff then raiseFault 0x2008 (landSite t w.first h) s
  else if !proofOk f then raiseFault 0x2003 (landSite t (w.first + h.woff) h) s
  else
    let a := w.first + h.woff
    let x := (rowClaim a, tile.count c)
    let cl := tile.claim (tile.count c) 0 [x]
    let s1 := raiseFaults (claimFx t 0 (cl.2.or (takenBeside s t [x]))).faults (tileSet t cl.1 s)
    if addrSpace a = 1 then
      let tile1 := tileAt s1 t
      tileSet t { tile1 with sinking := tile1.sinking ++ [(c + Config.beamWrite, a, f)] } s1
    else landRow t (c + Config.bobbinWrite) a f s1

/-- Landings in the beam that are readable by cycle `c`. -/
def landDue (t c : Nat) (s : State) : State :=
  let tile := tileAt s t
  (tile.sinking.filter (·.1 ≤ c)).foldl (fun s x => landRow t x.1 x.2.1 x.2.2 s)
    (tileSet t { tile with sinking := tile.sinking.filter (c < ·.1) } s)

/-! ## Contribution digests at a landing (R272, R274) -/

/-- The row digest of row `i` (R272). -/
def rowDigest (i : Nat) (data : Bytes) : BitVec 64 := crc64 (slice data 0 512 ++ leBytes 2 i)

/-- A digest that counts row `i` the first time. -/
def Digest.count (i : Nat) (data : Bytes) (d : Digest) : Digest :=
  if d.seen.contains i then d else { d with seen := d.seen ++ [i], acc := d.acc ^^^ rowDigest i data }

/-- A digest that starts anew. -/
def Digest.fresh (d : Digest) : Digest := { d with seen := [], lastAt := 0, acc := 0, row := none }

/-- The receive digests of a window take a landing (R274): when the digest row and all rows are in, they are compared;
the count of digests compared, of mismatches, and the fault with the contributor that the digest row names. -/
def recvDigests (t window woff : Nat) (f : RowFrame) (s : State) : State :=
  let tile := tileAt s t
  let hit := fun d : Digest => !d.send && d.window == window && d.first ≤ woff && woff ≤ d.first + d.n
  let step := fun d : Digest =>
    if !hit d then d
    else if woff = d.first + d.n then { d with row := some f }
    else d.count (woff - d.first) f.data
  let ds := tile.digests.map step
  let done := (ds.filter fun d => hit d && d.seen.length == d.n && d.row.isSome)
  let bad := done.filter fun d => decide (leAt ((d.row.map (·.data)).getD []) 0 8 ≠ d.acc.toNat)
  let s1 := tileSet t { tile with digests := ds.map fun d => if done.contains d then d.fresh else d } s
  let s2 := bump 0x4200 0x1A bad.length (bump 0x4200 0x19 done.length s1)
  raiseFaults (bad.map fun d =>
    let r := (d.row.map (·.data)).getD []
    (0x4022, tileSite t (leAt r 8 2) tile.seq.bundle (leAt r 10 1 * 32 + leAt r 11 1))) s2

/-- A landing with its digests (R53, R120, R274). -/
def landCounted (t c : Nat) (h : LandHdr) (f : RowFrame) (s : State) : State :=
  let w := windowAt (tileAt s t) h.window
  let s1 := landInto t c h f s
  if w.opened && h.woff < w.rows && proofOk f then recvDigests t h.window h.woff f s1 else s1

/-- A background write lands when its window is open in its generation, and is otherwise dropped; either way an
acknowledgement with the window's generation sets out, a notice packet of one flit (R54, R121). -/
def landBack (t c : Nat) (h : LandHdr) (b : BackHdr) (f : RowFrame) (s : State) : State :=
  let w := windowAt (tileAt s t) h.window
  let ack : BackAck := { tile := Fin.ofNat 768 t, window := BitVec.ofNat 8 h.window, gen := w.gen, opened := w.opened,
                         ref := b.ref }
  inject (dieOf t).val 2 1 [.backAck b.sender ack]
    (if w.opened && w.gen == b.gen then landCounted t c h f s else bump 0x3100 0xE 1 s)

/-- A row of a data-port packet lands as a background write does (R415); its packet is what is acknowledged. -/
def landPort (t c : Nat) (h : LandHdr) (b : BackHdr) (f : RowFrame) (s : State) : State :=
  let w := windowAt (tileAt s t) h.window
  if w.opened && w.gen == b.gen then landCounted t c h f s else bump 0x3100 0xE 1 s

/-- A row leaves a landing port of tile `t` in cycle `c`. -/
def landQueued (t c : Nat) (s : State) (r : LandRow) : State :=
  match r.back with
  | none => landCounted t c r.hdr r.row s
  | some b => if r.port.isSome then landPort t c r.hdr b r.row s else landBack t c r.hdr b r.row s

/-! ## The landing queue (R90, R91) -/

/-- The place of an input in the order of R90. -/
def landIndex : LandIn → Nat
  | .px => 0 | .mx => 1 | .py => 2 | .my => 3 | .mesh => 4 | .selvedge => 5

/-- Rows that stay with their sender take the free entries of their input, from cycle `c` on (R91). -/
def refill (c : Nat) (queue kept : List (List LandRow)) : List (List LandRow) × List (List LandRow) :=
  ((List.zipWith (fun q k => q ++ (k.take (4 - q.length)).map fun r => { r with since := max r.since c }) queue kept),
   List.zipWith (fun q k => k.drop (4 - q.length)) queue kept)

/-- A row arrives at a tile: it enters its input's queue where one of the four entries is free, stays with its sender
where none is (R91), or waits at the column landing port for a beam window. -/
def arrive (t : Nat) (inp : LandIn) (r : LandRow) (s : State) : State :=
  let tile := tileAt s t
  let w := windowAt tile r.hdr.window
  if w.opened && addrSpace w.first = 1 then tileSet t { tile with column := tile.column ++ [r] } s
  else
    let i := landIndex inp
    let q := tile.queue.getD i []
    if q.length < 4 && (tile.kept.getD i []).isEmpty then tileSet t { tile with queue := tile.queue.set i (q ++ [r]) } s
    else tileSet t { tile with kept := tile.kept.set i (tile.kept.getD i [] ++ [r]) } s

/-- The rows at the head of an input's queue that have arrived by cycle `c`. -/
def ready (c : Nat) (q : List LandRow) : Nat := (q.takeWhile fun r => decide (r.since ≤ c)).length

/-- The first rows of the inputs in order that have arrived by cycle `c`, `n` at most: rows taken and the queue left. -/
def takeRows (c : Nat) : Nat → List (List LandRow) → List LandRow × List (List LandRow)
  | _, [] => ([], [])
  | n, q :: r =>
    let k := min n (ready c q)
    let x := takeRows c (n - k) r
    (q.take k ++ x.1, q.drop k :: x.2)

/-- Rows of some inputs that have arrived by cycle `c` and wait. -/
def queued (c : Nat) (q : List (List LandRow)) : Nat :=
  (q.map fun l => (l.filter fun r => decide (r.since ≤ c)).length).foldl (· + ·) 0

/-- Whether the slice of a beam row is free in cycle `c` for an access of a rank below the tiles' (R99). -/
def sliceFree (s : State) (a c : Nat) : Bool :=
  match addrTile a with
  | none => false
  | some u => (tileAt s u).slices.all fun e =>
    e.slice != addrRow a % 24 || decide (e.cycle + 2 ≤ c) || decide (c + 2 ≤ e.cycle)

/-- The beam rows waiting at a column landing port (R99, R101). DESIGN CHOICE (log 104): the oldest is tried, one a cycle,
and the rest wait behind it. -/
def columnWrite (t c : Nat) (s : State) : State :=
  let tile := tileAt s t
  match tile.column with
  | [] => s
  | r :: rest =>
    let a := (windowAt tile r.hdr.window).first + r.hdr.woff
    if r.since ≤ c && sliceFree s a c then
      landQueued t c (serveSlice a c rankLanding (tileSet t { tile with column := rest }
        (bump 0x3100 0x11 (queued c [rest]) s))) r
    else bump 0x3100 0x11 (queued c [tile.column]) s

/-- A side-link sender that keeps a row stays busy (R91): the sender of the neighbour on side `i` of tile `t` is busy past
cycle `c`. -/
def keepBusy (t c i : Nat) (s : State) : State :=
  let v := if i = 0 then t + 1 else if i = 1 then t - 1 else if i = 2 then t + 24 else t - 24
  let q := if i = 0 then 1 else if i = 1 then 0 else if i = 2 then 3 else 2
  let tile := tileAt s v
  tileSet v { tile with senders := tile.senders.set q (max (tile.senders.getD q 0) (tile.count (c + 1))) } s

/-- The queue of tile `t` in cycle `c`: at most two rows are written, one in the first cycle of a task, in which the
parameter row goes ahead of them (R282); rows kept by their senders enter as entries free. Rows that wait count, those
that the mesh keeps as class S contention as well (R91). -/
def queueWrite (t c : Nat) (s : State) : State :=
  let tile := tileAt s t
  let x := takeRows c (if tile.seq.begun = some (tile.count c) then 1 else 2) tile.queue
  let kept := queued c tile.kept
  let mesh := queued c [tile.kept.getD 4 []]
  let y := refill (c + 1) x.2 tile.kept
  let s1 := x.1.foldl (landQueued t c) (tileSet t { tile with queue := y.1, kept := y.2 } s)
  let s2 := ([0, 1, 2, 3].filter fun i => 0 < queued c [tile.kept.getD i []]).foldl (fun s i => keepBusy t c i s) s1
  countModule 0x19 mesh (bump 0x4000 0x10 mesh
    (countTile t 0x2B (queued c x.2) c (bump 0x3100 0x11 (queued c x.2 + kept) s2)))

/-! ## The scrubber (R108 to R113) -/

/-- Rows that a pass reads: the column's rows and its spares. -/
def scrubRows : Nat := 740352

/-- A corrected row of a pass: counted for the job, marked for repair beyond 0x3100:12 passes (R113). -/
def scrubCorrected (t a : Nat) (s : State) : State :=
  let tile := tileAt s t
  let n := mget 0 tile.corrected (addrRow a) + 1
  let s1 := tileSet t { tile with corrected := mset 0 tile.corrected (addrRow a) n } s
  if objGet s 0x3100 0x12 < n then markRow a s1 else s1

/-- A poisoned frame waits for write-back (R111). DESIGN CHOICE (log 105): where the slice's queue of 4 is full, it is
not queued, as R108 has it for a corrected row. -/
def queuePoison (t r : Nat) (s : State) : State :=
  let tile := tileAt s t
  let rest := tile.writeBack.filter (·.1 != r)
  if 4 ≤ (rest.filter (·.1 % 24 == r % 24)).length then s
  else tileSet t { tile with writeBack := rest ++ [(r, true)] } s

/-- A read of a row has drawn a free value where a codeword of it has more than two upsets. -/
def drawn (a : Nat) (s : State) : State :=
  if (upsetCounts s a).any (2 < ·) then { s with free := s.free + 1 } else s

/-- What a scrub read finds in a row of column `t` (R108, R111). -/
def scrubCheck (t a c : Nat) (s0 : State) : State :=
  let r := fetchRow s0 a
  let s := drawn a s0
  if r.bad || !proofOk r.frame then
    markRow a (queuePoison t (addrRow a) (raiseFault 0x2009 (tileSite t a 0 0) s))
  else if r.corrected = 0 then s
  else scrubCorrected t a (queueFix a (countTile t 0x22 r.corrected c (bump 0x3100 4 1 s)))

/-- Ticks since the scrubbers began (R112). -/
def scrubTime (s : State) : Nat := ((s.tick : Int) - s.scrubBase).toNat

/-- The scrubber's place moves on; after the last row a pass is complete. -/
def scrubAdvance (t : Nat) (s : State) : State :=
  let tile := tileAt s t
  if tile.scrubRow + 1 < scrubRows then tileSet t { tile with scrubRow := tile.scrubRow + 1 } s
  else bump 0x3100 7 1 (tileSet t { tile with scrubRow := 0, scrubAt := scrubTime s, scrubLate := false } s)

/-- Whether the ports of a column leave cycle `c` to a background access. -/
def portFree (tile : Tile) (c : Nat) : Bool := !(tile.claims? portA c && tile.claims? portB c)

/-- Whether a background access of beam row `a` can take place in cycle `c` (R101). -/
def backFree (s : State) (a c : Nat) : Bool :=
  (match addrTile a with
    | none => true
    | some u => portFree (tileAt s u) c) && sliceFree s a c

/-- The scrubber reads its next row in a cycle in which no access of higher rank claims the port or slice. -/
def scrubStep (t c : Nat) (s : State) : State :=
  let tile := tileAt s t
  let a := rowAddr t 1 tile.scrubRow
  if 737280 ≤ tile.scrubRow then scrubAdvance t (countTile t 0x23 1 c s)
  else if backFree s a c then
    scrubAdvance t (scrubCheck t a c (serveSlice a c rankBackground (countTile t 0x23 1 c s)))
  else s

/-- SCRUB_READ (R109). -/
def execScrubRead (t : TileIx) (c : Nat) (s : State) : Host.Outcome State Fault Refusal :=
  .next (scrubStep t.val c s)

/-- Whether cycle `c` of the tile's own count is a scrub slot of slice `j` (R109): the index is that of the tile's
bundles, in which no stalled, frozen or stretched cycle counts. -/
def scrubSlot (q : Sequencer) (c j : Nat) : Bool := (c - q.pickStart - q.stall) % 64 == (2 * j + 16) % 64

/-- A write of a row that has issued by cycle `c` and whose row is not readable yet. -/
def writeIssued (s : State) (a c : Nat) : Bool :=
  match addrTile a with
  | none => false
  | some u => (columnsOf u).any fun v =>
    let tile := tileAt s v
    tile.writes.any (·.2.1 == a) && (List.range (Config.beamWrite + 1)).any fun k =>
      decide (k ≤ c) && tile.claims? (rowClaim a) (c - k)

/-- A row is written back: its stored bits are corrected, or its frame is poisoned. -/
def rewriteRow (a : Nat) (bad : Bool) (s : State) : State :=
  bump 0x3100 9 1 { s with upsets := mdel s.upsets a, poison := if bad then mset false s.poison a true else s.poison }

/-- The first queued row of slice `j` is written back in its scrub slot: corrected stored bits, or a poisoned frame; where
another write of the row has issued before, the row only leaves the queue (R110). -/
def writeBack (t c j : Nat) (s : State) : State :=
  let tile := tileAt s t
  match tile.writeBack.find? (·.1 % 24 == j) with
  | none => s
  | some (r, bad) =>
    let a := rowAddr t 1 r
    if writeIssued s a c then dropFix a s
    else if scrubSlot tile.seq (tile.count c) j && sliceFree s a c then
      rewriteRow a bad (serveSlice a c rankWriteBack
        (tileSet t { tile with writeBack := tile.writeBack.filter (·.1 != r) } s))
    else s

/-- SCRUB_WRITE_BACK (R108). -/
def execScrubWriteBack (t : TileIx) (c : Nat) (slice : Fin 24) (s : State) : Host.Outcome State Fault Refusal :=
  .next (writeBack t.val c slice.val s)

/-- Ticks of the pass period in ms (0x3100:06). -/
def passTicks (s : State) : Nat := objGet s 0x3100 6 * 800000

/-- A pass not complete within four periods counts once (R112). -/
def lateScrub (t : Nat) (s : State) : State :=
  let tile := tileAt s t
  if tile.scrubLate || scrubTime s < tile.scrubAt + 4 * passTicks s then s
  else bump 0x3100 8 1 (tileSet t { tile with scrubLate := true } s)

/-- LATE_SCRUB_PASS (R112). -/
def execLateScrubPass (t : TileIx) (s : State) : Host.Outcome State Fault Refusal := .next (lateScrub t.val s)

/-! ## Background accesses (R99, R101) -/

/-- The first of `n` cycles from `c` in which a background access of beam row `a` can take place. -/
def backGo (s : State) (a : Nat) : Nat → Nat → Nat
  | 0, c => c
  | n + 1, c => if backFree s a c then c else backGo s a n (c + 1)

/-- The cycle of a background access of row `a`: an access of its column bars three cycles, a claim one. -/
def backSlot (s : State) (a : Nat) : Nat :=
  match addrTile a with
  | none => cycleNow s
  | some u =>
    let tile := tileAt s u
    backGo s a (3 * tile.slices.length + tile.claims.length + tile.vclaims.length) (cycleNow s)

/-- A background read of a row, a beam row at rank 7 in a cycle left free: the frame, and State with what the correction
stage and the proof word find (R105 to R108). -/
def backRow (a : Nat) (s : State) : RowFrame × State :=
  match addrTile a with
  | none => (rowGet s a, s)
  | some u =>
    let c := backSlot s a
    let s1 := if addrSpace a = 1 then serveSlice a c rankBackground s else s
    ((fetchRow s a).frame, applyFx u c (fetchFx s u a 0) s1)

/-- A background write of a row, a beam row at rank 7 in a cycle left free: a write of the row that issues in the same
cycle is fault 0x2005 (R104). -/
def backStore (a : Nat) (f : RowFrame) (s : State) : State :=
  match addrTile a with
  | none => s
  | some u =>
    let c := backSlot s a
    let s1 := if addrSpace a = 1 then serveSlice a c rankBackground s else s
    let tile := tileAt s1 u
    let x := (rowClaim a, tile.count c)
    let cl := tile.claim (tile.count c) 0 [x]
    rowWrite u (c + writeLat a) a f
      (raiseFaults (claimFx u 0 (cl.2.or (takenBeside s1 u [x]))).faults (tileSet u cl.1 s1))

end Sys2Proof.Machine
end

