-- ==== Sys2Proof/Machine/Mesh.lean ====
section
/-! DEFINITION. Side links, the mesh and the bridges as a wire (R208 to R216): paths, repair hops, bridge ports, flits,
and the contention of class S (R220). -/

namespace Sys2Proof.Machine

/-! ## Paths (R211, R212) -/

/-- The distance of two numbers. -/
def apart (a b : Nat) : Nat := max a b - min a b

/-- Logical hops between two tiles. -/
def tileHops (a b : Nat) : Nat := apart (tileX a) (tileX b) + apart (tileY a) (tileY b)

/-- The inner corner tile of a die (R211). -/
def corner (d : Nat) : Nat :=
  24 * (if d < 2 then 15 else 16) + (if d % 2 = 0 then 11 else 12)

/-- Whether two dies are joined by the relay path: C0 and C3, or C1 and C2. -/
def relayed (a b : Nat) : Bool := a + b == 3

/-- The die that a relay path crosses (R215): it lies beside the source die, across its x bridge. -/
def relayDie (a b : Nat) : Nat := a / 2 * 2 + b % 2

/-- The runs of a path inside dies: pairs of tiles, first and last. -/
def pathRuns (a b : Nat) : List (Nat × Nat) :=
  let da := (dieOf a).val
  let db := (dieOf b).val
  if da = db then [(a, b)]
  else if relayed da db then [(a, corner da), (corner db, b)]
  else if tileY a / 16 = tileY b / 16 then
    let e := 24 * tileY a
    if tileX a < 12 then [(a, e + 11), (e + 12, b)] else [(a, e + 12), (e + 11, b)]
  else
    let x := tileX b
    if tileY a < 16 then [(a, 24 * 15 + x), (24 * 16 + x, b)] else [(a, 24 * 16 + x), (24 * 15 + x, b)]

/-- Logical hops h of a path. -/
def pathHops (a b : Nat) : Nat := ((pathRuns a b).map fun r => tileHops r.1 r.2).foldl (· + ·) 0

/-- Dies D that a path's mesh runs cross. -/
def pathDies (a b : Nat) : Nat := (pathRuns a b).length

/-- The physical column, within its die, of a logical tile (R13): one to the right from a bad tile's place on. -/
def physCol (shifts : SMap Nat) (t : Nat) : Nat :=
  let lx := tileX t % 12
  let key := 16 * (dieOf t).val + tileY t % 16
  match shifts.lookup key with
  | some bad => if bad ≤ lx then lx + 1 else lx
  | none => lx

/-- A router's number: die, local row, physical column. -/
def routerKey (d row col : Nat) : Nat := 208 * d + 13 * row + col

/-- One hop of a run: the router's local row and physical column, and the output taken: 0 +x, 1 −x, 2 +y, 3 −y. -/
structure Hop where
  row : Nat
  col : Nat
  dir : Nat
  deriving DecidableEq, Repr

/-- The hops of a run inside its die, along x in its first row, then along y (R211). -/
def runHops (shifts : SMap Nat) (r : Nat × Nat) : List Hop :=
  let y0 := tileY r.1 % 16
  let y1 := tileY r.2 % 16
  let x0 := physCol shifts r.1
  let x1 := physCol shifts r.2
  ((List.range (apart x0 x1)).map fun i =>
      if x0 ≤ x1 then { row := y0, col := x0 + i, dir := 0 } else { row := y0, col := x0 - i, dir := 1 })
    ++ (List.range (apart y0 y1)).map fun i =>
      if y0 ≤ y1 then { row := y0 + i, col := x1, dir := 2 } else { row := y0 - i, col := x1, dir := 3 }

/-- Failed routers that a run meets on its way, its first and last apart: each adds 2 hops (R211). -/
def failedOn (shifts : SMap Nat) (failed : List Nat) (r : Nat × Nat) : Nat :=
  (((runHops shifts r).drop 1).filter fun h => failed.contains (routerKey (dieOf r.1).val h.row h.col)).length

/-- Hops that a run makes under a repair state. -/
def runPhys (shifts : SMap Nat) (failed : List Nat) (r : Nat × Nat) : Nat :=
  (runHops shifts r).length + 2 * failedOn shifts failed r

/-- Physical hops p of a path. -/
def pathPhys (s : State) (a b : Nat) : Nat :=
  ((pathRuns a b).map (runPhys s.integrity.shifts s.net.routers)).foldl (· + ·) 0

/-- The pad hops field, 2D − (p − h) (R212). -/
def padHops (s : State) (a b : Nat) : Nat := 2 * pathDies a b + pathHops a b - pathPhys s a b

/-- The bridge or relay entry of a path (R58). -/
def bridgeEntry (profile a b : Nat) : Nat :=
  let da := (dieOf a).val
  let db := (dieOf b).val
  if da = db then 0 else if relayed da db then Config.relayLat profile else Config.bridgeLat profile

/-- The mesh latency of a row (R58): injection and ejection, hops, serialisation, bridge or relay. -/
def meshLat (profile a b : Nat) : Nat :=
  Config.meshInjEj profile + Config.meshHop * (pathHops a b + Config.meshPadHops * pathDies a b) + Config.meshSerial
    + bridgeEntry profile a b

/-- The cycles after which the last flit of a row reaches the ejecting router, which holds it for the pad (R212). -/
def flightLat (s : State) (a b : Nat) : Nat :=
  Config.meshInjEj (profile s) + Config.meshHop * pathPhys s a b + Config.meshSerial + bridgeEntry (profile s) a b

/-- Whether a run of some die can need more than two added hops under a repair state (R61): from some tile of the die to
another. -/
def tooLong (shifts : SMap Nat) (failed : List Nat) (d : Nat) : Bool :=
  let tiles := if shifts.isEmpty && failed.isEmpty then [] else (List.range 192).map fun i => corner0 d + 24 * (i / 12) + i % 12
  tiles.any fun a => tiles.any fun b => decide (tileHops a b + 2 < runPhys shifts failed (a, b))
where
  /-- The first tile of a die. -/
  corner0 (d : Nat) : Nat := 24 * (if d < 2 then 0 else 16) + (if d % 2 = 0 then 0 else 12)

/-- The attach tile of a link's port (R233). -/
def attachTile (l : Nat) : Nat :=
  let d := l / 9
  let k := l % 9
  let ox := if d % 2 = 1 then 12 else 0
  let oy := if 2 ≤ d then 16 else 0
  if k < 3 then 24 * (oy + (if k = 0 then 2 else if k = 1 then 7 else 12)) + ox + (if d % 2 = 1 then 11 else 0)
  else 24 * (oy + (if 2 ≤ d then 15 else 0)) + ox
    + (if k = 3 then 1 else if k = 4 then 5 else if k = 5 then 9 else if k = 6 then 3 else if k = 7 then 7 else 11)

/-! ## Bridge ports (R214, R215) -/

/-- The bridge pair of two adjacent dies: C0–C1, C2–C3, C0–C2, C1–C3. -/
def pairOf (a b : Nat) : Nat := if a / 2 = b / 2 then a / 2 else 2 + a % 2

/-- The port of a pair on which a packet crosses (R214): of the two of its row or logical column, the lower-numbered
where its source x is even. Ports 24 to 31 of a y pair are the relay ports. -/
def bridgePort (lane sx : Nat) : Nat := 2 * lane + (if sx % 2 = 0 then 0 else 1)

/-- The relay port of a packet: one of eight. DESIGN CHOICE (log 106): by its source x. -/
def relayPort (sx : Nat) : Nat := 24 + sx % 8

/-- The ports that a path crosses: pair, port, whether it runs from the lower die, the cycles from its last hop to the
claim. -/
def pathPorts (profile a b : Nat) : List (Nat × Nat × Bool × Nat) :=
  let da := (dieOf a).val
  let db := (dieOf b).val
  let sx := tileX a
  if da = db then []
  else if relayed da db then
    let m := relayDie da db
    [(pairOf da m, bridgePort (tileY (corner da) % 16) sx, decide (da < m), 0),
     (pairOf m db, relayPort sx, decide (m < db), Config.bridgeLat profile + 8)]
  else
    let lane := if da / 2 = db / 2 then tileY a % 16 else tileX b % 12
    [(pairOf da db, bridgePort lane sx, decide (da < db), 0)]

/-! ## The wire (R208, R210) -/

/-- The two cycles of a row on a side link: 256 data bytes and the sideband (R208). -/
def sideCycles (window woff : Nat) (row : RowFrame) : List (Bytes × BitVec 64) :=
  [(slice row.data 0 256, BitVec.ofNat 64 (window % 256 * 2 ^ 56 + woff % 128 * 2 ^ 49 + row.proof.toNat)),
   (slice row.data 256 256, BitVec.ofNat 64 (row.tag.toNat * 2 ^ 48))]

/-- What the receiver of a side link rebuilds from two cycles: window, offset and frame, the trailer's reserved bits 0. -/
def sideReceive : List (Bytes × BitVec 64) → Option (Nat × Nat × RowFrame)
  | [x, y] => some (bits x.2.toNat 56 8, bits x.2.toNat 49 7,
      { data := x.1 ++ y.1, tag := BitVec.ofNat 16 (bits y.2.toNat 48 16), proof := BitVec.ofNat 32 (bits x.2.toNat 0 32) })
  | _ => none

/-- The route header as 64 bits (R210). -/
def routeWord (h : Route) : Nat :=
  (if h.classB then 2 ^ 63 else 0) + h.kind.toNat * 2 ^ 60 + h.dx.toNat * 2 ^ 55 + h.dy.toNat * 2 ^ 50
    + h.sx.toNat * 2 ^ 45 + h.sy.toNat * 2 ^ 40 + h.window.toNat * 2 ^ 32 + h.woff.toNat * 2 ^ 25 + h.pad.toNat * 2 ^ 22
    + h.act.toNat * 2 ^ 18 + h.gen.toNat

/-- The route header that 64 bits spell; the reserved bits are not looked at. -/
def routeOf (w : Nat) : Route where
  classB := bitOf w 63
  kind := BitVec.ofNat 3 (bits w 60 3)
  dx := BitVec.ofNat 5 (bits w 55 5)
  dy := BitVec.ofNat 5 (bits w 50 5)
  sx := BitVec.ofNat 5 (bits w 45 5)
  sy := BitVec.ofNat 5 (bits w 40 5)
  window := BitVec.ofNat 8 (bits w 32 8)
  woff := BitVec.ofNat 7 (bits w 25 7)
  pad := BitVec.ofNat 3 (bits w 22 3)
  act := BitVec.ofNat 4 (bits w 18 4)
  gen := BitVec.ofNat 16 (bits w 0 16)

/-- One bit of the CRC-16 of a flit: polynomial 0x1021, the most significant bit first. -/
def crc16Bit (c : Nat) (bit : Bool) : Nat :=
  let x := c * 2 % 65536
  if (decide (32768 ≤ c)) != bit then x ^^^ 0x1021 else x

/-- The CRC-16 over bytes, initial value 0xFFFF (R210). DESIGN CHOICE (log 107): bits from the most significant of each
byte on. -/
def crc16 (bs : Bytes) : Nat :=
  bs.foldl (fun c b => (List.range 8).foldl (fun c i => crc16Bit c (b.getLsbD (7 - i))) c) 0xFFFF

/-- A flit: payload and lane, the lane's upper 64 bits given (R210). DESIGN CHOICE (log 107): the check takes the payload
in byte order and then the lane bits [79:16] from the most significant byte on. -/
def flit (payload : Bytes) (upper : Nat) : Bytes × BitVec 80 :=
  (payload, BitVec.ofNat 80 (upper * 65536 + crc16 (payload ++ beBytes 8 upper)))

/-- The lane of flit `i`, its CRC apart: the route header in the first, the flit index in the others (R210). -/
def laneUpper (h : Route) (i : Nat) : Nat := if i = 0 then routeWord h else i * 2 ^ 60

/-- The nine flits of a row frame (R210): flit 8 carries bytes 512 to 519 and zeros. -/
def rowFlits (h : Route) (row : RowFrame) : List (Bytes × BitVec 80) :=
  (List.range 9).map fun i => flit (slice (frameBytes row) (64 * i) 64) (laneUpper h i)

/-- Whether a flit passes the check of R213. -/
def flitOk (f : Bytes × BitVec 80) : Bool :=
  bits f.2.toNat 0 16 == crc16 (f.1 ++ beBytes 8 (bits f.2.toNat 16 64))

/-- The row frame that nine flits carry, and its header. -/
def flitsRow (fs : List (Bytes × BitVec 80)) : Route × RowFrame :=
  (routeOf (bits (fs.headD ([], 0)).2.toNat 16 64), frameOf ((fs.flatMap (·.1)).take 520))

/-- Whether a route header is one that a router accepts (R210). -/
def routeOk (h : Route) : Bool := decide (h.kind.toNat ≤ 4) && decide (h.dx.toNat < 24)

/-! ## Class S contention (R220) -/

/-- The place in the input order of R220 at which a hop enters the next router. -/
def enters (dir : Nat) : Nat := if dir = 0 then 1 else if dir = 1 then 0 else if dir = 2 then 3 else 2

/-- The number of a router output: 0 to 3 toward a neighbour, 4 toward the tile or unit. -/
def outOf (key dir : Nat) : Nat := 8 * key + dir

/-- The number of a bridge port's output. -/
def portOut (pair port : Nat) (up : Bool) : Nat := 8 * 832 + 2 * (34 * pair + port) + (if up then 1 else 0)

/-- The claims of a run's hops from hop `n` on, those of routers off the plain path among them where it detours inside an
x run: output, hop, input order. DESIGN CHOICE (log 108): a detour at the turn or in a y run claims nothing. -/
def hopClaims (d : Nat) (failed : List Nat) : Nat → Nat → List Hop → List (Nat × Nat × Nat)
  | _, _, [] => []
  | n, e, [h] => [(outOf (routerKey d h.row h.col) h.dir, n, e)]
  | n, e, h :: h2 :: r =>
    if failed.contains (routerKey d h2.row h2.col) then
      (if h.dir = h2.dir && h.dir < 2 then
        let row := if h.row < 15 then h.row + 1 else h.row - 1
        let v := if h.row < 15 then 2 else 3
        [(outOf (routerKey d h.row h.col) v, n, e), (outOf (routerKey d row h.col) h.dir, n + 1, enters v),
         (outOf (routerKey d row h2.col) h.dir, n + 2, enters h.dir),
         (outOf (routerKey d row (if h.dir = 0 then h2.col + 1 else h2.col - 1)) (5 - v), n + 3, enters h.dir)]
      else []) ++ hopClaims d failed (n + 4) (if h.dir = h2.dir && h.dir < 2 then enters (if h.row < 15 then 3 else 2)
        else enters h2.dir) r
    else (outOf (routerKey d h.row h.col) h.dir, n, e) :: hopClaims d failed (n + 1) (enters h.dir) (h2 :: r)

/-- The input by which the last router of a run is entered. -/
def lastEnters (e : Nat) (hops : List Hop) : Nat := match hops.getLast? with
  | none => e
  | some h => enters h.dir

/-- The claims that the first flit of a row from tile `a` to tile `b` makes, its injection in cycle `c`. Cycles of two
rows are compared only with each other: where the injection entry is spent within a path is the same for all (log 108). -/
def pathClaims (s : State) (a b c : Nat) : List OutClaim :=
  let sh := s.integrity.shifts
  let fl := s.net.routers
  let hop := Config.meshHop
  let mk := fun (c0 : Nat) (x : Nat × Nat × Nat) => ({ out := x.1, cycle := c0 + hop * x.2.1, order := x.2.2 } : OutClaim)
  let local_ := fun (c0 e : Nat) (r : Nat × Nat) =>
    (hopClaims (dieOf r.1).val fl 0 e (runHops sh r)).map (mk c0)
  let last := fun (c0 e : Nat) (r : Nat × Nat) =>
    ({ out := outOf (routerKey (dieOf r.2).val (tileY r.2 % 16) (physCol sh r.2)) 4,
       cycle := c0 + hop * runPhys sh fl r, order := lastEnters e (runHops sh r) } : OutClaim)
  match pathRuns a b with
  | [r] => local_ c 4 r ++ [last c 4 r]
  | [r, q] =>
    let c1 := c + hop * runPhys sh fl r
    let c2 := c1 + bridgeEntry (profile s) a b
    let e := enters (if tileY r.2 / 16 = tileY q.1 / 16 then (if tileX r.2 < tileX q.1 then 0 else 1)
      else (if tileY r.2 < tileY q.1 then 2 else 3))
    local_ c 4 r ++ (pathPorts (profile s) a b).map (fun p =>
      { out := portOut p.1 p.2.1 p.2.2.1, cycle := c1 + p.2.2.2, order := lastEnters 4 (runHops sh r) })
      ++ local_ c2 e q ++ [last c2 e q]
  | _ => []

/-- The claims of the nine flits of a row. -/
def rowClaims (s : State) (a b c : Nat) : List (List OutClaim) :=
  (List.range 9).map fun k => (pathClaims s a b c).map fun x => { x with cycle := x.cycle + k }

/-- A claim that two rows make in one cycle (R220): cycle, number of the row that waits, its flit, the place on its path. -/
structure Clash where
  cycle : Nat
  row   : Nat
  flit  : Nat
  place : Nat
  deriving DecidableEq, Repr

/-- All claims of some rows: row, flit, place, claim. -/
def allClaims (rows : List NetRow) : List (Nat × Nat × Nat × OutClaim) :=
  rows.zipIdx.flatMap fun r => r.1.flits.zipIdx.flatMap fun f => f.1.zipIdx.map fun x => (r.2, f.2, x.2, x.1)

/-- The earliest clash of two rows: the claim later in the input order waits, of two from one input that of the row which
came later. -/
def firstClash (rows : List NetRow) : Option Clash :=
  let all := allClaims rows
  (all.filterMap fun x =>
    if all.any fun y => y.1 != x.1 && y.2.2.2.out == x.2.2.2.out && y.2.2.2.cycle == x.2.2.2.cycle
        && (decide (y.2.2.2.order < x.2.2.2.order) || y.2.2.2.order == x.2.2.2.order && decide (y.1 < x.1))
    then some ({ cycle := x.2.2.2.cycle, row := x.1, flit := x.2.1, place := x.2.2.1 } : Clash) else none).foldl
    (fun b k => match b with
      | none => some k
      | some b => if k.cycle < b.cycle then some k else some b) none

/-- Flits of a row wait one cycle from a place of their path on: the first of them, and those behind it that would catch
up with it. -/
def pushFlits (place : Nat) (prev : Option Nat) : List (List OutClaim) → List (List OutClaim)
  | [] => []
  | f :: r =>
    let at_ := (f[place]?.map (·.cycle)).getD 0
    if (match prev with | none => true | some p => decide (at_ ≤ p)) then
      f.mapIdx (fun i x => if place ≤ i then { x with cycle := x.cycle + 1 } else x) :: pushFlits place (some (at_ + 1)) r
    else f :: r

/-- The cycle of a row's last claim. -/
def NetRow.tail (r : NetRow) : Nat := ((r.flits.getLast?.bind (·.getLast?)).map (·.cycle)).getD 0

/-- A row of a hand-off reaches its port `k` cycles later. -/
def delayHanded (r : NetRow) (k : Nat) (s : State) : State :=
  match r.port with
  | none => s
  | some l =>
    let link := linkAt s l
    linkSet l { link with handed := link.handed.map fun h =>
      if h.tile = r.src.1 && h.issue = r.src.2 && h.woff = r.hdr.woff then { h with ready := h.ready.map (· + k) } else h } s

/-- A flit that has lost an output waits a cycle (R220); its row lands as much later as its last flit. -/
def waitClash (k : Clash) (s : State) : State :=
  match s.net.rows[k.row]? with
  | none => s
  | some r =>
    let r1 := { r with flits := r.flits.take k.flit ++ pushFlits k.place none (r.flits.drop k.flit) }
    let d := r1.tail - r.tail
    delayHanded r d (countModule 0x19 1 (bump 0x4000 0x10 1
      { s with net := { s.net with rows := s.net.rows.set k.row { r1 with due := r.due + d } } }))

/-- Clashes in the order of their cycles. -/
def settleClashes : Nat → State → State
  | 0, s => s
  | n + 1, s => match firstClash s.net.rows with
    | none => s
    | some k => settleClashes n (waitClash k s)

/-- A class S row enters the network; rows long past leave the list. -/
def netSend (r : NetRow) (s : State) : State :=
  let rows := (s.net.rows.filter (r.due ≤ ·.due + 4096)) ++ [r]
  settleClashes (16 * (allClaims rows).length + 1) { s with net := { s.net with rows := rows } }

/-- A row on its way from tile `a` to tile `b` by the mesh, sent in cycle `c`, with its pad hops. -/
def meshNetRow (s : State) (a b c pad : Nat) (inp : LandIn) (hdr : LandHdr) (row : RowFrame) (src : Nat × Nat)
    (port : Option Nat) : NetRow :=
  { dst := b, inp := inp, hdr := hdr, row := row, due := c + flightLat s a b + Config.meshHop * pad, src := src,
    port := port, flits := rowClaims s a b c }

/-! ## Arrivals -/

/-- A class S row that the command of its arrival names arrives at tile `t` in cycle `c`: it becomes readable in the cycle
of its nominal landing or one later, which counts as a late crossing (R24, R60), and is written the cycle before. A row
that the module did not send arrives in the command's cycle. -/
def netArrive (t c : Nat) (inp : LandIn) (src : Option Nat) (hdr : LandHdr) (row : RowFrame) (s : State) : State :=
  match s.net.rows.find? fun r => r.dst == t && r.inp == inp && r.hdr == hdr && r.port.isNone
      && (match src with | none => true | some a => r.src.1 == a) with
  | none => arrive t inp { hdr := hdr, row := row, back := none, port := none, since := c } s
  | some r =>
    let since := max (r.due - 1) (min c r.due)
    let late := if r.due ≤ since then 1 else 0
    arrive t inp { hdr := hdr, row := row, back := none, port := none, since := since }
      (countTile t 7 late since (bump 0x2100 7 late
        { s with net := { s.net with rows := s.net.rows.erase r } }))

/-- Rows that a selvedge port has sent to tile `t` and that are due by cycle `c` arrive (R239). -/
def portRows (t c : Nat) (s : State) : State :=
  let mine := fun r : NetRow => r.dst == t && r.inp == .selvedge && r.port.isNone && decide (r.due ≤ c + 1)
  (s.net.rows.filter mine).foldl
    (fun s r => arrive t .selvedge { hdr := r.hdr, row := r.row, back := none, port := none, since := r.due - 1 } s)
    { s with net := { s.net with rows := s.net.rows.filter fun r => !mine r } }

/-- LANDING_QUEUE_WRITE (R90). -/
def execLandingWrite (t : TileIx) (c : Nat) (s : State) : Host.Outcome State Fault Refusal :=
  .next (if issuing s then columnWrite t.val c (queueWrite t.val c (portRows t.val c (landDue t.val c s))) else s)

end Sys2Proof.Machine
end

