-- ==== Sys2Proof/Machine/Net.lean ====
section
/-! DEFINITION. The S slot (R120, R209, R211, R232, R288), arrivals of side links and the mesh (R208, R213), class B
injection (R221), contribution digests (R272 to R275). -/

namespace Sys2Proof.Machine

/-! ## Send tables and module entries -/

/-- Whether the Module field names a module other than this one (R209). -/
def foreign (s : State) (t e : Nat) : Bool :=
  match s.pattern with
  | none => e != 0
  | some p => e != 0 && ((p.modules.getD (groupOf s t) [])[e - 1]?) != some (ownCoord s)

/-- An entry of the send table of a die (R231). -/
def sendEntry (s : State) (d i : Nat) : Nat :=
  match s.pattern with
  | none => 0
  | some p => ((p.sends.getD d []).getD i 0).toNat

/-- The header of a handed row (R232). -/
def handedFrame (s : State) (t e : Nat) (f : SSlot) (i : Nat) (row : RowFrame) : Frame where
  kind := .scheduled
  activity := 0
  dest := coordOf (bits e 32 12)
  tx := BitVec.ofNat 5 (bits e 27 5)
  ty := BitVec.ofNat 5 (bits e 22 5)
  window := f.window
  woff := BitVec.ofNat 7 (f.soff.toNat + i)
  gen := 0
  landSp := BitVec.ofNat 32 (s.sp - (tileAt s t).seq.behind + bits e 44 6)
  seq := 0
  retry := none
  sendSp := BitVec.ofNat 16 (s.sp - (tileAt s t).seq.behind + 1)
  row := row

/-- A row frame of zeros. -/
def zeroRow : RowFrame where
  data := zeros 512
  tag := 0
  proof := zeroProof

/-! ## Contribution digests -/

/-- The send digests of a tile take a row that an S slot has read in cycle `c` of the tile's own count (R273). -/
def sendDigests (s : State) (t a c : Nat) (data : Bytes) (tile : Tile) : Tile :=
  { tile with digests := tile.digests.map fun d =>
      if d.send then
        let w := baseWord s t tile d.sbase
        let first := rowAddr t (addrSpace w) (addrRow w + d.soff)
        if first ≤ a && a < first + d.n then { d.count (a - first) data with lastAt := max d.lastAt c } else d
      else d }

/-- The digest row of a send descriptor (R274's table). -/
def digestRow (s : State) (t : Nat) (d : Digest) : Bytes :=
  slice (leBytes 8 d.acc.toNat ++ leBytes 2 (coordNat (ownCoord s)) ++ leBytes 1 (tileX t) ++ leBytes 1 (tileY t)
    ++ leBytes 2 d.n) 0 512

/-! ## Rows of a send leave (R120, R208, R210, R232) -/

/-- Row `i` of a send that its tile has read in cycle `due` of its own count. -/
def rowLeaves (t : Nat) (op : SOp) (f : SSlot) (issue i due : Nat) (r : RowRead) (row : RowFrame) (s : State) : State :=
  let tile := tileAt s t
  let c := tile.cycleOf due
  let s1 := if op = .publish then s else tileSet t (sendDigests s t r.addr due row.data tile) s
  let woff := (f.soff.toNat + i) % 128
  let hdr : LandHdr := { window := f.window.toNat, woff := woff, seq := 0, landSp := 0 }
  let dst := 24 * f.dy.toNat + f.dx.toNat
  match op with
  | .side =>
    countTile t 0x28 1 c (netSend
      { dst := dst, inp := if dst = t + 1 then .mx else if dst + 1 = t then .px else if dst = t + 24 then .my else .py,
        hdr := hdr, row := row, due := c + Config.sideLanding (profile s), src := (t, issue), port := none, flits := [] }
      (emit (.sideRow t dst (sideCycles f.window.toNat woff row)) s1))
  | .mesh =>
    let h : Route := { classB := false, kind := 0, dx := f.dx, dy := f.dy, sx := BitVec.ofNat 5 (tileX t),
                       sy := BitVec.ofNat 5 (tileY t), window := f.window, woff := BitVec.ofNat 7 woff,
                       pad := BitVec.ofNat 3 (padHops s t dst), act := 0, gen := 0 }
    countTile t 0x29 1 c (netSend (meshNetRow s t dst c h.pad.toNat .mesh hdr row (t, issue) none)
      (emit (.meshRow t dst (rowFlits h row) (flightLat s t dst + Config.meshHop * h.pad.toNat)) s1))
  | .selvedge =>
    let l := bits (sendEntry s (dieOf t).val (f.dx.toNat * 32 + f.dy.toNat)) 58 6
    let k := linkAt s1 l
    let r := meshNetRow s t (attachTile l) c (padHops s t (attachTile l)) .selvedge hdr row (t, issue) (some l)
    countTile t 0x29 1 c (netSend r (linkSet l { k with handed := k.handed.map fun h =>
      if h.tile = t && h.issue = issue && h.woff = woff then
        { h with ready := some r.due, frame := { h.frame with row := row } }
      else h } s1))
  | .publish => publishNow t (f.window.toNat % 16) (BitVec.ofNat 64 (leAt row.data 0 8)) (s.sp - tile.seq.behind)
      (emit (.publish t (f.window.toNat % 16) (BitVec.ofNat 64 (leAt row.data 0 8))) s1)

/-- The rows of a send in flight that leave by cycle `c`: their numbers, reads and frames. -/
def rowsDue (c : Nat) (p : InFlight) : List (Nat × RowRead × RowFrame) :=
  ((p.reads.drop p.done).zipIdx.takeWhile fun x => x.1.due ≤ c && x.1.val.isSome).filterMap fun x =>
    x.1.val.map fun f => (p.done + x.2, x.1, f)

/-- The send of a tile that is first in its pipe and has a row to leave. -/
def sendDue (c : Nat) (p : InFlight) : Option (SOp × SSlot × List (Nat × RowRead × RowFrame)) :=
  match p.work with
  | .send op f => if (rowsDue c p).isEmpty then none else some (op, f, rowsDue c p)
  | _ => none

/-- Rows of one send that are due leave. -/
def flushOne (t c : Nat) (s : State) : State :=
  let tile := tileAt s t
  match firstReady (sendDue c) tile.pipe with
  | none => s
  | some (i, p, op, f, rows) =>
    let n := p.done + rows.length
    let pipe := if p.reads.length ≤ n then tile.pipe.eraseIdx i else tile.pipe.set i { p with done := n }
    rows.foldl (fun s x => rowLeaves t op f p.issue x.1 x.2.1.due x.2.1 x.2.2 s) (tileSet t { tile with pipe := pipe } s)

/-- Rows of sends due by cycle `c` leave; `k` sends at most are in flight. -/
def flushGo : Nat → Nat → Nat → State → State
  | 0, _, _, s => s
  | k + 1, t, c, s => flushGo k t c (flushOne t c s)

/-- All rows of tile `t` that S slots have read by cycle `c` leave. -/
def flushSends (t c : Nat) (s : State) : State := flushGo (tileAt s t).pipe.length t c s

/-! ## The digest row (R273) -/

/-- A send descriptor whose rows have all been read writes its digest row through the landing ports 4 cycles after the
last read, in cycle `c` (R273). -/
def writeDigest (t c i : Nat) (s0 : State) : State :=
  let s := flushSends t ((tileAt s0 t).count c) s0
  let tile := tileAt s t
  let l := tile.count c
  match (tile.digests.filter (·.send))[i]? with
  | none => s
  | some d =>
    if d.seen.length = d.n && d.lastAt + 4 ≤ l then
      let w := baseWord s t tile d.dbase
      let a := rowAddr t (addrSpace w) (addrRow w + d.doff)
      let x := (rowClaim a, l)
      let cl := tile.claim l 0 [x]
      let tile1 := { cl.1 with digests := cl.1.digests.map fun x => if x = d then x.fresh else x }
      landRow t (c + writeLat a) a (freshFrame (digestRow s t d) 0)
        (raiseFaults (claimFx t tile.seq.bundle (cl.2.or (takenBeside s t [x]))).faults (tileSet t tile1 s))
    else s

/-- DIGEST_ROW_WRITE (R273). -/
def execDigestRowWrite (t : TileIx) (c : Nat) (entry : Fin 8) (s : State) : Host.Outcome State Fault Refusal :=
  .next (if issuing s then writeDigest t.val c entry.val s else s)

/-! ## Issue -/

/-- The place of the sender that a send uses: +x, −x, +y, −y, mesh; `none` where a side-link send names no orthogonal
neighbour (R209). -/
def senderOf (t : Nat) (op : SOp) (f : SSlot) : Option Nat :=
  match op with
  | .side =>
    let x := f.dx.toNat
    let y := f.dy.toNat
    if 24 ≤ x then none
    else if y = tileY t && x = tileX t + 1 then some 0
    else if y = tileY t && x + 1 = tileX t then some 1
    else if x = tileX t && y = tileY t + 1 then some 2
    else if x = tileX t && y + 1 = tileY t then some 3
    else none
  | .mesh => if 24 ≤ f.dx.toNat then none else some 4
  | .selvedge | .publish => some 4

/-- Cycles that a row keeps the sender busy (R209): a publication its issue cycle only. -/
def rowBusy : SOp → Nat
  | .side => 2
  | .mesh => 9
  | .selvedge => 9
  | .publish => 1

/-- Rows of a send; a publication reads one. -/
def sendRowsOf (op : SOp) (f : SSlot) : Nat := match op with | .publish => 1 | _ => f.count.toNat + 1

/-- The rows of a hand-off stand in the port's list from its issue on (R234). The SP is the tile's own: a tile that has
overrun is behind the slice's (R32). -/
def handOff (s : State) (t c : Nat) (f : SSlot) : List Handed × Nat :=
  let e := sendEntry s (dieOf t).val (f.dx.toNat * 32 + f.dy.toNat)
  ((List.range (f.count.toNat + 1)).map fun i =>
    { slot := bits e 54 4 + i, sp := s.sp - (tileAt s t).seq.behind, tile := t, issue := c
      woff := (f.soff.toNat + i) % 128, ready := none, frame := handedFrame s t e f i zeroRow, late := false }, bits e 58 6)

/-- An S slot issues (R209): destination, sender, operands; its rows are read one after another. -/
def sendIssue (op : SOp) (t c : Nat) (f : SSlot) (s : State) (tile0 : Tile) : Tile × Fx :=
  let b := tile0.seq.bundle
  match senderOf t op f, (op == .side || op == .mesh) && foreign s t f.modl.toNat with
  | none, _ => (tile0, Fx.fault 0x4003 (tileSite t 0 b 0))
  | some _, true => (tile0, Fx.fault 0x4003 (tileSite t 0 b 0))
  | some q, false =>
    let free := tile0.senders.getD q 0
    let st := tile0.stallFor s t (free - c) 5 (0x4000, 0x15)
    let c1 := max c free
    let n := sendRowsOf op f
    match operandRows s t st.1 f.sbase.toNat f.soff.toNat n [0, 3] 0 with
    | .error a => (st.1, st.2.also (Fx.fault 0x2004 (tileSite t a b 0)))
    | .ok rows =>
      let rd := rows.mapIdx fun i a => (a, c1 + rowBusy op * i)
      let cl := st.1.claim c st.1.ops (rd.filterMap fun x => if addrSpace x.1 = 0 then some (portRead 3, x.2) else none)
      let p : InFlight :=
        { id := st.1.ops, work := .send op f, issue := c1, bundle := b, reads := readsOf s t f.await rd, done := 0 }
      ({ cl.1 with
          pipe := cl.1.pipe ++ [p], ops := cl.1.ops + 1, senders := cl.1.senders.set q (c1 + rowBusy op * n) },
       st.2.also ((readsFx s t b f.await rd).also (claimFx t b cl.2)))

/-- The hand-off of a send that issued is known to its port. -/
def noteHandOff (op : SOp) (t c : Nat) (f : SSlot) (s : State) : State :=
  match op, (tileAt s t).pipe.getLast? with
  | .selvedge, some p =>
    if p.work = .send op f && c ≤ p.issue then
      let h := handOff s t p.issue f
      linkSet h.2 { linkAt s h.2 with handed := (linkAt s h.2).handed ++ h.1 } s
    else s
  | _, _ => s

/-- An S slot command of tile `t` in cycle `c`. -/
def sSlot (op : SOp) (t : TileIx) (c : Nat) (f : SSlot) (s : State) : State :=
  let l := (tileAt s t.val).count c
  if tileIssues s t.val c then
    flushSends t.val l (noteHandOff op t.val l f
      (slotIssue t c (fun l => sendIssue op t.val l f) (flushSends t.val (l - 1) s)))
  else s

/-- SEND_ON_SIDE_LINK (R209). -/
def execSendSide (t : TileIx) (c : Nat) (f : SSlot) (s : State) : Host.Outcome State Fault Refusal :=
  .next (sSlot .side t c f s)

/-- SEND_ON_MESH (R211). -/
def execSendMesh (t : TileIx) (c : Nat) (f : SSlot) (s : State) : Host.Outcome State Fault Refusal :=
  .next (sSlot .mesh t c f s)

/-- HAND_TO_SELVEDGE_PORT (R232). -/
def execHandSelvedge (t : TileIx) (c : Nat) (f : SSlot) (s : State) : Host.Outcome State Fault Refusal :=
  .next (sSlot .selvedge t c f s)

/-- PUBLISH_BROADCAST_WORD (R288). -/
def execPublishWord (t : TileIx) (c : Nat) (f : SSlot) (s : State) : Host.Outcome State Fault Refusal :=
  .next (sSlot .publish t c f s)

/-! ## Arrivals -/

/-- The row that a landing of tile `t` names: 0 where its window is closed or the offset lies past it. -/
def landAddr (s : State) (t : Nat) (h : LandHdr) : Nat :=
  let w := windowAt (tileAt s t) h.window
  if w.opened && h.woff < w.rows then w.first + h.woff else 0

/-- SIDE_LINK_LANDING (R208): the proof word is checked, fault 0x4001 on a mismatch; a sound row enters the landing
queue at the side it came from. -/
def execSideLanding (t : TileIx) (c : Nat) (from_ : LandIn) (window : BitVec 8) (woff : BitVec 7) (row : RowFrame)
    (s : State) : Host.Outcome State Fault Refusal :=
  let hdr : LandHdr := { window := window.toNat, woff := woff.toNat, seq := 0, landSp := 0 }
  .next (if !issuing s then s
    else if proofOk row then netArrive t.val c from_ none hdr row s
    else raiseFault 0x4001 (tileSite t.val (landAddr s t.val hdr) 0 window.toNat) s)

/-- Where a fault of a tile's router arose (R336): routers have no index. -/
def routerSite (t : TileIx) (addr detail : Nat) : FaultSite :=
  { unitSite 1 (dieOf t.val).val 0 detail with addr := BitVec.ofNat 32 addr, router := some t }

/-- Where a bridge port's fault is recorded: the lower die of its pair, of the pairs C0–C1, C2–C3, C0–C2, C1–C3; the index
is the port's number (R336), the pair is the detail. -/
def portSite (pair port : Nat) : FaultSite := unitSite 1 (if pair = 1 then 2 else if pair = 3 then 1 else 0) port pair

/-- What the CRC checks on a packet's way have found (R213): fault 0x4002 of the router or bridge port. -/
def flitFault (chk : FlitCheck) (s : State) : State :=
  match chk with
  | .good => s
  | .router t => raiseFault 0x4002 (routerSite t 0 0) (bump 0x4000 0x13 1 s)
  | .port pair port => raiseFault 0x4002 (portSite pair.val port.val) (bump 0x4000 0x13 1 s)

/-- MESH_EJECTION (R212): a flit check failure on the way is fault 0x4002, a bad header 0x4003 (R210), a proof mismatch of
a row frame 0x4001 (R213); a sound class S row has been held for its pad and enters the landing queue; so does a class B
row frame, which is a background write of a module's own (R121). -/
def execMeshEjection (t : TileIx) (c : Nat) (h : Route) (row : RowFrame) (crc : FlitCheck) (s : State) :
    Host.Outcome State Fault Refusal :=
  let hdr : LandHdr := { window := h.window.toNat, woff := h.woff.toNat, seq := 0, landSp := 0 }
  .next (if !issuing s then s
    else if crc ≠ .good then flitFault crc s
    else if !routeOk h then raiseFault 0x4003 (routerSite t 0 h.kind.toNat) s
    else if h.kind ≠ 0 then s
    else if !proofOk row then raiseFault 0x4001 (routerSite t (landAddr s t.val hdr) h.window.toNat) s
    else if h.classB then arrive t.val .mesh
      { hdr := hdr, row := row, back := some { gen := h.gen, sender := ownCoord s, ref := 0 }, port := none, since := c } s
    else netArrive t.val c .mesh (some (24 * h.sy.toNat + h.sx.toNat)) hdr row s)

/-! ## Class B (R219, R221) -/

/-- The first packet of a die's injection points that may go: by level, and within a level the first whose activity has
not spent its budget (R219, R221). -/
def injectLevels (d : Nat) (s : State) : List Nat → Option (Nat × Nat × WaitB)
  | [] => none
  | v :: r =>
    let k := 3 * d + v
    let queue := s.net.waiting.getD k []
    match queue.findIdx? fun w => !isSpent s d w.act with
    | none => injectLevels d s r
    | some i => match queue[i]? with
      | none => none
      | some w => some (k, i, w)

/-- The packet goes on its way. -/
def injectNext (d : Nat) (s : State) : State :=
  match injectLevels d s [0, 1, 2] with
  | none => s
  | some (k, i, w) => departAll d w { s with net := { s.net with
      waiting := s.net.waiting.set k ((s.net.waiting.getD k []).eraseIdx i) } }

/-- Background writes that have reached a tile stand at its mesh input (R90, R91), where they arrive after the mesh latency
of their way. -/
def takeLandings (s : State) : State :=
  s.net.arrived.foldl (fun s o => match o with
    | .landing t h r => arrive t .mesh
        { r with since := cycleNow s + meshLat (profile s) (24 * h.sy.toNat + h.sx.toNat) t } s
    | _ => s) { s with net := { s.net with arrived := s.net.arrived.filter fun o => match o with
      | .landing _ _ _ => false
      | _ => true } }

/-- Rows of staging writes that have reached their column are written as background accesses (R297). -/
def takeStaging (s : State) : State :=
  s.net.arrived.foldl (fun s o => match o with
    | .stagingIn _ _ a f => backStore a f s
    | _ => s) { s with net := { s.net with arrived := s.net.arrived.filter fun o => match o with
      | .stagingIn _ _ _ _ => false
      | _ => true } }

/-! ## Bridges -/

/-- BRIDGE_PORT_FAILURE (R216): fault 0x4005 during a job; the port is marked, and a reserve port replaces it at S10 of
the next start (R348). -/
def execBridgePortFailure (pair : Fin 4) (port : Fin 34) (s : State) : Host.Outcome State Fault Refusal :=
  .next (if s.job then raiseFault 0x4005 (portSite pair.val port.val)
      (if s.integrity.markPorts.contains (pair.val, port.val) then s else
        tableWrite { s with integrity := { s.integrity with
          markPorts := s.integrity.markPorts ++ [(pair.val, port.val)] } })
    else s)

end Sys2Proof.Machine
end

