-- ==== Sys2Proof/Machine/Hold.lean ====
section
/-! DEFINITION. The hold unit (R33 to R42, R222) and the pace (R46 to R48), and what a boundary decides of both. -/

namespace Sys2Proof.Machine

/-! ## Pick counts of 32 bits (R42) -/

/-- The pick count nearest to `ref` whose low 32 bits are `low`. -/
def nearest (ref low : Nat) : Nat :=
  let base := ref / 2 ^ 32 * 2 ^ 32 + low
  if ref + 2 ^ 31 ≤ base then base - 2 ^ 32 else if base + 2 ^ 31 ≤ ref then base + 2 ^ 32 else base

/-- The code of a sender and kind in the sequence table. -/
def seqKey (c : Coord) (k : CwKind) : Nat :=
  4 * coordNat c + (match k with | .hold => 0 | .release => 1 | .pace => 2)

/-- Whether a control word's sequence is the expected one (R42). -/
def seqOk (k : CwKind) (w : ControlWord) (s : State) : Bool := mget 0 s.hold.seqs (seqKey w.sender k) == w.seq.toNat

/-- The expected sequence moves on. -/
def seqNext (k : CwKind) (w : ControlWord) (s : State) : State :=
  { s with hold := { s.hold with seqs := mset 0 s.hold.seqs (seqKey w.sender k) ((w.seq.toNat + 1) % 65536) } }

/-- A fault of the hold unit. -/
def holdFault (code detail : Nat) (s : State) : State := raiseFault code (unitSite 4 0 0 (detail % 2 ^ 18)) s

/-- Whether the hold unit takes part: a job runs and no safe stop has begun (R340). -/
def holdLive (s : State) : Bool := s.job && !s.integrity.stopLine

/-! ## Reception -/

/-- Whether request (p, class, index) goes before another (R222). -/
def firstBefore (a b : Nat × Coord × BitVec 4 × BitVec 10 × BitVec 8) : Bool :=
  decide (a.1 < b.1) || a.1 == b.1 && (decide (a.2.2.1 < b.2.2.1) ||
    a.2.2.1 == b.2.2.1 && decide (a.2.2.2.1 < b.2.2.2.1))

/-- The first request of the pending hold once a HOLD with stop pick `st` has arrived. -/
def holdFirst (h : Hold) (st p : Nat) (w : ControlWord) : Option (Nat × Coord × BitVec 4 × BitVec 10 × BitVec 8) :=
  let new := (p, w.sender, w.ocls, w.oidx, w.reason)
  match h.stop, h.first with
  | some s0, some f => if st < s0 || st = s0 && firstBefore new f then some new else some f
  | _, _ => some new

/-- Whether the scan summary of an admission pick and all records it counts have landed (R45). -/
def admitComplete (s : State) (a : Nat) : Bool :=
  match s.treadle.admits.find? (·.admSp == a) with
  | none => false
  | some x => match x.summary with
    | none => false
    | some n => decide (n.1 ≤ x.graphs ∧ n.2 ≤ x.notices)

/-- The hold unit takes a HOLD with stop pick `st` for a request of SP `p` (R34, R40, R45, R48): the stop pick is the
smallest pending one, RELEASE waits for the records of an incomplete admission, an emergency's argument is kept. -/
def takeHold (w : ControlWord) (st p : Nat) (s : State) : State :=
  { s with hold := { s.hold with
      first := holdFirst s.hold st p w
      stop := some (match s.hold.stop with | none => st | some x => min x st)
      awaited := if w.reason = 4 && !admitComplete s (st - admitHorizon s) then
        s.hold.awaited ++ [.records (st - admitHorizon s)] else s.hold.awaited
      emergency := if w.reason = 5 then s.hold.emergency ++ [(w.sender, w.arg.toNat)] else s.hold.emergency } }

/-- The hold unit takes a RELEASE sent in time pick `tp` (R38): the slice resumes no earlier than H + 1 picks later. -/
def takeRelease (tp : Nat) (s : State) : State :=
  { s with hold := { s.hold with seen := s.hold.seen + 1, resume := max s.hold.resume (tp + horizon s + 1) } }

/-- The hold unit takes a PACE with effect SP `e` (R46). -/
def takePace (w : ControlWord) (e : Nat) (s : State) : State :=
  { s with hold := { s.hold with
      paces := s.hold.paces ++ [{ effect := e, sender := some w.sender, value := w.arg.toNat }] } }

/-- A HOLD word reaches the hold unit: too late is fault 0x5001 (R34), out of sequence 0x5003 (R42). -/
def onHold (w : ControlWord) (s : State) : State :=
  let st := nearest s.sp w.pick.toNat
  if !holdLive s then s
  else if st ≤ s.sp then holdFault 0x5001 st s
  else if !seqOk .hold w s then holdFault 0x5003 w.seq.toNat s
  else takeHold w st (nearest s.sp w.stamp.toNat) (seqNext .hold w s)

/-- A RELEASE word reaches the hold unit (R38): for an unknown stop pick or out of sequence it is fault 0x5003. -/
def onRelease (w : ControlWord) (s : State) : State :=
  if !holdLive s then s
  else if s.hold.stop ≠ some (nearest s.sp w.pick.toNat) || !seqOk .release w s then holdFault 0x5003 w.seq.toNat s
  else takeRelease (nearest s.tp w.stamp.toNat) (seqNext .release w s)

/-- A PACE word reaches the hold unit (R46): after its effect SP it is fault 0x5005. -/
def onPace (w : ControlWord) (s : State) : State :=
  let e := nearest s.sp w.pick.toNat
  if !holdLive s then s
  else if !seqOk .pace w s then holdFault 0x5003 w.seq.toNat s
  else if e ≤ s.sp then holdFault 0x5005 e s
  else takePace w e (seqNext .pace w s)

/-- Control words that have reached the hold unit through the mesh. -/
def takeWords (s : State) : State :=
  s.net.arrived.foldl (fun s o => match o with
    | .wordIn .hold w => onHold w s
    | .wordIn .release w => onRelease w s
    | .wordIn .pace w => onPace w s
    | _ => s) { s with net := { s.net with arrived := s.net.arrived.filter fun o => match o with
      | .wordIn _ _ => false
      | _ => true } }

/-- A received control word goes from the port's router to the hold unit and on its tree (R245), as a control flit of the
die it entered, against whose budget it counts (R221). -/
def enterWord (k : CwKind) (tr : Travel) (w : ControlWord) (s : State) : State :=
  takeWords (inject (arrivalDie s tr) 1 1
    (.wordIn k w :: (relayCopies s tr).map fun c => .controlWord c.1 k c.2 w) s)

/-- HOLD (R40). -/
def execHold (tr : Travel) (w : ControlWord) (s : State) : Host.Outcome State Fault Refusal :=
  .next (enterWord .hold tr w s)

/-- RELEASE (R38). -/
def execRelease (tr : Travel) (w : ControlWord) (s : State) : Host.Outcome State Fault Refusal :=
  .next (enterWord .release tr w s)

/-- PACE (R46). -/
def execPace (tr : Travel) (w : ControlWord) (s : State) : Host.Outcome State Fault Refusal :=
  .next (enterWord .pace tr w s)

/-! ## Sending -/

/-- The module's own next sequence of a kind. -/
def ownSeq (s : State) (k : CwKind) : Nat := mget 0 s.hold.own (seqKey { x := 0, y := 0, z := 0 } k)

/-- The module sends a control word to every module of the slice (R37, R245), which counts against C0's control budget
(R221); its own hold unit takes it at once, a HOLD too late as fault 0x5001. -/
def sendWord (k : CwKind) (reason : BitVec 8) (ocls : BitVec 4) (oidx arg : BitVec 10) (pick stamp : Nat) (s : State) :
    State :=
  let q := ownSeq s k
  let w : ControlWord := { sender := ownCoord s, seq := BitVec.ofNat 16 q, reason := reason, ocls := ocls, oidx := oidx,
                           arg := arg, pick := BitVec.ofNat 32 pick, stamp := BitVec.ofNat 32 stamp }
  let s1 := { s with hold := { s.hold with
    own := mset 0 s.hold.own (seqKey { x := 0, y := 0, z := 0 } k) ((q + 1) % 65536) } }
  let s2 := sendCopies 0 (originCopies s) k w s1
  match k with
  | .hold => if pick ≤ s2.sp then holdFault 0x5001 pick s2 else takeHold w pick stamp s2
  | .release => takeRelease stamp s2
  | .pace => takePace w pick s2

/-- Two hold requests that meet at a router output (R222). -/
def combineReq (a b : HoldReq) : HoldReq :=
  let keep := if b.sp < a.sp || b.sp = a.sp && (b.ocls < a.ocls || b.ocls = a.ocls && b.oidx < a.oidx) then b else a
  { keep with count := min 1023 (a.count + b.count) }

/-- The argument of the HOLD that a request makes: the count for the treadle and the power controller, otherwise 0. -/
def reqArg (r : HoldReq) : Nat := if r.reason = 4 || r.reason = 5 then r.count else 0

/-- The rows that operations of a tile await and that have not landed (R31). -/
def Tile.awaitedRows (t : Tile) : List Nat :=
  (t.pipe.flatMap fun p => (p.reads.filter fun r => r.await && r.val.isNone).map (·.addr)).eraseDups

/-- The tile that an origin index names (R42). -/
def requestTile (oidx : BitVec 10) : Nat := 24 * (oidx.toNat % 32) + oidx.toNat / 32

/-- The items for which a request with reason 0x01 or 0x02 of a unit is: those that the unit expects by then and, of a
tile, the rows that its operations await. -/
def requestItems (s : State) (r : HoldReq) : List Awaited :=
  if r.reason = 1 || r.reason = 2 then
    (s.hold.expected.filter fun e => e.ocls == r.ocls && e.oidx == r.oidx && decide (e.land ≤ r.sp)).map (·.item)
      ++ (if r.ocls = 0 then (tileAt s (requestTile r.oidx)).awaitedRows.map .row else [])
  else []

/-- The release waits for the items of a request too (R37, R40). -/
def awaitItems (xs : List Awaited) (s : State) : State :=
  { s with hold := { s.hold with
      awaited := s.hold.awaited ++ (xs.filter fun x => !s.hold.awaited.contains x).eraseDups } }

/-- A hold request reaches the hold unit (R34): a HOLD with stop pick p + 1 + H is sent, one that joins a pending hold
as well, since its argument concerns every module; the release waits for its items (R37, R40). -/
def takeRequest (r : HoldReq) (s : State) : State :=
  if !holdLive s then s
  else sendWord .hold r.reason r.ocls r.oidx (BitVec.ofNat 10 (reqArg r)) (r.sp + 1 + horizon s) r.sp
    (awaitItems (requestItems s r) s)

/-- A hold request reaches a router output that may queue one already (R222). -/
def queueRequest (out : Nat) (r : HoldReq) (s : State) : State :=
  match s.hold.routers.lookup out with
  | none => { s with hold := { s.hold with routers := mput s.hold.routers out r } }
  | some q => bump 0x4000 0x11 1 { s with hold := { s.hold with
      routers := mput s.hold.routers out (combineReq q r) } }

/-- A request that arrives further on has left the output that queued it. -/
def leaveOutput (r : HoldReq) (s : State) : State :=
  { s with hold := { s.hold with routers := s.hold.routers.filter (·.2 != r) } }

/-- HOLD_REQUEST (R34): at the hold unit, or at the router output named. -/
def execHoldRequest (r : HoldReq) (router : Option Nat) (s : State) : Host.Outcome State Fault Refusal :=
  .next (match router with
    | none => takeRequest r (leaveOutput r s)
    | some o => queueRequest o r (leaveOutput r s))

/-- Whether all regions of the module have arrived at the stop pick (R37). -/
def allArrived (s : State) : Bool := s.tiles.all fun t => !t.2.seq.running || t.2.seq.waiting

/-- Whether every item that the module awaits has landed (R37, R45, R48). -/
def ownLanded (s : State) : Bool := s.hold.awaited.isEmpty

/-- The module sends its RELEASE once both conditions of R37 hold. -/
def tryRelease (s : State) : State :=
  if holdLive s && s.hold.held && !s.hold.sent && allArrived s && ownLanded s then
    match s.hold.stop with
    | none => s
    | some st =>
      sendWord .release 0 0 0 0 st s.tp { s with hold := { s.hold with sent := true } }
  else s

/-- SEND_RELEASE (R37). -/
def execSendRelease (s : State) : Host.Outcome State Fault Refusal := .next (tryRelease s)

/-- HOLD_LIMIT_EXPIRY (R37): a slice held longer than 0x4300:07 is fault 0x5002. -/
def execHoldLimitExpiry (s : State) : Host.Outcome State Fault Refusal :=
  .next (if holdLive s && s.hold.held && decide (objGet s 0x4300 7 < s.tp - s.hold.stopTp)
    then holdFault 0x5002 (s.tp - s.hold.stopTp) s else s)

/-! ## The pace (R46 to R48) -/

/-- The pace in force from its parts: the larger of the floor and the largest throttle request (R46). -/
def paceOf (s : State) : Nat := (s.hold.throttle.map (·.2)).foldl max (objGet s 0x4300 3)

/-- The throttle request of a module recorded. -/
def setThrottle (c : Coord) (v : Nat) (s : State) : State :=
  let s1 := { s with hold := { s.hold with throttle := mset 0 s.hold.throttle (coordNat c) v } }
  if c = ownCoord s then objSet 0x4300 5 v s1 else s1

/-- Pace changes whose effect SP begins (R46, R47). -/
def applyPaces (s : State) : State :=
  let due := s.hold.paces.filter (·.effect ≤ s.sp)
  let s1 := { s with hold := { s.hold with paces := s.hold.paces.filter (s.sp < ·.effect) } }
  let s2 := due.foldl (fun s p => match p.sender with
    | some c => setThrottle c p.value s
    | none => objSet 0x4300 3 p.value s) s1
  objSet 0x4300 1 (paceOf s2) s2

/-! ## What a boundary decides (R28, R38) -/

/-- The module events of a completed hold, by the class and the module of its first request. -/
def countHold (s : State) : State :=
  match s.hold.first with
  | none => s
  | some (_, c, cls, _, _) =>
    let s1 := if cls.toNat ≤ 6 then countModule (4 + cls.toNat) 1 s else s
    if c = ownCoord s then countModule 0xB 1 s1 else s1

/-- The hold ends and SP s begins at time pick `tp` (R38, R48): emergency arguments become throttle requests, which a
PACE of the sender from before the stop does not take back (log 109). -/
def resumeHold (tp : Nat) (s : State) : State :=
  let h := s.hold
  let s1 := objSet 0x4300 0x10 (h.stop.getD 0) (objSet 0x4300 0x13 tp (bump 0x4300 0xA 1 (countModule 3 1 (countHold s))))
  let s2 := match h.first with
    | none => s1
    | some (_, c, cls, idx, r) =>
      objSet 0x4300 0x12 r.toNat (objSet 0x4300 0x11 (coordNat c * 2 ^ 20 + cls.toNat * 2 ^ 16 + idx.toNat * 64) s1)
  let s3 := h.emergency.foldl (fun s e => setThrottle e.1 e.2 s) s2
  let own := h.emergency.any (·.1 == ownCoord s)
  { s3 with
    hold := { s3.hold with
      held := false, sent := false, seen := 0, stop := none, resume := 0, first := none, emergency := []
      paces := s3.hold.paces.filter fun p => !h.emergency.any fun e => some e.1 == p.sender }
    power := if own then { s3.power with lastEmerg := h.stop } else s3.power }

/-- Whether the slice is held in the time pick that begins (the manual's sketch): the pending stop pick is next, or the
hold goes on; at the resume pick it ends. -/
def decideHold (tp : Nat) (s : State) : State :=
  let s1 := if !s.hold.held && s.hold.stop = some (s.sp + 1)
    then { s with hold := { s.hold with held := true, stopTp := tp } } else s
  if s1.hold.held && s1.hold.seen = objGet s1 0x4300 6 && s1.hold.resume = tp then resumeHold tp s1 else s1

end Sys2Proof.Machine
end

