-- ==== Sys2Proof/Machine/Sha.lean ====
section
/-! DEFINITION. The hash functions that the manual names: SHA-256 and SHA-384 of FIPS 180-4, HMAC of RFC 2104. -/

namespace Sys2Proof.Machine

/-- Whether a number of at least 2 has no divisor from 2 to `k + 1`. -/
def noDivisor (n : Nat) : Nat → Bool
  | 0 => true
  | k + 1 => n % (k + 2) != 0 && noDivisor n k

/-- The primes below 410, of which there are 80. -/
def smallPrimes : List Nat := ((List.range 410).drop 2).filter fun n => noDivisor n (n - 2)

/-- The largest number below `r + 2 ^ i` whose `n`-th power is at most `x`, where `r` is known to be one. -/
def rootBits (n x : Nat) : Nat → Nat → Nat
  | 0, r => r
  | i + 1, r => rootBits n x i (if (r + 2 ^ i) ^ n ≤ x then r + 2 ^ i else r)

/-- The first 64 bits of the fraction of the `n`-th root of `q`. -/
def rootFraction (n q : Nat) : Nat := rootBits n (q * 2 ^ (64 * n)) 70 0 % 2 ^ 64

/-- The 80 round constants of SHA-384: fractions of the cube roots of the first 80 primes; those of SHA-256 are the
upper halves of the first 64. -/
def shaK : List Nat := smallPrimes.map (rootFraction 3)

/-- Fractions of the square roots of the first 16 primes: SHA-256 starts from the upper halves of the first 8, SHA-384
from the last 8. -/
def shaH : List Nat := (smallPrimes.take 16).map (rootFraction 2)

/-- A list of words with its element 0 past the end. -/
def word (w : Nat) (l : List (BitVec w)) (i : Nat) : BitVec w := l.getD i 0

/-- What tells SHA-256 and SHA-384 apart: the word width, the rounds, the rotations of Σ₀, Σ₁, σ₀ and σ₁. -/
structure ShaParams where
  w      : Nat
  rounds : Nat
  s0     : Nat × Nat × Nat
  s1     : Nat × Nat × Nat
  g0     : Nat × Nat × Nat
  g1     : Nat × Nat × Nat

def sha256Params : ShaParams where
  w := 32
  rounds := 64
  s0 := (2, 13, 22)
  s1 := (6, 11, 25)
  g0 := (7, 18, 3)
  g1 := (17, 19, 10)

def sha384Params : ShaParams where
  w := 64
  rounds := 80
  s0 := (28, 34, 39)
  s1 := (14, 18, 41)
  g0 := (1, 8, 7)
  g1 := (19, 61, 6)

/-- Σ of three rotations. -/
def bigSigma {w : Nat} (r : Nat × Nat × Nat) (x : BitVec w) : BitVec w :=
  [r.2.1, r.2.2].foldl (fun y n => y ^^^ x.rotateRight n) (x.rotateRight r.1)

/-- σ of two rotations and a shift. -/
def smallSigma {w : Nat} (r : Nat × Nat × Nat) (x : BitVec w) : BitVec w :=
  (x >>> r.2.2) ^^^ x.rotateRight r.2.1 ^^^ x.rotateRight r.1

/-- The message schedule, newest word first, `k` words more. -/
def shaExpand (p : ShaParams) : Nat → List (BitVec p.w) → List (BitVec p.w)
  | 0, l => l
  | k + 1, l =>
    shaExpand p k ((smallSigma p.g1 (word p.w l 1) + word p.w l 6 + smallSigma p.g0 (word p.w l 14) + word p.w l 15) :: l)

/-- The working variables: `hi` holds a to d and `lo` holds e to h, each newest first. -/
structure ShaVars (w : Nat) where
  hi : List (BitVec w)
  lo : List (BitVec w)

/-- The bits of `y` where `x` is set, of `z` elsewhere. -/
def shaChoose {w : Nat} (x y z : BitVec w) : BitVec w := z ^^^ (x &&& (y ^^^ z))

/-- The value of two or more of three bits. -/
def shaMajority {w : Nat} (x y z : BitVec w) : BitVec w := (x &&& (y ||| z)) ||| (y &&& z)

/-- One round; `k` is the sum of its constant and its schedule word. -/
def shaRound (p : ShaParams) (v : ShaVars p.w) (k : BitVec p.w) : ShaVars p.w :=
  let lo := word p.w v.lo
  let hi := word p.w v.hi
  let sum := k + lo 3 + shaChoose (lo 0) (lo 1) (lo 2) + bigSigma p.s1 (lo 0)
  { hi := (sum + shaMajority (hi 0) (hi 1) (hi 2) + bigSigma p.s0 (hi 0)) :: (List.range 3).map hi
    lo := (sum + hi 3) :: (List.range 3).map lo }

/-- The rounds of one block over a chaining value of eight words. -/
def shaRounds (p : ShaParams) (ks v : List (BitVec p.w)) : List (BitVec p.w) :=
  let r := ks.foldl (shaRound p) { hi := v.take 4, lo := v.drop 4 }
  (List.range 4).map (word p.w r.hi) ++ (List.range 4).map (word p.w r.lo)

/-- The round constants of a width. -/
def shaConsts (p : ShaParams) : List (BitVec p.w) :=
  (shaK.take p.rounds).map fun k => BitVec.ofNat p.w (k / 2 ^ (64 - p.w))

/-- One block taken into the chaining value. -/
def shaBlock (p : ShaParams) (v : List (BitVec p.w)) (block : Bytes) : List (BitVec p.w) :=
  let n := p.w / 8
  let ms := (List.range 16).map fun i => BitVec.ofNat p.w (beNat (slice block (n * i) n))
  let sched := (shaExpand p (p.rounds - 16) ms.reverse).reverse
  List.zipWith (· + ·) v (shaRounds p (List.zipWith (· + ·) (shaConsts p) sched) v)

/-- A message padded to whole blocks of 16 words. -/
def shaPad (p : ShaParams) (m : Bytes) : Bytes :=
  let b := 2 * p.w
  let l := p.w / 4
  m ++ [0x80#8] ++ zeros ((b - (m.length + 1 + l) % b) % b) ++ beBytes l (8 * m.length)

/-- All blocks of a padded message. -/
def shaBlocks (p : ShaParams) : Nat → Bytes → List (BitVec p.w) → List (BitVec p.w)
  | 0, _, v => v
  | k + 1, m, v => shaBlocks p k (m.drop (2 * p.w)) (shaBlock p v (m.take (2 * p.w)))

/-- A hash from its starting value: `n` bytes of the final chaining value. -/
def shaHash (p : ShaParams) (start : List (BitVec p.w)) (n : Nat) (m : Bytes) : Bytes :=
  let q := shaPad p m
  ((shaBlocks p (q.length / (2 * p.w)) q start).flatMap fun x => beBytes (p.w / 8) x.toNat).take n

/-- SHA-256. -/
def sha256 (m : Bytes) : Bytes :=
  shaHash sha256Params ((shaH.take 8).map fun h => BitVec.ofNat 32 (h / 2 ^ 32)) 32 m

/-- SHA-384. -/
def sha384 (m : Bytes) : Bytes := shaHash sha384Params ((shaH.drop 8).map fun h => BitVec.ofNat 64 h) 48 m

/-- HMAC of a hash with block length `b`. -/
def hmac (h : Bytes → Bytes) (b : Nat) (key m : Bytes) : Bytes :=
  let k := slice (if b < key.length then h key else key) 0 b
  h (k.map (· ^^^ 0x5C#8) ++ h (k.map (· ^^^ 0x36#8) ++ m))

/-- HMAC-SHA-384 and HMAC-SHA-256. -/
def hmacSha384 (key m : Bytes) : Bytes := hmac sha384 128 key m
def hmacSha256 (key m : Bytes) : Bytes := hmac sha256 64 key m

end Sys2Proof.Machine
end

