-- ==== Sys2Proof/Machine/LinkSend.lean ====
section
/-! DEFINITION. What a Slaold link sends: pick layout (R225, R226, R251), frame and symbol encodings (R227, R229),
hand-off, forwarding and claims (R232 to R236), retransmission (R240), class B (R243), sealing (R368). -/

namespace Sys2Proof.Machine

/-! ## Pick layout -/

/-- Positions of a pick, and the reserve slot: full width, degraded. -/
def positions (full : Bool) : Nat := if full then 15 else 11
def reserveSlot (full : Bool) : Nat := if full then 7 else 5

/-- The position of a scheduled slot (R226). -/
def slotPosition (slot : Nat) : Nat := if slot < 7 then slot else slot + 1

/-- The scheduled slot of a position. -/
def positionSlot (pos : Nat) : Nat := if pos < 7 then pos else pos - 1

/-- Start of a position after the boundary, in picoseconds (R225, R251). -/
def positionPs (full : Bool) (pos : Nat) : Nat := if full then 2589 + 5161 * pos else 3095 + 6881 * pos

/-- Whether a position has not begun at the tick of the time base. -/
def notBegun (s : State) (full : Bool) (pos : Nat) : Bool := (s.tick - s.boundary) * 1250 ≤ positionPs full pos

/-- The cycles from the boundary to a position of a full link. -/
def positionCycles (s : State) (pos : Nat) : Nat :=
  positionPs true pos * (match s.ident.grade with | .A => 17 | .B => 15) / 10000

/-! ## Encodings -/

/-- The code of a frame kind. -/
def frameCode : FrameKind → Nat
  | .empty => 0 | .scheduled => 1 | .retransmission => 2 | .background => 3 | .backAck => 4 | .notice => 5 | .chain => 6

/-- Whether a kind is of class S. -/
def classS (k : FrameKind) : Bool := k == .scheduled || k == .retransmission

/-- The header of a frame (R227), as 24 little-endian bytes; its CRC lies in the lowest 32 bits. -/
def headerBytes (f : Frame) : Bytes :=
  let body := leBytes 20 (pack [(4, frameCode f.kind), (4, f.activity.toNat), (4, f.dest.x.toNat), (4, f.dest.y.toNat),
    (4, f.dest.z.toNat), (5, f.tx.toNat), (5, f.ty.toNat), (8, f.window.toNat), (7, f.woff.toNat), (3, 0),
    (16, f.gen.toNat), (32, f.landSp.toNat), (16, f.seq.toNat), (16, (f.retry.getD 0).toNat), (1, flag f.retry.isSome),
    (4, 0), (16, f.sendSp.toNat), (11, 0)])
  leBytes 4 (crc32c body).toNat ++ body

/-- A symbol (R229): header and payload. -/
def symbolBytes (type dir hops : Nat) (retry : Option Nat) (payload : Bytes) : Bytes :=
  leBytes 4 (pack [(4, type), (3, dir), (4, hops), (4, 0), (1, flag retry.isSome), (16, retry.getD 0)])
    ++ slice payload 0 16

/-- The payload of a TIME symbol (R229): subkind, turnaround, time counter value. -/
def timePayload (subkind turnaround value : Nat) : Bytes :=
  leBytes 16 (pack [(8, subkind), (24, turnaround), (32, 0), (64, value)])

/-- The payload of a FAULT symbol. -/
def faultPayload (code : BitVec 16) (origin : Coord) (stamp : Nat) : Bytes :=
  leBytes 16 (pack [(16, code.toNat), (12, coordNat origin), (36, 0), (64, stamp)])

/-- The payload of a COORD symbol. -/
def coordPayload (c : Coord) (link dir rank stepping : Nat) : Bytes :=
  leBytes 16 (pack [(12, coordNat c), (6, link), (3, dir), (3, rank), (8, stepping), (96, 0)])

/-- The bytes of a waiting symbol. -/
def outSymbol : Output → Bytes
  | .controlWord _ k tr w =>
    symbolBytes (if k = .release then 2 else 1) tr.dir.toNat tr.hops.toNat none (leBytes 16 (encodeCw k w))
  | .faultSymbol _ code origin stamp => symbolBytes 4 7 0 none (faultPayload code origin stamp)
  | .symbol _ type payload => symbolBytes type 7 0 none payload
  | _ => symbolBytes 0 7 0 none []

/-- The sequence of a frame sent at a position in a time pick. -/
def frameSeq (tp pos : Nat) : BitVec 16 := BitVec.ofNat 16 (tp % 4096 * 16 + pos)

/-- An empty frame. -/
def emptyFrame (tp pos : Nat) : Frame where
  kind := .empty
  activity := 0
  dest := { x := 0, y := 0, z := 0 }
  tx := 0
  ty := 0
  window := 0
  woff := 0
  gen := 0
  landSp := 0
  seq := frameSeq tp pos
  retry := none
  sendSp := 0
  row := { data := zeros 512, tag := 0, proof := 0 }

/-- The two parts of a position's 544 bytes: 24 and 520. -/
def slotBytes : Slot → Bytes × Bytes
  | .frame f => (headerBytes f, frameBytes f.row)
  | .symbols b => (slice b 0 24, slice b 24 520)

/-! ## Sealing (R368) -/

/-- Coordinates as the 2 bytes of 0x4200:01. -/
def coordBytes (c : Coord) : Bytes := leBytes 2 (coordNat c)

/-- The key of a link's direction: of the module that sends and its link number. -/
def linkKeyOf (s : State) (sender : Coord) (link : Nat) : Bytes :=
  (hmacSha384 s.security.linkKey (ascii "LINK" ++ coordBytes sender ++ leBytes 1 link)).take 32

/-- The IV of a link's pick. -/
def linkIv (sender : Coord) (link tp : Nat) : Bytes := beBytes 12 (pack [(12, coordNat sender), (6, link), (14, 0), (64, tp)])

/-- The peer of a link (0x41nn:06, 0x41nn:07). -/
def peerCoord (s : State) (l : Nat) : Coord := coordOf (objGet s (0x4100 + l) 6)
def peerLink (s : State) (l : Nat) : Nat := objGet s (0x4100 + l) 7

/-- Whether the picks of a link are sealed. -/
def linkSealed (s : State) (l : Nat) : Bool := s.sealedJob && inSlice s (peerCoord s l)

/-- What a pick's positions carry, empty frames included. -/
def pickSlots (full : Bool) (tp : Nat) (used : List (Nat × Slot)) : List Slot :=
  (List.range (positions full)).map fun i => (used.lookup i).getD (.frame (emptyFrame tp i))

/-- The finished pick of a link leaves the seal engine: it is driven out, and its tag waits for the next control
block. -/
def finishPick (l : Nat) (s : State) : State :=
  let k := linkAt s l
  let fill := paceNow s - 64
  if k.block = [] then s
  else if linkSealed s l then
    let parts := (pickSlots (linkState s l == 2) s.tp k.used).map slotBytes
    let x := gcmSeal (linkKeyOf s (ownCoord s) l) (linkIv (ownCoord s) l s.tp) ((parts.map (·.1)).flatten ++ k.block)
      (parts.map (·.2)).flatten
    linkSet l { k with tag := x.2, block := [] } (emit (.linkPick l s.tp k.block x.1 fill) s)
  else linkSet l { k with tag := [], block := [] } (emit (.linkPick l s.tp k.block [] fill) s)

/-! ## Frames leave -/

/-- A frame is sent at a position of the time pick: it gets its sequence, is kept for retransmission (R240) and
counts. -/
def sendFrame (l pos : Nat) (f : Frame) (s : State) : State :=
  let k := linkAt s l
  let g := { f with seq := frameSeq s.tp pos }
  let kept : SentFrame := { tp := s.tp, seq := g.seq.toNat, frame := g }
  let s1 := linkSet l { k with
      used := k.used ++ [(pos, .frame g)]
      sent := (k.sent ++ [kept]).drop (k.sent.length + 1 - 255) }
    (emit (.linkFrame l pos g) s)
  match f.kind with
  | .scheduled | .retransmission => countLink l 0 1 s1
  | .empty => s1
  | _ => countLink l 1 1 (bump (0x4100 + l) 0x10 1 s1)

/-- Whether what came to a port in tick `a` is there when a position of the pick begins. -/
def inTime (s : State) (full : Bool) (pos a : Nat) : Bool := (a - s.boundary) * 1250 ≤ positionPs full pos

/-- Whether a late row is in the send buffer when a position of the pick begins (R234). -/
def rowThere (s : State) (pos : Nat) (h : Handed) : Bool :=
  h.late && (match h.ready with | none => false | some r => decide (r ≤ s.cycle0 + positionCycles s pos))

/-- A late row goes in a position; once every late row of its hand-off is gone the module no longer awaits it (R234). -/
def sendRow (l pos : Nat) (h : Handed) (s : State) : State :=
  let s1 := sendFrame l pos h.frame s
  let k := linkAt s1 l
  let rest := k.handed.erase h
  let s2 := linkSet l { k with handed := rest } s1
  if rest.any (fun x => x.late && x.sp == h.sp) then s2 else itemLanded (.handoff l h.sp) s2

/-- The first requested frame is resent in the reserve slot (R240): a scheduled row as kind 0x2 with its header, a class B
frame as its own kind. -/
def resendIn (l pos : Nat) (f : SentFrame) (rest : List (Nat × SentFrame)) (s : State) : State :=
  let k := linkAt s l
  let g := if classS f.frame.kind then { f.frame with kind := .retransmission } else f.frame
  countLink l 5 1 (bump (0x4100 + l) 0xB 1
    (linkSet l { k with resend := rest, used := k.used ++ [(pos, .frame g)] } (emit (.linkFrame l pos g) s)))

/-- Waiting symbols go in the reserve slot, up to 27 of those there as it begins (R226). -/
def symbolsIn (l pos : Nat) (ready : List (Nat × Output)) (s : State) : State :=
  let k := linkAt s l
  let b := slice (ready.map fun x => outSymbol x.2).flatten 0 544
  linkSet l { k with symbols := k.symbols.drop ready.length, used := k.used ++ [(pos, .symbols b)] } (emit (.linkSymbols l pos b) s)

/-- The waiting class B frame of highest level, in arrival order, of those there as a position begins (R243): its place. -/
def nextBulk (s : State) (full : Bool) (pos : Nat) (b : List (Nat × Bool × Frame)) : Option Nat :=
  (b.findIdx? fun x => x.2.1 && inTime s full pos x.1).or (b.findIdx? fun x => inTime s full pos x.1)

/-- A class B frame goes in a position. -/
def bulkIn (l pos : Nat) (s : State) : State :=
  let k := linkAt s l
  match nextBulk s (linkState s l == 2) pos k.bulk with
  | none => s
  | some i => match k.bulk[i]? with
    | none => s
    | some x => sendFrame l pos x.2.2 (linkSet l { k with bulk := k.bulk.eraseIdx i } s)

/-- The first retry request there as a position begins goes in the header of its frame, an empty frame's too (R240). -/
def retryIn (l pos : Nat) (s : State) : State :=
  let k := linkAt s l
  match k.retries.find? fun x => inTime s (linkState s l == 2) pos x.1 with
  | none => s
  | some x =>
    match (k.used.lookup pos).getD (.frame (emptyFrame s.tp pos)) with
    | .symbols _ => s
    | .frame f =>
      if f.retry.isSome then s
      else linkSet l { k with retries := k.retries.erase x
                              used := k.used.filter (·.1 != pos) ++
                                [(pos, .frame { f with retry := some (BitVec.ofNat 16 x.2) })] } s

/-- A position of a link's pick begins: what has no class S frame yet takes, in the reserve slot, a retransmission,
symbols or a class B frame (R226), elsewhere a late row or a class B frame (R234, R243). -/
def fillPosition (l : Nat) (s : State) (pos : Nat) : State :=
  let k := linkAt s l
  let full := linkState s l == 2
  if (k.used.lookup pos).isSome then retryIn l pos s
  else if pos = reserveSlot full then
    match k.resend.find? fun x => inTime s full pos x.1 with
    | some f => resendIn l pos f.2 (k.resend.erase f) s
    | none =>
      let ready := (k.symbols.takeWhile fun x => inTime s full pos x.1).take 27
      if ready.isEmpty then retryIn l pos (bulkIn l pos s) else symbolsIn l pos ready s
  else retryIn l pos (match (if full then k.handed.find? (rowThere s pos) else none) with
    | some h => sendRow l pos h s
    | none => bulkIn l pos s)

/-- The positions of a link's pick that have begun are filled. -/
def advanceLink (l : Nat) (s : State) : State :=
  if !linkUp s l then s
  else
    let full := linkState s l == 2
    ((List.range (positions full)).filter fun i => !notBegun s full i).foldl (fillPosition l) s

/-- A link's pick ends: all its positions have begun, and it leaves. -/
def closeLink (s : State) (l : Nat) : State :=
  if !linkUp s l then s
  else finishPick l ((List.range (positions (linkState s l == 2))).foldl (fillPosition l) s)

/-- The picks of all links end. -/
def closeLinks (s : State) : State := (List.range 36).foldl closeLink s

/-- The first position of a link's pick that is free and has not begun. -/
def freePosition (s : State) (l : Nat) : Option Nat :=
  let full := linkState s l == 2
  (List.range (positions full)).find? fun i =>
    i != reserveSlot full && notBegun s full i && ((linkAt s l).used.lookup i).isNone

/-- A late row whose frame is in the send buffer goes in the first free position (R234). -/
def sendLate (l : Nat) (h : Handed) (s0 : State) : State :=
  let s := advanceLink l s0
  match h.ready, freePosition s l with
  | some _, some pos => if (linkAt s l).handed.contains h then sendRow l pos h s else s
  | _, _ => s

/-- SELVEDGE_LATE_ROW (R234): the late row `row` of the port's list. -/
def execSelvedgeLateRow (link : LinkIx) (row : Nat) (s : State) : Host.Outcome State Fault Refusal :=
  .next (if !s.job then s else match ((linkAt s link.val).handed.filter (·.late))[row]? with
    | none => s
    | some h => sendLate link.val h s)

/-- Hold requests of a link's port for late hand-offs of SP `p`: one per hand-off (R234). -/
def lateHolds (l p : Nat) (late : List Handed) (s : State) : State :=
  let ids := (late.map fun h => (h.tile, h.issue)).eraseDups
  if ids.isEmpty then s else awaitItems [.handoff l p] (ids.foldl (fun s _ => linkHold l p 1 s) s)

/-- A row's class S claim is made in time: it is in the send buffer by the boundary, a forwarded frame by the start of
its position. -/
def onTime (s : State) (h : Handed) : Bool :=
  match h.ready with
  | none => false
  | some r => r ≤ s.cycle0 + (if h.tile = 768 then positionCycles s (slotPosition h.slot) else 0)

/-- The class S claims of a link in the SP that begins: conflicts, rows sent, late rows (R234, R235). -/
def sendScheduled (l : Nat) (s : State) : State :=
  let k := linkAt s l
  let mine := k.handed.filter fun h => h.sp + 1 == s.sp && !h.late
  let pos := mine.map fun h => slotPosition h.slot
  let clash := pos.eraseDups.length != pos.length || s.sp % 2 == 0 && mine.any (·.slot == 13)
  let good := mine.filter (onTime s)
  let late := mine.filter fun h => !onTime s h
  let s1 := linkSet l { k with
    handed := (k.handed.filter fun h => !good.contains h).map fun h => if late.contains h then { h with late := true } else h } s
  let s2 := good.foldl (fun s h =>
    if ((linkAt s l).used.lookup (slotPosition h.slot)).isSome then s else sendFrame l (slotPosition h.slot) h.frame s) s1
  let s3 := lateHolds l (s.sp - 1) late s2
  if clash then raiseFault 0x4016 (unitSite 3 (l / 9) l s.sp) s3 else s3

/-- The control block of a pick (R229): an IDLE symbol with a retry request and, sealed, the last pick's tag; then the
waiting symbols, then IDLE symbols. -/
def controlBlock (k : Link) : Bytes :=
  let first := symbolBytes 0 7 0 (k.retries.head?.map (·.2)) k.tag
  let rest := (k.symbols.take 7).map fun x => outSymbol x.2
  (first :: rest ++ List.replicate (7 - rest.length) (symbolBytes 0 7 0 none [])).flatten

/-- A link's pick begins (R225): `begun` tells that an SP begins with it; in a held pick, and outside a job, every
position is free. -/
def transmitLink (begun : Bool) (s : State) (l : Nat) : State :=
  if !linkUp s l then s
  else
    let k := linkAt s l
    let s1 := linkSet l { k with
      block := controlBlock k, used := [], retries := k.retries.drop 1, symbols := k.symbols.drop 7
      sent := k.sent.filter fun f => s.tp < f.tp + 17 } s
    if begun && linkState s l == 2 then sendScheduled l s1 else s1

/-- Every up link sends the pick that begins (R225). -/
def transmitAll (begun : Bool) (s : State) : State := (List.range 36).foldl (transmitLink begun) s

/-! ## Retransmission (R240) -/

/-- A retry request for sequence `seq` reaches the sender: within 17 time picks the frame is resent, otherwise fault
0x4013. A frame that left its position empty is resent as the empty frame it was. -/
def retryFor (l seq : Nat) (s0 : State) : State :=
  let s := advanceLink l s0
  let k := linkAt s l
  let age := (s.tp % 4096 + 4096 - seq / 16) % 4096
  if stopState s ≠ 0 then s
  else if 17 ≤ age || positions (linkState s l == 2) ≤ seq % 16 then raiseFault 0x4013 (unitSite 3 (l / 9) l seq) s
  else
    let f := match k.sent.find? (·.seq == seq) with
      | some x => x
      | none => { tp := s.tp - age, seq := seq, frame := emptyFrame (s.tp - age) (seq % 16) }
    let cs := classS f.frame.kind
    linkSet l { k with resend := if cs
      then k.resend.filter (classS ·.2.frame.kind) ++ [(s.tick, f)] ++ k.resend.filter (!classS ·.2.frame.kind)
      else k.resend ++ [(s.tick, f)] } s

/-- The first requested frame is resent in a reserve slot that carries nothing yet and has not begun. -/
def resendNext (l : Nat) (s0 : State) : State :=
  let s := advanceLink l s0
  let k := linkAt s l
  let full := linkState s l == 2
  match k.resend with
  | [] => s
  | f :: rest =>
    if !linkUp s l || (k.used.lookup (reserveSlot full)).isSome || !notBegun s full (reserveSlot full) then s
    else resendIn l (reserveSlot full) f.2 rest s

/-- RETRY_REQUEST (R240). -/
def execRetryRequest (link : LinkIx) (seq : BitVec 16) (s : State) : Host.Outcome State Fault Refusal :=
  .next (retryFor link.val seq.toNat s)

/-- RETRANSMISSION (R240). -/
def execRetransmission (link : LinkIx) (s : State) : Host.Outcome State Fault Refusal := .next (resendNext link.val s)

/-- A retry request of this module's receiver goes in the next header of its own direction, or in the next control
block (R240). -/
def requestRetry (l seq : Nat) (s0 : State) : State :=
  let s := advanceLink l s0
  let k := linkAt s l
  linkSet l { k with retries := k.retries ++ [(s.tick, seq)] } (emit (.retry l seq) s)

end Sys2Proof.Machine
end

