-- ==== Sys2Proof/Machine/Links.lean ====
section
/-! DEFINITION. What a Slaold link receives: class S frames and their landing queue (R228, R236 to R242), background
writes (R121, R122, R243), control blocks and IDLE symbols (R230, R369), FAULT symbols (R247). -/

namespace Sys2Proof.Machine

/-- A fault of a link port. -/
def linkFault (code l detail : Nat) (s : State) : State := raiseFault code (unitSite 3 (l / 9) l (detail % 2 ^ 18)) s

/-- Whether a link takes part: a job runs and no safe stop has come about (R340). -/
def linkLive (s : State) : Bool := s.job && stopState s == 0

/-- The measured delay dₘ of a link (0x41nn:04), and the assumed one dₐ of the pattern. -/
def measured (s : State) (l : Nat) : Nat := objGet s (0x4100 + l) 4
def assumed (s : State) (l : Nat) : Nat := match s.pattern with | none => 0 | some p => nat p.delays l

/-! ## Landing (R239) -/

/-- An item takes another's place in what the module awaits and expects. -/
def swapItem (i j : Awaited) (s : State) : State :=
  let put (x : Awaited) := if x = i then j else x
  { s with hold := { s.hold with
      awaited := s.hold.awaited.map put, expected := s.hold.expected.map fun x => { x with item := put x.item } } }

/-- A frame that the module awaits is a row of its tile once it has entered the mesh; one that no open window takes is
awaited no more. -/
def awaitRow (l t : Nat) (f : Frame) (s : State) : State :=
  let hdr : LandHdr := { window := f.window.toNat, woff := f.woff.toNat, seq := f.seq.toNat, landSp := f.landSp.toNat }
  let a := landAddr s t hdr
  if a = 0 then itemLanded (.frame l f.seq.toNat) s else swapItem (.frame l f.seq.toNat) (.row a) s

/-- A frame enters the mesh at its port's attach tile in cycle `c` and sets out for its tile's landing queue. -/
def releaseFrame (l c : Nat) (f : Frame) (s : State) : State :=
  let t := 24 * f.ty.toNat + f.tx.toNat
  let hdr : LandHdr := { window := f.window.toNat, woff := f.woff.toNat, seq := f.seq.toNat, landSp := f.landSp.toNat }
  if 24 ≤ f.tx.toNat then raiseFault 0x4003 (unitSite 1 (l / 9) 0 f.seq.toNat) s
  else
    let r := meshNetRow s (attachTile l) t c (padHops s (attachTile l) t) .selvedge hdr f.row
      (768 + l, f.seq.toNat) none
    netSend r (awaitRow l t f s)

/-- The landing SP of a frame. -/
def landingSp (s : State) (f : Frame) : Nat := nearest s.sp f.landSp.toNat

/-- The frames of a link's landing queue whose SP has begun, in position order. DESIGN CHOICE (log 112): each as the flits
of the one before have left. -/
def releaseDue (s : State) (l : Nat) : State :=
  let k := linkAt s l
  let due := (k.landing.filter fun f => landingSp s f ≤ s.sp).mergeSort fun a b => a.seq.toNat % 16 ≤ b.seq.toNat % 16
  if due = [] then s
  else
    let s1 := linkSet l { k with landing := k.landing.filter fun f => s.sp < landingSp s f } s
    due.zipIdx.foldl (fun s x => releaseFrame l (s.cycle0 + 9 * x.2) x.1 s) s1

/-- Every port releases the frames of the SP that begins. -/
def releaseAll (s : State) : State := (List.range 36).foldl releaseDue s

/-- The ticks from a frame's readiness to the end of its landing pick, 0 when that has passed (0x41nn:0D). -/
def landingSlack (s : State) (lsp : Nat) : Nat :=
  if lsp < s.sp then 0 else s.boundary + (lsp - s.sp + 1) * paceNow s - s.tick

/-! ## Forwarding (R236, R237) -/

/-- What a position that a class S frame of SP `t` claims carries already (R235): a frame of class S of that SP, or
something that gives way. -/
def claimed (s : State) (l pos t : Nat) : Bool :=
  match (linkAt s l).used.lookup pos with
  | some (.frame g) => classS g.kind && g.sendSp == BitVec.ofNat 16 t
  | _ => false

/-- A late row or class B frame that stands in a position not begun gives way to a class S frame and waits again. -/
def giveWay (l pos : Nat) (s : State) : State :=
  let k := linkAt s l
  let k1 := { k with used := k.used.filter (·.1 != pos) }
  match k.used.lookup pos with
  | some (.frame g) =>
    if classS g.kind then
      linkSet l { k1 with handed := { slot := 0, sp := s.sp - 1, tile := 768, issue := g.seq.toNat, woff := g.woff.toNat,
                                      ready := some s.cycle0, frame := g, late := true } :: k1.handed } s
    else if g.kind = .empty then linkSet l k1 s
    else linkSet l { k1 with bulk := (s.boundary, g.kind == .notice || g.kind == .backAck, g) :: k1.bulk } s
  | _ => s

/-- A frame for another module goes on its forward entry, in SP t + dₐ + 1, with every header field but the transmit SP
and the sequence kept. -/
def forwardFrame (l : Nat) (f : Frame) (s : State) : State :=
  let slot := positionSlot (f.seq.toNat % 16)
  let e := match s.pattern with
    | none => 0
    | some p => ((p.forwards.getD l []).getD slot 0).toNat
  if e < 2 ^ 15 then raiseFault 0x4012 (unitSite 2 (l / 9) 0 f.seq.toNat) s
  else
    let out := bits e 9 6
    let os := bits e 5 4
    let sp := s.sp / 2 ^ 16 * 2 ^ 16 + f.sendSp.toNat
    let t := (if sp + 2 ^ 15 ≤ s.sp then sp + 2 ^ 16 else if s.sp + 2 ^ 15 ≤ sp then sp - 2 ^ 16 else sp) + assumed s l + 1
    let at_ := cycleNow s + meshLat (profile s) (attachTile l) (attachTile out)
    let h : Handed := { slot := os, sp := t - 1, tile := 768, issue := f.seq.toNat, woff := f.woff.toNat,
                        ready := some at_, frame := { f with sendSp := BitVec.ofNat 16 t }, late := false }
    let s1 := advanceLink out (countLink out 8 1 (bump (0x4100 + out) 0x12 1 s))
    let k := linkAt s1 out
    if s1.sp < t then linkSet out { k with handed := k.handed ++ [h] } s1
    else if s1.sp = t && !s1.hold.held && onTime s1 h && notBegun s1 true (slotPosition os) then
      if claimed s1 out (slotPosition os) t || os = 13 && t % 2 = 0 then linkFault 0x4016 out s1.sp s1
      else sendFrame out (slotPosition os) h.frame (giveWay out (slotPosition os) s1)
    else lateHolds out (t - 1) [h] (linkSet out { k with handed := k.handed ++ [{ h with late := true }] } s1)

/-! ## Uncorrectable frames (R240 to R242) -/

/-- The retransmission cannot make the landing pick, or may not: hold request at once, or judgement at the end of its
landing pick; while the slice is held the module only awaits it. -/
def awaitFrame (l : Nat) (f : Frame) (s : State) : State :=
  let i : Awaited := .frame l f.seq.toNat
  let lsp := landingSp s f
  if s.hold.awaited.contains i then s
  else if s.hold.held then
    { s with hold := { s.hold with awaited := s.hold.awaited ++ [i], expected := s.hold.expected.filter (·.item != i) } }
  else if lsp < s.sp + 2 * measured s l + 1 then
    let s1 := { s with hold := { s.hold with
      awaited := s.hold.awaited ++ [i], expected := s.hold.expected.filter (·.item != i) } }
    bump (0x4100 + l) 0xC 1 (linkHold l s.sp 2 s1)
  else if s.hold.expected.any (·.item == i) then s
  else { s with hold := { s.hold with
    expected := s.hold.expected ++ [{ item := i, land := lsp, ocls := 3, oidx := BitVec.ofNat 10 l }] } }

/-- A frame of a link is uncorrectable, with `n` such codewords: it is requested again (R240), up to the retry limit
(R241). -/
def frameBad (l n seq : Nat) (s : State) : State :=
  let k := linkAt s l
  let times := mget 0 k.failures seq + 1
  let s1 := countLink l 4 1 (bump (0x4100 + l) 0xA n
    (linkSet l { k with failures := mset 0 k.failures seq times } s))
  if objGet s (0x4100 + l) 0xF < times then linkFault 0x4011 l seq s1 else requestRetry l seq s1

/-- The same of a class S frame, which the module then awaits (R241, R242). -/
def rowBad (l n : Nat) (f : Frame) (s : State) : State :=
  if objGet s (0x4100 + l) 0xF < mget 0 (linkAt s l).failures f.seq.toNat + 1 then frameBad l n f.seq.toNat s
  else awaitFrame l f (frameBad l n f.seq.toNat s)

/-- A sound frame: codewords corrected count, earlier failures of it are forgotten. -/
def frameGood (l n seq : Nat) (s : State) : State :=
  let s1 := countLink l 2 1 (countLink l 3 n (bump (0x4100 + l) 9 n s))
  let k := linkAt s1 l
  linkSet l { k with failures := mset 0 k.failures seq 0 } s1

/-- A frame of a kind that carries no row: a sound one is acted on, another is requested again (R227, R240). -/
def receive (rx : Recv) (act : State → State) (s : State) : State :=
  match rx.chk with
  | .bad n => frameBad rx.link.val n rx.seq.toNat s
  | .good n => act (frameGood rx.link.val n rx.seq.toNat s)

/-- A sound class S frame for this module: one whose landing SP has begun enters the mesh, another waits for it in the
landing queue (R239) and no longer keeps the module from releasing. -/
def landFrame (l : Nat) (f : Frame) (s : State) : State :=
  let lsp := landingSp s f
  let slack := landingSlack s lsp
  let s1 := if slack < objGet s (0x4100 + l) 0xD then objSet (0x4100 + l) 0xD slack s else s
  if lsp ≤ s1.sp then releaseFrame l (cycleNow s1) f s1
  else countLink l 9 1 (linkSet l { linkAt s1 l with landing := (linkAt s1 l).landing ++ [f] }
    (stopAwaiting (.frame l f.seq.toNat) s1))

/-- A class S frame, original or retransmitted, reaches a port. -/
def takeScheduled (l : Nat) (f : Frame) (chk : RxCheck) (s : State) : State :=
  if !linkLive s then s
  else match chk with
  | .bad n => rowBad l n f s
  | .good n =>
    if !proofOk f.row then rowBad l 0 f s
    else
      let s1 := frameGood l n f.seq.toNat s
      if f.dest ≠ ownCoord s1 then forwardFrame l f (itemLanded (.frame l f.seq.toNat) s1) else landFrame l f s1

/-- SCHEDULED_ROW (R239). -/
def execScheduledRow (link : LinkIx) (f : Frame) (chk : RxCheck) (s : State) : Host.Outcome State Fault Refusal :=
  .next (takeScheduled link.val f chk s)

/-- SCHEDULED_RETRANSMISSION (R241). -/
def execScheduledRetrans (link : LinkIx) (f : Frame) (chk : RxCheck) (s : State) : Host.Outcome State Fault Refusal :=
  .next (takeScheduled link.val f chk s)

/-! ## Class B frames (R121, R122, R243, R244) -/

/-- The slice coordinate of a machine coordinate on an axis: its place among the mask's coordinates counted along +d
from the lead's (R259, R261). -/
def sliceRank (s : State) (axis c : Nat) : Nat :=
  let lead := bits (objGet s 0x4200 0xC) (8 - 4 * axis) 4
  (((List.range ((c + 16 - lead) % 16)).map fun i => (lead + i) % 16).filter
    fun x => bitOf (objGet s 0x4200 (0x10 + axis)) x).length

/-- The coordinate of a module on an axis. -/
def coordAxis (c : Coord) (axis : Nat) : Nat :=
  if axis = 0 then c.x.toNat else if axis = 1 then c.y.toNat else c.z.toNat

/-- The direction in which a class B frame leaves for a module: x, then y, then z, the shorter way round a ring, the
positive one on ties (R243). -/
def routeDir (s : State) (dest : Coord) : Option Nat :=
  ([0, 1, 2].find? fun a => sliceRank s a (coordAxis dest a) != sliceAt s a).map fun a =>
    let n := extent s a
    let d := (sliceRank s a (coordAxis dest a) + n - sliceAt s a) % n
    if isRing s a then (if 2 * d ≤ n then 2 * a else 2 * a + 1)
    else if sliceAt s a < sliceRank s a (coordAxis dest a) then 2 * a else 2 * a + 1

/-- Whether a frame is of notice level (R219). -/
def noticeLevel (k : FrameKind) : Bool := k == .notice || k == .backAck

/-- The link on which a class B frame leaves for a module: the broadcast link of its direction, or, where no link of it is
up, the first, at which it waits. -/
def routeLink (s : State) (dest : Coord) : Option Nat :=
  (routeDir s dest).bind fun d => (broadcastLink s d).or (linksOf d).head?

/-- A class B frame for another module goes on toward it, against the budget of die `d` (R244). -/
def relayFrame (d : Nat) (f : Frame) (s : State) : State :=
  match routeLink s f.dest with
  | none => s
  | some l => inject d f.activity.toNat 9 [.classB l (noticeLevel f.kind) f] s

/-- One acknowledgement as its 32 bytes (R227): destination tile, window, generation, open flag, sender reference. DESIGN
CHOICE (log 113): where each lies. -/
def ackBytes (a : BackAck) : Bytes :=
  slice (leBytes 2 a.tile.val ++ leBytes 1 a.window.toNat ++ leBytes 1 (flag a.opened) ++ leBytes 2 a.gen.toNat ++ zeros 2
    ++ leBytes 8 a.ref) 0 32

/-- The kind 0x4 frame that carries up to 16 acknowledgements to a module (R227). -/
def ackFrame (dest : Coord) (acks : List BackAck) : Frame where
  kind := .backAck
  activity := 2
  dest := dest
  tx := 0
  ty := 0
  window := 0
  woff := 0
  gen := 0
  landSp := 0
  seq := 0
  retry := none
  sendSp := 0
  row := freshFrame (slice (acks.flatMap ackBytes) 0 512) 0

/-- An acknowledgement of a background write (R122): accepted where the window is open in the write's generation;
otherwise the write is retried from the next time pick on, or abandoned after 0x3100:0F refusals. -/
def takeAck (s : State) (a : BackAck) : State :=
  match s.net.backs.find? (·.ref == a.ref) with
  | none => s
  | some w =>
    let rest := s.net.backs.filter (·.ref != a.ref)
    if a.opened && a.gen == w.gen then { s with net := { s.net with backs := rest } }
    else if objGet s 0x3100 0xF ≤ w.refused + 1 then bump 0x3100 0x10 1 { s with net := { s.net with backs := rest } }
    else { s with net := { s.net with backs := s.net.backs.map fun x =>
      if x.ref = a.ref then { x with
        refused := x.refused + 1, gen := if a.opened then a.gen else a.gen + 1, retryTp := some (s.tp + 1) } else x } }

/-- Lists of at most `n` elements. -/
def chunksOf (n : Nat) : Nat → List BackAck → List (List BackAck)
  | 0, _ => []
  | k + 1, xs => if xs = [] then [] else xs.take n :: chunksOf n k (xs.drop n)

/-- Acknowledgements for a module leave in frames of up to 16 (R239, R243); this module's own are taken at once. -/
def sendAcksTo (s : State) (x : Coord × List BackAck) : State :=
  if x.1 = ownCoord s then x.2.foldl takeAck s
  else match routeLink s x.1 with
  | none => s
  | some l => (chunksOf 16 x.2.length x.2).foldl (fun s as => depart s (.classB l true (ackFrame x.1 as))) s

/-- Acknowledgements that have crossed the mesh go on. -/
def sendAcks (s : State) : State :=
  let acks := s.net.arrived.filterMap fun o => match o with
    | .backAck d a => some (d, a)
    | _ => none
  ((acks.map (·.1)).eraseDups.map fun d => (d, (acks.filter (·.1 == d)).map (·.2))).foldl sendAcksTo
    { s with net := { s.net with arrived := s.net.arrived.filter fun o => match o with
      | .backAck _ _ => false
      | _ => true } }

/-- BACKGROUND_ACKNOWLEDGEMENT (R122): acknowledgements for another module go on; those for this one count as a packet
against the budget of the die that they enter (R244). -/
def execBackgroundAck (p : RxAcks) (s : State) : Host.Outcome State Fault Refusal :=
  let d := p.link.val / 9
  let f := p.rx.frame
  .next (if !linkLive s then s
    else receive { link := p.link, seq := f.seq, chk := p.rx.chk } (fun s =>
      if f.dest ≠ ownCoord s then relayFrame d f s
      else sendAcks (inject d 2 9 (p.acks.map (.backAck (ownCoord s))) s)) s)

/-- A background write for a tile of this module enters the mesh at a tile: header and landing (R121, R210). -/
def backLanding (a t : Nat) (act : Nat) (window woff : Nat) (gen : BitVec 16) (row : RowFrame) (sender : Coord) (ref : Nat) :
    Output :=
  .landing t
    { classB := true, kind := 0, dx := BitVec.ofNat 5 (tileX t), dy := BitVec.ofNat 5 (tileY t)
      sx := BitVec.ofNat 5 (tileX a), sy := BitVec.ofNat 5 (tileY a), window := BitVec.ofNat 8 window
      woff := BitVec.ofNat 7 woff, pad := 0, act := BitVec.ofNat 4 act, gen := gen }
    { hdr := { window := window, woff := woff, seq := 0, landSp := 0 }, row := row,
      back := some { gen := gen, sender := sender, ref := ref }, port := none, since := 0 }

/-- BACKGROUND_WRITE (R121): a write for another module goes on; one for this module enters the mesh at its port, against
the budget of its die (R244); an uncorrectable one is requested again. -/
def execBackgroundWrite (link : LinkIx) (f : Frame) (chk : RxCheck) (ref : Nat) (s : State) :
    Host.Outcome State Fault Refusal :=
  let l := link.val
  let t := 24 * f.ty.toNat + f.tx.toNat
  .next (if !linkLive s then s
    else match chk with
    | .bad n => frameBad l n f.seq.toNat s
    | .good n =>
      if !proofOk f.row then frameBad l 0 f.seq.toNat s
      else
        let s1 := frameGood l n f.seq.toNat s
        if f.dest ≠ ownCoord s1 then relayFrame (l / 9) f s1
        else if 24 ≤ f.tx.toNat then raiseFault 0x4003 (unitSite 1 (l / 9) 0 f.seq.toNat) s1
        else takeLandings (inject (l / 9) f.activity.toNat 9 [backLanding (attachTile l) t f.activity.toNat
          f.window.toNat f.woff.toNat f.gen f.row (peerCoord s1 l) ref] s1))

/-- A background write of this module, for a window of its own, sets out from the corner tile of die `d` (R121). DESIGN
CHOICE (log 114): the tile. -/
def launchBack (d act : Nat) (w : BackWrite) (s : State) : State :=
  takeLandings (inject d act 9 [.backWrite w, backLanding (corner d) w.tile act w.window w.woff w.gen w.row w.dest w.ref] s)

/-- A refused background write is sent again, no earlier than its time pick (R122). -/
def retryBack (ref : Nat) (s : State) : State :=
  match s.net.backs.find? (·.ref == ref) with
  | none => s
  | some w => match w.retryTp with
    | none => s
    | some tp =>
      if s.tp < tp then s
      else launchBack w.die w.act { w with retryTp := none } { s with net := { s.net with
        backs := s.net.backs.map fun x => if x.ref = ref then { x with retryTp := none } else x } }

/-- BACKGROUND_RETRY (R122). -/
def execBackgroundRetry (ref : Nat) (s : State) : Host.Outcome State Fault Refusal :=
  .next (if linkLive s then retryBack ref s else s)

/-! ## Control symbols -/

/-- Whether the tag of a received pick matches what the receiver decrypted (R368, R369). -/
def pickTagOk (s : State) (l : Nat) (p : RxPick) (tag : Bytes) : Bool :=
  (gcmSeal (linkKeyOf s (peerCoord s l) (peerLink s l)) (linkIv (peerCoord s l) (peerLink s l) p.tp) p.heads p.rows).2
    == slice tag 0 16

/-- IDLE (R229, R240, R369): its retry request is served; the first of a pick carries the previous pick's tag, and a
mismatch in a sealed job is fault 0x7010. -/
def execIdle (link : LinkIx) (retry : Option (BitVec 16)) (payload : Bytes) (pick : Option RxPick) (s : State) :
    Host.Outcome State Fault Refusal :=
  let l := link.val
  let s1 := match retry with
    | none => s
    | some q => retryFor l q.toNat s
  .next (match pick with
    | none => s1
    | some p => if linkSealed s l && linkLive s && !pickTagOk s l p payload
        then linkFault 0x7010 l p.tp (bump 0x6100 0x15 1 s1) else s1)

/-- FAULT (R247, R341): one from a module of the slice begins a safe stop with fault 0x4015, whose record carries the
origin's module, stamp and code, and goes on to the module's own peers with them; any other is counted. -/
def execFault (link : LinkIx) (code : BitVec 16) (origin : Coord) (stamp : BitVec 64) (s : State) :
    Host.Outcome State Fault Refusal :=
  let l := link.val
  let spAt := match s.treadle.history.find? (fun h => h.2.1 ≤ stamp.toNat) with
    | some h => h.2.2
    | none => spField s
  let r : FaultRec := {
    code := 0x4015, flags := BitVec.ofNat 8 (5 + (if s.integrity.stopLine then 2 else 0) + (if s.sealedJob then 8 else 0))
    site := (let x := unitSite 2 (l / 9) 0 code.toNat; if s.sealedJob then hideSite x else x)
    stamp := stamp.toNat, sp := spAt, modl := origin }
  .next (if inSlice s origin then
      let s1 := { s with integrity := { s.integrity with
        dies := s.integrity.dies.set (l / 9) (s.integrity.dies.getD (l / 9) [] ++ [r]) } }
      if s.job && !s.integrity.stopLine then beginStop code origin stamp.toNat s1 else s1
    else bump (0x4100 + l) 0x13 1 s)

end Sys2Proof.Machine
end

