-- ==== Sys2Proof/Machine/Training.lean ====
section
/-! DEFINITION. The function state machine (R387 to R389), link training (R248 to R252), and directions and neighbours
(R253, R254). -/

namespace Sys2Proof.Machine

/-! ## Functions -/

/-- A function of the function state machine. -/
def fnAt (s : State) (n : Nat) : Fn := s.fns.getD n Fn.reset

/-- A function set. -/
def fnSet (n : Nat) (f : Fn) (s : State) : State := { s with fns := s.fns.set n f }

/-- The function state entry (R389). -/
def fnEntry (f : Fn) : Nat := flag f.restart * 128 + flag f.stopP * 64 + f.fail % 16 * 4 + f.state % 4

/-- A link begins training, however often it has trained before (R252, R271). -/
def trainLink (l : Nat) (s : State) : State :=
  let k := linkAt s l
  objSet (0x4100 + l) 1 1
    (linkSet l { k with step := 1, trips := [], coords := 0, t0 := none, trainings := 0, stepping := none } s)

/-- What a function's own hardware does as it enters STARTING: a link trains. -/
def fnBegin (n : Nat) (s : State) : State := if n < 36 then trainLink n s else s

/-- What is seen of a function that is ON, or no longer ON: the state of its link (R389), and the management port's
link state. -/
def fnShow (n : Nat) (on : Bool) (s : State) : State :=
  if n < 36 then
    if on then objSet (0x4100 + n) 1 (if objGet s (0x4100 + n) 3 = 15 then 2 else 3) s
    else if linkState s n = 4 || linkState s n = 5 || linkState s n = 6 then s else objSet (0x4100 + n) 1 0 s
  else if n = 37 then objSet 0x9001 6 (flag on) s else s

/-- Enable written 1 (R387). -/
def fnEnable (n : Nat) (s : State) : State :=
  let f := fnAt s n
  if f.state = 0 then fnBegin n (fnSet n { f with state := 1, stopP := false, restart := false } s)
  else if f.state = 1 then fnSet n { f with stopP := false } s
  else if f.state = 3 then fnSet n { f with restart := true } s
  else s

/-- Enable written 0 (R387). -/
def fnDisable (n : Nat) (s : State) : State :=
  let f := fnAt s n
  if f.state = 1 then fnSet n { f with stopP := true } s
  else if f.state = 2 then fnSet n { f with state := 3 } s
  else if f.state = 3 then fnSet n { f with restart := false } s
  else s

/-- Start done (R387): ON, then STOPPING at once if a stop is pending. -/
def fnDone (n : Nat) (s : State) : State :=
  let f := fnAt s n
  if f.state = 1 then fnShow n true (fnSet n { f with state := if f.stopP then 3 else 2, stopP := false } s) else s

/-- Start failed (R387): OFF, failure recorded. -/
def fnFailed (n : Nat) (s : State) : State :=
  let f := fnAt s n
  if f.state = 1 then fnShow n false (fnSet n { f with state := 0, stopP := false, fail := 1 } s) else s

/-- Function lost (R387): OFF, failure recorded. -/
def fnGone (n : Nat) (s : State) : State :=
  let f := fnAt s n
  if f.state = 2 then fnShow n false (fnSet n { f with state := 0, fail := 2 } s) else s

/-- Stop done (R387): OFF, then STARTING at once if a restart is pending (R388). -/
def fnStopped (n : Nat) (s : State) : State :=
  let f := fnAt s n
  if f.state = 3 then
    let s1 := fnShow n false (fnSet n { f with state := 0, restart := false } s)
    if f.restart then fnBegin n (fnSet n { f with state := 1, restart := false, stopP := false } s1) else s1
  else s

/-- FUNCTION_START_DONE (R387). -/
def execFnStartDone (fn : FnIx) (s : State) : Host.Outcome State Fault Refusal := .next (fnDone fn.val s)

/-- FUNCTION_START_FAILED (R387). -/
def execFnStartFailed (fn : FnIx) (s : State) : Host.Outcome State Fault Refusal := .next (fnFailed fn.val s)

/-- FUNCTION_LOST (R387). -/
def execFnLost (fn : FnIx) (s : State) : Host.Outcome State Fault Refusal := .next (fnGone fn.val s)

/-- FUNCTION_STOP_DONE (R388). -/
def execFnStopDone (fn : FnIx) (s : State) : Host.Outcome State Fault Refusal := .next (fnStopped fn.val s)

/-! ## Neighbours -/

/-- The expected neighbour coordinate of `c` in a direction (R254). -/
def neighbourAt (s : State) (dir c : Nat) : Nat :=
  let e := objGet s 0x4200 (3 + dir)
  let n := bits (objGet s 0x4200 2) (8 - 4 * (dir / 2)) 4 + 1
  if dir % 2 = 0 then (if c % 4 ≠ 3 then c + 1 else if e ≠ 0xFF then e else (c + 1) % n)
  else if c % 4 ≠ 0 then c - 1 else if e ≠ 0xFF then e else (c + n - 1) % n

/-- The machine coordinates expected at the far end of a link of direction `dir`. -/
def expectedPeer (s : State) (dir : Nat) : Coord :=
  let c := ownCoord s
  let v := BitVec.ofNat 4 (neighbourAt s dir (coordAxis c (dir / 2)))
  if dir / 2 = 0 then { c with x := v } else if dir / 2 = 1 then { c with y := v } else { c with z := v }

/-- The rank of a link within its direction (R253). -/
def linkRank (l : Nat) : Nat := (linksOf (linkDir l)).findIdx (· == l)

/-- Whether the module's coordinates are written. -/
def coordsSet (s : State) : Bool := objGet s 0x4200 1 != 0xFFFF

/-! ## Training -/

/-- Training of a link ends without the link: its state, and the function's failure. -/
def trainEnd (l st : Nat) (s : State) : State :=
  fnFailed l (objSet (0x4100 + l) 1 st (linkSet l { linkAt s l with t0 := none } s))

/-- The module sends its COORD symbol on a link (R229). -/
def sendCoord (l : Nat) (s : State) : State :=
  toPort l (.symbol l 5 (coordPayload (ownCoord s) l (linkDir l) (linkRank l) (objGet s 0x1000 5))) s

/-- Whether a lane passed steps 1 to 3 (R248). -/
def laneGood (x : LaneTrain) : Bool := x.detect && x.lock && decide (x.errors < 22400)

/-- Steps 1 to 4 of training: the good lanes, the worst lane's error ratio over 2.24 × 10¹⁰ bits, the width; with 3 good
lanes or 4 the link goes on to the COORD exchange. -/
def trainLanes (l : Nat) (lanes : List LaneTrain) (s : State) : State :=
  let four := lanes.take 4
  let good := four.map laneGood
  let mask := (good.zipIdx.map fun g => flag g.1 * 2 ^ g.2).foldl (· + ·) 0
  let worst := (four.map (·.errors)).foldl max 0
  let ratio := if worst = 0 then 0 else roundMag 0 0 worst 22400000000 fmtF32
  let k := linkAt s l
  let s1 := objSet (0x4100 + l) 8 ratio (objSet (0x4100 + l) 3 mask
    (objSet (0x4100 + l) 1 1 (linkSet l { k with step := 5, trips := [], coords := 0, t0 := none, trainings := k.trainings + 1 } s)))
  let s2 := fnSet l { fnAt s1 l with state := if (fnAt s1 l).state = 0 then 1 else (fnAt s1 l).state } s1
  if (good.filter id).length < 3 then trainEnd l 4 s2
  else if coordsSet s2 then sendCoord l s2 else s2

/-- Whether steps 1 to 4 of a link can run: outside a job, on an enabled link that trains or, during S11, has failed fewer
than 3 times (R248). -/
def mayTrain (s : State) (l : Nat) : Bool :=
  !s.job && objGet s (0x4100 + l) 0xE != 0 &&
    (linkState s l == 1 || startState s == 0 && objGet s 0x2200 2 == 11 && 4 ≤ linkState s l
      && decide ((linkAt s l).trainings < 3))

/-- The lanes of a link have trained (R248). -/
def trainLink4 (l : Nat) (lanes : List LaneTrain) (s : State) : State := if mayTrain s l then trainLanes l lanes s else s

/-- The state of a link that has not passed a training step (R248). -/
def failedState (step : Nat) : Nat := if step ≤ 4 then 4 else if step = 5 then 5 else 6

/-- The time limit of a training step has passed (R248): a lane of steps 1 to 3 is bad; in step 5 the link is miswired, but
waits while its own coordinates are not written; in step 6 it is too long. -/
def stepTimeout (l step lane : Nat) (s : State) : State :=
  let m := objGet s (0x4100 + l) 3
  let m1 := if bitOf m lane then m - 2 ^ lane else m
  if linkState s l ≠ 1 then s
  else if step ≤ 3 then
    let s1 := objSet (0x4100 + l) 3 m1 s
    if ((List.range 4).filter (bitOf m1)).length < 3 then trainEnd l 4 s1 else s1
  else if 7 ≤ step || step = 4 || step = 5 && !coordsSet s then s
  else trainEnd l (failedState step) s

/-- The module sends a delay request (R250). -/
def sendDelay (l : Nat) (s : State) : State :=
  toPort l (.symbol l 3 (timePayload 1 0 s.tick)) (linkSet l { linkAt s l with t0 := some s.tick, step := 6 } s)

/-- A COORD symbol (R249): the peer's coordinates, link and stepping are recorded; after 8 that agree, the link is miswired,
or goes on to the delay measurement. -/
def takeCoord (l : Nat) (peer : Coord) (peerLink : BitVec 6) (dir rank : BitVec 3) (stepping : BitVec 8) (s : State) : State :=
  let k := linkAt s l
  let same := decide (peer = peerCoord s l ∧ peerLink.toNat = objGet s (0x4100 + l) 7 ∧ k.stepping = some stepping.toNat)
  let n := if same then k.coords + 1 else 1
  let s1 := objSet (0x4100 + l) 6 (coordNat peer) (objSet (0x4100 + l) 7 peerLink.toNat
    (linkSet l { k with coords := n, stepping := some stepping.toNat } s))
  let d := linkDir l
  let ok := decide (peer = expectedPeer s d) && dir.toNat == (if d % 2 = 0 then d + 1 else d - 1) && rank.toNat == linkRank l
  if linkState s l = 5 then s1
  else if linkState s l ≠ 1 || k.step ≠ 5 then s
  else if !coordsSet s || n < 8 then s1
  else if ok then sendDelay l s1
  else trainEnd l 5 s1

/-- The COORD exchange goes on in every pick on links at step 5 once the module's coordinates are written, and on
miswired ones (R248, R249). -/
def offerCoords (s : State) : State :=
  if !coordsSet s then s
  else ((List.range 36).filter fun l => linkState s l == 5 || linkState s l == 1 && (linkAt s l).step == 5).foldl
    (fun s l => sendCoord l s) s

/-- TIME_DELAY_REQUEST (R250): the responder returns t₀ and its turnaround. A link out of use, a miswired one among them,
carries no TIME symbol (R249). -/
def execTimeDelayRequest (link : LinkIx) (t0 : BitVec 64) (turnaround : BitVec 24) (s : State) :
    Host.Outcome State Fault Refusal :=
  .next (if linkState s link.val = 1 || linkUp s link.val then
      toPort link.val (.symbol link.val 3 (timePayload 2 turnaround.toNat t0.toNat)) s
    else s)

/-- CONTROL_BLOCK (R230): one that cannot be corrected is fault 0x4014 in a job; otherwise it counts, and training repeats
the exchange it interrupted. Symbols of reserved type in it, or in the reserve slot, are ignored and count (R229). -/
def execControlBlock (link : LinkIx) (b : RxBlock) (s : State) : Host.Outcome State Fault Refusal :=
  let l := link.val
  let v := objGet s (0x4100 + l) 0x11
  .next (if b.ok then
      (if b.reserved = 0 then s
      else objSet (0x4100 + l) 0x11 ((v / 2 ^ 48 + b.reserved) % 2 ^ 16 * 2 ^ 48 + v % 2 ^ 48) s)
    else if s.job then linkFault 0x4014 l 0 s
    else
      let s1 := bump (0x4100 + l) 0xA 1 s
      if linkState s l ≠ 1 then s1
      else if (linkAt s l).step = 5 && coordsSet s then sendCoord l s1
      else if (linkAt s l).step = 6 then sendDelay l s1 else s1)

/-- The measured delay dₘ of a round trip (R250). -/
def delayPicks (rtt : Nat) : Nat := (rtt + 2 + 127) / 128

/-- A link that came up counts, or not, as trained degraded in this start (R351). -/
def noteWidth (l : Nat) (s : State) : State :=
  let d := mget 0 s.integrity.degraded l
  let v := if linkState s l = 3 then (if d % 2 = 0 then d + 3 else d) else 0
  { s with integrity := { s.integrity with degraded := mset 0 s.integrity.degraded l v } }

/-- The 64 round trips are measured: RTT, dₘ, and the link is up, or too long. -/
def trainDone (l : Nat) (trips : List Nat) (s : State) : State :=
  let rtt := trips.foldl max 0
  let s1 := objSet (0x4100 + l) 4 (delayPicks rtt) (objSet (0x4100 + l) 5 rtt
    (linkSet l { linkAt s l with trips := trips, t0 := none, step := 7 } s))
  if 8 < delayPicks rtt then trainEnd l 6 s1 else noteWidth l (fnDone l s1)

/-- A delay echo (R250): a round trip is t₃ − t₀ − u. -/
def takeEcho (l : Nat) (t0 : BitVec 64) (turnaround : BitVec 24) (s : State) : State :=
  let k := linkAt s l
  if linkState s l ≠ 1 || k.step ≠ 6 || k.t0 ≠ some t0.toNat then s
  else
    let trips := k.trips ++ [s.tick - t0.toNat - turnaround.toNat]
    if trips.length < 64 then sendDelay l (linkSet l { k with trips := trips } s) else trainDone l trips s

/-- BLOCK_LOCK_LOSS (R252): in a job fault 0x4010; outside one the link is down. -/
def execBlockLockLoss (link : LinkIx) (lane : Fin 4) (s : State) : Host.Outcome State Fault Refusal :=
  let l := link.val
  .next (if !linkUp s l then s
    else if s.job then linkFault 0x4010 l lane.val s
    else fnGone l (objSet (0x4100 + l) 1 0 s))

/-- Every link that is up trains again (R257). -/
def retrainUp (s : State) : State :=
  ((List.range 36).filter (linkUp s)).foldl (fun s l =>
    trainLink l (fnSet l { fnAt s l with state := 1 } s)) s

end Sys2Proof.Machine
end

