-- ==== Sys2Proof/Machine/Plates.lean ====
section
/-! DEFINITION. Weight plates: load slots and their records (R322), chains (R323 to R325), verification (R326), plates in
force and the plate switch (R327 to R329). -/

namespace Sys2Proof.Machine

/-! ## Load records -/

/-- The load record of a slot (0x5200:10–1F). -/
def loadRecord (s : State) (i : Nat) : Bytes := octGet s 0x5200 (0x10 + i)

/-- Fields of a load record: plate identifier, kind, chain, generation, base row, region rows, flags, sealed. -/
def recId (r : Bytes) : Nat := leAt r 0 4
def recKind (r : Bytes) : Nat := leAt r 4 1
def recChain (r : Bytes) : Nat := leAt r 5 1
def recGen (r : Bytes) : Nat := leAt r 6 2
def recBase (r : Bytes) : Nat := leAt r 8 4
def recRows (r : Bytes) : Nat := leAt r 12 4
def recShadow (r : Bytes) : Bool := bitOf (leAt r 16 1) 0
def recSealed (r : Bytes) : Nat := leAt r 17 1
def recHash (r : Bytes) : Bytes := slice r 32 32
def recDigest (r : Bytes) : Bytes := slice r 64 32
def recLayout (r : Bytes) : Bytes := slice r 96 32

/-- A load slot. -/
def loadAt (s : State) (i : Nat) : Load := s.loads.getD i Load.reset

/-- A load slot set. -/
def loadSet (i : Nat) (v : Load) (s : State) : State := { s with loads := s.loads.set i v }

/-- A load slot becomes done, in force, failed or refused: MSI-X vector 6 (R409). -/
def loadPut (i : Nat) (v : Load) (s : State) : State :=
  let s1 := loadSet i v s
  if 3 ≤ v.state && v.state ≠ (loadAt s i).state then raiseVector 6 s1 else s1

/-- The load status entry (0x5200:20–2F). -/
def loadStatus (s : State) (i : Nat) : Nat :=
  let l := loadAt s i
  l.state % 16 * 2 ^ 60 + l.reason % 256 * 2 ^ 52 + l.landed / 768 % 2 ^ 32

/-- A chain entry (0x5200:08–0F): incoming port or link, outgoing link. -/
def chainIn (s : State) (k : Nat) : Nat := bits (objGet s 0x5200 (8 + k)) 24 8
def chainOut (s : State) (k : Nat) : Nat := bits (objGet s 0x5200 (8 + k)) 16 8

/-- The slot with an open load of a chain. -/
def openLoad (s : State) (k : Nat) : Option Nat :=
  (List.range 16).find? fun i => (loadAt s i).state == 1 && recChain (loadRecord s i) == k

/-- Whether two row ranges share a row. -/
def rowsMeet (a m b n : Nat) : Bool := a < b + n && b < a + m

/-- The refusal reason of a load record for slot `i`, 0 for none (R322). -/
def loadRefusal (s : State) (i : Nat) (r : Bytes) : Nat :=
  if recBase r % 24 ≠ 0 || 737280 < recBase r + recRows r || recRows r = 0 then 1
  else if (List.range 16).any (fun j => j != i && (loadAt s j).state != 0
      && rowsMeet (recBase r) (recRows r) (loadAt s j).base (recRows (loadRecord s j))) then 2
  else if 8 ≤ recChain r || chainIn s (recChain r) = 0xFF || (openLoad s (recChain r)).isSome then 3
  else if !(recKind r == 1 || recKind r == 2) || 2 ≤ leAt r 16 1 || 2 ≤ recSealed r || !allZero (slice r 18 14) then 4
  else if (session s == 3 || session s == 4) && (recSealed r = 0
      || !s.security.plates.any (fun p => p.hash == recHash r && p.digest == recDigest r)) then 5
  else 0

/-! ## Measurement registers (R360) -/

/-- A measurement register extended with a digest. -/
def extendReg (i : Nat) (d : Bytes) (s : State) : State :=
  let m := s.security.measure
  { s with security := { s.security with measure := m.set i (sha384 (m.getD i [] ++ slice d 0 48)) } }

/-! ## Plates in force -/

/-- The plates in force (0x5200:30–3F). -/
def inForce (s : State) : List Bytes := (List.range (objGet s 0x5200 2)).map fun i => octGet s 0x5200 (0x30 + i)

/-- The list of plates in force written. -/
def setForce (l : List Bytes) (s : State) : State :=
  objSet 0x5200 2 l.length ((List.range 16).foldl (fun s i => octSet 0x5200 (0x30 + i) (slice (l.getD i []) 0 40) s) s)

/-- A plate enters the list in force: measurement register 5 is extended with its hash. -/
def enterForce (l : List Bytes) (r : Bytes) (s : State) : State := setForce l (extendReg 5 (recHash r) s)

/-- The entry of a load's plate: identifier, generation, kind, 0, plate hash. -/
def forceEntry (r : Bytes) : Bytes := leBytes 4 (recId r) ++ leBytes 2 (recGen r) ++ leBytes 1 (recKind r) ++ zeros 1 ++ recHash r

/-- The identifier of an entry. -/
def forceId (e : Bytes) : Nat := leAt e 0 4

/-- The plate hash of the lineage message: over the hashes of the plates in force in ascending identifier order
(R83). -/
def forceHash (s : State) : Bytes :=
  sha256 (((inForce s).mergeSort fun a b => forceId a ≤ forceId b).map fun e => slice e 8 32).flatten

/-- A load slot is closed: its record is zeros; outside a job its plate also leaves the list. -/
def closeLoad (i : Nat) (s : State) : State :=
  let r := loadRecord s i
  let s1 := if (loadAt s i).state = 4 then setForce ((inForce s).filter fun e => forceId e != recId r) s else s
  loadSet i Load.reset (octSet 0x5200 (0x10 + i) (zeros 128) s1)

/-- Whether closing a slot is refused (R322). -/
def closeRefused (s : State) (i : Nat) : Bool :=
  let st := (loadAt s i).state
  st == 1 || st == 2 || st == 4 && s.job

/-- A load record opens a load, or is refused with its reason (R322). -/
def openLoadSlot (i : Nat) (r : Bytes) (s : State) : State :=
  let reason := loadRefusal s i r
  loadPut i { state := if reason = 0 then 1 else 6, reason := reason, landed := 0, base := recBase r }
    (octSet 0x5200 (0x10 + i) r s)

/-- A load fails. -/
def failLoad (i reason : Nat) (s : State) : State := loadPut i { loadAt s i with state := 5, reason := reason } s

/-! ## Chains -/

/-- A chain row lands at a region offset of an open load, as a background write (R324). -/
def landChain (i : Nat) (f : Frame) (s : State) : State :=
  let r := loadRecord s i
  let o := 32768 * bits f.row.tag.toNat 0 5 + 128 * f.window.toNat + f.woff.toNat
  let t := 24 * f.ty.toNat + f.tx.toNat
  if !proofOk f.row then failLoad i 0x10 s
  else if recRows r ≤ o || 24 ≤ f.tx.toNat then failLoad i 0x11 s
  else
    let s1 := bump 0x5200 3 1 (countTile t 0x2A 1 (cycleNow s) (backStore (rowAddr t 1 ((loadAt s i).base + o)) f.row s))
    let l := loadAt s1 i
    loadSet i { l with landed := l.landed + 1, state := if l.landed + 1 = 768 * recRows r then 2 else l.state } s1

/-- The die whose router carries what arrives from a chain's source: a link's die, C1 or C2 for a data port. -/
def sourceDie (src : Nat) : Nat := if src < 36 then src / 9 else if src = 36 then 1 else 2

/-- The dies that a packet crosses from one die to another (R211, R215). -/
def diesCrossed (a b : Nat) : List Nat := if a = b then [a] else if relayed a b then [a, relayDie a b, b] else [a, b]

/-- Where a chain frame from a source goes (R323): its chain, and the die it leaves the mesh in; `none` where it is
dropped. -/
def chainWay (s : State) (src : Nat) (f : Frame) : Option (Nat × Nat) :=
  ((List.range 8).find? fun k => chainIn s k == src).bind fun k =>
    if f.dest = ownCoord s then
      (openLoad s k).map fun _ => (k, (dieOf (24 * f.ty.toNat + f.tx.toNat)).val)
    else if 36 ≤ chainOut s k then none else some (k, chainOut s k / 9)

/-- A chain frame that has crossed its dies: it lands, goes on, or is dropped and counted. -/
def endChain (src : Nat) (f : Frame) (s : State) : State :=
  match chainWay s src f with
  | none => bump 0x5200 5 1 s
  | some x =>
    if f.dest = ownCoord s then
      match openLoad s x.1 with
      | none => bump 0x5200 5 1 s
      | some i => landChain i f s
    else depart (bump 0x5200 4 1 s) (.classB (chainOut s x.1) false f)

/-- A chain frame goes on to the next die of its way, against the budget of that die (R324), or has come to its end. -/
def passDie (src : Nat) (dies : List Nat) (f : Frame) (s : State) : State :=
  match dies with
  | [] => endChain src f s
  | d :: r => inject d 5 9 [.chainIn src r f] s

/-- Chain frames that have crossed a die. -/
def passChains (s : State) : State :=
  s.net.arrived.foldl (fun s o => match o with
    | .chainIn src dies f => passDie src dies f s
    | _ => s) { s with net := { s.net with arrived := s.net.arrived.filter fun o => match o with
      | .chainIn _ _ _ => false
      | _ => true } }

/-- Chain frames go as far as the budgets of the dies let them: over three dies and to their end. -/
def takeChains (s : State) : State := passChains (passChains (passChains s))

/-- A chain frame from a source (R323): it sets out through the module, or is dropped and counted. -/
def takeChain (src : Nat) (f : Frame) (s : State) : State :=
  match chainWay s src f with
  | none => bump 0x5200 5 1 s
  | some x => takeChains (passDie src (diesCrossed (sourceDie src) x.2) f s)

/-- CHAIN (R323): from a link a frame that cannot be corrected is requested again (R240). -/
def execChain (source : BitVec 8) (p : RxFrame) (s : State) : Host.Outcome State Fault Refusal :=
  let f := p.frame
  .next (if h : source.toNat < 36 then
      receive { link := ⟨source.toNat, h⟩, seq := f.seq, chk := p.chk } (takeChain source.toNat f) s
    else takeChain source.toNat f s)

/-! ## Verification (R326) -/

/-- Row frames read back as background accesses, one after another (R326). -/
def readBack (rows : List Nat) (s : State) : Bytes × State :=
  rows.foldl (fun x a => let y := backRow a x.2; (x.1 ++ frameBytes y.1, y.2)) ([], s)

/-- The tile digest of a region of a tile. -/
def tileDigest (t base n : Nat) (s : State) : Bytes × State :=
  let x := readBack ((List.range n).map fun r => rowAddr t 1 (base + r)) s
  (sha256 x.1, x.2)

/-- The module digest of a region. -/
def moduleDigest (base n : Nat) (s : State) : Bytes × State :=
  let x := (List.range 768).foldl (fun x t => let y := tileDigest t base n x.2; (x.1 ++ y.1, y.2)) (([] : Bytes), s)
  (sha256 x.1, x.2)

/-- A verifying load is checked against its record's module digest: done, in force when it is no shadow load and no job
runs, or failed. -/
def verifyLoad (i : Nat) (s0 : State) : State :=
  let l := loadAt s0 i
  let r := loadRecord s0 i
  if l.state ≠ 2 then s0
  else
    let x := moduleDigest l.base (recRows r) s0
    let s := x.2
    if x.1 ≠ recDigest r then failLoad i 0x12 s
    else if recShadow r || s.job then loadPut i { l with state := 3 } s
    else if 16 ≤ (inForce s).length then failLoad i 0x13 s
    else loadPut i { l with state := 4 } (enterForce (inForce s ++ [forceEntry r]) r s)

/-- LOAD_VERIFICATION (R326). -/
def execLoadVerification (slot : Fin 16) (s : State) : Host.Outcome State Fault Refusal := .next (verifyLoad slot.val s)

/-! ## The plate switch (R328, R329) -/

/-- A fault of the treadle. -/
def treadleFault (code detail : Nat) (s : State) : State := raiseFault code (unitSite 4 0 0 (detail % 2 ^ 18)) s

/-- The slot of a plate in a state. -/
def plateSlot (s : State) (id st : Nat) : Option Nat :=
  (List.range 16).find? fun i => (loadAt s i).state == st && recId (loadRecord s i) == id

/-- A plate switch has passed its checks: it counts, and a base plate that goes raises the epoch (R328). -/
def countSwitch (base : Bool) (s : State) : State :=
  let s1 := bump 0x5200 6 1 s
  if base then objSet 0x5100 5 ((objGet s1 0x5100 5 + 1) % 65536) s1 else s1

/-- PLATE_SWITCH_ADD (R329). -/
def switchAdd (new : Nat) (s : State) : State :=
  match plateSlot s new 3 with
  | none => treadleFault 0x6020 new s
  | some i =>
    if 16 ≤ (inForce s).length then treadleFault 0x6020 new s
    else countSwitch false (loadPut i { loadAt s i with state := 4 }
      (enterForce (inForce s ++ [forceEntry (loadRecord s i)]) (loadRecord s i) s))

/-- PLATE_SWITCH_REMOVE (R329). -/
def switchRemove (old : Nat) (s : State) : State :=
  match plateSlot s old 4, (inForce s).any (fun e => forceId e == old) with
  | some i, true =>
    countSwitch (recKind (loadRecord s i) == 1)
      (loadPut i { loadAt s i with state := 3 } (setForce ((inForce s).filter fun e => forceId e != old) s))
  | _, _ => treadleFault 0x6020 old s

/-- PLATE_SWITCH_REPLACE (R329). -/
def switchReplace (old new : Nat) (s : State) : State :=
  match plateSlot s old 4, plateSlot s new 3 with
  | some i, some j =>
    let a := loadRecord s i
    let b := loadRecord s j
    if recKind a ≠ recKind b || recLayout a ≠ recLayout b then treadleFault 0x6021 new s
    else
      let l := (inForce s).map fun e => if forceId e = old then forceEntry b else e
      countSwitch (recKind a == 1)
        (loadSet i Load.reset (octSet 0x5200 (0x10 + i) (zeros 128)
          (loadPut j { loadAt s j with state := 4, base := (loadAt s i).base } (enterForce l b s))))
  | _, _ => treadleFault 0x6020 old s

/-- The plate switch of a barrier's parameter block takes effect (R327). -/
def plateSwitch (params : Bytes) (s : State) : State :=
  let old := leAt params 48 4
  let new := leAt params 52 4
  match leAt params 46 2 with
  | 1 => switchAdd new s
  | 2 => switchReplace old new s
  | 3 => switchRemove old s
  | _ => s

end Sys2Proof.Machine
end

