-- ==== Sys2Proof/Machine/Ring.lean ====
section
/-! DEFINITION. The regions of port memory (R401), the result ring (R295, R370), result destinations (R418, R419) and the
transport packets that the module sends (R412, R413). -/

namespace Sys2Proof.Machine

/-! ## Port memory addresses (R401) -/

/-- The graph ring slot `i`, the result ring, the tracer ring, the sample buffers. -/
def graphSlot (i : Nat) : Nat := 0x2000000 + 0x80000 * i
def resultRing : Nat := 0x400000
def tracerRing : Nat := 0x100000
def sampleBuffer (d : Nat) : Nat := 0x180000 + 0x20000 * d

/-! ## Result destinations -/

/-- A result destination's entry (0x8102:01–08): enabled, data port, mask, match. -/
def destEntry (s : State) (d : Nat) : Bytes := octGet s 0x8102 (1 + d)
def destOn (e : Bytes) : Bool := bitOf (leAt e 0 1) 0
def destPort (e : Bytes) : Nat := leAt e 1 1
def destMatches (e : Bytes) (gid : Nat) : Bool := gid &&& leAt e 8 4 == leAt e 12 4

/-- A result destination's stream. -/
def destAt (s : State) (d : Nat) : Dest := s.ports.dests.getD d Dest.reset

/-- A result destination's stream set. -/
def destSet (d : Nat) (v : Dest) (s : State) : State :=
  { s with ports := { s.ports with dests := s.ports.dests.set d v } }

/-- Records of a destination sent so far (0x8102:19–20). -/
def destSent (s : State) (d : Nat) : Nat := objGet s 0x8102 (0x19 + d)

/-- The release index of a destination (R419). -/
def releaseIndex (s : State) (d : Nat) : Nat :=
  match (destAt s d).log[(destAt s d).acked]? with
  | some x => x.1
  | none => objGet s 0x5000 8

/-- A record at ring sequence `i` joins the streams of the destinations that match one of its graph identifiers. -/
def joinStreams (ids : List Nat) (i : Nat) (s : State) : State :=
  (List.range 8).foldl (fun s d =>
    let e := destEntry s d
    if destOn e && ids.any (destMatches e) then destSet d { destAt s d with log := (destAt s d).log ++ [(i, s.tick)] } s
    else s) s

/-! ## Result records (R295) -/

/-- A result record: its fields in the order of the table. -/
def resultRecord (kind status task gid first second stream seq : Nat) (digest payload : Bytes) : Bytes :=
  leBytes 1 kind ++ leBytes 1 status ++ leBytes 2 task ++ leBytes 4 gid ++ leBytes 8 first ++ leBytes 8 second
    ++ leBytes 2 stream ++ zeros 2 ++ leBytes 4 seq ++ slice digest 0 32 ++ slice payload 0 64

/-- Ring encryption of a stream record (R370), its own inverse: payload bytes 8 to 43, then the digest, under one
keystream from the IV of the record's sequence. -/
def ringSeal (s : State) (r : Bytes) : Bytes :=
  if s.sealedJob && leAt r 0 1 == 2 then
    let iv := beBytes 12 (pack [(32, 0x52494E47), (32, 0), (32, leAt r 28 4)])
    let x := aesCtr s.security.ringKey iv (slice r 72 36 ++ slice r 32 32)
    patch (patch r 72 (x.take 36)) 32 (x.drop 36)
  else r

/-- The address of a ring entry. -/
def ringAddr (i : Nat) : Nat := resultRing + 128 * (i % 65536)

/-- A record of graphs `ids` enters the result ring at the producer index, which advances (0x5000:08), and joins its
result streams. -/
def ringWrite (ids : List Nat) (r : Bytes) (s : State) : State :=
  let i := objGet s 0x5000 8
  let s1 := objSet 0x5000 8 ((i + 1) % 2 ^ 32) (portPut (ringAddr i) (ringSeal s r) s)
  joinStreams ids i { s1 with treadle := { s1.treadle with wrote := true } }

/-! ## Transport packets -/

/-- Whether session keys seal the data ports: states 3 and 4 (R366). -/
def portsSealed (s : State) : Bool := session s == 3 || session s == 4

/-- A transport header (R412). -/
def transportBytes (h : Transport) : Bytes :=
  leBytes 4 h.magic.toNat ++ leBytes 1 h.version.toNat ++ leBytes 1 h.ptype.toNat ++ leBytes 1 h.flags.toNat
    ++ leBytes 1 h.items.toNat ++ leBytes 4 h.stream.toNat ++ leBytes 4 h.rsvd.toNat ++ leBytes 8 h.seq.toNat
    ++ leBytes 8 h.target.toNat ++ leBytes 8 h.ref.toNat

/-- The magic of a transport header: ASCII "CHDT". -/
def transportMagic : Nat := leNat (ascii "CHDT")

/-- The IV of a data port packet. -/
def packetIv (stream seq : Nat) : Bytes := beBytes 12 (pack [(32, stream), (64, seq)])

/-- The header of a packet that the module sends. -/
def packetHeader (secret : Bool) (ptype items stream seq target ref : Nat) : Transport where
  magic   := BitVec.ofNat 32 transportMagic
  version := 1
  ptype   := BitVec.ofNat 8 ptype
  flags   := if secret then 1 else 0
  items   := BitVec.ofNat 8 items
  stream  := BitVec.ofNat 32 stream
  rsvd    := 0
  seq     := BitVec.ofNat 64 seq
  target  := BitVec.ofNat 64 target
  ref     := BitVec.ofNat 64 ref

/-- The bytes of a packet that the module sends, sealed under the result key where session keys are in force. -/
def packetBytes (s : State) (ptype items stream seq target ref : Nat) (body : Bytes) : Bytes :=
  let h := packetHeader (portsSealed s) ptype items stream seq target ref
  if portsSealed s then
    let x := gcmSeal s.security.resKey (packetIv stream seq) (transportBytes h) body
    transportBytes h ++ x.1 ++ x.2
  else transportBytes h ++ body

/-- A fault of a data port: its die is C1 or C2 and its index 0 (R336). -/
def portFault (code p detail : Nat) (s : State) : State := raiseFault code (unitSite 2 (p + 1) 0 detail) s

/-- From session state 3 on sampling stops (R435): the enable is 0, the four buffers are cleared, each read index equals
its write index. -/
def stopSampling (s : State) : State :=
  let s1 := (List.range 4).foldl (fun s d => objSet 0x7100 (6 + d) (objGet s 0x7100 (2 + d)) s) (objSet 0x7100 1 0 s)
  { s1 with
    pmem := s1.pmem.filter fun c => decide (c.1 < sampleBuffer 0) || decide (sampleBuffer 4 ≤ c.1)
    counting := { s1.counting with samples := [], dropped := List.replicate 4 false } }

end Sys2Proof.Machine
end

