-- ==== Sys2Proof/Machine/Treadle.lean ====
section
/-! DEFINITION. The treadle: the graph ring and its scan (R278 to R287), notices (R285), broadcast words (R288, R289),
the dispatch rule (R281, R290 to R293). -/

namespace Sys2Proof.Machine

/-! ## Task records -/

/-- A task record decoded; `rsvd` tells of a reserved field or value that is not 0. -/
def taskRecOf (b : Bytes) : TaskRec where
  sched  := leAt b 0 2
  group  := bits (leAt b 2 1) 0 4
  kind   := bits (leAt b 2 1) 4 2
  prio   := bits (leAt b 3 1) 0 3
  npred  := bits (leAt b 3 1) 3 4
  gword  := bits (leAt b 4 1) 0 4
  gmode  := bits (leAt b 4 1) 4 2
  mask   := leAt b 6 2
  preds  := (List.range 8).map fun i => leAt b (8 + 2 * i) 2
  params := slice b 32 64
  rsvd   :=
    let barrier := bits (leAt b 2 1) 4 2 == 1
    let n := bits (leAt b 3 1) 3 4
    leAt b 2 1 ≥ 64 || 2 ≤ bits (leAt b 2 1) 4 2 || leAt b 3 1 ≥ 128 || leAt b 4 1 ≥ 64 || bits (leAt b 4 1) 4 2 == 3
      || leAt b 5 1 != 0 || !allZero (slice b 24 8)
      || n ≤ 8 && (List.range 8).any (fun i => n ≤ i && leAt b (8 + 2 * i) 2 != 0)
      || (List.range 4).any (fun w => 2 ^ 22 ≤ leAt b (32 + 4 * w) 4)
      || (if barrier then leAt b 0 2 != 0 || 3 < leAt b 78 2 || !allZero (slice b 88 8) else leAt b 6 2 != 0)

/-- The stream count of a task; a barrier has none. -/
def streamCount (r : TaskRec) : Nat := if r.kind = 1 then 0 else leAt r.params 32 2

/-- Whether replay and lineage mode are on (0x6200:01). -/
def replayOn (s : State) : Bool := bitOf (objGet s 0x6200 1) 0
def lineageOn (s : State) : Bool := bitOf (objGet s 0x6200 1) 1

/-- The result demand of a graph's tasks (R294). -/
def resultDemand (replay : Bool) (rs : List TaskRec) : Nat :=
  1 + ((rs.filter (·.kind != 1)).map fun r => 1 + streamCount r).foldl (· + ·) 0 + flag replay

/-- A schedule of the loaded pattern. -/
def schedAt (s : State) (i : Nat) : Option Schedule := s.pattern.bind fun p => p.scheds[i]?

/-- The refusal status of a graph, checked in the table's order; `none` when it is admitted (R284). -/
def graphRefusal (s : State) (hdr : Bytes) (rs : List TaskRec) : Option Nat :=
  let n := leAt hdr 8 2
  if n = 0 || 4096 < n || !allZero (slice hdr 10 54) || rs.any (·.rsvd) then some 0x10
  else if rs.any (fun r => r.kind == 0 && (match schedAt s r.sched with | none => true | some d => d.group != r.group))
    then some 0x11
  else if rs.zipIdx.any (fun x => 8 < x.1.npred || (x.1.preds.take x.1.npred).any (x.2 ≤ ·)) then some 0x12
  else if rs.any (fun r => r.kind == 1 && (r.mask == 0 || r.gmode != 0)) then some 0x13
  else if 65535 < resultDemand (replayOn s) rs then some 0x14
  else none

/-! ## Tasks -/

/-- The end SP of a task that has ended, been skipped, or runs to a known end (R290). -/
def taskEnd (k : Task) : Option Nat :=
  match k.state with
  | .waiting => none
  | .running _ b => some b
  | .ended _ b _ => some b
  | .skipped a => some a

/-- Whether a task has ended or been skipped by SP `t`. -/
def endedBy (t : Nat) (k : Task) : Bool := match taskEnd k with | none => false | some e => decide (e ≤ t)

/-- The place of a task in admission order: rank, then index (R287). -/
def earlier (a b : Task) : Bool :=
  decide (a.admSp < b.admSp) || a.admSp == b.admSp && (decide (a.scanPos < b.scanPos)
    || a.scanPos == b.scanPos && decide (a.index < b.index))

/-- The predecessors of a task. -/
def predsOf (ts : List Task) (k : Task) : List Task :=
  (k.rec_.preds.take k.rec_.npred).filterMap fun i => ts.find? fun p => p.graphSeq == k.graphSeq && p.index == i

/-- Whether all predecessors of a task have ended by SP `u` (R290). -/
def predsDone (ts : List Task) (k : Task) (u : Nat) : Bool :=
  (predsOf ts k).length == min k.rec_.npred 8 && (predsOf ts k).all (endedBy u)

/-- Whether a barrier that is not ended blocks a task (R281). -/
def blockedBy (ts : List Task) (k : Task) : Bool :=
  ts.any fun b => b.rec_.kind == 1 && (taskEnd b).isNone && bitOf b.rec_.mask k.rec_.group && earlier b k

/-- Whether a barrier can end at `t` (R281). -/
def barrierCanEnd (ts : List Task) (b : Task) (t : Nat) : Bool :=
  predsDone ts b t && ts.all fun k => k.rec_.kind == 1 || !bitOf b.rec_.mask k.rec_.group || !earlier k b || endedBy t k

/-- The effect SPs of a task's publications of a word (R288, R289); a task of bad base has issued no bundle (R293). -/
def publications (s : State) (k : Task) (w : Nat) : List Nat :=
  match k.state with
  | .ended _ _ 2 => []
  | .running u _ | .ended u _ _ =>
    match schedAt s k.rec_.sched with
    | none => []
    | some d => (d.pubs.filter (·.2 == w)).map fun p => u + p.1 + admitHorizon s
  | _ => []

/-- Whether the guard word of a task is settled at `t` (R290). -/
def guardSettled (s : State) (k : Task) (t : Nat) : Bool :=
  (predsOf s.treadle.tasks k).all fun p => p.rec_.kind == 1 || (publications s p k.rec_.gword).all (· ≤ t)

/-- Whether a task's guard holds. -/
def guardHolds (s : State) (k : Task) : Bool :=
  let v := s.treadle.words.getD k.rec_.gword 0
  if k.rec_.gmode = 1 then v != 0 else if k.rec_.gmode = 2 then v == 0 else true

/-- The tasks replaced. -/
def withTasks (ts : List Task) (s : State) : State := { s with treadle := { s.treadle with tasks := ts } }

/-- A task's state replaced. -/
def setTask (i : Nat) (st : TaskState) (s : State) : State :=
  withTasks (s.treadle.tasks.mapIdx fun j k => if j = i then { k with state := st } else k) s

/-! ## Evaluation (R291) -/

/-- Task `i` is skipped, or as a barrier ends, where evaluation `t` settles it so. -/
def settleTask (t : Nat) (s : State) (i : Nat) : State :=
  match s.treadle.tasks[i]? with
  | none => s
  | some k =>
    if k.state ≠ .waiting || t < k.effect then s
    else if k.rec_.kind = 1 then
      if barrierCanEnd s.treadle.tasks k t then plateSwitch k.rec_.params (setTask i (.ended t t 0) s) else s
    else if k.rec_.gmode ≠ 0 && predsDone s.treadle.tasks k t && !blockedBy s.treadle.tasks k && guardSettled s k t
        && !guardHolds s k then
      countModule 0x12 1 (bump 0x5000 0xC 1 (setTask i (.skipped t) s))
    else s

/-- Skips and barriers settle: passes over all tasks until one changes nothing. -/
def settleGo : Nat → Nat → State → State
  | 0, _, s => s
  | n + 1, t, s =>
    let s1 := (List.range s.treadle.tasks.length).foldl (settleTask t) s
    if s1.treadle.tasks = s.treadle.tasks then s1 else settleGo n t s1

/-- The SP in which group `g` can start a task, by evaluation `t`: idle start, next start (R291). -/
def startSp (ts : List Task) (g t : Nat) : Option Nat :=
  let spans := ts.filterMap fun k => match k.state with
    | .running a b => if k.rec_.group = g then some (a, b) else none
    | _ => none
  if !spans.any (fun x => x.1 ≤ t && t < x.2) then some t
  else if spans.any (fun x => x.2 == t + 1) then some (t + 1) else none

/-- Whether a task is ready for a start in SP `u` (R290). -/
def taskReady (s : State) (g t u : Nat) (k : Task) : Bool :=
  k.state == .waiting && k.rec_.kind == 0 && k.rec_.group == g && k.effect ≤ t && predsDone s.treadle.tasks k u
    && !blockedBy s.treadle.tasks k && (k.rec_.gmode == 0 || guardSettled s k t && guardHolds s k)

/-- Whether a task goes before another for its group: priority, rank, index (R291). -/
def goesBefore (a b : Task) : Bool :=
  decide (b.rec_.prio < a.rec_.prio) || a.rec_.prio == b.rec_.prio && earlier a b

/-- Whether a task's base words fail R76 or R95 (R293). -/
def badBase (s : State) (k : Task) : Bool :=
  let ext := match s.pattern with | none => [] | some p => p.extents.getD k.rec_.group []
  (List.range 4).any fun w =>
    let a := leAt k.rec_.params (4 * w) 4
    spaceRows (addrSpace a) < addrRow a + nat ext w || addrSpace a == 1 && addrRow a % 24 != 0

/-- The tiles of a group (R276). -/
def groupTiles (s : State) (g : Nat) : List Nat := (List.range 768).filter fun t => groupOf s t == g

/-- The shadow registers of a group's tiles take a task's base words, parameter block and seed (R282, R202). -/
def loadShadows (g : Nat) (params : Bytes) (seed : BitVec 128) (s : State) : State :=
  (groupTiles s g).foldl (fun s t => tileSet t { tileAt s t with
    shBase := (List.range 4).map fun w => BitVec.ofNat 32 (leAt params (4 * w) 4)
    shParams := slice params 0 64, shSeed := seed, shReady := false } s) s

/-- The publications that a started task makes are expected, but for those already received (R289). -/
def expectWords (k : Task) (u : Nat) (s : State) : State :=
  match schedAt s k.rec_.sched with
  | none => s
  | some d =>
    let a := admitHorizon s
    let es := d.pubs.map fun p => (p.2, u + p.1 + a, u + p.1 + a - horizon s - 1)
    let new := es.filter fun e => !s.treadle.got.contains (e.1, e.2.1)
    { s with treadle := { s.treadle with expects := s.treadle.expects ++ new } }

/-- Task `i` is given group `g` from SP `u` on (R282, R291, R293). -/
def startTask (i g u : Nat) (k : Task) (s : State) : State :=
  if badBase s k then setTask i (.ended u u 2) s
  else
    let len := ((schedAt s k.rec_.sched).map (·.length)).getD 1
    let s1 := setTask i (.running u (u + len)) s
    if replayOn s then expectWords k u (loadShadows g k.rec_.params (BitVec.ofNat 128 (leAt k.rec_.params 16 16)) s1)
    else expectWords k u (loadShadows g k.rec_.params (Config.entropySeed s1.free)
      (bump 0x3300 3 1 { s1 with free := s1.free + 1 }))

/-- The evaluation's choice for group `g`. -/
def dispatchGroup (t : Nat) (s : State) (g : Nat) : State :=
  match startSp s.treadle.tasks g t with
  | none => s
  | some u =>
    let best := s.treadle.tasks.zipIdx.foldl (fun (b : Option (Task × Nat)) x =>
      if !taskReady s g t u x.1 then b else match b with
        | none => some x
        | some y => if goesBefore x.1 y.1 then some x else some y) none
    match best with
    | none => s
    | some (k, i) => startTask i g u k s

/-- Tasks whose end SP has come have ended. -/
def closeTasks (t : Nat) (s : State) : State :=
  withTasks (s.treadle.tasks.map fun k => match k.state with
    | .running a b => if b ≤ t then { k with state := .ended a b 0 } else k
    | _ => k) s

/-- Whether a graph still has a task that has not ended by SP `t`. -/
def graphOpen (s : State) (t : Nat) (g : Graph) : Bool :=
  let ks := s.treadle.tasks.filter (·.graphSeq == g.seq)
  decide (ks.length < g.tasks) || ks.any fun k => !endedBy t k

/-- Live graphs and busy groups shown (0x5000:07, 0x5000:0E). -/
def showTreadle (t : Nat) (s : State) : State :=
  let live := (s.treadle.graphs.filter fun g => g.effect ≤ t && graphOpen s t g).length
  let runs := fun (k : Task) => match k.state with
    | .running a b => decide (a ≤ t ∧ t < b)
    | _ => false
  let busy := ((List.range 16).map fun g =>
    flag (s.treadle.tasks.any fun k => k.rec_.group == g && runs k) * 2 ^ g).foldl (· + ·) 0
  objSet 0x5000 7 live (objSet 0x5000 0xE busy s)

/-- TREADLE_EVALUATION at the boundary that begins SP `t` (R291). -/
def evaluate (t : Nat) (s : State) : State :=
  let s1 := closeTasks t s
  let s2 := settleGo (s1.treadle.tasks.length + 1) t s1
  showTreadle t ((List.range 16).foldl (dispatchGroup t) s2)

/-- The tasks, by place, whose first SP is `t`. -/
def startsAt (t : Nat) (s : State) : List Nat :=
  (s.treadle.tasks.zipIdx.filter fun k => match k.1.state with
    | .running a _ => a == t
    | _ => false).map (·.2)

/-- TASK_START (R282): the tasks of some places begin; an overrunning tile begins its schedule once it has ended the one
before (R32). -/
def beginTasks (due : List Nat) (s : State) : State :=
  let hash := forceHash s
  let s1 := withTasks (s.treadle.tasks.mapIdx fun i k => if due.contains i then { k with plates := hash } else k) s
  (due.filterMap fun i => s1.treadle.tasks[i]?).foldl (fun s k =>
    (groupTiles s k.rec_.group).foldl (fun s i =>
        let tile := tileAt s i
        if tile.seq.running && !tile.seq.waiting then
          tileSet i { tile with seq := { tile.seq with next := some k.rec_.sched } } s
        else onTile i s.cycle0 (fun s tile => beginTask i (tile.count s.cycle0) k.rec_.sched tile) s)
      (countModule 0x11 1 (bump 0x5000 0xB 1 s))) s1

/-- The starts of SP `t`: first the tasks that the evaluation before chose, whose shadows the new evaluation may load
anew, then the evaluation and its idle starts (R282, R291). -/
def startTasks (t : Nat) (s : State) : State :=
  let next := startsAt t s
  let s1 := evaluate t (beginTasks next s)
  beginTasks ((startsAt t s1).filter fun i => !next.contains i) s1

/-! ## Broadcast words take effect (R288, R289) -/

/-- BROADCAST_WORD_EFFECT: the words whose effect SP begins are in force, with their flags on every tile. -/
def wordsEffect (s : State) : State :=
  let due := (s.treadle.pending.filter (·.effect ≤ s.sp)).mergeSort fun a b => a.effect ≤ b.effect
  let s1 := { s with treadle := { s.treadle with pending := s.treadle.pending.filter (s.sp < ·.effect) } }
  due.foldl (fun s w =>
    let s2 := objSet 0x5000 (0x10 + w.word) w.value.toNat
      { s with treadle := { s.treadle with words := s.treadle.words.set w.word (w.value) } }
    let bit : BitVec 32 := 1#32 <<< (16 + w.word)
    (List.range 768).foldl (fun s t =>
      let tile := tileAt s t
      tileSet t { tile with flags := if w.value.toNat = 0 then tile.flags &&& ~~~bit else tile.flags ||| bit } s) s2) s1

/-- PUBLICATION_MISSING: expected publications not received by the end of landing pick `p` (R289). -/
def missingWords (p : Nat) (s : State) : State :=
  let late := s.treadle.expects.filter (·.2.2 ≤ p)
  late.foldl (fun s e => unitHold 0xD 4 0 p 1 1 (awaitItems [.word e.1 e.2.1] s))
    { s with treadle := { s.treadle with expects := s.treadle.expects.filter (p < ·.2.2) } }

/-! ## Receiving notices (R285) -/

/-- The admission of a pick. -/
def admissionAt (s : State) (a : Nat) : Admission :=
  (s.treadle.admits.find? (·.admSp == a)).getD { admSp := a, summary := none, graphs := 0, notices := 0 }

/-- The admission of a pick set; once it is complete a hold no longer awaits it (R45). -/
def setAdmission (x : Admission) (s : State) : State :=
  let s1 := { s with treadle := { s.treadle with admits := s.treadle.admits.filter (·.admSp != x.admSp) ++ [x] } }
  if admitComplete s1 x.admSp then itemLanded (.records x.admSp) s1 else s1

/-- A graph becomes known. -/
def addGraph (seq id tasks admSp scanPos : Nat) (s : State) : State :=
  let g : Graph := { seq := seq, id := id, tasks := tasks, admSp := admSp, scanPos := scanPos,
                     effect := admSp + admitHorizon s, recorded := false }
  let x := admissionAt s admSp
  setAdmission { x with graphs := x.graphs + 1 } { s with treadle := { s.treadle with graphs := s.treadle.graphs ++ [g] } }

/-- Task records become known, the first with index `first`. -/
def addTasks (seq admSp scanPos first : Nat) (rs : List TaskRec) (s : State) : State :=
  let gid := ((s.treadle.graphs.find? (·.seq == seq)).map (·.id)).getD 0
  let ks := rs.mapIdx fun i r =>
    ({ graphSeq := seq, graphId := gid, index := first + i, admSp := admSp, scanPos := scanPos,
       effect := admSp + admitHorizon s, rec_ := r, state := .waiting, plates := [], recorded := false } : Task)
  let x := admissionAt s admSp
  setAdmission { x with notices := x.notices + 1 } { s with treadle := { s.treadle with tasks := s.treadle.tasks ++ ks } }

/-- The scan summary of a pick; a pace floor sent with it takes effect at its SP q (R47). -/
def takeSummary (admSp graphs notices floor : Nat) (s : State) : State :=
  let x := admissionAt s admSp
  let s1 := setAdmission { x with summary := some (graphs, notices) } s
  if floor = 0 then s1
  else { s1 with hold := { s1.hold with
    paces := s1.hold.paces ++ [{ effect := admSp + admitHorizon s1, sender := none, value := floor }] } }

/-- A snapshot is announced for SP `e` (R428). -/
def announceSnap (e : Nat) (s : State) : State :=
  objSet 0x7000 4 1 { s with treadle := { s.treadle with snapAt := some e } }

/-- The item of a scan summary (R285); the byte that carries a pace floor (R47) is the model's choice. -/
def summaryItem (graphs notices floor : Nat) : Bytes :=
  leBytes 1 graphs ++ leBytes 1 floor ++ zeros 2 ++ leBytes 4 notices

/-- The records of a task-record notice, five at most. -/
def noticeRecs (recs : List Bytes) : List Bytes := (recs.take 5).map fun b => slice b 0 96

/-- The type, item count and items of a notice (R285). -/
def noticeRow : Notice → Nat × Nat × Bytes
  | .graph b => (1, 1, slice b 0 64)
  | .tasks recs => (2, (noticeRecs recs).length, (noticeRecs recs).flatten)
  | .summary g n f => (3, 1, summaryItem g n f)
  | .word w v m t => (4, 1, wordItem w.val v m t)
  | .snapshot e => (5, 1, leBytes 8 e)

/-- What a notice does to the treadle. -/
def noticeEffect (h : NoticeHdr) (n : Notice) (s : State) : State :=
  match n with
  | .graph b => addGraph h.graphSeq (leAt b 4 4) (leAt b 8 2) h.sp h.scanPos s
  | .tasks recs => addTasks h.graphSeq h.sp h.scanPos h.first ((noticeRecs recs).map taskRecOf) s
  | .summary g n f => takeSummary h.sp g n f s
  | .word w v _ _ => takeWord w.val v h.sp s
  | .snapshot e => announceSnap e s

/-- A notice reaches the treadle: a gap in its sender's sequence is fault 0x6003; otherwise it has its effect. -/
def takeNotice (h : NoticeHdr) (n : Notice) (s : State) : State :=
  let want := mget 0 s.treadle.seqs (coordNat h.sender)
  if !holdLive s then s
  else if h.seq.toNat ≠ want then treadleFault 0x6003 h.seq.toNat s
  else noticeEffect h n { s with treadle := { s.treadle with
    seqs := mset 0 s.treadle.seqs (coordNat h.sender) ((want + 1) % 2 ^ 32) } }

/-- Notices that have reached C0 through the mesh. -/
def takeNotices (s : State) : State :=
  s.net.arrived.foldl (fun s o => match o with
    | .noticeIn h n => takeNotice h n s
    | _ => s) { s with net := { s.net with arrived := s.net.arrived.filter fun o => match o with
      | .noticeIn _ _ => false
      | _ => true } }

/-- A received notice goes from the port's router to the treadle and on its tree (R245), as one packet of the die it
entered, against whose budget it counts (R244); a frame that cannot be corrected is requested again (R240). -/
def enterNotice (h : NoticeHdr) (n : Notice) (s : State) : State :=
  let r := noticeRow n
  if !linkLive s then s
  else receive h.rx (fun s => takeNotices (inject (h.rx.link.val / 9) 2 9
    (.noticeIn h n :: relayNotice s r.1 r.2.1 h r.2.2) s)) s

/-- GRAPH_HEADER (R285). -/
def execGraphHeader (h : NoticeHdr) (graph : Bytes) (s : State) : Host.Outcome State Fault Refusal :=
  .next (enterNotice h (.graph graph) s)

/-- TASK_RECORDS (R285). -/
def execTaskRecords (h : NoticeHdr) (recs : List Bytes) (s : State) : Host.Outcome State Fault Refusal :=
  .next (enterNotice h (.tasks recs) s)

/-- SCAN_SUMMARY (R285). -/
def execScanSummary (h : NoticeHdr) (graphs recNotices floor : Nat) (s : State) : Host.Outcome State Fault Refusal :=
  .next (enterNotice h (.summary graphs recNotices floor) s)

/-- BROADCAST_WORD (R288). -/
def execBroadcastWord (h : NoticeHdr) (word : Fin 16) (value : BitVec 64) (pubModule : Coord) (pubTile : Nat)
    (s : State) : Host.Outcome State Fault Refusal :=
  .next (enterNotice h (.word word value pubModule pubTile) s)

/-- SNAPSHOT_COMMAND (R428). -/
def execSnapshotCommand (h : NoticeHdr) (effectSp : Nat) (s : State) : Host.Outcome State Fault Refusal :=
  .next (enterNotice h (.snapshot effectSp) s)

/-! ## Class B on its way (R221) -/

/-- What has crossed the mesh reaches its unit. -/
def settleArrived (s : State) : State := sendAcks (takeNotices (takeChains (takeWords (takeStaging (takeLandings s)))))

/-! ## The scan (R284) -/

/-- Bytes of a graph ring slot. -/
def slotGet (s : State) (seq o n : Nat) : Bytes := portGet s (graphSlot ((seq + 63) % 64) + o) n

/-- The unwritten result demand of the graphs admitted (R294). -/
def owedEntries (s : State) : Nat :=
  ((s.treadle.graphs.filter fun g => !g.recorded).map fun g =>
    1 + ((s.treadle.tasks.filter fun k => k.graphSeq == g.seq && !k.recorded && k.rec_.kind != 1).map
      fun k => 1 + streamCount k.rec_).foldl (· + ·) 0).foldl (· + ·) 0

/-- Free entries of the result ring. -/
def freeEntries (s : State) : Nat := 65536 - (objGet s 0x5000 8 + 2 ^ 32 - objGet s 0x5000 9) % 2 ^ 32

/-- Lists of at most five. -/
def fives {α : Type} : Nat → List α → List (List α)
  | 0, _ => []
  | n + 1, l => if l.isEmpty then [] else l.take 5 :: fives n (l.drop 5)

/-- A refused graph (R284): its refusal record, nothing sent. -/
def refuseGraph (seq gid status : Nat) (s : State) : State :=
  bump 0x5000 0xD 1 (ringWrite [gid] (resultRecord 5 status 0 gid 0 0 0 (objGet s 0x5000 8) [] (leBytes 4 seq)) s)

/-- An admitted graph (R285): known to the lead, its header and task records sent. -/
def admitGraph (a seq pos : Nat) (hdr : Bytes) (raws : List Bytes) (s : State) : State :=
  let s1 := addGraph seq (leAt hdr 4 4) raws.length a pos (sendNotice 1 1 a seq 0 pos hdr s)
  countModule 0x10 1 ((fives raws.length raws).zipIdx.foldl (fun s x =>
    addTasks seq a pos (5 * x.2) (x.1.map taskRecOf) (sendNotice 2 x.1.length a seq (5 * x.2) pos x.1.flatten s)) s1)

/-- The graphs of a scan that has taken `pos` graphs, of `tasks` tasks, and admitted `ids`, with `n` task-record
notices: what the scan takes from there on, up to 16 graphs. -/
def scanGo : Nat → Nat → Nat → Nat → List Nat → Nat → State → State × List Nat × Nat
  | 0, _, _, _, ids, n, s => (s, ids, n)
  | k + 1, a, pos, tasks, ids, n, s =>
    let seq := objGet s 0x5000 5
    let hdr := slotGet s seq 0 64
    let count := leAt hdr 8 2
    let stay := (s, ids, n)
    if leAt hdr 0 4 ≠ seq then stay
    else if 0 < pos && objGet s 0x5000 3 < tasks + count then stay
    else
      let raws := if 4096 < count then [] else (List.range count).map fun i => slotGet s seq (64 + 96 * i) 96
      let bad := graphRefusal s hdr (raws.map taskRecOf)
      let need := if bad.isSome then 1 else resultDemand (replayOn s) (raws.map taskRecOf)
      let live := (s.treadle.graphs.filter (graphOpen s a)).length
      if bad.isNone && 64 ≤ live || freeEntries s < owedEntries s + flag (replayOn s) * ids.length + need then stay
      else
        let s1 := objSet 0x5000 5 ((seq + 1) % 2 ^ 32) (objSet 0x5000 6 (seq % 64) s)
        match bad with
        | some st => scanGo k a (pos + 1) (tasks + count) ids n (refuseGraph seq (leAt hdr 4 4) st s1)
        | none => scanGo k a (pos + 1) (tasks + count) (ids ++ [leAt hdr 4 4]) (n + (count + 4) / 5)
            (admitGraph a seq pos hdr raws s1)

/-- The scan of admission pick `a` by the lead treadle: graphs, the admission note (R81), a snapshot command (R428),
the summary with a pace floor (R47). -/
def scanRing (a : Nat) (s : State) : State :=
  let r := scanGo 16 a 0 0 [] 0 s
  let q := a + admitHorizon s
  let s1 := if replayOn s && r.2.1 ≠ [] then
      bump 0x6200 3 1 (ringWrite r.2.1
        (resultRecord 4 0 0 0 a q 0 (objGet r.1 0x5000 8) [] (r.2.1.map (leBytes 4)).flatten) r.1)
    else r.1
  let s2 := match s1.treadle.snapReq with
    | none => s1
    | some e0 =>
      let e := max e0 q
      announceSnap e (sendNotice 5 1 a 0 0 0 (leBytes 8 e)
        { s1 with treadle := { s1.treadle with snapReq := none } })
  let floor := s2.treadle.floorReq.getD 0
  takeSummary a r.2.1.length r.2.2 floor
    (sendNotice 3 1 a 0 0 0 (summaryItem r.2.1.length r.2.2 floor)
      { s2 with treadle := { s2.treadle with floorReq := none } })

/-- ADMISSION_SCAN (R284): the lead's treadle at an SP that is a multiple of 16, once. -/
def execAdmissionScan (s : State) : Host.Outcome State Fault Refusal :=
  .next (if holdLive s && s.started && !s.hold.held && isLead s && s.sp % 16 == 0
      && (admissionAt s s.sp).summary.isNone
    then scanRing s.sp s else s)

/-- The notice row of a class B frame for a link. -/
def noticeOf (o : Output) : Option Bytes :=
  match o with
  | .classB _ _ f => if f.kind = .notice then some f.row.data else none
  | _ => none

/-- The notices of types 0x1 to 0x3 of an admission pick that the module has still to send, each once: those that wait at
C0's injection point and those that wait at a link's port (R44). -/
def unsentNotices (s : State) (a : Nat) : List Bytes :=
  let here := (s.net.waiting.getD 1 []).flatMap fun w => w.items.filterMap noticeOf
  let ports := s.links.flatMap fun l => l.2.bulk.filterMap fun x => if x.2.2.kind = .notice then some x.2.2.row.data else none
  let mine := (here ++ ports).filter fun b => leAt b 8 8 == a && [1, 2, 3].contains (leAt b 0 1)
  mine.foldl (fun acc b => if acc.any fun x => leAt x 4 4 == leAt b 4 4 then acc else acc ++ [b]) []

/-- The records that some notices carry: a graph header is one, a summary none (R44, R285). -/
def recordsIn (ns : List Bytes) : Nat := (ns.map fun b => if leAt b 0 1 = 3 then 0 else leAt b 1 1).foldl (· + ·) 0

/-- ADMISSION_LATE (R44): at the end of SP a + A − H − 1 records of `a`, or its summary, are still to be sent; the argument
is the number of records. -/
def execAdmissionLate (s : State) : Host.Outcome State Fault Refusal :=
  let a := s.sp + horizon s + 1 - admitHorizon s
  let ns := unsentNotices s a
  .next (if holdLive s && isLead s && admitHorizon s ≤ s.sp + horizon s + 1 && a % 16 == 0 && !ns.isEmpty
      && !s.treadle.lateAt.contains a
    then bump 0x5000 0xF 1 (unitHold 0xD 4 0 s.sp 4 (min 1023 (recordsIn ns))
      { s with treadle := { s.treadle with lateAt := s.treadle.lateAt ++ [a] } })
    else s)

/-- RECORDS_MISSING (R45): at the end of SP q − 1 an admission is incomplete: fault 0x5006, unless the
treadle has had a HOLD with reason 0x04 for its records, which then keep it from releasing. -/
def execRecordsMissing (s : State) : Host.Outcome State Fault Refusal :=
  let a := s.sp + 1 - admitHorizon s
  .next (if holdLive s && s.started && admitHorizon s ≤ s.sp + 1 && a % 16 == 0 && !admitComplete s a
      && !s.hold.awaited.contains (.records a)
    then treadleFault 0x5006 a s else s)

end Sys2Proof.Machine
end

