-- ==== Sys2Proof/Machine/Results.lean ====
section
/-! DEFINITION. Result records of ended tasks (R283, R295, R310), lineage digests (R83, R84), and what a safe stop
withdraws from the ring (R296, R343, R344). -/

namespace Sys2Proof.Machine

/-! ## Background reads (R99) -/

/-- A background read of a row through the correction stage (R99, R105 to R108): its data, and what the read does. A row
address outside the column reads as zeros. -/
def backRead (a : Nat) (s : State) : Bytes × State :=
  if (addrTile a).isNone || spaceRows (addrSpace a) ≤ addrRow a then (zeros 512, s)
  else ((backRow a s).1.data, (backRow a s).2)

/-- Background reads of `n` rows from a row address, their data in order. -/
def backReads (a n : Nat) (s : State) : Bytes × State :=
  let r := (List.range n).foldl (fun (x : List Bytes × State) i =>
    let y := backRead (a + i) x.2
    (y.1 :: x.1, y.2)) ([], s)
  (r.1.reverse.flatten, r.2)

/-- A background write of row data with tag 0 and a fresh proof word. -/
def backPut (a : Nat) (data : Bytes) (s : State) : State := backStore a (freshFrame data 0) s

/-! ## Lineage (R83, R84) -/

/-- The result tile of a parameter block and rows of its beam column. -/
def resultTile (p : Bytes) : Nat := 24 * leAt p 35 1 + leAt p 34 1
def resultRow (p : Bytes) (r : Nat) : Option Nat :=
  if leAt p 34 1 < 24 && leAt p 35 1 < 32 && r < 737280 then some (rowAddr (resultTile p) 1 r) else none

/-- Whether 0x6200:06 names a lineage table: a row of the beam. Its default 0 names none. -/
def lineageNamed (s : State) : Bool := addrSpace (objGet s 0x6200 6) == 1

/-- The row that holds an entry of the lineage table, and its place in the row. -/
def lineageRow (s : State) (key : Nat) : Nat := objGet s 0x6200 6 + key / 16
def lineagePlace (key : Nat) : Nat := 32 * (key % 16)

/-- The lineage key of stream `i` of a task: the stream identifier of a step task's stream entry, otherwise the stream
number (R84). -/
def lineageKey (k : Task) (i : Nat) (s : State) : Nat × State :=
  match (s.pattern.map (·.steps)).getD [] |>.lookup k.rec_.sched with
  | none => (i, s)
  | some t =>
    let w := leAt k.rec_.params 0 4
    let r := backRead (rowAddr t (addrSpace w) (addrRow w + i / 16)) s
    (leAt r.1 (32 * (i % 16) + 28) 2, r.2)

/-- The lineage message (R83). -/
def lineageMessage (s : State) (k : Task) (input prior : Bytes) (key : Nat) : Bytes :=
  let p := s.pattern
  ascii "CHROPA-LINEAGE-1" ++ slice ((p.map (·.hash)).getD []) 0 32 ++ slice k.plates 0 32 ++ input ++ prior
    ++ leBytes 8 k.admSp ++ leBytes 2 k.index ++ leBytes 2 key
    ++ leBytes 1 (match s.ident.stepping with | .A0 => 0 | .B0 => 1) ++ leBytes 1 ((p.map (·.numeric)).getD 0)
    ++ leBytes 1 ((p.map (·.latency)).getD 0) ++ leBytes 1 s.hold.floor0

/-- The row of the lineage table with a key's entry, zeros where no table is named. -/
def lineageRead (key : Nat) (s : State) : Bytes × State :=
  if lineageNamed s then backRead (lineageRow s key) s else (zeros 512, s)

/-- A key's entry of the lineage table written, where a table is named. -/
def lineagePut (key : Nat) (row d : Bytes) (s : State) : State :=
  if lineageNamed s then backPut (lineageRow s key) (patch row (lineagePlace key) d) s else s

/-- The lineage digest of stream `i` of a task, written back to the lineage table; zeros outside lineage mode. -/
def lineageDigest (k : Task) (i : Nat) (input : Bytes) (s : State) : Bytes × State :=
  if !lineageOn s then (zeros 32, s)
  else
    let key := lineageKey k i s
    let row := lineageRead key.1 key.2
    let d := sha256 (lineageMessage row.2 k input (slice row.1 (lineagePlace key.1) 32) key.1)
    (d, bump 0x6200 2 1 (lineagePut key.1 row.1 d row.2))

/-- The input hash of a task (R83). -/
def inputHash (p : Bytes) (s : State) : Bytes × State :=
  match resultRow p (leAt p 40 4) with
  | none => (sha256 [], s)
  | some a =>
    let r := backReads a (leAt p 44 2) s
    (sha256 r.1, r.2)

/-! ## Records of a task (R295) -/

/-- The summary entry of stream `i` of a task. -/
def summaryEntry (p : Bytes) (i : Nat) (s : State) : Bytes × State :=
  match resultRow p (leAt p 36 4 + i / 8) with
  | none => (zeros 64, s)
  | some a =>
    let r := backRead a s
    (slice r.1 (64 * (i % 8)) 64, r.2)

/-- Emitted tokens, drafts proposed and accepted of a summary entry are added up (R310). -/
def countSummary (e : Bytes) (s : State) : State :=
  let n := leAt e 4 1
  let d := leAt e 5 1
  let a := leAt e 6 1
  countModule 0x15 a (countModule 0x14 d (countModule 0x13 n
    (bump 0x5100 0xF a (bump 0x5100 0xE d (bump 0x5100 0xD n s)))))

/-- The stream record of stream `i` of a task with first SP `a`, end SP `b` and a status: one of a task that did not
run carries the status and no payload. -/
def streamRecord (k : Task) (status a b : Nat) (input : Bytes) (s : State) (i : Nat) : State :=
  let e := if status = 0 then summaryEntry k.rec_.params i s else (zeros 64, s)
  let d := if status = 0 then lineageDigest k i input e.2 else (zeros 32, e.2)
  let s1 := if status = 0 then countSummary e.1 d.2 else d.2
  ringWrite [k.graphId] (resultRecord 2 status k.index k.graphId a b i (objGet s1 0x5000 8) d.1 e.1) s1

/-- First SP, end SP and status of a task whose record is due in SP `sp`: a schedule task's after its end SP, a
barrier's and a skip's at its end. -/
def recordDue (k : Task) (sp : Nat) : Option (Nat × Nat × Nat) :=
  match k.state with
  | .ended a b st => if b < sp || k.rec_.kind = 1 && b ≤ sp then some (a, b, st) else none
  | .skipped a => if a ≤ sp then some (a, a, 1) else none
  | .running a b => if b < sp then some (a, b, 0) else none
  | .waiting => none

/-- The graph record, once every task record of the graph is in the ring (R295). -/
def graphRecord (seq : Nat) (s : State) : State :=
  match s.treadle.graphs.find? (·.seq == seq) with
  | none => s
  | some g =>
    let ks := s.treadle.tasks.filter (·.graphSeq == seq)
    if g.recorded || decide (ks.length < g.tasks) || ks.any (!·.recorded) then s
    else
      let last := (ks.filterMap taskEnd).foldl max 0
      ringWrite [g.id] (resultRecord 3 0 0 g.id g.effect last 0 (objGet s 0x5000 8) [] [])
        { s with treadle := { s.treadle with
          graphs := s.treadle.graphs.map fun x => if x.seq = seq then { x with recorded := true } else x } }

/-- A task's records are marked as written. -/
def markRecorded (k : Task) (s : State) : State :=
  withTasks (s.treadle.tasks.map fun x =>
    if x.graphSeq = k.graphSeq && x.index = k.index then { x with recorded := true } else x) s

/-- The records of a task: stream records in ascending order, task record, and the graph record after the last. -/
def writeRecords (k : Task) (a b st : Nat) (s : State) : State :=
  let h := if st = 0 && lineageOn s && 0 < streamCount k.rec_ then inputHash k.rec_.params s else ([], s)
  let s1 := (List.range (streamCount k.rec_)).foldl (streamRecord k st a b h.1) h.2
  graphRecord k.graphSeq (markRecorded k
    (ringWrite [k.graphId] (resultRecord 1 st k.index k.graphId a b 0 (objGet s1 0x5000 8) [] []) s1))

/-- RESULT_RECORD_WRITE (R295): the lead writes the records of a task whose end has come. DESIGN CHOICE (log 118): a record
is still in flight in a safe stop (R20) where it is not written before state 1 is reached. -/
def execResultRecordWrite (graphSeq task : Nat) (s : State) : Host.Outcome State Fault Refusal :=
  .next (if !(s.job && isLead s && issuing s) then s
    else match s.treadle.tasks.find? (fun k => k.graphSeq == graphSeq && k.index == task && !k.recorded) with
    | none => s
    | some k => match recordDue k s.sp with
      | none => s
      | some (a, b, st) => writeRecords k a b st s)

/-! ## Withdrawing results (R343, R344, R296) -/

/-- The record sequences of the entries that the ring still holds, oldest first. -/
def ringHeld (s : State) : List Nat :=
  let p := objGet s 0x5000 8
  let n := min p 65536
  (List.range n).map fun i => p - n + i

/-- A byte range of a ring entry. -/
def ringGet (s : State) (i o n : Nat) : Nat := leNat (portGet s (ringAddr i + o) n)

/-- Task and stream records of suspect tasks: their end SP is f − 1 or later (R343). -/
def suspectRecords (s : State) (f : Nat) : List Nat :=
  (ringHeld s).filter fun i => (ringGet s i 0 1 == 1 || ringGet s i 0 1 == 2) && f ≤ ringGet s i 16 8 + 1

/-- The records of R296: status 0x03 for started tasks without a task record, 0x04 for other admitted tasks: one whose first
SP has not begun, one of bad base, of which no bundle has issued, one skipped (R21). DESIGN CHOICE (log 117): the SPs of a
task that has not run are 0. -/
def abortRecord (s : State) (k : Task) : State :=
  if k.recorded then s
  else
    let x := match k.state with
      | .running a b => if s.sp < a then (4, 0, 0) else (3, a, b)
      | .ended a b st => if st = 2 then (4, 0, 0) else (3, a, b)
      | .skipped _ => (4, 0, 0)
      | .waiting => (4, 0, 0)
    markRecorded k (ringWrite [k.graphId]
      (resultRecord 1 x.1 k.index k.graphId x.2.1 x.2.2 0 (objGet s 0x5000 8) [] []) s)

/-- An invalidation record (R344). -/
def invalidBytes (r : FaultRec) (f first stream : Nat) (hash : Bytes) : Bytes :=
  ascii "INVL" ++ leBytes 2 r.code.toNat ++ leBytes 2 (coordNat r.modl) ++ leBytes 8 f ++ leBytes 8 r.stamp
    ++ leBytes 4 first ++ leBytes 4 stream ++ slice hash 0 32

/-- Packet bytes of an invalidation record of destination `d`. -/
def invalidPacket (s : State) (d seq : Nat) (body : Bytes) : Bytes :=
  packetBytes s 5 1 (0x40000000 + d) seq 0 0 body

/-- The invalidation of destination `d`, where its stream has carried a suspect record: it is sent and awaits its
acknowledgement. -/
def invalidate (r : FaultRec) (f first : Nat) (sus : List Nat) (s : State) (d : Nat) : State :=
  let x := destAt s d
  match (x.log.take (destSent s d)).findIdx? fun y => sus.contains y.1 with
  | none => s
  | some n =>
    let b := invalidBytes r f first (n + 1) ((s.pattern.map (·.hash)).getD [])
    let k := invalidPacket s d x.nextSeq b
    let i : Invalid := { dest := d, seq := x.nextSeq, bytes := k, sent := s.tick }
    let s1 := destSet d { x with nextSeq := x.nextSeq + 1 } s
    emit (.packet (destPort (destEntry s d)) k)
      { s1 with integrity := { s1.integrity with invalid := s1.integrity.invalid ++ [i] } }

/-- The lead completes the result ring (R344): suspect records get status 0x03, 0x6000:05 names the first, the records
of R296 follow, invalidation records leave. -/
def withdraw (s : State) : State :=
  match s.integrity.first with
  | none => s
  | some r =>
    let sus := suspectRecords s r.sp
    let first := sus.headD (objGet s 0x5000 8)
    let s1 := sus.foldl (fun s i => portPut (ringAddr i + 1) [3] s) s
    let s2 := objSet 0x6000 5 first s1
    let s3 := s2.treadle.tasks.foldl abortRecord s2
    (List.range 8).foldl (invalidate r r.sp first sus)
      { s3 with integrity := { s3.integrity with withdrawn := true } }

end Sys2Proof.Machine
end

