-- ==== Sys2Proof/Machine/Tracer.lean ====
section
/-! DEFINITION. The tracer (R311 to R318): prefix trees in beam rows and the commands of the tracer ring. -/

namespace Sys2Proof.Machine

/-! ## Trees (R312) -/

/-- Nodes of a die's tree. -/
def treeNodes (s : State) : Nat := 192 * objGet s 0x5100 4

/-- The row of node `m` of the tree of die `d`. -/
def nodeAddr (s : State) (d m : Nat) : Nat :=
  let x := 12 * (d % 2) + m % 192 % 12
  let y := 16 * (d / 2) + m % 192 / 12
  rowAddr (24 * y + x) 1 (objGet s 0x5100 3 + m / 192)

/-- Fields of a node row. -/
def nodeTokens (r : Bytes) : Bytes := slice r 0 64
def nodePage (r : Bytes) : Nat := leAt r 64 4
def nodeParent (r : Bytes) : Nat := leAt r 68 4
def nodeCont (r : Bytes) : Nat := leAt r 72 4
def nodeEpoch (r : Bytes) : Nat := leAt r 76 2
def nodeKids (r : Bytes) : Nat := leAt r 78 2
def nodePins (r : Bytes) : Nat := leAt r 80 2
def nodeUsed (r : Bytes) : Bool := bitOf (leAt r 82 2) 0
def nodeExtends (r : Bytes) : Bool := bitOf (leAt r 82 2) 1
def nodeKey (r : Bytes) : Nat := leAt r 84 2
def nodeLast (r : Bytes) : Nat := leAt r 88 8

/-- The child entries of a node row: first token, node. -/
def kidList (r : Bytes) : List (Nat × Nat) := (List.range (min 52 (nodeKids r))).map fun i => (leAt r (96 + 8 * i) 4, leAt r (100 + 8 * i) 4)

/-- A node row with its child entries replaced. -/
def putKids (l : List (Nat × Nat)) (r : Bytes) : Bytes :=
  patch (patch r 78 (leBytes 2 l.length)) 96 (slice (l.map fun k => leBytes 4 k.1 ++ leBytes 4 k.2).flatten 0 416)

/-- A node row. -/
def nodeBytes (tokens : Bytes) (page parent epoch flags key last : Nat) : Bytes :=
  slice (slice tokens 0 64 ++ leBytes 4 page ++ leBytes 4 parent ++ zeros 4 ++ leBytes 2 epoch ++ zeros 4
    ++ leBytes 2 flags ++ leBytes 2 key ++ zeros 2 ++ leBytes 8 last) 0 512

/-- A node row of a tree as it stands. -/
def nodeGet (s : State) (d m : Nat) : Bytes := (fetchRow s (nodeAddr s d m)).frame.data

/-- Whether a node number lies in the tree and is in use. -/
def nodeLive (s : State) (d m : Nat) : Bool := m < treeNodes s && nodeUsed (nodeGet s d m)

/-- An access of the tracer of die `d`: a row frame of nine flits against its budget (R221, R312). DESIGN CHOICE (log 119):
a command is carried out in one step; an access that finds the budget spent counts as a wait and begins the next time
pick's count. -/
def tracerAccess (d : Nat) (s : State) : State :=
  if isSpent s d 4 then setSpent d 4 9 (countModule 0x18 1 (bump 0x4000 0x12 1 s)) else setSpent d 4 (spentBy s d 4 + 9) s

/-- A node row read by the tracer: it counts (0x5100:0B). -/
def nodeRead (d m : Nat) (s : State) : Bytes × State :=
  let r := backRead (nodeAddr s d m) (tracerAccess d s)
  (r.1, bump 0x5100 0xB 1 r.2)

/-- A node row written. -/
def nodePut (d m : Nat) (r : Bytes) (s : State) : State := backPut (nodeAddr s d m) r (tracerAccess d s)

/-- The rows of some nodes read one after another. -/
def readNodes (d : Nat) : List Nat → State → List (Nat × Bytes) × State
  | [], s => ([], s)
  | m :: l, s =>
    let r := nodeRead d m s
    let x := readNodes d l r.2
    ((m, r.1) :: x.1, x.2)

/-- The rows of a tree, read in node order. -/
def scanTree (d : Nat) (s : State) : List (Nat × Bytes) × State := readNodes d (List.range (treeNodes s)) s

/-- Free nodes of a tree, lowest first, `n` at most, found by reading the rows in order from node `m` on. -/
def freeNodes (d : Nat) : Nat → Nat → Nat → State → List Nat × State
  | 0, _, _, s => ([], s)
  | k + 1, m, n, s =>
    if n = 0 then ([], s)
    else
      let r := nodeRead d m s
      if nodeUsed r.1 then freeNodes d k (m + 1) n r.2
      else
        let x := freeNodes d k (m + 1) (n - 1) r.2
        (m :: x.1, x.2)

/-- The trees as a job finds them: only the roots are in use. -/
def clearTrees (s : State) : State :=
  let s1 := (List.range 4).foldl (fun s d =>
    ((List.range (treeNodes s)).filter fun m => nodeUsed (nodeGet s d m) || m == 0).foldl (fun s m =>
      backPut (nodeAddr s d m) (if m = 0 then nodeBytes [] 0 0 0 1 0 0 else zeros 512) s) s) s
  objSet 0x5100 8 (if treeNodes s = 0 then 0 else 4) (objSet 0x5100 9 0 s1)

/-! ## Walks (R313, R318) -/

/-- What a search among the children of a node finds. -/
inductive Search where
  | hit (m : Nat) (row : Bytes)
  | miss
  /-- a pointer to a node not in use, or more nodes visited than the tree holds -/
  | broken
  deriving DecidableEq, Repr

/-- Whether a node matches tokens, epoch and key. -/
def nodeMatches (r toks : Bytes) (epoch key : Nat) : Bool :=
  nodeTokens r == slice toks 0 64 && nodeEpoch r == epoch && nodeKey r == key

/-- The first of some child entries that matches; a walk may visit `v` more nodes (R318). What is found, the visits left. -/
def searchKids (d epoch key : Nat) (toks : Bytes) : List (Nat × Nat) → Nat → State → Search × Nat × State
  | [], v, s => (.miss, v, s)
  | (t, m) :: l, v, s =>
    if t ≠ leAt toks 0 4 then searchKids d epoch key toks l v s
    else if v = 0 || treeNodes s ≤ m then (.broken, v, s)
    else
      let r := nodeRead d m s
      if !nodeUsed r.1 then (.broken, v - 1, r.2)
      else if nodeMatches r.1 toks epoch key then (.hit m r.1, v - 1, r.2)
      else searchKids d epoch key toks l (v - 1) r.2

/-- The child of a node, of row `row`, that matches, its continuation rows searched in chain order; `n` rows at most. -/
def searchNode (d epoch key : Nat) (toks : Bytes) : Nat → Bytes → Nat → State → Search × Nat × State
  | 0, _, v, s => (.broken, v, s)
  | n + 1, row, v, s =>
    let x := searchKids d epoch key toks (kidList row) v s
    match x.1 with
    | .miss =>
      let c := nodeCont row
      if c = 0 then x
      else if x.2.1 = 0 || treeNodes s ≤ c then (.broken, x.2)
      else
        let r := nodeRead d c x.2.2
        if nodeUsed r.1 then searchNode d epoch key toks n r.1 (x.2.1 - 1) r.2 else (.broken, x.2.1 - 1, r.2)
    | _ => x

/-! ## Ring entries (R314) -/

/-- The address of a ring entry, and the entry. -/
def tracerAddr (i : Nat) : Nat := tracerRing + 256 * (i % 1024)
def tracerEntry (s : State) (i : Nat) : Bytes := portGet s (tracerAddr i) 256

/-- Indices issued and not yet retired. -/
def tracerOpen (s : State) : List Nat :=
  let a := objGet s 0x5100 7
  (List.range ((objGet s 0x5100 6 + 2 ^ 32 - a) % 2 ^ 32)).map (a + ·)

/-- Whether an entry is complete, and the die of its key. -/
def tracerDone (s : State) (i : Nat) : Bool := leAt (tracerEntry s i) 1 1 != 0
def tracerDie (e : Bytes) : Nat := leAt e 2 2 % 4

/-- The retired index moves up to the lowest entry not complete. -/
def retire (s : State) : State :=
  let n := ((tracerOpen s).takeWhile fun i => tracerDone s i).length
  objSet 0x5100 7 ((objGet s 0x5100 7 + n) % 2 ^ 32) s

/-- What a command answers: status, pages, last node, page sets to return from the first on. -/
structure Answer where
  status : Nat
  pages  : Nat
  last   : Nat
  sets   : List Nat
  deriving DecidableEq, Repr

/-- A background write of this module sets out for one of its own windows (R121, R122). -/
def sendBack (d act tile window woff : Nat) (gen : BitVec 16) (row : RowFrame) (s : State) : State :=
  let w : BackWrite := { ref := s.net.nextRef, die := d, act := act, dest := ownCoord s, tile := tile, window := window,
                         woff := woff, gen := gen, row := row, refused := 0, retryTp := none }
  settleArrived (launchBack d act w { s with net := { s.net with
    backs := s.net.backs ++ [w], nextRef := s.net.nextRef + 1 } })

/-- The tracer completes an entry: result fields, status byte, result row where flag [1] is set (R316), MSI-X vector 3,
counts and retired index. -/
def complete (i : Nat) (e : Bytes) (epoch : Nat) (x : Answer) (s : State) : State :=
  let sets := (x.sets.take 45).map (leBytes 4)
  let e1 := patch (patch e 64 (leBytes 4 x.pages ++ leBytes 4 x.last ++ leBytes 4 epoch)) 76 sets.flatten
  let e2 := patch e1 1 (leBytes 1 x.status)
  let s1 := portPut (tracerAddr i) e2 s
  let s2 := if bitOf (leAt e 24 1) 1 && leAt e 25 1 < 24 && leAt e 26 1 < 32 then
      sendBack (tracerDie e) 4 (24 * leAt e 26 1 + leAt e 25 1) (leAt e 27 1) 0 (BitVec.ofNat 16 (leAt e 28 2))
        (freshFrame (slice (slice e2 64 192) 0 512) 0) s1
    else s1
  retire (raiseVector 3 (countModule 0x1A 1 (bump 0x5100 0xA 1 s2)))

/-- A walk that found a broken tree: fault 0x6010 of the die's tracer; the entry stays incomplete. -/
def treeFault (d : Nat) (s : State) : State := raiseFault 0x6010 (unitSite 6 d 0 0) s

/-- Page sets that an INSERT entry supplies. -/
def entrySet (e : Bytes) (i : Nat) : Nat := leAt e (76 + 4 * i) 4

/-- Whether a token list lies in the staging area, on a tile of the module. -/
def tokensOk (s : State) (e : Bytes) : Bool :=
  let r := leAt e 12 4
  let n := (leAt e 16 4 + 127) / 128
  decide (leAt e 8 1 < 24 ∧ leAt e 9 1 < 32 ∧ objGet s 0x5100 1 ≤ r
    ∧ r + n ≤ objGet s 0x5100 1 + objGet s 0x5100 2)

/-- Whether reserved fields of an entry are 0. -/
def fieldsOk (e : Bytes) : Bool := allZero (slice e 10 2) && allZero (slice e 30 34) && leAt e 24 1 < 4

/-- Tokens 16 i to 16 i + 15 of an entry's token rows. -/
def tokensAt (e : Bytes) (i : Nat) (s : State) : Bytes × State :=
  let r := backRead (rowAddr (24 * leAt e 9 1 + leAt e 8 1) 1 (leAt e 12 4 + i / 8)) s
  (slice r.1 (64 * (i % 8)) 64, r.2)

/-! ## MATCH (R315) -/

/-- A matched node's Last use is set, and its pin count raised where the entry asks for it. -/
def pinOne (d m : Nat) (r : Bytes) (s : State) : State :=
  let n := nodePins r
  let v := if n = 65535 then Config.freeNat s.free % 65536 else n + 1
  bump 0x5100 9 (if n = 0 then 1 else 0)
    (nodePut d m (patch r 80 (leBytes 2 v)) { s with free := s.free + (if n = 65535 then 1 else 0) })

/-- The walk of a MATCH from page `i`: pages left, node reached and its row, visits left, page sets so far. -/
def matchGo (d epoch : Nat) (e : Bytes) : Nat → Nat → Nat → Bytes → Nat → List Nat → State → Option Answer × State
  | 0, i, m, _, _, sets, s => (some { status := 0x80, pages := i, last := m, sets := sets }, s)
  | k + 1, i, m, row, v, sets, s =>
    let t := tokensAt e i s
    let x := searchNode d epoch (leAt e 2 2) t.1 (treeNodes s) row v t.2
    match x.1 with
    | .broken => (none, x.2.2)
    | .miss => (some { status := 0x80, pages := i, last := m, sets := sets }, x.2.2)
    | .hit c r =>
      let r1 := patch r 88 (leBytes 8 (s.tick % 2 ^ 64))
      let s1 := if bitOf (leAt e 24 1) 0 then pinOne d c r1 x.2.2 else nodePut d c r1 x.2.2
      matchGo d epoch e k (i + 1) c r x.2.1 (sets ++ [nodePage r]) s1

/-- MATCH: at most 45 pages, from the start node, which is the first of the tree's nodes that it visits. -/
def matchEntry (d epoch : Nat) (e : Bytes) (s : State) : Option Answer × State :=
  let r := nodeRead d (leAt e 4 4) s
  matchGo d epoch e (min 45 (leAt e 16 4 / 16)) 0 (leAt e 4 4) r.1 (treeNodes s - 1) [] r.2

/-! ## INSERT (R315) -/

/-- The row of a node's chain, from row `m` on, that takes a further child: `none` where all are full, with the last row of
the chain. -/
def roomGo (d : Nat) : Nat → Nat → State → (Option Nat × Nat) × State
  | 0, m, s => ((none, m), s)
  | n + 1, m, s =>
    let r := nodeRead d m s
    if nodeKids r.1 < 52 then ((some m, m), r.2)
    else if nodeCont r.1 = 0 then ((none, m), r.2) else roomGo d n (nodeCont r.1) r.2

/-- A child entry is added to a node row. -/
def addKid (d row tok child : Nat) (s : State) : State :=
  let r := nodeRead d row s
  nodePut d row (putKids (kidList r.1 ++ [(tok, child)]) r.1) r.2

/-- The continuation entry of a node row set. -/
def chainTo (d row next : Nat) (s : State) : State :=
  let r := nodeRead d row s
  nodePut d row (patch r.1 72 (leBytes 4 next)) r.2

/-- A new node under node `m`: `none` where the tree has no free row for it. -/
def newNode (d epoch key m page : Nat) (toks : Bytes) (s : State) : Option (Nat × Bytes) × State :=
  let room := roomGo d (treeNodes s) m s
  let free := freeNodes d (treeNodes s) 0 2 room.2
  let node := nodeBytes toks page m epoch 1 key (Config.freeNat s.free % 2 ^ 64)
  let s1 := { free.2 with free := free.2.free + 1 }
  match room.1.1, free.1 with
  | some row, c :: _ => (some (c, node), bump 0x5100 8 1 (addKid d row (leAt toks 0 4) c (nodePut d c node s1)))
  | none, c :: x :: _ =>
    let s3 := nodePut d x (nodeBytes [] 0 m epoch 3 key 0) (chainTo d room.1.2 x s1)
    (some (c, node), bump 0x5100 8 2 (addKid d x (leAt toks 0 4) c (nodePut d c node s3)))
  | _, _ => (none, free.2)

/-- The walk of an INSERT from page `i`: pages left, node reached and its row, visits left, page sets so far, new nodes so
far. -/
def insertGo (d epoch : Nat) (e : Bytes) : Nat → Nat → Nat → Bytes → Nat → List Nat → Nat → State → Option Answer × State
  | 0, _, m, _, _, sets, n, s => (some { status := 0x80, pages := n, last := m, sets := sets }, s)
  | k + 1, i, m, row, v, sets, n, s =>
    let t := tokensAt e i s
    let x := searchNode d epoch (leAt e 2 2) t.1 (treeNodes s) row v t.2
    match x.1 with
    | .broken => (none, x.2.2)
    | .hit c r => insertGo d epoch e k (i + 1) c r x.2.1 (sets ++ [nodePage r]) n x.2.2
    | .miss =>
      let y := newNode d epoch (leAt e 2 2) m (entrySet e i) t.1 x.2.2
      match y.1 with
      | none => (some { status := 0x81, pages := n, last := m, sets := sets }, y.2)
      | some c => insertGo d epoch e k (i + 1) c.1 c.2 (x.2.1 - 1) (sets ++ [entrySet e i]) (n + 1) y.2

/-- INSERT: its token count is 16 times its pages, of which the entry has room for 45. -/
def insertEntry (d epoch : Nat) (e : Bytes) (s : State) : Option Answer × State :=
  let r := nodeRead d (leAt e 4 4) s
  insertGo d epoch e (min 45 (leAt e 16 4 / 16)) 0 (leAt e 4 4) r.1 (treeNodes s - 1) [] 0 r.2

/-! ## PIN and UNPIN (R315) -/

/-- What a walk from a node up to the root finds. -/
inductive Climb where
  | path (nodes : List (Nat × Bytes))
  /-- a parent not in use -/
  | lost
  /-- more nodes visited than the tree holds -/
  | broken
  deriving DecidableEq, Repr

/-- The node `m` and its nearest ancestors, `n` nodes at most, of which the walk may visit `v` (R318). -/
def pathUp (d : Nat) : Nat → Nat → Nat → State → Climb × State
  | 0, _, _, s => (.path [], s)
  | n + 1, v, m, s =>
    if v = 0 then (.broken, s)
    else if treeNodes s ≤ m then (.lost, s)
    else
      let r := nodeRead d m s
      if !nodeUsed r.1 then (.lost, r.2)
      else if m = 0 then (.path [(0, r.1)], r.2)
      else
        let x := pathUp d n (v - 1) (nodeParent r.1) r.2
        (match x.1 with
          | .path l => .path ((m, r.1) :: l)
          | c => c, x.2)

/-- The path of a PIN or UNPIN entry. -/
def entryPath (d : Nat) (e : Bytes) (s : State) : Climb × State :=
  pathUp d (min (leAt e 20 4) (treeNodes s + 1)) (treeNodes s) (leAt e 4 4) s

/-- PIN: 1 is added to the pin count of each node of the path. -/
def pinEntry (d : Nat) (e : Bytes) (s : State) : Option Answer × State :=
  let p := entryPath d e s
  match p.1 with
  | .broken => (none, p.2)
  | .lost => (some { status := 0x82, pages := 0, last := 0, sets := [] }, p.2)
  | .path l => (some { status := 0x80, pages := 0, last := 0, sets := [] }, l.foldl (fun s x => pinOne d x.1 x.2 s) p.2)

/-- One pin count lowered. -/
def unpinOne (d m : Nat) (r : Bytes) (s : State) : State :=
  let n := nodePins r - 1
  let s1 := nodePut d m (patch r 80 (leBytes 2 n)) s
  if n = 0 then objSet 0x5100 9 (objGet s1 0x5100 9 - 1) s1 else s1

/-- UNPIN: 1 is taken from each pin count of the path, of none where one is 0. -/
def unpinEntry (d : Nat) (e : Bytes) (s : State) : Option Answer × State :=
  let p := entryPath d e s
  match p.1 with
  | .broken => (none, p.2)
  | .lost => (some { status := 0x82, pages := 0, last := 0, sets := [] }, p.2)
  | .path l =>
    if l.any fun x => nodePins x.2 == 0 then (some { status := 0x84, pages := 0, last := 0, sets := [] }, p.2)
    else (some { status := 0x80, pages := 0, last := 0, sets := [] }, l.foldl (fun s x => unpinOne d x.1 x.2 s) p.2)

/-! ## EVICT (R315) -/

/-- Nodes, among rows read, that EVICT may take: in use, neither root nor continuation row, no children, not pinned. -/
def evictable (rows : List (Nat × Bytes)) : List (Nat × Bytes) :=
  rows.filter fun x => x.1 != 0 && nodeUsed x.2 && !nodeExtends x.2 && nodeKids x.2 == 0 && nodeCont x.2 == 0
    && nodePins x.2 == 0

/-- Whether node `a` goes before node `b`: other epochs first, then the oldest Last use, then the lowest number. -/
def evictBefore (epoch : Nat) (a b : Nat × Bytes) : Bool :=
  let ox := nodeEpoch a.2 != epoch
  let oy := nodeEpoch b.2 != epoch
  if ox != oy then ox
  else decide (nodeLast a.2 < nodeLast b.2) || nodeLast a.2 == nodeLast b.2 && decide (a.1 < b.1)

/-- The row of a chain from row `m` that holds child `c`, with the row before it and its contents. -/
def holderGo (d c : Nat) : Nat → Nat → Nat → State → Option (Nat × Nat × Bytes) × State
  | 0, _, _, s => (none, s)
  | n + 1, before, m, s =>
    let r := nodeRead d m s
    if (kidList r.1).any (·.2 == c) then (some (before, m, r.1), r.2)
    else if nodeCont r.1 = 0 then (none, r.2) else holderGo d c n m (nodeCont r.1) r.2

/-- Child `c` of node `parent` leaves it; a continuation row left without children leaves the chain and is free. The rows
written, and State. -/
def dropKid (d c parent : Nat) (s : State) : List (Nat × Bytes) × State :=
  let h := holderGo d c (treeNodes s) 0 parent s
  match h.1 with
  | none => ([], h.2)
  | some (before, m, r) =>
    let l := (kidList r).filter (·.2 != c)
    if l.isEmpty && nodeExtends r then
      let b := nodeRead d before h.2
      let b1 := patch b.1 72 (leBytes 4 (nodeCont r))
      let s1 := nodePut d before b1 (nodePut d m (zeros 512) b.2)
      ([(before, b1), (m, zeros 512)], objSet 0x5100 8 (objGet s1 0x5100 8 - 1) s1)
    else ([(m, putKids l r)], nodePut d m (putKids l r) h.2)

/-- Rows read, some of them written since. -/
def updateRows (new rows : List (Nat × Bytes)) : List (Nat × Bytes) :=
  rows.map fun x => (x.1, (new.lookup x.1).getD x.2)

/-- Nodes evicted one after another, `k` at most: page sets freed. -/
def evictGo (d epoch : Nat) : Nat → List (Nat × Bytes) → List Nat → State → List Nat × State
  | 0, _, l, s => (l, s)
  | k + 1, rows, l, s =>
    let best := (evictable rows).foldl (fun (b : Option (Nat × Bytes)) x => match b with
      | none => some x
      | some y => if evictBefore epoch x y then some x else some y) none
    match best with
    | none => (l, s)
    | some x =>
      let y := dropKid d x.1 (nodeParent x.2) s
      let s1 := nodePut d x.1 (zeros 512) y.2
      evictGo d epoch k (updateRows ((x.1, zeros 512) :: y.1) rows) (l ++ [nodePage x.2])
        (objSet 0x5100 8 (objGet s1 0x5100 8 - 1) s1)

/-- EVICT: up to Count nodes, of which the entry has room for 45; the rows of the tree are read to find them. -/
def evictEntry (d epoch : Nat) (e : Bytes) (s : State) : Option Answer × State :=
  let r := scanTree d s
  let x := evictGo d epoch (min 45 (leAt e 20 4)) r.1 [] r.2
  (some { status := 0x80, pages := x.1.length, last := 0, sets := x.1 }, x.2)

/-! ## Commands -/

/-- Whether the tracers serve: the lead module of a running job, no safe stop begun, a budget for their accesses (R311, R312,
R340). -/
def tracerLive (s : State) : Bool := s.job && isLead s && !s.integrity.stopLine && objGet s 0x4000 4 != 0

/-- The index of the entry that a die takes next, where it stands in ring entry `entry`. -/
def tracerNext (s : State) (entry : Nat) : Option Nat :=
  let d := tracerDie (tracerEntry s entry)
  match (tracerOpen s).find? fun i => !tracerDone s i && tracerDie (tracerEntry s i) == d with
  | none => none
  | some i => if i % 1024 = entry then some i else none

/-- What a walk leaves: the entry completed, or the fault of a broken tree. -/
def tracerAnswer (i d epoch : Nat) (e : Bytes) (x : Option Answer × State) : State :=
  match x.1 with
  | none => treeFault d x.2
  | some a => complete i e epoch a x.2

/-- An entry completed without a walk. -/
def tracerRefuse (i st : Nat) (e : Bytes) (s : State) : State :=
  complete i e (objGet s 0x5100 5) { status := st, pages := 0, last := 0, sets := [] } s

/-- The die of entry `e`, of index `i`, carries it out as opcode `op`. -/
def tracerServe (op i : Nat) (e : Bytes) (act : Nat → Nat → Bytes → State → Option Answer × State) (s : State) : State :=
  if leAt e 0 1 = 0 || 5 < leAt e 0 1 || !fieldsOk e then tracerRefuse i 0x85 e s
  else if leAt e 0 1 ≠ op then s
  else if op ≠ 5 && !nodeLive s (tracerDie e) (leAt e 4 4) then tracerRefuse i 0x82 e s
  else if op ≤ 2 && !tokensOk s e then tracerRefuse i 0x83 e s
  else tracerAnswer i (tracerDie e) (objGet s 0x5100 5) e (act (tracerDie e) (objGet s 0x5100 5) e s)

/-- A tracer command of opcode `op`: the die carries out the entry where it comes next in the die's order. -/
def tracerCommand (op entry : Nat) (act : Nat → Nat → Bytes → State → Option Answer × State) (s : State) : State :=
  if !tracerLive s then s
  else match tracerNext s entry with
  | none => s
  | some i => tracerServe op i (tracerEntry s entry) act s

/-- MATCH (R315). -/
def execMatchCmd (entry : Fin 1024) (s : State) : Host.Outcome State Fault Refusal :=
  .next (tracerCommand 1 entry.val matchEntry s)

/-- INSERT (R315). -/
def execInsertCmd (entry : Fin 1024) (s : State) : Host.Outcome State Fault Refusal :=
  .next (tracerCommand 2 entry.val insertEntry s)

/-- PIN (R315). -/
def execPinCmd (entry : Fin 1024) (s : State) : Host.Outcome State Fault Refusal :=
  .next (tracerCommand 3 entry.val (fun d _ => pinEntry d) s)

/-- UNPIN (R315). -/
def execUnpinCmd (entry : Fin 1024) (s : State) : Host.Outcome State Fault Refusal :=
  .next (tracerCommand 4 entry.val (fun d _ => unpinEntry d) s)

/-- EVICT (R315). -/
def execEvictCmd (entry : Fin 1024) (s : State) : Host.Outcome State Fault Refusal :=
  .next (tracerCommand 5 entry.val evictEntry s)

/-- On a safe stop every incomplete entry receives status 0x86 (R318). -/
def tracerAbort (s : State) : State :=
  let open_ := (tracerOpen s).filter fun i => !tracerDone s i
  retire (open_.foldl (fun s i => portPut (tracerAddr i + 1) [0x86] s) s)

end Sys2Proof.Machine
end

