-- ==== Sys2Proof/Machine/DataPorts.lean ====
section
/-! DEFINITION. The Ethernet data ports (R411 to R420): packets received, acknowledgements, result streams. -/

namespace Sys2Proof.Machine

/-! ## What a port accepts (R411 to R414) -/

/-- Whether a source lies within a filter (0x810p:06): prefix and its length in bits. -/
def inFilter (filter src : Bytes) : Bool :=
  let n := leAt filter 16 1
  n == 0 || decide (n ≤ 8 * src.length) && (List.range n).all fun i =>
    (src.getD (i / 8) 0).getLsbD (7 - i % 8) == (filter.getD (i / 8) 0).getLsbD (7 - i % 8)

/-- Bytes of an item, and the greatest and least item count of a packet type (R412). -/
def itemSize (ptype : Nat) : Nat := if ptype ≤ 3 then 520 else if ptype = 4 then 128 else if ptype = 5 then 64 else 32
def itemMax (ptype : Nat) : Nat := if ptype ≤ 3 then 16 else if ptype = 4 then 64 else if ptype = 5 then 1 else 16
def itemMin (ptype : Nat) : Nat := if ptype = 6 then 0 else 1

/-- Whether the reserved bits of target and reference are 0. -/
def targetOk (h : Transport) : Bool :=
  let t := h.target.toNat
  match h.ptype.toNat with
  | 1 => bits t 52 2 == 0 && bits t 0 32 == 0 && h.ref == 0
  | 2 => bits t 52 2 == 0 && bits t 16 21 == 0 && h.ref == 0
  | 3 => bits h.ref.toNat 32 20 == 0
  | 6 => bits t 32 32 == 0
  | _ => true

/-- Whether a transport header is well formed (R412). -/
def headerOk (p : Packet) : Bool :=
  let h := p.hdr
  let t := h.ptype.toNat
  h.magic.toNat == transportMagic && h.version == 1 && decide (1 ≤ t ∧ t ≤ 6 ∧ h.flags.toNat < 2)
    && decide (itemMin t ≤ h.items.toNat ∧ h.items.toNat ≤ itemMax t) && h.rsvd == 0 && targetOk h
    && p.body.length == h.items.toNat * itemSize t

/-- Whether a packet's type may come on its stream (R413). -/
def streamOk (h : Transport) : Bool :=
  let n := h.stream.toNat
  if h.ptype.toNat ≤ 3 then n < 0x4000 else h.ptype.toNat == 6 && decide (0xC0000000 ≤ n ∧ n < 0xC0000008)

/-- Whether a packet reaches the transport of port `p` as one of type `t` (R411). -/
def packetOk (s : State) (p t : Nat) (k : Packet) : Bool :=
  k.ip.toPort && k.ip.checksum && inFilter (octGet s (0x8100 + p) 6) k.ip.source && headerOk k && streamOk k.hdr
    && k.hdr.ptype.toNat == t

/-- The sequence that a stream accepts next (R414). -/
def nextSeq (s : State) (stream : Nat) : Nat := mget 0 s.ports.streams stream + 1

/-- A packet is dropped and counted (0x810p:09). -/
def dropPacket (p : Nat) (s : State) : State := bump (0x8100 + p) 9 1 s

/-- A packet out of sequence is dropped (R414) and counted as R366 says; one above the expected sequence is answered with
an acknowledgement (R416). -/
def dropSeq (p : Nat) (h : Transport) (s : State) : State :=
  let n := h.stream.toNat
  let s1 := bump 0x6100 0x16 1 (dropPacket p s)
  if nextSeq s n < h.seq.toNat && h.ptype.toNat ≤ 3 then { s1 with ports := { s1.ports with
    unsent := mset 0 s1.ports.unsent n (mget 0 s1.ports.unsent n + 1), via := mput s1.ports.via n p } } else s1

/-- A packet's sequence is accepted; all but acknowledgements wait for an acknowledgement of theirs. -/
def acceptSeq (p : Nat) (h : Transport) (s : State) : State :=
  let n := h.stream.toNat
  let s1 := bump (0x8100 + p) 8 1 { s with ports := { s.ports with
    streams := mset 0 s.ports.streams n h.seq.toNat, via := mput s.ports.via n p } }
  if h.ptype.toNat ≤ 3 then
    { s1 with ports := { s1.ports with unsent := mset 0 s1.ports.unsent n (mget 0 s1.ports.unsent n + 1) } }
  else s1

/-- The plain body of a packet under the request key: `none` where its tag fails, or it is not sealed and must be. -/
def openBody (s : State) (k : Packet) : Option Bytes :=
  if k.hdr.flags = 0 then some k.body
  else if portsSealed s then
    gcmOpen s.security.reqKey (packetIv k.hdr.stream.toNat k.hdr.seq.toNat) (transportBytes k.hdr) k.body k.tag
  else none

/-- The row frames of a body. -/
def bodyRows (n : Nat) (b : Bytes) : List RowFrame := (List.range n).map fun i => frameOf (slice b (520 * i) 520)

/-- A refusal entry (R416). -/
def refusalEntry (seq reason : Nat) (w : Window) (tile window : Nat) : Bytes :=
  slice (leBytes 8 seq ++ leBytes 1 reason ++ leBytes 1 (flag w.opened) ++ leBytes 2 w.gen.toNat ++ leBytes 1 (tileX tile)
    ++ leBytes 1 (tileY tile) ++ leBytes 1 window) 0 32

/-- A refused packet waits to be reported. -/
def refusePacket (h : Transport) (reason : Nat) (w : Window) (tile window : Nat) (s : State) : State :=
  { s with ports := { s.ports with
    refusals := s.ports.refusals ++ [(h.stream.toNat, refusalEntry h.seq.toNat reason w tile window)] } }

/-- Rows of a packet of port `p` enter the mesh as bulk packets of the port's die, against its bulk budget (R415); those
that may go reach their tiles. -/
def injectRows (p : Nat) (xs : List Output) (s : State) : State :=
  settleArrived (xs.foldl (fun s o => inject (p + 1) 5 9 [o] s) s)

/-- A packet of type `t` at port `p`: from a safe stop on, inbound packets but acknowledgements are dropped (R420); one
that the port does not accept is dropped; otherwise its effect follows. -/
def receivePacket (p t : Nat) (k : Packet) (f : State → State) (s : State) : State :=
  if s.integrity.stopLine && t ≠ 6 then s
  else if !packetOk s p t k then dropPacket p s
  else if k.hdr.seq.toNat ≠ nextSeq s k.hdr.stream.toNat then dropSeq p k.hdr s
  else f s

/-- A packet of row frames under the request key: refused with the reason that `why` gives, 0 for none, or written. -/
def takePacket (p : Nat) (k : Packet) (why : List RowFrame → Nat) (w : Window) (tile window : Nat)
    (put : List RowFrame → State → State) (s : State) : State :=
  match openBody s k with
  | none => bump 0x6100 0x16 1 s
  | some b =>
    let rows := bodyRows k.hdr.items.toNat b
    let reason := if why rows ≠ 0 then why rows else if portsSealed s && k.hdr.flags = 0 then 5 else 0
    let s1 := acceptSeq p k.hdr s
    if reason = 0 then put rows s1
    else refusePacket k.hdr reason w tile window
      (bump 0x5100 0xC (flag (k.hdr.ptype == 1 && (reason == 3 || reason == 4))) s1)

/-! ## Staging and window writes (R297, R415) -/

/-- Tile of a target: `none` off the grid. -/
def targetTile (t : Nat) : Option Nat := if bits t 59 5 < 24 then some (24 * bits t 54 5 + bits t 59 5) else none

/-- Why a staging write is refused: a proof word, or a row outside the staging area. -/
def stagingWhy (s : State) (target : Nat) (rows : List RowFrame) : Nat :=
  let first := bits target 32 20
  let base := objGet s 0x5100 1
  if rows.any (!proofOk ·) then 3
  else if (targetTile target).isNone || first < base || base + objGet s 0x5100 2 < first + rows.length then 4 else 0

/-- The rows of a staging write set out for their beam rows. -/
def stagePut (p : Nat) (h : Transport) (rows : List RowFrame) (s : State) : State :=
  match targetTile h.target.toNat with
  | none => s
  | some t => injectRows p (rows.zipIdx.map fun x =>
      .stagingIn h.stream.toNat h.seq.toNat (rowAddr t 1 (bits h.target.toNat 32 20 + x.2)) x.1) s

/-- STAGING_WRITE (R297). -/
def execStagingWrite (port : Fin 2) (p : Packet) (s : State) : Host.Outcome State Fault Refusal :=
  let t := p.hdr.target.toNat
  .next (receivePacket port.val 1 p (takePacket port.val p (stagingWhy s t) Window.reset ((targetTile t).getD 0) 0
    (stagePut port.val p.hdr)) s)

/-- The window of a target. -/
def targetWindow (s : State) (t : Nat) : Window :=
  match targetTile t with
  | none => Window.reset
  | some i => windowAt (tileAt s i) (bits t 44 8)

/-- Why a window write is refused: a proof word, a row outside the window, a window not open, another generation. -/
def windowWhy (s : State) (target : Nat) (rows : List RowFrame) : Nat :=
  let w := targetWindow s target
  if rows.any (!proofOk ·) then 3
  else if (targetTile target).isNone || w.opened && w.rows < bits target 37 7 + rows.length then 4
  else if !w.opened then 1
  else if w.gen.toNat ≠ bits target 0 16 then 2 else 0

/-- A row of a window write on its way from the corner tile of the port's die (log 114): mesh header and landing. -/
def portLanding (p : Nat) (h : Transport) (t i : Nat) (row : RowFrame) : Output :=
  let a := corner (p + 1)
  let g := BitVec.ofNat 16 (bits h.target.toNat 0 16)
  let w := bits h.target.toNat 44 8
  let o := bits h.target.toNat 37 7 + i
  .landing t
    { classB := true, kind := 0, dx := BitVec.ofNat 5 (tileX t), dy := BitVec.ofNat 5 (tileY t)
      sx := BitVec.ofNat 5 (tileX a), sy := BitVec.ofNat 5 (tileY a), window := BitVec.ofNat 8 w, woff := BitVec.ofNat 7 o
      pad := 0, act := 5, gen := g }
    { hdr := { window := w, woff := o, seq := 0, landSp := 0 }, row := row
      back := some { gen := g, sender := { x := 0, y := 0, z := 0 }, ref := 0 }, port := some (h.stream.toNat, h.seq.toNat)
      since := 0 }

/-- The rows of a window write set out for their tile. -/
def windowPut (p : Nat) (h : Transport) (rows : List RowFrame) (s : State) : State :=
  match targetTile h.target.toNat with
  | none => s
  | some t => injectRows p (rows.zipIdx.map fun x => portLanding p h t x.2 x.1) s

/-- WINDOW_WRITE (R415). -/
def execWindowWrite (port : Fin 2) (p : Packet) (s : State) : Host.Outcome State Fault Refusal :=
  let t := p.hdr.target.toNat
  .next (receivePacket port.val 2 p (takePacket port.val p (windowWhy s t) (targetWindow s t) ((targetTile t).getD 0)
    (bits t 44 8) (windowPut port.val p.hdr)) s)

/-! ## Plates (R323, R367, R417) -/

/-- The chain frame of a plate row: module, tile, region offset. -/
def chainFrame (dest : Coord) (tile r : Nat) (row : RowFrame) : Frame where
  kind := .chain
  activity := 5
  dest := dest
  tx := BitVec.ofNat 5 (tileX tile)
  ty := BitVec.ofNat 5 (tileY tile)
  window := BitVec.ofNat 8 (r % 32768 / 128)
  woff := BitVec.ofNat 7 (r % 128)
  gen := 0
  landSp := 0
  seq := 0
  retry := none
  sendSp := 0
  row := row

/-- The IV of a sealed plate segment. -/
def plateIv (k : Packet) : Bytes := beBytes 12 (pack [(32, k.hdr.ref.toNat), (64, k.hdr.target.toNat)])

/-- The plain body of a plate packet: sealed under the plate key whose hash the port names, `none` where no entry
matches or the tag fails. -/
def plateBody (s : State) (p : Nat) (k : Packet) : Option Bytes :=
  if k.hdr.flags = 0 then some k.body
  else
    let h := octGet s (0x8100 + p) 7
    match s.security.plates.find? (·.hash == h) with
    | none => none
    | some e => gcmOpen e.key (plateIv k) h k.body k.tag

/-- The rows of a segment go on as chain frames. -/
def platePut (p : Nat) (k : Packet) (rows : List RowFrame) (s : State) : State :=
  let t := k.hdr.target.toNat
  rows.zipIdx.foldl (fun s x => takeChain (36 + p)
    (chainFrame (coordOf (bits k.hdr.ref.toNat 52 12)) (bits t 38 10) (16 * bits t 0 38 + x.2) x.1) s) s

/-- A plate packet in sequence: without its sealed flag in a session it is refused; a segment whose tag fails is dropped,
unacknowledged and counted (R366), with fault 0x7013 (R367). -/
def takePlate (p : Nat) (k : Packet) (s : State) : State :=
  if !(List.range 8).any (fun c => chainIn s c == 36 + p) then bump 0x5200 5 1 s
  else if portsSealed s && k.hdr.flags = 0 then refusePacket k.hdr 5 Window.reset 0 0 (acceptSeq p k.hdr s)
  else match plateBody s p k with
  | none => portFault 0x7013 p (bits k.hdr.target.toNat 0 18) (bump 0x6100 0x16 1 s)
  | some b => platePut p k (bodyRows k.hdr.items.toNat b) (acceptSeq p k.hdr s)

/-- PLATE (R417). -/
def execPlate (port : Fin 2) (p : Packet) (s : State) : Host.Outcome State Fault Refusal :=
  .next (receivePacket port.val 3 p (takePlate port.val p) s)

/-! ## Acknowledgements (R416, R419, R420) -/

/-- The packets of a destination up to a sequence are acknowledged; its release index moves on. An acknowledgement of an
invalidation packet names that packet alone, whatever precedes it (R416, R420). -/
def ackDest (d seq : Nat) (s : State) : State :=
  let x := destAt s d
  let names := fun (i : Invalid) => i.dest == d && i.seq == seq
  if s.integrity.invalid.any names then
    { s with integrity := { s.integrity with invalid := s.integrity.invalid.filter fun i => !names i } }
  else
    let gone := x.unacked.filter (·.1 ≤ seq)
    destSet d { x with acked := (gone.map fun u => u.2.1 + u.2.2 - 1).foldl max x.acked
                       unacked := x.unacked.filter (seq < ·.1)
                       progress := if gone.isEmpty then x.progress else s.tick } s

/-- An acknowledgement in sequence: of destination d on stream 0xC0000000 + d. -/
def takeAcks (p : Nat) (k : Packet) (s : State) : State :=
  let d := k.hdr.stream.toNat - 0xC0000000
  if portsSealed s && k.hdr.flags = 0 || (openBody s k).isNone then bump 0x6100 0x16 1 s
  else
    let s1 := acceptSeq p k.hdr s
    if k.hdr.target.toNat = 0x40000000 + d then ackDest d k.hdr.ref.toNat s1 else s1

/-- ACKNOWLEDGEMENT (R419). -/
def execAcknowledgement (port : Fin 2) (p : Packet) (s : State) : Host.Outcome State Fault Refusal :=
  .next (receivePacket port.val 6 p (takeAcks port.val p) s)

/-- Whether a sealed stream has used up its sequences (R366). -/
def seqSpent (s : State) (seq : Nat) : Bool := portsSealed s && 2 ^ 64 - 1 ≤ seq

/-- The packet whose row an item carries. -/
def rowOfPacket : Output → Option (Nat × Nat)
  | .stagingIn n q _ _ => some (n, q)
  | .landing _ _ r => r.port
  | _ => none

/-- The rows of data-port packets that have not been written, by stream and sequence (R415). -/
def unwritten (s : State) : List (Nat × Nat) :=
  (s.net.waiting.flatten.flatMap fun w => w.items.filterMap rowOfPacket)
    ++ s.tiles.flatMap fun t => (t.2.queue.flatten ++ t.2.kept.flatten ++ t.2.column).filterMap (·.port)

/-- The highest sequence of a stream up to which every packet is accepted and written (R416). -/
def ackedSeq (s : State) (n : Nat) : Nat :=
  (((unwritten s).filter (·.1 == n)).map (·.2 - 1)).foldl min (mget 0 s.ports.streams n)

/-- The module acknowledges stream `n`, with up to 16 refusal entries. -/
def sendAck (n : Nat) (s : State) : State :=
  let p := mget 0 s.ports.via n
  let mine := (s.ports.refusals.filter (·.1 == n)).take 16
  let q := nextSeq s (0x80000000 + n)
  if !s.ports.egress || mget 0 s.ports.unsent n = 0 && mine.isEmpty then s
  else if seqSpent s q then portFault 0x7012 p 0 s
  else
    let k := packetBytes s 6 mine.length (0x80000000 + n) q n (ackedSeq s n) (mine.map (·.2)).flatten
    emit (.packet p k) (bump (0x8100 + p) 0xA mine.length { s with ports := { s.ports with
      unsent := mset 0 s.ports.unsent n (mget 0 s.ports.streams n - ackedSeq s n), streams := mset 0 s.ports.streams (0x80000000 + n) q
      refusals := mine.foldl (fun l x => l.erase x) s.ports.refusals } })

/-- ACKNOWLEDGEMENT_SEND (R416). -/
def execAckSend (stream : BitVec 32) (s : State) : Host.Outcome State Fault Refusal := .next (sendAck stream.toNat s)

/-! ## Result streams (R418, R419) -/

/-- The records of a destination from number `first` on, as they were before ring encryption. -/
def streamBody (s : State) (d first n : Nat) : Bytes :=
  ((((destAt s d).log.drop (first - 1)).take n).map fun x => ringSeal s (portGet s (ringAddr x.1) 128)).flatten

/-- The bytes of a result packet. -/
def resultPacket (s : State) (d seq first n : Nat) : Bytes :=
  packetBytes s 4 n (0x40000000 + d) seq first (((destAt s d).log[first - 1]?).map (·.1) |>.getD 0) (streamBody s d first n)

/-- Whether a packet of a destination is due: 64 records wait, or 5 µs have passed since the oldest was written. -/
def packetDue (s : State) (d : Nat) : Bool :=
  match ((destAt s d).log.drop (destSent s d)).head? with
  | none => false
  | some x => 64 ≤ (destAt s d).log.length - destSent s d || x.2 + 4000 ≤ s.tick

/-- A due packet of a destination leaves on its port. -/
def sendResults (d : Nat) (s : State) : State :=
  let x := destAt s d
  let p := destPort (destEntry s d)
  let first := destSent s d + 1
  let n := min 64 (x.log.length - destSent s d)
  if !s.ports.egress || !destOn (destEntry s d) || !packetDue s d then s
  else if seqSpent s x.nextSeq then portFault 0x7012 p d s
  else
    let k := resultPacket s d x.nextSeq first n
    emit (.packet p k) (objSet 0x8102 (0x19 + d) (destSent s d + n)
      (destSet d { x with unacked := x.unacked ++ [(x.nextSeq, first, n)], nextSeq := x.nextSeq + 1
                          progress := if x.unacked.isEmpty then s.tick else x.progress } s))

/-- RESULT_PACKET_SEND (R418). -/
def execResultPacketSend (dest : Fin 8) (s : State) : Host.Outcome State Fault Refusal := .next (sendResults dest.val s)

/-- Acknowledgement of a destination has not progressed for 0x8102:09 µs: its packets are sent again from the release
index on. -/
def resendResults (d : Nat) (s : State) : State :=
  let x := destAt s d
  let p := destPort (destEntry s d)
  if !s.ports.egress || !destOn (destEntry s d) || x.unacked.isEmpty || s.tick < x.progress + 800 * objGet s 0x8102 9
  then s
  else
    emits (x.unacked.map fun u => .packet p (resultPacket s d u.1 u.2.1 u.2.2))
      (bump (0x8100 + p) 0xB x.unacked.length (destSet d { x with progress := s.tick } s))

/-- RESULT_RESEND_TIMEOUT (R419). -/
def execResultResend (dest : Fin 8) (s : State) : Host.Outcome State Fault Refusal := .next (resendResults dest.val s)

/-! ## Addresses and links (R411) -/

/-- Whether an address is the port's own: IPv4 as the number of its four bytes, first byte highest. -/
def ownAddress (s : State) (p : Nat) (ipv6 : Bool) (target : Bytes) : Bool :=
  if ipv6 then target == octGet s (0x8100 + p) 4 && !allZero target
  else target.length == 4 && beNat target == objGet s (0x8100 + p) 3 && beNat target != 0

/-- ADDRESS_RESOLUTION (R411): a request for the port's own address is answered with its MAC address. -/
def execAddressResolution (port : Fin 2) (ipv6 : Bool) (target : Bytes) (s : State) : Host.Outcome State Fault Refusal :=
  .next (if s.ports.egress && ownAddress s port.val ipv6 target
    then emit (.address port.val (Config.macAddress (port.val + 1))) s else s)

/-- DATA_PORT_LINK_CHANGE (R411): the link state, and MSI-X vector 7 (R409). -/
def execPortLinkChange (port : Fin 2) (up : Bool) (s : State) : Host.Outcome State Fault Refusal :=
  .next (if objGet s (0x8100 + port.val) 1 = flag up then s else raiseVector 7 (objSet (0x8100 + port.val) 1 (flag up) s))

end Sys2Proof.Machine
end

