-- ==== Sys2Proof/Machine/Faults.lean ====
section
/-! DEFINITION. The fault log (R336 to R339), the safe stop and its end (R340 to R346), repair marks (R347 to R352), the
end of a job (R333) and clearing (R372). -/

namespace Sys2Proof.Machine

/-! ## The fault log -/

/-- A fault record's bytes (R336). -/
def faultBytes (r : FaultRec) : Bytes :=
  leBytes 2 r.code.toNat ++ leBytes 1 r.flags.toNat ++ leBytes 1 (16 * r.site.ocls.toNat + r.site.die.val)
    ++ leBytes 8 r.stamp ++ leBytes 8 r.sp ++ leBytes 2 (coordNat r.modl) ++ leBytes 2 r.site.oidx.toNat
    ++ leBytes 4 r.site.addr.toNat ++ leBytes 4 (r.site.bundle.toNat * 2 ^ 18 + r.site.detail.toNat)

/-- Whether a record is stopping, secondary, remote, the first fault. -/
def recStops (r : FaultRec) : Bool := r.flags.getLsbD 0
def recRemote (r : FaultRec) : Bool := r.flags.getLsbD 2
def recFirst (r : FaultRec) : Bool := r.flags.getLsbD 4

/-- A record with flag [4] set or clear. -/
def setFirst (v : Bool) (r : FaultRec) : FaultRec :=
  { r with flags := if v then r.flags ||| 0x10 else r.flags &&& 0xEF }

/-- The order of the log: stamp, die, origin class (R338). -/
def recBefore (a b : FaultRec) : Bool :=
  decide (a.stamp < b.stamp) || a.stamp == b.stamp && (decide (a.site.die < b.site.die)
    || a.site.die == b.site.die && decide (a.site.ocls < b.site.ocls))

/-- A record takes its place among the others of the log. -/
def insertRec (r : FaultRec) : List FaultRec → List FaultRec
  | [] => [r]
  | a :: l => if recBefore r a then r :: a :: l else a :: insertRec r l

/-- A record joins entries 0x6001:02–40; with the ring full the oldest is overwritten and counted (0x6000:07). -/
def ringRec (r : FaultRec) (s : State) : State :=
  let l := insertRec (setFirst false r) s.integrity.ring
  if l.length ≤ 63 then { s with integrity := { s.integrity with ring := l } }
  else bump 0x6000 7 1 { s with integrity := { s.integrity with ring := l.drop 1 } }

/-- A record becomes the first fault. -/
def becomeFirst (r : FaultRec) (s : State) : State :=
  { s with integrity := { s.integrity with first := some (setFirst true r) } }

/-- A record is a local stopping one of the job. -/
def localStop (r : FaultRec) : Bool := recStops r && !recRemote r

/-- Whether local stopping records are still on their way to C0. -/
def stopsComing (s : State) : Bool := s.integrity.dies.any fun l => l.any localStop

/-- Where a record goes in the log (R338): the first fault of the job is the local stopping record that comes first, or a
remote one where the module held no local one as it arrived; a remote first fault is never displaced. -/
def logRecord (r : FaultRec) (s : State) : State :=
  if !s.job || !recStops r then ringRec r s
  else match s.integrity.first with
  | none => if recRemote r && stopsComing s then ringRec r s else becomeFirst r s
  | some f =>
    if recRemote r || recRemote f || !recBefore r f then ringRec r s else ringRec f (becomeFirst r s)

/-- The fault notice of a record on the CAN FD port (R393): at most 10 in a second, those beyond counted. -/
def faultNotice (r : FaultRec) (s : State) : State :=
  let recent := s.can.notices.filter fun t => s.tick < t + 800000000
  let node := objGet s 0x9000 1
  if !s.job || !recStops r || !pathOpen s .can then s
  else if 10 ≤ recent.length then bump 0x9000 0xB 1 s
  else emit (.canFrame (0x100 + node) (faultBytes r)) { s with can := { s.can with notices := recent ++ [s.tick] } }

/-! ## Replacement requested (R351) -/

/-- The reasons for replacement that hold. -/
def healthBits (s : State) : Nat :=
  let i := s.integrity
  let full := fun (n : Nat) (from_ to_ : Nat) => i.spareUse.any fun u => from_ ≤ u.1 && u.1 < to_ && n ≤ u.2
  let worn := i.unusable.any fun u => u.1 == 1 &&
    96 ≤ mget 0 i.spareUse (24 * u.2.1 + u.2.2) + spareBad s (24 * u.2.1 + u.2.2)
  let ports := (List.range 4).any fun p =>
    2 ≤ mget 0 i.portUse p + (i.unusable.filter fun u => u.1 == 3 && u.2.1 == p).length
  flag (!i.shifts.isEmpty || i.unusable.any (·.1 == 0)) + 2 * flag (full 96 0 18432 || worn)
    + 4 * flag (full 8 18432 24576) + 8 * flag ports + 16 * flag (i.degraded.any (6 ≤ ·.2))
    + 32 * objGet s 0x6000 0x1A

/-- Replacement is requested at the first moment that a reason holds: MSI-X vector 1. Reasons only clear at a start. -/
def checkHealth (s : State) : State :=
  let b := objGet s 0x6000 0x11 ||| healthBits s
  let s1 := objSet 0x6000 0x11 b s
  if b ≠ 0 && objGet s 0x6000 0x10 = 0 then raiseVector 1 (objSet 0x6000 0x10 1 s1) else s1

/-! ## Strikes and marks (R347, R350) -/

/-- The die row of a tile. -/
def dieRow (t : Nat) : Nat := 16 * (dieOf t).val + tileY t % 16

/-- Whether the spare of a die row is in use, spoken for, or unusable. -/
def spareGone (s : State) (k : Nat) : Bool :=
  (s.integrity.shifts.lookup k).isSome || s.integrity.markTiles.any (dieRow · == k)
    || s.integrity.unusable.contains (0, k / 16, k % 16)

/-- A tile is marked for repair; with its die row's spare gone that is the hard fault 0x3011. -/
def markTile (t : Nat) (s : State) : State :=
  if s.integrity.markTiles.contains t then s
  else if spareGone s (dieRow t) then raiseFault 0x3011 (tileSite t 0 0 0) s
  else tableWrite { s with integrity := { s.integrity with markTiles := s.integrity.markTiles ++ [t] } }

/-- Ticks of an hour, and the hour of operation. -/
def hourTicks : Nat := 2880000000000
def hourNow (s : State) : Nat := s.integrity.hours + s.tick / hourTicks

/-- Whether a code gives its tile a strike. -/
def strikeCode (c : Nat) : Bool :=
  (0x3001 ≤ c && c ≤ 0x3006) || c == 0x3009 || c == 0x300A || c == 0x4001 || c == 0x4002

/-- The tile that a fault strikes (R347): the tile of its origin index (R336), or that of the router that raised it. -/
def struckTile (r : FaultRec) : Option Nat :=
  if r.site.ocls = 0 then some (24 * bits r.site.oidx.toNat 6 5 + bits r.site.oidx.toNat 11 5)
  else r.site.router.map (·.val)

/-- A stopping fault of a tile strikes it; two strikes within the window of 0x6000:16 mark it for repair. -/
def strike (r : FaultRec) (s : State) : State :=
  match struckTile r with
  | none => s
  | some t =>
    if !localStop r || !strikeCode r.code.toNat then s
    else
      let recent := s.integrity.strikes.any fun k => k.1 == t && hourNow s ≤ k.2 + objGet s 0x6000 0x16
      let s1 := { s with integrity := { s.integrity with strikes := s.integrity.strikes ++ [(t, hourNow s)] } }
      if recent then markTile t s1 else s1

/-- A record that names a hard fault sets 0x6000:1A. -/
def noteHard (r : FaultRec) (s : State) : State :=
  if r.code = 0x2007 || r.code = 0x3011 then objSet 0x6000 0x1A 1 { s with integrity := { s.integrity with
    hardRow := s.integrity.hardRow || r.code == 0x2007, hardTile := s.integrity.hardTile || r.code == 0x3011 } }
  else s

/-- A record arrives at C0. -/
def deliver (r : FaultRec) (s : State) : State :=
  checkHealth (strike r (noteHard r (faultNotice r (logRecord r (bump 0x6000 6 1 s)))))

/-- FAULT_RECORD (R338): a die's fault unit delivers its oldest record. -/
def execFaultRecord (die : DieIx) (s : State) : Host.Outcome State Fault Refusal :=
  .next (match s.integrity.dies.getD die.val [] with
    | [] => s
    | r :: l => deliver r { s with integrity := { s.integrity with dies := s.integrity.dies.set die.val l } })

/-- SAFE_STOP (R340): a unit raises a stopping code; no unit raises another code by it (R461). -/
def execSafeStop (code : BitVec 16) (site : FaultSite) (s : State) : Host.Outcome State Fault Refusal :=
  .next (if isStopping code.toNat then raiseFault code.toNat site s else s)

/-! ## The boundary of a safe stop (R340) -/

/-- A tile abandons its pipelines, drains and landings. -/
def abandon (t : Tile) : Tile :=
  { t with pipe := [], acts := [], queue := List.replicate 6 [], kept := List.replicate 6 [], column := [], sinking := []
           writes := [], claims := [], vclaims := [], slices := [] }

/-- A count since manufacture advanced by one, in the object store and in flash. -/
def bumpKept (i j : Nat) (s : State) : State :=
  let s1 := bump i j 1 s
  { s1 with flash := mput s1.flash (objKey i j) (objGet s1 i j) }

/-- State 1 comes about: no region issues again, what is in progress is abandoned, incomplete tracer entries are
aborted. -/
def stopBoundary (s : State) : State :=
  let s1 := { s with
    tiles := s.tiles.map fun t => (t.1, abandon t.2)
    links := s.links.map fun l => (l.1, { l.2 with landing := [] })
    net := { s.net with rows := [] } }
  tracerAbort (bumpKept 0x6000 9 (objSet 0x6000 1 1 s1))

/-! ## Clearing (R372) -/

/-- A tile cleared: accumulators, latches, lanes, landing queue. -/
def clearTile (t : Tile) : Tile :=
  { abandon t with latch0 := Latch.reset, latch1 := Latch.reset, accs := [], lanes := [], shLanes := [] }

/-- A link's send buffers cleared. -/
def clearLink (l : Link) : Link :=
  { l with handed := [], bulk := [], sent := [], used := [], block := [], resend := [], landing := [] }

/-- Every session key is gone; the session state is 0. -/
def clearKeys (s : State) : State :=
  let c := s.security
  objSet 0x6100 0x12 0 (objSet 0x6100 0x11 0 { s with security := { c with
    offer := [], nonce := [], secret := [], th := [], kBundle := [], bundles := 0, bound := none, linkKey := []
    reqKey := [], resKey := [], ringKey := [], plates := [] } })

/-- Rows, registers, stores, queues and keys are cleared; every row reads as zeros with a valid proof word. -/
def clearAll (s : State) : State :=
  clearKeys { s with
    mem := [], upsets := [], poison := [], sealedJob := false
    tiles := s.tiles.map fun t => (t.1, clearTile t.2)
    links := s.links.map fun l => (l.1, clearLink l.2) }

/-! ## The end of a job -/

/-- A marked row is mapped to a spare (R114): its corrected contents are copied, a poisoned row stays poisoned. -/
def mapRow (s : State) (a : Nat) : State :=
  match spareKey a with
  | none => s
  | some k =>
    { s with
      upsets := mdel s.upsets a
      poison := if (fetchRow s a).bad then mput s.poison a true else s.poison
      integrity := { s.integrity with
        mapped := if s.integrity.mapped.contains a then s.integrity.mapped else s.integrity.mapped ++ [a]
        spareUse := mset 0 s.integrity.spareUse k (mget 0 s.integrity.spareUse k + 1) } }

/-- Row repairs of a job boundary (R348). -/
def repairRows (s : State) : State :=
  if s.integrity.markRows = [] then s
  else
    let s1 := s.integrity.markRows.foldl mapRow s
    checkHealth (objSet 0x3100 0xC 0 (tableWrite { s1 with integrity := { s1.integrity with markRows := [] } }))

/-- A tile between jobs: nothing runs, no window is open; of its flags those of the broadcast words are gone with the
words, and those that only SETFLAG writes stay (R193). -/
def jobTile (t : Tile) : Tile :=
  { abandon t with seq := Sequencer.reset, stops := [], windows := [], flags := t.flags &&& 0xFFFF, digests := [],
                   corrected := [] }

/-- A link between jobs: nothing is held for a job. -/
def jobLink (l : Link) : Link := { clearLink l with retries := [], symbols := [], tag := [], failures := [] }

/-- A job ends (R333, R346, R360, R413): graphs, windows, words, tree and stream contexts are gone, measurement registers
4 to 6 are 0, row repairs are applied, the module is ready for a new start tick. -/
def leaveJob (s : State) : State :=
  let z := zeros 48
  let s1 := { s with
    job := false, started := false
    hold := { Hold.reset with floor0 := s.hold.floor0 }
    tiles := s.tiles.map fun t => (t.1, jobTile t.2)
    links := s.links.map fun l => (l.1, jobLink l.2)
    regions := []
    net := { s.net with spent := [], waiting := List.replicate 12 [], rows := [], arrived := [], backs := [] }
    treadle := Treadle.reset
    ports := { Ports.reset with egress := true }
    integrity := { s.integrity with stopLine := false, withdrawn := false, endLatched := false, dropped := []
                                    invalid := [] }
    security := { s.security with measure := ((s.security.measure.set 4 z).set 5 z).set 6 z } }
  repairRows (showTreadle 0 ((List.range 16).foldl (fun s w => objSet 0x5000 (0x10 + w) 0 s) s1))

/-- Loads not in force are discarded (R346). -/
def discardLoads (s : State) : State :=
  (List.range 16).foldl (fun s i =>
    if (loadAt s i).state = 4 then s else loadSet i Load.reset (octSet 0x5200 (0x10 + i) (zeros 128) s)) s

/-- A stopped job ends (R346). -/
def endStopped (s : State) : State :=
  let s1 := objSet 0x6000 1 0 (clearTrees (discardLoads (leaveJob s)))
  { s1 with integrity := { s1.integrity with first := none, ring := [] } }

/-- State 2 is reached (R340, R338): first fault and last 8 records are saved, MSI-X vector 0; a latched end follows. -/
def reachStopped (s : State) : State :=
  let i := s.integrity
  let kept := i.first.toList ++ i.ring.drop (i.ring.length - 8)
  let s1 := raiseVector 0 (objSet 0x6000 1 2 { s with integrity := { i with saved := kept } })
  if i.endLatched then endStopped s1 else s1

/-- A module in state 1 goes on to state 2: the lead once it has completed the result ring (R340, R342); a sealed one is
cleared first, in session state 5 (R372). -/
def finishStop (s : State) : State :=
  if stopState s ≠ 1 || isLead s && !s.integrity.withdrawn then s
  else if s.sealedJob then objSet 0x6100 0x11 5 s
  else reachStopped s

/-- The lead completes the result ring no earlier than 16 ticks after its first fault (R338). -/
def stopWithdraw (s : State) : State :=
  match s.integrity.first with
  | none => s
  | some r =>
    if stopState s ≠ 1 || s.tick < r.stamp + 16 then s
    else finishStop (if isLead s && !s.integrity.withdrawn then withdraw s else s)

/-- WITHDRAW_RESULTS (R344). -/
def execWithdrawResults (s : State) : Host.Outcome State Fault Refusal := .next (stopWithdraw s)

/-- Invalidation packets not acknowledged within 1 ms of their last sending are sent again (R344, R420). -/
def repeatInvalid (s : State) : State :=
  let due := s.integrity.invalid.filter fun i => i.sent + 800000 ≤ s.tick
  emits (due.map fun i => .packet (destPort (destEntry s i.dest)) i.bytes)
    { s with integrity := { s.integrity with invalid := s.integrity.invalid.map fun i =>
      if i.sent + 800000 ≤ s.tick then { i with sent := s.tick } else i } }

/-- INVALIDATION_REPEAT (R344). -/
def execInvalidationRepeat (s : State) : Host.Outcome State Fault Refusal := .next (repeatInvalid s)

/-- JOB_END (R333): a job ends outside a safe stop; a sealed one goes on to clearing, session state 5. -/
def execJobEnd (s : State) : Host.Outcome State Fault Refusal :=
  .next (if !s.job || s.integrity.stopLine then s
    else if s.sealedJob then objSet 0x6100 0x11 5 (leaveJob s) else leaveJob s)

/-- CLEARING (R372): after a sealed job's end, or in state 1 of its safe stop once the lead has completed the ring. -/
def execClearing (s : State) : Host.Outcome State Fault Refusal :=
  .next (if !s.sealedJob then s
    else if stopState s ≠ 1 && session s = 5 then clearAll s
    else if stopState s = 1 && s.integrity.first.isSome && (!isLead s || s.integrity.withdrawn) then
      finishStop (clearAll s)
    else s)

/-! ## Self-test and the management controller -/

/-- A spare by kind, place and number; whether it is in service. -/
def spareCode : Spare → Nat × Nat × Nat
  | .tile d r => (0, d.val, r.val)
  | .beamRow t j => (1, t.val, j.val)
  | .bobbinRow t b => (2, t.val, b.val)
  | .port p => (3, p.val, 0)

/-- Whether spares of the kind are left to test. -/
def spareIdle (s : State) : Spare → Bool
  | .tile d r => !spareGone s (16 * d.val + r.val)
  | .beamRow t j => 0 < spareLeft s (24 * t.val + j.val)
  | .bobbinRow t b => 0 < spareLeft s (18432 + 8 * t.val + b.val)
  | .port p => mget 0 s.integrity.portUse p.val + (s.integrity.unusable.filter (· == (3, p.val, 0))).length < 2

/-- Where a spare's failure is recorded: its tile or die. -/
def spareSite : Spare → FaultSite
  | .tile d r => unitSite 0 d.val 0 r.val
  | .beamRow t j => tileSite t.val 0 0 j.val
  | .bobbinRow t b => tileSite t.val 0 0 b.val
  | .port p => portSite p.val 0

/-- SELF_TEST_FAILURE (R352): with the self-test on, a spare not in service is recorded and never used. -/
def execSelfTestFailure (what : Spare) (s : State) : Host.Outcome State Fault Refusal :=
  .next (if (fnAt s 36).state ≠ 2 || !spareIdle s what then s
    else checkHealth (bumpKept 0x6000 0x19 (raiseFault 0x3010 (spareSite what)
      { s with integrity := { s.integrity with unusable := s.integrity.unusable ++ [spareCode what] } })))

/-- MANAGEMENT_WATCHDOG_EXPIRY (R353): the management controller resets; its paths do not answer meanwhile. -/
def execMgmtWatchdog (s : State) : Host.Outcome State Fault Refusal :=
  .next (raiseFault 0x8010 (unitSite 4 0 0 0) { s with mgmtDown := true, can := Can.reset })

/-- MANAGEMENT_CONTROLLER_RESET_DONE (R353). -/
def execMgmtResetDone (s : State) : Host.Outcome State Fault Refusal := .next { s with mgmtDown := false }

end Sys2Proof.Machine
end

