-- ==== Sys2Proof/Machine/Security.lean ====
section
/-! DEFINITION. Responses of the object service (R382), attestation reports (R361), sealed sessions (R362 to R365), IDE
keys (R373) and signed write envelopes (R374). -/

namespace Sys2Proof.Machine

/-! ## Responses -/

/-- The response to a request: its header copied, a status and data (request and response header table). -/
def responseTo (q : Request) (status : Nat) (data : Bytes) : Response where
  txn    := q.txn
  opcode := q.opcode + 0x80
  index  := q.index
  sub    := q.sub
  status := BitVec.ofNat 8 status
  data   := data

/-- A request has been answered: it counts as served, and as refused with any status but done and withheld (0x1002). -/
def countRequest (r : Response) (s : State) : State :=
  let s1 := bump 0x1002 1 1 s
  if r.status = 0 || r.status = 8 then s1
  else objSet 0x1002 3 (r.index.toNat * 65536 + r.sub.toNat * 256 + r.status.toNat) (bump 0x1002 2 1 s1)

/-- A counted response leaves on its path. -/
def respond (path : Path) (r : Response) (s : State) : State := emit (.response path r) (countRequest r s)

/-- The request that carries a security message (opcode 0x10). -/
def securityRequest (data : Bytes) : Request where
  txn    := 0
  opcode := 0x10
  index  := 0
  sub    := 0
  status := 0
  data   := data

/-! ## Reports (R361) -/

/-- Ed25519 and ML-DSA-65 signatures of the security block over a message with a context. -/
def signBoth (s : State) (context : Bytes) (m : Bytes) : Bytes × Bytes :=
  (slice (Config.ed25519Sign s.security.idEd (context ++ m)) 0 64, slice (Config.mldsaSign s.security.idMl context m) 0 3309)

/-- The stepping and grade codes of a report. -/
def steppingCode (s : State) : Nat := match s.ident.stepping with | .A0 => 0 | .B0 => 1
def gradeCode (s : State) : Nat := match s.ident.grade with | .A => 0x0A | .B => 0x0B

/-- The signed bytes 0 to 1,687 of a report. -/
def reportBody (s : State) (kind mode state : Nat) (nonce xpub kem : Bytes) : Bytes :=
  ascii "CHRATT01" ++ leBytes 2 1 ++ leBytes 1 kind ++ leBytes 1 (steppingCode s) ++ leBytes 1 (gradeCode s)
    ++ leBytes 1 (objGet s 0x6100 6) ++ leBytes 1 mode ++ leBytes 1 state ++ slice (octGet s 0x6100 3) 0 16
    ++ slice nonce 0 32 ++ leBytes 8 s.tick ++ leBytes 4 (objGet s 0x6100 7) ++ leBytes 2 (objGet s 0x4200 1) ++ zeros 2
    ++ (s.security.measure.map fun m => slice m 0 48).flatten ++ slice xpub 0 32 ++ slice kem 0 1184 ++ zeros 8

/-- A report with both signatures. -/
def report (s : State) (body : Bytes) : Bytes :=
  let g := signBoth s (ascii "CHROPA-ATTEST-1") body
  body ++ g.1 ++ g.2

/-- What a security message answers: status, reply, state. -/
abbrev SecReply := Nat × Bytes × State

/-- An attestation request: a kind 0x1 report. -/
def attest (nonce : Bytes) (s : State) : SecReply :=
  (0, report s (reportBody s 1 (objGet s 0x6200 1) (session s) nonce [] []), s)

/-! ## Sessions (R362 to R365) -/

/-- An offer request: refused during a job, out of order, or where the mode differs from 0x6200:01; otherwise fresh keys
and a kind 0x2 report, state 1. -/
def offer (nonce : Bytes) (mode : Nat) (s : State) : SecReply :=
  if s.job then (7, [], s)
  else if session s ≠ 0 then (0xD, [], s)
  else if mode ≠ objGet s 0x6200 1 then (6, [], s)
  else
    let k := Config.freshSecret s.free
    let body := reportBody s 2 mode 1 nonce (Config.x25519Public k) (Config.mlkemPublic k)
    let s1 := { s with free := s.free + 1, security := { s.security with offer := body, nonce := nonce, secret := k } }
    (0, report s body, objSet 0x6100 0x11 1 s1)

/-- The keys that an accept derives (R363): transcript hash, confirmation of tenant and module, bundle key. -/
def sessionKeys (s : State) (xpub kem : Bytes) : Bytes × Bytes × Bytes × Bytes :=
  let k := s.security.secret
  let th := sha384 (s.security.offer ++ xpub ++ kem)
  let prk := hmacSha384 th (Config.mlkemDecaps k kem ++ Config.x25519Shared k xpub)
  (th, hmacSha384 (hmacSha384 prk (ascii "tenant confirm" ++ [1])) th,
   hmacSha384 (hmacSha384 prk (ascii "module confirm" ++ [1])) th, (hmacSha384 prk (ascii "bundle" ++ [1])).take 32)

/-- An accept: a wrong confirmation returns the state to 0; the right one is answered with the module's, register 6 is
extended with the transcript hash, state 2. -/
def acceptOffer (xpub kem confirm : Bytes) (s : State) : SecReply :=
  if s.job || session s ≠ 1 then (0xD, [], s)
  else
    let k := sessionKeys s xpub kem
    if confirm ≠ k.2.1 then (0xD, [], bump 0x6100 0x16 1 (clearKeys s))
    else (0, k.2.2.1, objSet 0x6100 0x11 2 (extendReg 6 k.1
      { s with security := { s.security with th := k.1, kBundle := k.2.2.2 } }))

/-- The IV of a key bundle. -/
def bundleIv (seq : Nat) : Bytes := zeros 8 ++ beBytes 4 seq

/-- The pattern hash and slice fields of a bundle. -/
def bundleBound (b : Bytes) : Bytes × Nat × Nat × Nat := (slice b 8 32, leAt b 40 2, leAt b 42 2, leAt b 44 2)

/-- Whether a decrypted bundle is accepted (R365): next in sequence, bound as the first, for the loaded pattern. -/
def bundleOk (s : State) (seq : Nat) (b : Bytes) : Bool :=
  b.length == 1712 && leAt b 0 4 == seq && seq == s.security.bundles + 1 && leAt b 4 1 ≤ 16
    && (match s.security.bound with | none => true | some x => x == bundleBound b)
    && (match s.pattern with | none => true | some p => p.hash == slice b 8 32)

/-- The plate entries of a bundle. -/
def bundlePlates (b : Bytes) : List PlateKey :=
  (List.range (leAt b 4 1)).map fun i =>
    { hash := slice b (176 + 96 * i) 32, digest := slice b (208 + 96 * i) 32, key := slice b (240 + 96 * i) 32 }

/-- An accepted bundle: the first brings keys and binding, each its plate entries; register 6 is extended with its
SHA-384. -/
def takeBundle (b raw : Bytes) (s : State) : State :=
  let c := s.security
  let c1 := if c.bundles = 0 then { c with
      bound := some (bundleBound b), linkKey := slice b 48 32, reqKey := slice b 80 32, resKey := slice b 112 32
      ringKey := slice b 144 32 } else c
  let s1 := objSet 0x6100 0x12 (c.bundles + 1) { s with security := { c1 with
    bundles := c.bundles + 1, plates := c.plates ++ bundlePlates b } }
  extendReg 6 (sha384 raw) (if session s = 2 then stopSampling (objSet 0x6100 0x11 3 s1) else s1)

/-- A key bundle: in state 2 outside a job, later ones in states 3 and 4; a refused one changes nothing. -/
def keyBundle (seq : Nat) (ct tag : Bytes) (s : State) : SecReply :=
  if !(session s = 2 && !s.job || session s = 3 || session s = 4) then (0xD, [], s)
  else match gcmOpen s.security.kBundle (bundleIv seq) s.security.th ct tag with
  | none => (0xD, [], s)
  | some b => if bundleOk s seq b then (0, [], takeBundle b (ct ++ tag) s) else (0xD, [], s)

/-- A security message told by its length: attestation request, offer request, accept, key bundle. -/
def securityMessage (m : Bytes) (s : State) : SecReply :=
  if m.length = 32 then attest m s
  else if m.length = 33 then offer (slice m 0 32) (leAt m 32 1) s
  else if m.length = 1168 then acceptOffer (slice m 0 32) (slice m 32 1088) (slice m 1120 48) s
  else if m.length = 1728 then keyBundle (s.security.bundles + 1) (slice m 0 1712) (slice m 1712 16) s
  else (0xE, [], s)

/-- A security message is answered on its path; on the CAN FD port it is malformed (R382), and without C0 not available
(R384). -/
def secAnswer (path : Path) (m : Bytes) (f : State → SecReply) (s : State) : State :=
  if !pathOpen s path then s
  else if path = .can then respond path (responseTo (securityRequest m) 0xE []) s
  else if !codeRunning s then respond path (responseTo (securityRequest m) 0xD []) s
  else
    let r := f s
    respond path (responseTo (securityRequest m) r.1 r.2.1) r.2.2

/-- ATTESTATION_REQUEST (R361). -/
def execAttestationRequest (path : Path) (nonce : Bytes) (s : State) : Host.Outcome State Fault Refusal :=
  .next (secAnswer path nonce (attest nonce) s)

/-- OFFER_REQUEST (R362). -/
def execOfferRequest (path : Path) (nonce : Bytes) (mode : BitVec 8) (s : State) : Host.Outcome State Fault Refusal :=
  .next (secAnswer path (nonce ++ [mode]) (offer nonce mode.toNat) s)

/-- ACCEPT (R363). -/
def execAccept (path : Path) (xpub kem confirm : Bytes) (s : State) : Host.Outcome State Fault Refusal :=
  .next (secAnswer path (xpub ++ kem ++ confirm) (acceptOffer xpub kem confirm) s)

/-- KEY_BUNDLE (R365). -/
def execKeyBundle (path : Path) (seq : BitVec 32) (ct tag : Bytes) (s : State) :
    Host.Outcome State Fault Refusal :=
  .next (secAnswer path (ct ++ tag) (keyBundle seq.toNat ct tag) s)

/-- OFFER_TIMEOUT (R362): an offer not accepted within 60 s. -/
def execOfferTimeout (s : State) : Host.Outcome State Fault Refusal :=
  .next (if session s = 1 && leAt s.security.offer 64 8 + 48000000000 ≤ s.tick then clearKeys s else s)

/-- IDE_KM (R373): keys are taken inside a host session only; with `go` the stream becomes active (0x8000:0C). -/
def execIdeKm (keys : Bytes) (go : Bool) (s : State) : Host.Outcome State Fault Refusal :=
  .next (if session s ≠ 2 then s
    else if go then (if s.security.ide = [] && keys = [] then s
      else objSet 0x8000 0xC 2 { s with security := { s.security with ide := if keys = [] then s.security.ide else keys } })
    else objSet 0x8000 0xC 1 { s with security := { s.security with ide := keys } })

/-! ## Signed writes (R374) -/

/-- The signed bytes of an envelope. -/
def envelopeBody (e : Envelope) : Bytes :=
  leBytes 2 e.index.toNat ++ leBytes 1 e.sub.toNat ++ e.value ++ e.moduleId ++ leBytes 4 e.counter.toNat

/-- Whether an envelope passes its checks: module, counter, both signatures. -/
def envelopeOk (s : State) (e : Envelope) : Bool :=
  e.moduleId == octGet s 0x6100 3 && e.counter.toNat == objGet s 0x6100 0x13 + 1
    && Config.ed25519Verify Config.serviceKeyEd (envelopeBody e) e.sigEd
    && Config.mldsaVerify Config.serviceKeyMl [] (envelopeBody e) e.sigMl

/-- The envelope in the data of a signed write request. -/
def envelopeOf (b : Bytes) : Option Envelope :=
  let n := b.length - 3396
  if b.length < 3396 then none
  else some { index := BitVec.ofNat 16 (leAt b 0 2), sub := BitVec.ofNat 8 (leAt b 2 1), value := slice b 3 n
              moduleId := slice b (3 + n) 16, counter := BitVec.ofNat 32 (leAt b (19 + n) 4)
              sigEd := slice b (23 + n) 64, sigMl := slice b (87 + n) 3309 }

end Sys2Proof.Machine
end

