-- ==== Sys2Proof/Machine/Loader.lean ====
section
/-! DEFINITION. The pattern loader: the layout of a pattern file (R77, R464, R231, R238, R275, R276, R302), the
relocation block (R79, R405), the checks of R406 and R78 in their order, and the load itself. -/

namespace Sys2Proof.Machine

/-! ## The layout of a pattern file -/

/-- The first multiple of 8 at or after a number (R238). -/
def align8 (n : Nat) : Nat := (n + 7) / 8 * 8

/-- The slice shape of a pattern. -/
def patShape (f : Bytes) : Nat × Nat × Nat := (leAt f 0x10 1, leAt f 0x11 1, leAt f 0x12 1)
/-- Modules of the slice. -/
def patModules (f : Bytes) : Nat := (patShape f).1 * (patShape f).2.1 * (patShape f).2.2
/-- Tile groups, schedules, step variants. -/
def patGroups (f : Bytes) : Nat := leAt f 0x0D 1
def patScheds (f : Bytes) : Nat := leAt f 0x0E 2
def patVariants (f : Bytes) : Nat := leAt f 0x13 1
/-- The tables that the header locates. -/
def patDir (f : Bytes) : Nat := leAt f 0x40 8
def patDelays (f : Bytes) : Nat := leAt f 0x48 8
def patBases (f : Bytes) : Nat := leAt f 0x50 8
def patExtents (f : Bytes) : Nat := leAt f 0x58 8
def patMods (f : Bytes) : Nat := leAt f 0x60 8
/-- The link table (R238). -/
def patLinks (f : Bytes) : Nat := align8 (patDelays f + 36 * patModules f)

/-- The digest blocks of `n` modules from an offset: offset of the first entry and count of each, and the end (R275). -/
def digestBlocks (f : Bytes) : Nat → Nat → List (Nat × Nat) × Nat
  | 0, o => ([], o)
  | n + 1, o =>
    let k := leAt f o 8
    let r := digestBlocks f n (o + 8 + 16 * k)
    ((o + 8, k) :: r.1, r.2)

/-- The digest table's blocks and its end. -/
def patDigests (f : Bytes) : List (Nat × Nat) × Nat :=
  digestBlocks f (patModules f) (align8 (patLinks f + 33776 * patModules f))
/-- The group map and the variant table (R276, R302). -/
def patMap (f : Bytes) : Nat := align8 (patDigests f).2
def patVars (f : Bytes) : Nat := align8 (patMap f + 768 * patModules f)

/-- The assumed delay of link name `k` (6 times direction code plus index) of module `m` in slice order. -/
def patDelay (f : Bytes) (m k : Nat) : Nat := leAt f (patDelays f + 36 * m + k) 1
/-- Send table entry `e` of die `d` of module `m`. -/
def patSend (f : Bytes) (m d e : Nat) : Nat := leAt f (patLinks f + 33776 * m + 8192 * d + 8 * e) 8
/-- Entry `j` of the forward table of link name `k` of module `m`. -/
def patForward (f : Bytes) (m k j : Nat) : Nat := leAt f (patLinks f + 33776 * m + 32768 + 28 * k + 2 * j) 2
/-- Base word `w` of group `g`. -/
def patBase (f : Bytes) (g w : Nat) : Nat := leAt f (patBases f + 48 * g + 4 * w) 4
/-- The group of a tile of module `m`. -/
def patGroup (f : Bytes) (m t : Nat) : Nat := leAt f (patMap f + 768 * m + t) 1

/-- Directory entry `i`, its publications still to be derived. -/
def patSched (f : Bytes) (i : Nat) : Schedule :=
  let o := patDir f + 32 * i
  { group := leAt f o 1, length := leAt f (o + 4) 4, bundles := leAt f (o + 8) 4, stream := leAt f (o + 12) 4,
    offset := leAt f (o + 16) 8, pubs := [] }

/-- The physical link of a link name: the link of that rank among the six of its direction (R18, R79, R253). -/
def linkNamed (k : Nat) : Nat := (linksOf (k / 6)).getD (k % 6) 0

/-- The slice coordinates of the module at a place in slice order (R259). -/
def moduleAt (f : Bytes) (m : Nat) : List Nat :=
  let s := patShape f
  [m % s.1, m / s.1 % s.2.1, m / s.1 / s.2.1]

/-- The place in slice order of slice coordinates. -/
def sliceRankOf (f : Bytes) (c : List Nat) : Nat := nat c 0 + (patShape f).1 * (nat c 1 + (patShape f).2.1 * nat c 2)

/-- The module beyond link name `k` of module `m`: one step along the link's direction, round the axis. -/
def linkFar (f : Bytes) (m k : Nat) : Nat :=
  let c := moduleAt f m
  let axis := k / 6 / 2
  let n := nat [(patShape f).1, (patShape f).2.1, (patShape f).2.2] axis
  let v := if k / 6 % 2 = 0 then (nat c axis + 1) % n else (nat c axis + n - 1) % n
  sliceRankOf f (c.set axis v)

/-- The name of a link at its far end: the opposite direction, the same rank (R253). -/
def linkBack (k : Nat) : Nat := (if k / 6 % 2 = 0 then k + 6 else k - 6)

/-- Whether a row address has a row within its space (R73). -/
def rowInSpace (a : Nat) : Bool := decide (addrRow a < spaceRows (addrSpace a))

/-! ## Schedules (R70 to R72, R172, R289) -/

/-- The static walk over a schedule: bundle, open loops (body, passes left), issue cycles, cycles of the pick, picks
begun before, first cycle in which a V slot may issue, stream rows of the pick, publications. -/
structure Walk where
  b     : Nat
  loops : List (Nat × Nat)
  now   : Nat
  cyc   : Nat
  pick  : Nat
  vfree : Nat
  rows  : List Nat
  pubs  : List (Nat × Nat)
  deriving DecidableEq, Repr

/-- The slots of a bundle that the walk needs. -/
structure WalkSlots where
  k : Option KSlot
  v : Option VSlot
  s : Option (SOp × SSlot)
  deriving DecidableEq, Repr

/-- The slots of bundle `b`; reserved fields and values are refused later, with 0x0A. -/
def walkSlots (f : Bytes) (d : Schedule) (b : Nat) : WalkSlots :=
  let x := leAt f (d.offset + 32 * b) 32
  { k := readK (bits x 0 32), v := readV (bits x 144 64), s := readS (bits x 32 48) }

/-- The word that a bundle publishes. -/
def pubOf (x : WalkSlots) : Option Nat :=
  match x.s with
  | some (.publish, g) => some (g.window.toNat % 16)
  | _ => none

/-- A V slot that issues in cycle `now`: the first cycle for the next one, `none` where it comes too early (R172). -/
def vAfter (x : WalkSlots) (now vfree : Nat) : Option Nat :=
  match x.v with
  | none => some vfree
  | some v => if now < vfree then none else some (now + vCycles v)

/-- The V slots of an arm's bundles in order. -/
def armAfter (now vfree : Nat) : List WalkSlots → Option Nat
  | [] => some vfree
  | x :: r => (vAfter x now vfree).bind fun v => armAfter (now + 1) v r

/-- The two arms of a SELECT (R71): no K slot, publishes in equal pairs, V slots spaced in each arm. -/
def armsOk (a b : List WalkSlots) (now vfree : Nat) : Option Nat :=
  if (a ++ b).any (·.k.isSome) || a.map pubOf != b.map pubOf then none
  else match armAfter now vfree a, armAfter now vfree b with
    | some x, some y => some (max x y)
    | _, _ => none

/-- The walk past one bundle with no effect on control. -/
def Walk.plain (w : Walk) (b : Nat) (loops : List (Nat × Nat)) : Walk := { w with b := b, loops := loops }

/-- The static walk of R70: the publications of a schedule that meets every condition. `fuel` bounds the issue cycles. -/
def walkGo (f : Bytes) (d : Schedule) : Nat → Walk → Option (List (Nat × Nat))
  | 0, _ => none
  | fuel + 1, w =>
    let x := walkSlots f d w.b
    let rows := if d.bundles ≤ 16384 then [] else (w.rows ++ [w.b / 16]).eraseDups
    match vAfter x w.now w.vfree with
    | none => none
    | some vf =>
      let pubs := w.pubs ++ ((pubOf x).map fun p => (w.pick, p)).toList
      let n : Walk := { w with now := w.now + 1, cyc := w.cyc + 1, vfree := vf, rows := rows, pubs := pubs }
      if d.bundles ≤ w.b || 128 < n.cyc || 8 < rows.length then none
      else match x.k with
      | none => walkGo f d fuel (n.plain (w.b + 1) w.loops)
      | some .endS => if w.loops.isEmpty && w.pick + 1 == d.length then some pubs else none
      | some .pickwait => walkGo f d fuel { n.plain (w.b + 1) w.loops with cyc := 0, pick := w.pick + 1, rows := [] }
      | some (.loop dep t) =>
        if t.toNat = 0 || dep.toNat ≠ w.loops.length then none
        else walkGo f d fuel (n.plain (w.b + 1) ((w.b + 1, t.toNat - 1) :: w.loops))
      | some (.endloop dep) =>
        match w.loops with
        | [] => none
        | (body, left) :: r =>
          if dep.toNat ≠ r.length then none
          else if left = 0 then walkGo f d fuel (n.plain (w.b + 1) r)
          else walkGo f d fuel (n.plain body ((body, left - 1) :: r))
      | some (.select _ len) =>
        let l := len.toNat + 1
        let a := (List.range l).map fun i => walkSlots f d (w.b + 1 + i)
        let b := (List.range l).map fun i => walkSlots f d (w.b + 1 + l + i)
        let seen := (rows ++ if d.bundles ≤ 16384 then [] else
          (List.range (2 * l)).map fun i => (w.b + 1 + i) / 16).eraseDups
        match armsOk a b n.now vf with
        | none => none
        | some v =>
          let more := a.filterMap fun y => (pubOf y).map fun p => (w.pick, p)
          if d.bundles < w.b + 1 + 2 * l || 128 < n.cyc + l || 8 < seen.length then none
          else walkGo f d fuel { n.plain (w.b + 1 + 2 * l) w.loops with
            now := n.now + l, cyc := n.cyc + l, vfree := v, rows := seen, pubs := pubs ++ more }

/-- The publications of a schedule, `none` where it breaks R70, R71, R72 or R172. No schedule that meets them issues
more than 128 bundles in each pick of its length. -/
def walk (f : Bytes) (d : Schedule) : Option (List (Nat × Nat)) :=
  walkGo f d (128 * d.length + 1)
    { b := 0, loops := [], now := 0, cyc := 0, pick := 0, vfree := 0, rows := [], pubs := [] }

/-! ## The checks -/

/-- What a check answers: status and detail of the first item that fails. -/
abbrev Check := Option (Nat × Nat)

/-- A check of one item. -/
def failIf (c : Bool) (status detail : Nat) : Check := if c then some (status, detail) else none

/-- The first of several checks that fails. -/
def firstFail (l : List Check) : Check := l.findSome? id

/-- The first item of a list that fails a check. -/
def eachOf {α : Type} (l : List α) (c : α → Check) : Check := l.findSome? c

/-- Whether a table of `n` bytes at an offset lies within the file. -/
def within (f : Bytes) (o n : Nat) : Bool := decide (o + n ≤ f.length)

/-- Status 0x01 (R78): magic, version, header ranges, tables and bundles within the file. -/
def checkHeader (f : Bytes) (len : Nat) : Check :=
  let s := patShape f
  let ext (n : Nat) := n = 0 || 16 < n
  firstFail [
    failIf (slice f 0 8 != ascii "CHRPAT01") 1 0, failIf (leAt f 8 2 != 1) 1 8,
    failIf (leAt f 0x18 8 != len) 1 0x18,
    failIf (patGroups f = 0 || 16 < patGroups f) 1 0x0D, failIf (patScheds f = 0) 1 0x0E,
    failIf (ext s.1) 1 0x10, failIf (ext s.2.1) 1 0x11, failIf (ext s.2.2) 1 0x12, failIf (decide (8 < patVariants f)) 1 0x13,
    failIf (!within f (patDir f) (32 * patScheds f)) 1 0x40,
    failIf (!within f (patDelays f) (36 * patModules f)) 1 0x48,
    failIf (!within f (patBases f) (48 * patGroups f)) 1 0x50,
    failIf (!within f (patExtents f) (16 * patGroups f)) 1 0x58,
    failIf (!within f (patMods f) (60 * patGroups f)) 1 0x60,
    failIf (!within f (patLinks f) (33776 * patModules f)) 1 (patLinks f),
    failIf (!within f 0 (patDigests f).2) 1 (align8 (patLinks f + 33776 * patModules f)),
    failIf (!within f (patMap f) (768 * patModules f)) 1 (patMap f),
    failIf (!within f (patVars f) 2048) 1 (patVars f),
    eachOf (List.range (patScheds f)) fun i =>
      failIf (!within f (patSched f i).offset (32 * (patSched f i).bundles)) 1 (patDir f + 32 * i)]

/-- The own module's place in slice order (R259). -/
def ownRank (s : State) (f : Bytes) : Nat :=
  let v := objGet s 0x4200 0xE
  sliceRankOf f [bits v 8 4, bits v 4 4, bits v 0 4]

/-- Whether the pattern's shape is that of 0x4200:0D and holds the own slice coordinate. -/
def shapeOk (s : State) (f : Bytes) : Bool :=
  let p := patShape f
  let e := objGet s 0x4200 0xD
  let c := objGet s 0x4200 0xE
  p.1 == bits e 8 4 + 1 && p.2.1 == bits e 4 4 + 1 && p.2.2 == bits e 0 4 + 1
    && decide (bits c 8 4 < p.1) && decide (bits c 4 4 < p.2.1) && decide (bits c 0 4 < p.2.2)

/-- Status 0x07 (R64): a used link is degraded, failed, miswired or too long, or slower than assumed. DEDUCED (log 120): a
used link that is down or in training is none of these. -/
def checkUsed (s : State) (f : Bytes) : Check :=
  eachOf (List.range 36) fun k =>
    let a := patDelay f (ownRank s f) k
    let l := linkNamed k
    failIf (a != 0 && (decide (3 ≤ linkState s l) || decide (a < objGet s (0x4100 + l) 4))) 7 l

/-- The latency profiles of a stepping by its code in a COORD symbol (R229). -/
def codeProvides (code prof : Nat) : Bool := Config.providesProfile (if code = 0 then .A0 else .B0) prof

/-- Whether every module of the slice provides a latency profile (R6). DEDUCED (log 121): as far as the module knows their
steppings: its own, and those that its peers of the slice gave in training. -/
def allProvide (s : State) (prof : Nat) : Bool :=
  Config.providesProfile s.ident.stepping prof && (List.range 36).all fun l =>
    !linkUp s l || !inSlice s (peerCoord s l) ||
      (match (linkAt s l).stepping with
        | none => true
        | some c => codeProvides c prof)

/-- Status 0x09: base words 0 to 11 of the pattern and as relocated, extents. -/
def checkBases (f : Bytes) (rel : Nat → Nat → Nat) : Check :=
  let bad (a : Nat) := bits a 22 10 != 0 || !rowInSpace a || addrSpace a == 1 && addrRow a % 24 != 0
  firstFail [
    eachOf (List.range (patGroups f)) fun g => eachOf (List.range 12) fun w =>
      failIf (bad (patBase f g w) || bad (rel g w)) 9 (patBases f + 48 * g + 4 * w),
    eachOf (List.range (4 * patGroups f)) fun i =>
      failIf (decide (737280 < leAt f (patExtents f + 4 * i) 4)) 9 (patExtents f + 4 * i)]

/-- A directory entry's own fields (R464). -/
def checkDir (f : Bytes) (i : Nat) : Check :=
  let o := patDir f + 32 * i
  let d := patSched f i
  let streamOk := if 16384 < d.bundles then d.stream % 24 == 0 && addrSpace (patBase f d.group 11) == 1 else d.stream == 0
  firstFail [
    failIf (decide (patGroups f ≤ d.group)) 0xA o, failIf (leAt f (o + 1) 3 != 0) 0xA (o + 1),
    failIf (d.length = 0) 0xA (o + 4), failIf (d.bundles = 0) 0xA (o + 8), failIf (!streamOk) 0xA (o + 12),
    failIf (leAt f (o + 24) 8 != 0) 0xA (o + 24),
    eachOf (List.range d.bundles) fun b =>
      failIf (match decodeBundle (leAt f (d.offset + 32 * b) 32) with | none => true | some x => !legalBundle x)
        0xA (d.offset + 32 * b)]

/-- The module table entries (R464). -/
def checkMods (f : Bytes) : Check :=
  let s := patShape f
  eachOf (List.range (15 * patGroups f)) fun i =>
    let o := patMods f + 4 * i
    failIf (decide (s.1 ≤ leAt f o 1) || decide (s.2.1 ≤ leAt f (o + 1) 1) || decide (s.2.2 ≤ leAt f (o + 2) 1)
      || leAt f (o + 3) 1 != 0) 0xA o

/-- The forward table entries of module `m` (R236, R238). -/
def checkForwards (f : Bytes) (m : Nat) : Check :=
  eachOf (List.range 36) fun k => eachOf (List.range 14) fun j =>
    let e := patForward f m k j
    let out := bits e 9 6
    let slot := bits e 5 4
    let bad := bits e 0 5 != 0 || decide (35 < out) || decide (13 < slot)
      || bitOf e 15 && (decide (slotPosition slot < slotPosition j) || patDelay f m k == 0 || patDelay f m out == 0)
    failIf bad 0xA (patLinks f + 33776 * m + 32768 + 28 * k + 2 * j)

/-- The path of a row sent from module `m` on link name `k` in slot `j`, over `n` links: where it arrives, the link
name on which it arrives and the sum of the assumed delays of the receiving links; `none` where a forward entry is not
valid (R66, R236). -/
def sendPath (f : Bytes) : Nat → Nat → Nat → Nat → Option (Nat × Nat × Nat)
  | 0, _, _, _ => none
  | n + 1, m, k, j =>
    let far := linkFar f m k
    let back := linkBack k
    let d := patDelay f far back
    if n = 0 then some (far, back, d)
    else
      let e := patForward f far back j
      if bitOf e 15 then (sendPath f n far (bits e 9 6) (bits e 5 4)).map fun r => (r.1, r.2.1, r.2.2 + d) else none

/-- A send table entry of die `d` of module `m` by itself (R231, R232). -/
def sendEntryBad (f : Bytes) (m d e : Nat) : Bool :=
  let link := bits e 58 6
  let hops := bits e 50 4
  let t := 24 * bits e 22 5 + bits e 27 5
  bits e 0 22 != 0 || decide (35 < link) || linkNamed link / 9 != d || patDelay f m link == 0 || decide (13 < bits e 54 4)
    || hops == 0 || decide (4 < hops) || decide (24 ≤ bits e 27 5)
    || (match sendPath f hops m link (bits e 54 4) with
        | none => true
        | some r => sliceRankOf f [bits e 40 4, bits e 36 4, bits e 32 4] != r.1
            || linkNamed r.2.1 / 9 != (dieOf t).val || bits e 44 6 != r.2.2 + hops)

/-- The hand-offs of the pattern's schedules: group, send table entry, rows. -/
def handOffs (f : Bytes) : List (Nat × Nat × Nat) :=
  ((List.range (patScheds f)).flatMap fun i =>
    let d := patSched f i
    (List.range d.bundles).filterMap fun b =>
      match (walkSlots f d b).s with
      | some (.selvedge, g) => some (d.group, g.dx.toNat * 32 + g.dy.toNat, g.count.toNat + 1)
      | _ => none).eraseDups

/-- The groups with tiles on die `d` of module `m`. -/
def groupsOn (f : Bytes) (m d : Nat) : List Nat :=
  (((List.range 768).filter fun t => (dieOf t).val == d).map (patGroup f m)).eraseDups

/-- The send tables of module `m` (R231, R232): every entry that is not all zeros, and every entry that a hand-off of a
group of the die names. -/
def checkSends (f : Bytes) (uses : List (Nat × Nat × Nat)) (m : Nat) : Check :=
  eachOf (List.range 4) fun d =>
    let here := groupsOn f m d
    let mine := uses.filter fun u => here.contains u.1
    eachOf (List.range 1024) fun i =>
      let e := patSend f m d i
      let rows := (mine.filter (·.2.1 == i)).map (·.2.2)
      failIf ((e != 0 || !rows.isEmpty) && (sendEntryBad f m d e || rows.any fun n => decide (14 < bits e 54 4 + n)))
        0xA (patLinks f + 33776 * m + 8192 * d + 8 * i)

/-- A digest table entry as its descriptor, with its tile; `none` where a field is out of range (R273 to R275). -/
def digestEntry (e : Nat) : Option (Nat × Digest) :=
  let send := bits e 126 2 == 1
  let n := bits e 109 7
  let o := bits e 62 7
  let src := bits e 77 32
  let bad := (bits e 126 2 != 1 && bits e 126 2 != 2) || decide (24 ≤ bits e 121 5) || n == 0 || bits e 0 62 != 0
    || (if send then bits e 62 15 != 0 || decide (127 < bits e 93 12 % 128 + n)
            || bits e 77 12 % 128 != (bits e 93 12 + n) % 128
        else src != 0 || decide (127 < o + n))
  if bad then none
  else some (24 * bits e 116 5 + bits e 121 5,
    { send := send, n := n, sbase := bits e 105 4, soff := bits e 93 12, dbase := bits e 89 4, doff := bits e 77 12,
      window := bits e 69 8, first := o, seen := [], lastAt := 0, acc := 0, row := none })

/-- The digest entries of the module at place `m`. -/
def digestsOf (f : Bytes) (m : Nat) : List (Option (Nat × Digest)) :=
  let b := (patDigests f).1.getD m (0, 0)
  (List.range b.2).map fun i => digestEntry (leAt f (b.1 + 16 * i) 16)

/-- The descriptors of a tile. -/
def tileDigests (l : List (Option (Nat × Digest))) (t : Nat) : List Digest :=
  l.filterMap fun e => match e with | some (u, d) => if u = t then some d else none | none => none

/-- The digest table of module `m` (R275). -/
def checkDigests (f : Bytes) (m : Nat) : Check :=
  let b := (patDigests f).1.getD m (0, 0)
  let l := digestsOf f m
  let ovr := (List.range 768).any fun t =>
    let ds := tileDigests l t
    decide (8 < (ds.filter (·.send)).length) || decide (8 < (ds.filter (!·.send)).length)
  firstFail [
    eachOf (List.range b.2) fun i => failIf ((l.getD i none).isNone) 0xA (b.1 + 16 * i),
    failIf ovr 0xA b.1]

/-- Entry `i` of the variant table: its fields (R302). -/
def varSched (f : Bytes) (i : Nat) : Nat := leAt f (patVars f + 16 * i) 2
def varSets (f : Bytes) (i : Nat) : Nat := leAt f (patVars f + 16 * i + 12) 4
def varTile (f : Bytes) (i : Nat) : Nat := 24 * leAt f (patVars f + 16 * i + 11) 1 + leAt f (patVars f + 16 * i + 10) 1

/-- The entries of the pattern's variants that name a schedule. -/
def varUsed (f : Bytes) : List Nat := (List.range (16 * patVariants f)).filter fun i => varSched f i != 0xFFFF

/-- The variant table (R302). -/
def checkVars (f : Bytes) : Check :=
  let used := varUsed f
  let bad (i : Nat) := decide (patScheds f ≤ varSched f i) || (patSched f (varSched f i)).group != i % 16
    || (used.any fun j => j != i && j / 16 == i / 16 && varSched f j == varSched f i)
    || (used.any fun j => varSets f j != varSets f i)
    || decide (256 < leAt f (patVars f + 16 * i + 6) 2) || decide (24 ≤ leAt f (patVars f + 16 * i + 10) 1)
    || decide (32 ≤ leAt f (patVars f + 16 * i + 11) 1)
  firstFail [
    eachOf used fun i => failIf (bad i) 0xA (patVars f + 16 * i),
    failIf (!allZero (slice f (patVars f + 256 * patVariants f) (2048 - 256 * patVariants f))) 0xA
      (patVars f + 256 * patVariants f)]

/-- Status 0x0A: reserved fields and pattern tables. -/
def checkTables (f : Bytes) : Check :=
  let n := patModules f
  let uses := handOffs f
  firstFail [
    failIf (leAt f 0x14 4 != 0) 0xA 0x14, failIf (!allZero (slice f 0x68 24)) 0xA 0x68,
    failIf (!allZero (slice f 0xA0 352)) 0xA 0xA0,
    eachOf (List.range (36 * n)) fun i => failIf (decide (8 < leAt f (patDelays f + i) 1)) 0xA (patDelays f + i),
    eachOf (List.range (patScheds f)) (checkDir f),
    checkMods f,
    eachOf (List.range n) (checkForwards f),
    eachOf (List.range n) (checkSends f uses),
    eachOf (List.range n) (checkDigests f),
    eachOf (List.range (768 * n)) fun i =>
      failIf (leAt f (patMap f + i) 1 != 0xFF && decide (patGroups f ≤ leAt f (patMap f + i) 1)) 0xA (patMap f + i),
    checkVars f]

/-- The checks of R78 in order. -/
def checkPattern (s : State) (f : Bytes) (len : Nat) (rel : Nat → Nat → Nat) : Check :=
  let prof := leAt f 0xA 1
  firstFail [
    checkHeader f len,
    failIf (sha256 (patch f 0x20 (zeros 32)) != slice f 0x20 32) 2 0x20,
    failIf (!allProvide s prof || objGet s 0x4000 0x14 != 0) 3 0xA,
    failIf (!Config.providesNumeric (leAt f 0xB 1)) 4 0xB,
    failIf (decide (leAt f 0xC 1 < horizon s)) 5 0xC,
    failIf (!shapeOk s f) 6 0x10,
    checkUsed s f,
    eachOf (List.range (patScheds f)) fun i => failIf (walk f (patSched f i)).isNone 8 i,
    checkBases f rel,
    checkTables f]

/-! ## The relocation block (R405, R406) -/

/-- A final base word of the relocation block. -/
def relBase (r : Bytes) (g w : Nat) : Nat := leAt r (80 + 48 * g + 4 * w) 4

/-- The machine coordinates of the module at a place in slice order. -/
def relModule (r : Bytes) (m : Nat) : Nat := leAt r (848 + 2 * m) 2

/-- Status 0x21: the relocation block against the pattern. -/
def checkReloc (s : State) (f r : Bytes) : Check :=
  let n := patModules f
  let ext := objGet s 0x4200 2
  let inside (c : Nat) := bits c 12 4 == 0 && decide (bits c 8 4 ≤ bits ext 8 4) && decide (bits c 4 4 ≤ bits ext 4 4)
    && decide (bits c 0 4 ≤ bits ext 0 4)
  firstFail [
    failIf (slice r 0 8 != ascii "CHRREL01") 0x21 0, failIf (slice r 8 32 != slice f 0x20 32) 0x21 8,
    failIf (r.length != 848 + 2 * n) 0x21 0,
    eachOf (List.range 36) fun k =>
      let v := leAt r (40 + k) 1
      failIf (v != linkNamed k && (v != 0xFF || patDelay f (ownRank s f) k != 0)) 0x21 (40 + k),
    failIf (leAt r 76 4 != 0) 0x21 76,
    eachOf (List.range 192) fun i => failIf (bits (leAt r (80 + 4 * i) 4) 22 10 != 0 || !rowInSpace (leAt r (80 + 4 * i) 4))
      0x21 (80 + 4 * i),
    eachOf (List.range n) fun m => failIf (!inside (relModule r m)) 0x21 (848 + 2 * m)]

/-! ## The load -/

/-- A send table entry relocated (R231): physical link, machine coordinates. -/
def relSend (f r : Bytes) (e : Nat) : BitVec 64 :=
  let m := relModule r (sliceRankOf f [bits e 40 4, bits e 36 4, bits e 32 4])
  BitVec.ofNat 64 (if e = 0 then 0 else
    linkNamed (bits e 58 6) * 2 ^ 58 + bits e 44 14 * 2 ^ 44 + bits m 0 12 * 2 ^ 32 + bits e 0 32)

/-- A forward table entry relocated. -/
def relForward (e : Nat) : BitVec 16 :=
  BitVec.ofNat 16 (bits e 15 1 * 2 ^ 15 + linkNamed (bits e 9 6) * 2 ^ 9 + bits e 0 9)

/-- The link name of a physical link. -/
def nameOf (l : Nat) : Nat := 6 * linkDir l + (linksOf (linkDir l)).findIdx (· == l)

/-- The digest descriptors by tile. -/
def digestTable (f : Bytes) (m : Nat) : SMap (List Digest) :=
  let l := digestsOf f m
  (List.range 768).filterMap fun t => match tileDigests l t with | [] => none | ds => some (t, ds)

/-- The pattern that a file and a relocation block make on the module at place `m`. -/
def makePattern (f r : Bytes) (m : Nat) : Pattern where
  file := f
  latency := leAt f 0xA 1
  numeric := leAt f 0xB 1
  horizon := leAt f 0xC 1
  groups := patGroups f
  shape := [(patShape f).1, (patShape f).2.1, (patShape f).2.2]
  variants := patVariants f
  hash := slice f 0x20 32
  scheds := (List.range (patScheds f)).map fun i => { patSched f i with pubs := (walk f (patSched f i)).getD [] }
  delays := (List.range 36).map fun l => patDelay f m (nameOf l)
  bases := (List.range (patGroups f)).map fun g => (List.range 12).map fun w => BitVec.ofNat 32 (relBase r g w)
  extents := (List.range (patGroups f)).map fun g => (List.range 4).map fun w => leAt f (patExtents f + 16 * g + 4 * w) 4
  modules := (List.range (patGroups f)).map fun g => (List.range 15).map fun e =>
    let o := patMods f + 60 * g + 4 * e
    coordOf (relModule r (sliceRankOf f [leAt f o 1, leAt f (o + 1) 1, leAt f (o + 2) 1]))
  sends := (List.range 4).map fun d => (List.range 1024).map fun i => relSend f r (patSend f m d i)
  forwards := (List.range 36).map fun l => (List.range 14).map fun j => relForward (patForward f m (nameOf l) j)
  map := (List.range 768).map fun t => patGroup f m t
  digests := digestTable f m
  steps := (varUsed f).map fun i => (varSched f i, varTile f i)

/-- Rows of bundles from bundle `b0`: 16 bundles to a row, ascending; the last row is filled with zeros. -/
def bundleRow (f : Bytes) (d : Schedule) (r : Nat) : Bytes :=
  slice (slice f (d.offset + 512 * r) (min 512 (32 * d.bundles - 512 * r))) 0 512

/-- Rows that a schedule's bundles take. -/
def schedRows (d : Schedule) : Nat := (d.bundles + 15) / 16

/-- A schedule placed on tile `t`: streamed into its beam column (R72), or whole into the schedule store from row `at_`.
DESIGN CHOICE (log 24): where several schedules together pass the 1,024 rows of the store, the rows wrap around. -/
def placeSched (f : Bytes) (t at_ base11 : Nat) (d : Schedule) (s : State) : State :=
  (List.range (schedRows d)).foldl (fun s r =>
    let a := if 16384 < d.bundles then rowAddr t 1 (addrRow base11 + d.stream + r) else rowAddr t 2 ((at_ + r) % 1024)
    rowPut a (freshFrame (bundleRow f d r) 0) s) s

/-- The schedules of a tile's group placed: those held whole follow each other in the store, in directory order. -/
def placeTile (p : Pattern) (t : Nat) (s : State) : State :=
  let g := p.map.getD t 0xFF
  let b := ((p.bases.getD g []).getD 11 0).toNat
  (p.scheds.foldl (fun (acc : Nat × State) d =>
    if d.group != g then acc
    else (acc.1 + (if 16384 < d.bundles then 0 else schedRows d), placeSched p.file t acc.1 b d acc.2)) (0, s)).2

/-- A pattern accepted (R406, R360): it replaces the loaded one. -/
def installPattern (p : Pattern) (s : State) : State :=
  let s1 := extendReg 4 p.hash { s with pattern := some p }
  let s2 := objSet 0x5100 0x11 p.variants (objSet 0x1001 5 p.numeric (objSet 0x1001 4 p.latency s1))
  (List.range 768).foldl (fun s t => if p.map.getD t 0xFF = 0xFF then s else placeTile p t s) s2

/-- The load command block's fields (R405). -/
def loadBlock : Nat := 0x20000
def loadField (s : State) (o n : Nat) : Nat := leNat (portGet s (loadBlock + o) n)

/-- The load response: status, detail, response sequence, 0x8000:09 and vector 5. -/
def loadRespond (seq : BitVec 32) (c : Check) (s : State) : State :=
  let st := c.getD (0, 0)
  let s1 := portPut (loadBlock + 0x28) (leBytes 1 st.1) { s with loadSeq := none }
  let s2 := portPut (loadBlock + 0x2C) (leBytes 4 st.2) s1
  raiseVector 5 (objSet 0x8000 9 st.1 (portPut (loadBlock + 4) (leBytes 4 seq.toNat) s2))

/-- The driver writes a command sequence that differs from the response sequence: the module reads the pattern and the
relocation block by DMA (R405). A command during another one is not taken. -/
def loadCommand (seq : BitVec 32) (s : State) : State :=
  let s1 := portPut loadBlock (leBytes 4 seq.toNat) s
  if !pcieUp s || !codeRunning s then s
  else if s.loadSeq.isSome || seq.toNat = loadField s 4 4 then s1
  else emits [.dmaRead (loadField s 8 8) (loadField s 0x10 8), .dmaRead (loadField s 0x18 8) (loadField s 0x20 4)]
    { s1 with loadSeq := some seq }

/-- LOAD_COMMAND (R405). -/
def execLoadCommand (seq : BitVec 32) (s : State) : Host.Outcome State Fault Refusal := .next (loadCommand seq s)

/-- The DMA is complete: the checks of R406, then those of R78; a pattern that passes replaces the loaded one. -/
def loadComplete (dmaOk : Bool) (f r : Bytes) (s : State) : State :=
  match s.loadSeq with
  | none => s
  | some seq =>
    let len := loadField s 0x10 8
    let dmaBad := !dmaOk || decide (0x40000000 < len) || f.length != len || r.length != loadField s 0x20 4
    let c := firstFail [failIf s.job 0x22 0, failIf dmaBad 0x20 0, checkReloc s f r, checkPattern s f len (relBase r)]
    loadRespond seq c (if c.isNone then installPattern (makePattern f r (ownRank s f)) s else s)

/-- LOAD_DMA_COMPLETE (R78, R79, R406, R464). -/
def execLoadDmaComplete (dmaOk : Bool) (pattern reloc : Bytes) (s : State) : Host.Outcome State Fault Refusal :=
  .next (loadComplete dmaOk pattern reloc s)

end Sys2Proof.Machine
end

