-- ==== Sys2Proof/Machine/Counters.lean ====
section
/-! DEFINITION. Performance counters: entries (R425, R426), counting modes (R422), snapshots (R428, R429), overflow
selectors (R430, R431) and precise sampling (R432 to R434). -/

namespace Sys2Proof.Machine

/-! ## Entries -/

/-- The entry layout of R425: wrap flag in bit 63, count in bits 47 to 0; a withheld entry has bit 62 only (R435). -/
def counterEntry (s : State) (v : Nat) (k : Counter) : Nat :=
  if withholding s && eventWithheld v then 2 ^ 62 else flag k.wrap * 2 ^ 63 + k.count % 2 ^ 48

/-- The live entry of an event number. -/
def liveEntry (s : State) (v : Nat) : Nat := counterEntry s v (mget Counter.zero s.counting.live v)

/-- The snapshot entry of an event number; while it is transferred, either the new or the old one (R429). -/
def snapEntry (s : State) (v : Nat) : Nat :=
  counterEntry s v (mget Counter.zero
    (if objGet s 0x7000 4 = 2 && !Config.snapshotNew s.tick v then s.counting.prev else s.counting.snap) v)

/-- The access path by which 0x7000:08 is kept. -/
def pathIx : Path → Nat
  | .pcie => 0
  | .can => 1
  | .mgmt => 2
  | .mgmtTagged => 2
  | .doe => 3

/-- The event number selected on a path (0x7000:08). -/
def selectedEvent (s : State) (p : Path) : Nat := mget 0 s.counting.select (pathIx p)

/-! ## Counting modes -/

/-- The mode bit of an event in a modes entry. -/
def modeBit (m : Bytes) (v : Nat) : Bool := (m.getD (v / 8) 0).getLsbD (v % 8)

/-- 0x7000:02 written: counters whose mode changes are cleared with their wrap flags (R422). -/
def setModes (m : Bytes) (s : State) : State :=
  let old := octGet s 0x7000 2
  octSet 0x7000 2 m { s with counting := { s.counting with
    live := s.counting.live.filter fun k => modeBit old k.1 == modeBit m k.1 } }

/-! ## Snapshots -/

/-- Flits of 64 bytes of the snapshot values of each die (R429): the entries of 192 tiles and 9 links, on C0 those of the
module too. -/
def snapFlits : List Nat := [1604, 1572, 1572, 1572]

/-- Why a snapshot request is refused (R428, R429): pending or transferring, or a job on a module not the lead. -/
def snapRefused (s : State) : Bool :=
  objGet s 0x7000 4 == 1 || objGet s 0x7000 4 == 2 || s.job && !isLead s

/-- A snapshot is requested for SP `v`: during a job the next admission pick announces it, otherwise the next time-pick
boundary latches. -/
def requestSnap (v : Nat) (s : State) : State :=
  objSet 0x7000 4 1 (objSet 0x7000 3 v { s with treadle := { s.treadle with snapReq := some v } })

/-- Every counter is latched into its snapshot entry at the boundary of SP `e`. -/
def latchSnap (e : Nat) (s : State) : State :=
  objSet 0x7000 4 2 (objSet 0x7000 5 e (objSet 0x7000 6 s.boundary { s with
    counting := { s.counting with prev := s.counting.snap, snap := s.counting.live, left := snapFlits }
    treadle := { s.treadle with snapReq := none, snapAt := none } }))

/-- The latch of a boundary (R428): in a job when the announced SP has begun, outside a job when one is requested. -/
def snapBoundary (s : State) : State :=
  if objGet s 0x7000 4 ≠ 1 then s
  else if s.job then
    (match s.treadle.snapAt with
     | some e => if e ≤ s.sp && !s.hold.held && s.started then latchSnap e s else s
     | none => s)
  else latchSnap s.sp s

/-- A die carries what its budget of activity 0x6 leaves it of the snapshot in this time pick (R221, R429). -/
def carrySnap (d : Nat) (s : State) : State :=
  let k := 16 * d + 6
  let left := s.counting.left.getD d 0
  let n := min left (objGet s 0x4000 6 - mget 0 s.net.spent k)
  if n = 0 then s
  else { s with
    counting := { s.counting with left := s.counting.left.set d (left - n) }
    net := { s.net with spent := mset 0 s.net.spent k (mget 0 s.net.spent k + n) } }

/-- The four dies carry their snapshot values on in a time pick. -/
def carrySnaps (s : State) : State :=
  if s.counting.left.all (· == 0) then s else carrySnap 3 (carrySnap 2 (carrySnap 1 (carrySnap 0 s)))

/-- SNAPSHOT_TRANSFER_COMPLETE (R429): all four dies have carried their values to port memory. -/
def execSnapshotDone (s : State) : Host.Outcome State Fault Refusal :=
  .next (if objGet s 0x7000 4 = 2 && s.counting.left.all (· == 0) then objSet 0x7000 4 3 s else s)

/-! ## Overflow selectors -/

/-- Whether a selector value may be written (R430, R431): a period, samples of tile events only and of periods from
1,024. -/
def selectorOk (b : Bytes) : Bool :=
  selPeriod b != 0 && (!bitOf (selFlags b) 1 || decide (selEvent b < 0xC000) && decide (1024 ≤ selPeriod b))

/-- A selector written: it takes effect at the next time-pick boundary. -/
def writeSelector (k : Nat) (b : Bytes) (s : State) : State :=
  let h := s.counting.shadows
  octSet 0x7000 (0x10 + k) b { s with counting := { s.counting with
    shadows := h.mapIdx fun i x => if i = k then { x with load := true } else x } }

/-- The value that a shadow counter of period `p` is loaded with. -/
def shadowStart (p : Nat) : Nat := 2 ^ 48 - p

/-- Written selectors take effect and their shadow counters are reloaded. -/
def loadSelectors (s : State) : State :=
  { s with counting := { s.counting with shadows := s.counting.shadows.mapIdx fun i x =>
      if x.load then
        let b := octGet s 0x7000 (0x10 + i)
        { x with sel := b, count := shadowStart (selPeriod b), load := false }
      else x } }

/-! ## Precise sampling -/

/-- The slot of a tile event (tile event table): 0 M, 1 V, 2 T, 3 S, 7 none. -/
def eventSlot (e : Nat) : Nat :=
  if e = 4 || 0x10 ≤ e && e ≤ 0x13 then 0
  else if 0x18 ≤ e && e ≤ 0x1B then 1
  else if e = 3 || e = 0x20 || e = 0x21 then 2
  else if e = 5 || e = 0x28 || e = 0x29 then 3 else 7

/-- The scheduled latency of an M slot (R58). -/
def latM (s : State) (m : MSlot) : Nat :=
  match m with
  | .stream _ | .adown _ | .aup _ => Config.accLat
  | .drain _ => Config.drainLat (profile s)
  | .aset _ | .setbound _ => 0

/-- The scheduled latency of a T slot: a load's, or that of its last row from issue to readable. -/
def latT (o : TOp) (f : TSlot) : Nat :=
  let n := f.count.toNat + 1
  let read := if (moveSpaces o).1 = 1 then Config.beamRead (f.column != 0) else 1
  let write := if (moveSpaces o).2 = 1 then Config.beamWrite else Config.bobbinWrite
  match o with
  | .latch => readCycles n + 7 + (if bookBits (f.doff.toNat / 2 ^ 15) = 0 then 0 else 2) + (if f.column = 0 then 0 else 4)
  | .window => 0
  | _ => read + (n - 1) + write

/-- The scheduled latency of an S slot of tile `t`; 0 for a hand-off to a selvedge port (R433). -/
def latS (s : State) (t : Nat) (o : SOp) (f : SSlot) : Nat :=
  match o with
  | .side => Config.sideLanding (profile s)
  | .mesh => meshLat (profile s) t (24 * f.dy.toNat + f.dx.toNat)
  | .selvedge | .publish => 0

/-- The scheduled latency of the operation in a slot of a bundle (R433). -/
def schedLatency (s : State) (t slot : Nat) (x : Nat) : Nat :=
  if slot = 0 then (((decodeMSlot (bits x 208 48)).join).map (latM s)).getD 0
  else if slot = 1 then
    (((decodeVSlot (bits x 144 64)).join).map fun v => vReadable v [] false 0 (vDeliveries v - 1)).getD 0
  else if slot = 2 then (((decodeTSlot (bits x 80 64)).join).map fun o => latT o.1 o.2).getD 0
  else if slot = 3 then (((decodeSSlot (bits x 32 48)).join).map fun o => latS s t o.1 o.2).getD 0
  else 0

/-- The bundle word that a tile issued last. -/
def lastBundle (s : State) (q : Sequencer) : Nat :=
  match s.pattern with
  | none => 0
  | some p => match p.scheds[q.sched]? with
    | none => 0
    | some d => bundleWord p d q.bundle

/-- The tick in which arithmetic cycle `c` begins, counted from the newest boundary. -/
def tickOf (s : State) (c : Nat) : Nat :=
  let k := match s.ident.grade with | .A => 17 | .B => 15
  if s.cycle0 ≤ c then s.boundary + (c - s.cycle0) * 8 / k else s.boundary - ((s.cycle0 - c) * 8 + k - 1) / k

/-- The sample of an overflow of event `v` (R432): the last bundle issued by its tile, the SP in which the tile issued it,
its bundle index within the pick, its tile cycle, in which a stretched period counts as one cycle (R422). An event that is
itself a stall or a freeze says that the operation has met one. -/
def takeSample (v : Nat) (s : State) : Sample :=
  let t := v / 64
  let tile := tileAt s t
  let q := tile.seq
  let slot := eventSlot (v % 64)
  { stamp := tickOf s (tile.cycleOf q.cycle), sp := s.sp - q.behind, bundle := q.bundle, event := v, slot := slot
    met := decide (1 ≤ v % 64 ∧ v % 64 ≤ 5), nominal := q.cycle - q.pickStart - q.stall
    actual := tile.cycleOf q.cycle - tile.cycleOf q.pickStart - q.stretches
    sched := schedLatency s t slot (lastBundle s q) }

/-- Selector `k` has overflowed (R430): reload, its vector unless one was raised within the microsecond, and a sample
where its flag and 0x7100:01 ask for one. -/
def overflow (k : Nat) (s : State) : State :=
  match s.counting.shadows[k]? with
  | none => s
  | some h =>
    let fresh := match h.irqAt with | none => true | some t => decide (t + 800 ≤ s.tick)
    let h1 := { h with count := shadowStart (selPeriod h.sel), irqAt := if fresh then some s.tick else h.irqAt }
    let v := selEvent h.sel
    let sample := bitOf (selFlags h.sel) 1 && decide (v < 0xC000) && objGet s 0x7100 1 == 1
    let s1 := { s with counting := { s.counting with
      shadows := s.counting.shadows.set k h1
      samples := if sample then s.counting.samples ++ [takeSample v s] else s.counting.samples } }
    if fresh then raiseVector (8 + k) s1 else bump 0x7000 0xB 1 s1

/-- SELECTOR_OVERFLOW (R430): the selector's shadow counter has passed 2^48 − 1. -/
def execSelectorOverflow (sel : Fin 8) (s : State) : Host.Outcome State Fault Refusal :=
  .next (match s.counting.shadows[sel.val]? with
    | some h => if 2 ^ 48 ≤ h.count then overflow sel.val s else s
    | none => s)

/-- The record of a sample (precise sample record table), flag [1] clear. -/
def sampleBytes (x : Sample) (actual : Nat) : Bytes :=
  let none := x.slot == 7 || x.sched == 0
  leBytes 8 x.stamp ++ leBytes 8 x.sp ++ leBytes 4 x.bundle ++ leBytes 2 x.event ++ leBytes 1 x.slot
    ++ leBytes 1 (flag (x.met || !none && x.sched < actual)) ++ leBytes 2 x.nominal
    ++ leBytes 2 (min x.actual 0xFFFF) ++ leBytes 2 (min x.sched 0xFFFF)
    ++ leBytes 2 (if none then 0 else min actual 0xFFFF)

/-- Steps from ring index `a` on to `b`, modulo 2^32. -/
def idxAhead (a b : Nat) : Nat := (b + 2 ^ 32 - a % 2 ^ 32) % 2 ^ 32

/-- A record reaches the buffer of die `d`, or is dropped where the buffer is full (R434). -/
def putSample (d : Nat) (b : Bytes) (s : State) : State :=
  let w := objGet s 0x7100 (2 + d)
  let unread := idxAhead (objGet s 0x7100 (6 + d)) w
  let c := s.counting
  if 4096 ≤ unread then
    countModule 0x1B 1 (bump 0x7100 0xB 1 { s with counting := { c with dropped := c.dropped.set d true } })
  else
    let b1 := patch b 23 (leBytes 1 (leAt b 23 1 + 2 * flag (c.dropped.getD d false)))
    let s1 := portPut (sampleBuffer d + 32 * (w % 4096)) b1 s
    let s2 := bump 0x7100 0xC 1 (objSet 0x7100 (2 + d) ((w + 1) % 2 ^ 32)
      { s1 with counting := { c with dropped := c.dropped.set d false } })
    if unread + 1 = objGet s 0x7100 0xA then raiseVector 16 s2 else s2

/-- Records that have crossed the mesh are written. -/
def takeSamples (s : State) : State :=
  s.net.arrived.foldl (fun s o => match o with
    | .sampleIn d b => putSample d b s
    | _ => s) { s with net := { s.net with arrived := s.net.arrived.filter fun o => match o with
      | .sampleIn _ _ => false
      | _ => true } }

/-- PRECISE_SAMPLE_RECORD (R433, R434): the operation of the tile's oldest sample has completed; its record, a packet of
one flit, sets out for the buffer of its die as activity 0x6. -/
def execSampleRecord (t : TileIx) (actual : Nat) (s : State) : Host.Outcome State Fault Refusal :=
  let d := (dieOf t.val).val
  .next (match s.counting.samples.findIdx? (fun x => x.event / 64 == t.val) with
    | none => s
    | some i => match s.counting.samples[i]? with
      | none => s
      | some x => takeSamples (inject d 6 1 [.sampleIn d (sampleBytes x actual)] { s with counting := { s.counting with
          samples := s.counting.samples.eraseIdx i } }))

/-! ## Class B on its way (R221) -/

/-- What has crossed the mesh reaches its unit. -/
def settleAll (s : State) : State := takeSamples (settleArrived s)

/-- CLASS_B_INJECTION (R221): the first packet that may go leaves its injection point in a die. -/
def execClassBInjection (die : DieIx) (s : State) : Host.Outcome State Fault Refusal :=
  .next (settleAll (injectNext die.val s))

end Sys2Proof.Machine
end

