-- ==== Sys2Proof/Machine/Power.lean ====
section
/-! DEFINITION. Power and thermal control (R442 to R444, R48), the input and the rails (R437, R438, R452), references
and clocks (R25, R440, R441). -/

namespace Sys2Proof.Machine

/-- A fault of the power controller on C0. -/
def powerFault (code detail : Nat) (s : State) : State := raiseFault code (unitSite 5 0 0 (detail % 2 ^ 18)) s

/-! ## Throttling -/

/-- The controller's own throttle request: the newest one sent, whether or not it is in effect (R46). -/
def ownRequest (s : State) : Nat :=
  match (s.hold.paces.filter fun p => p.sender == some (ownCoord s)).getLast? with
  | some p => p.value
  | none => mget 0 s.hold.throttle (coordNat (ownCoord s))

/-- Whether 16 SP have passed since the newest PACE message and since the newest own emergency hold (R46, R48). -/
def paceFree (s : State) : Bool :=
  (match s.power.lastPace with | none => true | some p => decide (p + 16 ≤ s.sp))
    && (match s.power.lastEmerg with | none => true | some p => decide (p + 16 ≤ s.sp))

/-- The request after one step up or down (R442). -/
def stepUp (s : State) (r : Nat) : Nat := min Config.maxPace (if r = 0 then paceNow s + 1 else r + 1)
def stepDown (s : State) (r : Nat) : Nat := if r - 1 ≤ Config.minPace s.ident.grade then 0 else r - 1

/-- A changed throttle request travels in a PACE message with effect SP = request SP + H + 1 (R46). -/
def sendPace (v : Nat) (s : State) : State :=
  let s1 := bump 0x2000 0xC 1 { s with power := { s.power with lastPace := some s.sp } }
  sendWord .pace 0 0 0 (BitVec.ofNat 10 v) (s.sp + horizon s + 1) s.sp s1

/-- The end of a power window (R442): the request moves by one tick, up above the limit or while hot, down below the
limit less the hysteresis; not outside a job, and not while the slice is held. -/
def powerWindow (watts : Nat) (s : State) : State :=
  let s1 := { s with power := { s.power with energy := s.power.energy + watts * objGet s 0x2000 5 } }
  let r := ownRequest s1
  let limit := objGet s1 0x2000 3
  if !holdLive s1 || !s1.started || s1.hold.held || !paceFree s1 then s1
  else if s1.power.hot || limit < watts then (if stepUp s1 r = r then s1 else sendPace (stepUp s1 r) s1)
  else if watts + objGet s1 0x2000 4 < limit && r != 0 then sendPace (stepDown s1 r) s1
  else s1

/-- POWER_WINDOW (R442). -/
def execPowerWindow (watts : Nat) (s : State) : Host.Outcome State Fault Refusal := .next (powerWindow watts s)

/-- The emergency average (R48): above the rating a HOLD with reason 5 is raised, whose argument is the larger of
request and pace, raised by 8 and capped; RELEASE waits until the power is below the rating. No PACE follows before 16
picks after its stop pick. -/
def powerEmergency (watts : Nat) (s : State) : State :=
  let s1 := objSet 0x2000 2 watts s
  if objGet s1 0x1001 7 < watts then
    if !holdLive s1 || !s1.started || s1.hold.held || s1.hold.awaited.contains .power then s1
    else
      let arg := min Config.maxPace (max (ownRequest s1) (paceNow s1) + 8)
      let s2 := bump 0x2000 0xD 1 { s1 with
        hold := { s1.hold with awaited := s1.hold.awaited ++ [.power] }
        power := { s1.power with lastEmerg := some (s1.sp + 1 + horizon s1) } }
      unitHold 0xE 5 0 s2.sp 5 arg s2
  else if watts < objGet s1 0x1001 7 then
    tryRelease (stopAwaiting .power s1)
  else s1

/-- POWER_EMERGENCY (R48). -/
def execPowerEmergency (watts : Nat) (s : State) : Host.Outcome State Fault Refusal := .next (powerEmergency watts s)

/-- The main rails are switched off in reverse order; IB and AUX stay up. -/
def railsOff (s : State) : State := objSet 0x2000 0xE (objGet s 0x2000 0xE % 4) { s with power := { s.power with rails := false } }

/-- Whether the coolant counts as a junction at the throttle temperature: inlet above 45 °C or flow below 4 L/min, of
sensors that have not failed (R444). Before the first reading nothing counts. -/
def coolantBad (s : State) : Bool :=
  let f := objGet s 0x2000 0xA
  s.power.coolant && (!bitOf f 0 && decide (450 < signed 16 (objGet s 0x2000 8)) ||
    !bitOf f 1 && decide (objGet s 0x2000 9 < 40))

/-- Throttling after a new reading: on at the throttle temperature, off 3 °C below it (R443, R444). -/
def judgeHeat (s : State) : State :=
  let t : Int := 10 * objGet s 0x2000 6
  let r := signed 16 (objGet s 0x2000 7)
  let hot := coolantBad s || decide (t ≤ r) || s.power.hot && decide (t - 30 < r)
  { s with power := { s.power with hot := hot } }

/-- A highest junction reading in 0.1 °C; 105 °C or more is fault 0x1030, the main rails go off and the start state is 2
(R443). -/
def junction (deci : Int) (s : State) : State :=
  let s1 := judgeHeat (objSet 0x2000 7 (unsigned 16 deci) s)
  if 1050 ≤ deci then objSet 0x2200 1 2 (railsOff (powerFault 0x1030 0 s1)) else s1

/-- THROTTLE_TEMPERATURE (R443). -/
def execThrottleTemp (deci : Int) (s : State) : Host.Outcome State Fault Refusal := .next (junction deci s)

/-- OVERTEMPERATURE (R443). -/
def execOvertemp (deci : Int) (s : State) : Host.Outcome State Fault Refusal := .next (junction deci s)

/-- COOLANT_OUT_OF_RANGE (R444): readings in 0.1 °C and 0.1 L/min; out of range is fault 0x1031. -/
def execCoolantRange (inlet : Int) (flow : Nat) (s : State) : Host.Outcome State Fault Refusal :=
  let s1 := objSet 0x2000 8 (unsigned 16 inlet) (objSet 0x2000 9 flow { s with power := { s.power with coolant := true } })
  .next (judgeHeat (if coolantBad s1 then powerFault 0x1031 0 s1 else s1))

/-- COOLANT_SENSOR_FAILURE (R438, R444): the sensor is ignored from then on. -/
def execCoolantSensor (flow : Bool) (s : State) : Host.Outcome State Fault Refusal :=
  .next (judgeHeat (objSet 0x2000 0xA (objGet s 0x2000 0xA ||| (if flow then 2 else 1)) s))

/-! ## Input and references -/

/-- The value of a completed flash store (R385). -/
def storeFlash (x : Store) (s : State) : State :=
  let i := x.key / 256
  let j := x.key % 256
  match objRow? i j with
  | none => s
  | some r =>
    if r.ty = 10 || r.ty = 11 then { s with flashOct := mput s.flashOct x.key x.oct }
    else { s with flash := mput s.flash x.key x.num }

/-- The input falls away (R438): fault 0x1001, FAULT symbols during a job, the store in progress completed within the
hold-up time, power-down. -/
def powerDown (s : State) : State :=
  let s1 := bumpKept 0x2000 0xF (powerFault 0x1001 0 s)
  let s2 := match s1.stores with | [] => s1 | x :: _ => storeFlash x s1
  objSet 0x2000 0xE 0 { s2 with stores := [], power := { s2.power with input := false, rails := false } }

/-- INPUT_OUT_OF_RANGE (R438): below 40 V, or above 60 V. -/
def execInputOutOfRange (mv : BitVec 32) (s : State) : Host.Outcome State Fault Refusal :=
  .next (let s1 := objSet 0x2000 1 mv.toNat s
    if !s.power.input || 40000 ≤ mv.toNat && mv.toNat ≤ 60000 then s1 else powerDown s1)

/-- SENSE_N_OPEN (R452): the input is treated as absent. -/
def execSenseOpen (s : State) : Host.Outcome State Fault Refusal := .next (if s.power.input then powerDown s else s)

/-- REFERENCE_INPUT_STATE_CHANGE (R440): of the input not in use; a loss of either input is counted. -/
def execRefStateChange (inputB : Bool) (st : Fin 3) (s : State) : Host.Outcome State Fault Refusal :=
  .next (let j := if inputB then 3 else 2
    if objGet s 0x2202 1 = flag inputB then s
    else objSet 0x2202 j st.val (if objGet s 0x2202 j = 1 && st.val != 1 then bump 0x2202 5 1 s else s))

/-- PLL_LOCK_LOSS (R439): fault 0x1012. -/
def execPllLoss (die : DieIx) (s : State) : Host.Outcome State Fault Refusal :=
  .next (let m := objGet s 0x2202 6
    if bitOf m die.val then raiseFault 0x1012 (unitSite 4 die.val 0 die.val) (objSet 0x2202 6 (m - 2 ^ die.val) s) else s)

/-- REPLICA_HARD_THRESHOLD (R441): fault 0x1013. -/
def execReplicaHardThreshold (site : FaultSite) (s : State) : Host.Outcome State Fault Refusal :=
  .next (raiseFault 0x1013 site (bump 0x2202 7 1 s))

/-- The first cycle from `c` on in which a tile's clock does not stand still anyway; `n` cycles at most are passed. -/
def runsAt (stops : List Nat) : Nat → Nat → Nat
  | 0, c => c
  | n + 1, c => if stops.contains c then runsAt stops n (c + 1) else c

/-- Whether a region whose newest stretched period was in some cycle may not stretch that of cycle `c` (R25): at most one
in any four consecutive cycles. -/
def tooSoon (newest : Option Nat) (c : Nat) : Bool := match newest with
  | none => false
  | some x => decide (c < x + 4)

/-- The period of a region other than a tile that begins in cycle `c` is stretched (R25). -/
def stretchRegion (k c : Nat) (s : State) : State :=
  let x := mget Region.reset s.regions k
  if tooSoon x.stretched c then s
  else
    let y := { x with stretches := x.stretches + 1, stretched := some c }
    bump 0x2100 4 1 { s with regions := mset Region.reset s.regions k y }

/-- A region's period that begins in cycle `c` is stretched (R25): it lasts two cycles, and of a tile everything that it
still has to do comes a cycle later. -/
def stretch (r : ClockRegion) (c : Nat) (s : State) : State :=
  match r with
  | .tile t =>
    let tile := tileAt s t.val
    if tooSoon tile.seq.stretched c then s
    else
      let s1 := stopTile t.val (runsAt tile.stops tile.stops.length (c + 1) - 1) s
      let tile1 := tileAt s1 t.val
      let s2 := countTile t.val 6 1 c (bump 0x2100 4 1 (tileSet t.val { tile1 with
        seq := { tile1.seq with stretches := tile.seq.stretches + 1, stretched := some c } } s1))
      arbitrate (arbFuel s2) (columnsOf t.val) s2
  | .network d => stretchRegion d.val c s
  | .selvedge d => stretchRegion (4 + d.val) c s

/-- CLOCK_STRETCH (R25). -/
def execClockStretch (r : ClockRegion) (c : Nat) (s : State) : Host.Outcome State Fault Refusal := .next (stretch r c s)

end Sys2Proof.Machine
end

