-- ==== Sys2Proof/Machine/Start.lean ====
section
/-! DEFINITION. Resets (R445, R446), the start steps (R447 to R449) with what each chapter says a step does, the boot
journal (R450), the time handshake (R265 to R267). -/

namespace Sys2Proof.Machine

/-! ## Resets -/

/-- Whether an entry returns to its default when 0x1002:05 is set (R386): RWP of public or operator write privilege,
0x6000:09 and 0x6000:19 apart. -/
def defaultsApply (key : Nat) : Bool :=
  match objRow? (key / 256) (key % 256) with
  | none => false
  | some r => r.acc == 4 && key != objKey 0x6000 9 && key != objKey 0x6000 0x19

/-- The persistent copies after a reset. -/
def keptFlash {α : Type} (s : State) (f : SMap α) : SMap α :=
  if objGet s 0x1002 5 = 1 then f.filter fun e => !defaultsApply e.1 else f

/-- Entries without a flash copy that a reset keeps: replacement requested and its reasons, hard fault (R351), restarts
(R448), the management port's last counter (R395). -/
def keptEntries : List (Nat × Nat) := [(0x6000, 0x10), (0x6000, 0x11), (0x6000, 0x1A), (0x2200, 6), (0x9001, 0xA)]

/-- The entries after a reset: defaults, over them the persistent copies and the entries kept. -/
def resetObjects (s r : State) : State :=
  let r1 := r.flash.foldl (fun r e => objSet (e.1 / 256) (e.1 % 256) e.2 r) r
  let r2 := r.flashOct.foldl (fun r e => octSet (e.1 / 256) (e.1 % 256) e.2 r) r1
  let r3 := if (r.flashOct.lookup (objKey 0x9001 8)).isSome then objSet 0x9001 9 1 r2 else r2
  keptEntries.foldl (fun r e => objSet e.1 e.2 (objGet s e.1 e.2) r) r3

/-- The repair state that a reset keeps; fault log and pending stop are gone, the saved records stay (R338). -/
def resetIntegrity (i : Integrity) : Integrity :=
  { i with dies := List.replicate 4 [], first := none, ring := [], stopLine := false, withdrawn := false,
           endLatched := false, invalid := [], dropped := [],
           degraded := (i.degraded.filter (·.2 % 2 == 1)).map fun d => (d.1, d.2 - 1) }

/-- What a start remembers of the one before it. -/
def resetStart (s : State) (cause first : Nat) : Start :=
  { Start.reset with
    cause := cause, first := first, journal := s.start.journal, failed := s.start.failed, lastRef := s.start.lastRef
    failLinks := s.start.failLinks, firmware := s.start.firmware
    outcomes := if first = 5 then [3, 3, 3, 3, 3, 0, 3, 3, 3, 0, 0, 0, 0, 0] else List.replicate 14 0 }

/-- A tile after a reset: a reference recovery keeps memories and engines and drops what runs. -/
def resetTiles (s : State) (first : Nat) : SMap Tile :=
  if first = 5 then s.tiles.map fun t => (t.1, { abandon t.2 with seq := Sequencer.reset, windows := [], flags := t.2.flags &&& 0xFFFF }) else []

/-- What stands after a reset, before the object entries are set. The time base, the queue of commands and what has left
the module are the model's and go on. -/
def resetParts (cause first : Nat) (s : State) : State :=
  { State.reset with
    ident := s.ident, tick := s.tick, boundary := s.boundary, cycle0 := s.cycle0
    flash := keptFlash s s.flash, flashOct := keptFlash s s.flashOct
    mem := s.mem, upsets := s.upsets, poison := s.poison, landed := s.landed, tiles := resetTiles s first
    integrity := resetIntegrity s.integrity, start := resetStart s cause first
    security := if first = 5 then { Security.reset with
        measure := s.security.measure.take 4 ++ List.replicate 4 (zeros 48), image := s.security.image
        idEd := s.security.idEd, idMl := s.security.idMl } else Security.reset
    net := { Net.reset with routers := s.net.routers }
    power := { Power.reset with input := s.power.input, rails := s.power.rails && first != 0, perst := s.power.perst }
    free := s.free, out := s.out, pending := s.pending }

/-- A reset of the module (R445): cause and first step of the new start. -/
def resetTo (cause first : Nat) (s : State) : State :=
  let r1 := resetObjects s (resetParts cause first s)
  let r2 := if first = 0 then r1 else objSet 0x2000 0xE (objGet s 0x2000 0xE) (objSet 0x9000 1 (objGet s 0x9000 1) r1)
  let r3 := if first = 5 then
      octSet 0x6100 1 (octGet s 0x6100 1) (octSet 0x6100 2 (octGet s 0x6100 2) (octSet 0x6100 3 (octGet s 0x6100 3)
        (objSet 0x6100 7 (objGet s 0x6100 7) (objSet 0x6100 8 (objGet s 0x6100 8) r2)))) else r2
  objSet 0x2200 3 cause (objSet 0x2200 2 first r3)

/-! ## The boot journal (R450) -/

/-- The step in progress or reached (0x2200:02). -/
def stepNow (s : State) : Nat := objGet s 0x2200 2

/-- The entry of the current start. -/
def journalEntry (s : State) : Bytes :=
  let j := s.start
  let flags := flag j.recovery + 2 * flag j.fullBeam + 4 * flag j.fullTile + 8 * flag (objGet s 0x2202 1 == 1)
    + 16 * objGet s 0x4000 0x14 + 32 * flag (startState s == 1)
  let links := (j.failLinks.map fun l => 2 ^ l).foldl (· + ·) 0
  let b := leBytes 4 (objGet s 0x2200 4) ++ leBytes 1 j.cause ++ leBytes 1 j.first ++ leBytes 1 (stepNow s)
    ++ leBytes 1 flags ++ j.outcomes.map (BitVec.ofNat 8) ++ leBytes 2 j.code ++ leBytes 4 ((s.tick - j.since) / 800000)
    ++ leBytes 8 links ++ leBytes 2 j.marked ++ leBytes 4 (hourNow s) ++ zeros 18
  b ++ leBytes 4 (crc32c b).toNat

/-- The entry is written, from step S1 on; a later writing replaces it. -/
def writeJournal (s : State) : State :=
  let e := journalEntry s
  let same := match s.start.journal with | [] => false | x :: _ => leAt x 0 4 == objGet s 0x2200 4
  let old := if same then s.start.journal.drop 1 else s.start.journal
  { s with start := { s.start with journal := (e :: old).take 64 } }

/-- The outcome of a step noted: 1 passed, 2 passed differently, 4 failed, 5 in progress or interrupted. -/
def setOutcome (k v : Nat) (s : State) : State := { s with start := { s.start with outcomes := s.start.outcomes.set k v } }

/-- A reset during a start records the step in progress as interrupted; it counts as failed at the next start (R446,
R448). -/
def interruptStart (s : State) : State :=
  if startState s = 0 && s.start.facts.isSome then
    let s1 := writeJournal (setOutcome (stepNow s) 5 s)
    { s1 with start := { s1.start with failed := some (stepNow s), lastRef := objGet s 0x2202 1 } }
  else s

/-- A step in progress begins. -/
def beginStep (k : Nat) (s : State) : State :=
  let s1 := setOutcome k 5 (objSet 0x2200 2 k s)
  if 1 < k then writeJournal s1 else s1

/-- A step has passed; 0x2200:02 shows the next one. -/
def passStep (k v : Nat) (s : State) : State :=
  let s1 := objSet 0x2200 2 (k + 1) (setOutcome k v s)
  if k = 0 then s1 else writeJournal s1

/-- A step has failed with a fault code (0 none): the start fails; above the restart limit the start state is 2
(R448). -/
def failStep (k code : Nat) (s : State) : State :=
  let s1 := { setOutcome k 4 s with start := { (setOutcome k 4 s).start with
    failed := some k, code := code, halted := true, facts := none, lastRef := objGet s 0x2202 1 } }
  let s2 := if k ≤ 1 then s1 else writeJournal s1
  let s3 := if code = 0 then s2 else raiseFault code (unitSite 4 0 0 k) s2
  if objGet s3 0x2200 5 ≤ objGet s3 0x2200 6 then objSet 0x2200 1 2 s3 else s3

/-- A failed S3 enters the recovery path (R359): main rails and C0 are powered, the recovery window opens. -/
def enterRecovery (code : Nat) (s : State) : State :=
  let s1 := setOutcome 3 4 s
  let s2 := bumpKept 0x6100 0x17 (objSet 0x2200 1 3 { s1 with
    start := { s1.start with code := code, recovery := true, failed := some 3, facts := none }
    power := { s1.power with rails := true } })
  writeJournal (if s2.power.perst then pcieTrain s2 else s2)

/-! ## The steps -/

/-- What a step answers: its outcome code and fault code, the state. -/
abbrev StepEnd := Nat × Nat × State

/-- S1: supplies and management controller; SLOT_ID is read (R454), the management port starts. -/
def stepS1 (f : StartFacts) (s : State) : StepEnd :=
  if !f.s1 then (4, 0x1003, s)
  else
    let s1 := objSet 0x2000 0xE (objGet s 0x2000 0xE ||| 3) (objSet 0x9000 1 f.slotId.toNat s)
    (1, 0, if objGet s1 0x9001 1 = 1 then fnEnable 37 s1 else s1)

/-- S2: self-test of the security block; identity keys (R354); register 0 (R360). -/
def stepS2 (f : StartFacts) (s : State) : StepEnd :=
  if !f.s2 then (4, 0x1005, s)
  else
    let ed := (hmacSha384 Config.uniqueSecret (ascii "CHROPA-IDENT-ED25519" ++ [1])).take 32
    let ml := (hmacSha384 Config.uniqueSecret (ascii "CHROPA-IDENT-MLDSA65" ++ [1])).take 32
    let pe := slice (Config.ed25519Public ed) 0 32
    let pm := slice (Config.mldsaPublic ml) 0 1952
    let s1 := { s with security := { s.security with idEd := ed, idMl := ml } }
    let s2 := octSet 0x6100 3 ((sha384 (pe ++ pm)).take 16) (octSet 0x6100 2 pm (octSet 0x6100 1 pe s1))
    (1, 0, extendReg 0 (sha384 (Config.romVersion ++ leBytes 1 (objGet s 0x6100 6) ++ leBytes 1 (objGet s 0x6100 0x14))) s2)

/-- The image checks of R357 in their order: the fault of the first that fails, 0 for none. -/
def imageFault (s : State) (b : Bytes) : Nat :=
  let slot := leAt b 0xB 1
  let body := leAt b 0x18 8
  let signed := slice b 0 0x8C0
  let pe := slice b 0x100 32
  let pm := slice b 0x120 1952
  let mask := leAt b 0xA 1
  let blank := allZero (slice b 0xD 3) && allZero (slice b 0x14 4) && allZero (slice b 0x70 0x90)
    && allZero (slice b 0x15ED (0x2000 - 0x15ED))
  if slice b 0 8 ≠ ascii "CHRFWI01" || leAt b 8 2 ≠ 1 || 0x077FE000 < body || !blank || 3 < mask || 3 < slot
    || 64 < leAt b 0xC 1 then 0x7001
  else if !bitOf mask (steppingCode s) then 0x7001
  else if bitOf (objGet s 0x6100 0x14) slot || sha384 (pe ++ pm) ≠ Config.romKeyHash slot then 0x7003
  else if leAt b 0xC 1 < objGet s 0x6100 6 then 0x7002
  else if !Config.ed25519Verify pe signed (slice b 0x8C0 64)
    || !Config.mldsaVerify pm (ascii "CHROPA-FW-1") signed (slice b 0x900 3309) then 0x7001
  else if sha384 (slice b 0x2000 body) ≠ slice b 0x20 48 then 0x7001 else 0

/-- An image accepted: versions, registers 1 and 2 (R360). -/
def takeImage (b : Bytes) (s : State) : State :=
  let s1 := objSet 0x6100 8 (leAt b 0xC 1) (objSet 0x6100 7 (leAt b 0x10 4)
    { s with security := { s.security with image := slice b 0 0x8C0 } })
  extendReg 2 (sha384 Config.mgmtFirmware) (extendReg 1 (sha384 (slice b 0 0x8C0)) s1)

/-- S3: the image in flash: the one that START names (DESIGN CHOICE, log 123), once a recovered image has been copied
there that one (R359). -/
def stepS3 (f : StartFacts) (s : State) : StepEnd :=
  let image := s.start.firmware.getD f.image
  let c := imageFault s image
  if c = 0 then (1, 0, takeImage image s) else (4, c, s)

/-- S4: main rails (R437); the PCIe port's power is up, and it trains once PERST# is deasserted (R400). -/
def stepS4 (f : StartFacts) (s : State) : StepEnd :=
  let good := (List.range 13).map fun i => f.rails.getD i false
  if good.any (!·) then (4, 0x1003, objSet 0x2000 0xE (2 ^ (good.takeWhile id).length - 1) s)
  else
    let s1 := objSet 0x2000 0xE 0x1FFF { s with power := { s.power with rails := true } }
    (1, 0, if s1.power.perst && !s.power.rails then pcieTrain s1 else s1)

/-- The input that S5 chooses (R439): the preferred one if valid, else the other; after a failed S5 the one not used
then is tried first. -/
def chooseRef (s : State) (a b : Bool) : Option Nat :=
  let first := if s.start.failed = some 5 && s.start.lastRef ≤ 1 then 1 - s.start.lastRef else objGet s 0x2202 4
  let valid (i : Nat) := if i = 0 then a else b
  if valid first then some first else if valid (1 - first) then some (1 - first) else none

/-- S5: reference and PLLs. -/
def stepS5 (f : StartFacts) (s : State) : StepEnd :=
  let s1 := objSet 0x2202 3 f.refB.val (objSet 0x2202 2 f.refA.val s)
  match chooseRef s1 (f.refA = 1) (f.refB = 1) with
  | none => (4, 0x1012, objSet 0x2202 1 0xFF s1)
  | some r =>
    let locks := ((List.range 4).map fun d => if f.plls.getD d false then 2 ^ d else 0).foldl (· + ·) 0
    let s2 := objSet 0x2202 6 locks (objSet 0x2202 1 r s1)
    if locks ≠ 15 then (4, 0x1012, s2) else (if r = objGet s 0x2202 4 then 1 else 2, 0, s2)

/-- The contents of a repair table put in force. -/
def loadTable (x : RepairTable) (i : Integrity) : Integrity :=
  { i with markRows := x.markRows, markTiles := x.markTiles, markPorts := x.markPorts, mapped := x.mapped
           shifts := x.shifts, spareUse := x.spareUse, portUse := x.portUse }

/-- The valid copy with the higher sequence. -/
def bestCopy (c : List (Nat × RepairTable)) (a b : Bool) : Option (Nat × RepairTable) :=
  match c with
  | [x, y] => if a && b then (if x.1 < y.1 then some y else some x) else if a then some x else if b then some y else none
  | _ => none

/-- The logical tile that the physical tile serving `u` serves once the spare of tile `t`'s die row takes the place of
`t` (R59, R94); `none` for the bad tile. -/
def servedAfter (t u : Nat) : Option Nat :=
  if dieRow u ≠ dieRow t || tileX u < tileX t then some u else if u = t then none else some (u - 1)

/-- What is known of rows, spares and tiles goes with the physical tiles as tile `t` is repaired (R94). -/
def shiftRow (i : Integrity) (t : Nat) : Integrity :=
  let row := fun a => match addrTile a with
    | none => some a
    | some u => (servedAfter t u).map fun v => rowAddr v (addrSpace a) (addrRow a)
  { i with
    shifts := mput i.shifts (dieRow t) (tileX t % 12)
    mapped := i.mapped.filterMap row
    markRows := i.markRows.filterMap row
    spareUse := i.spareUse.filterMap fun e =>
      if e.1 < 18432 then (servedAfter t (e.1 / 24)).map fun v => (24 * v + e.1 % 24, e.2)
      else (servedAfter t ((e.1 - 18432) / 8)).map fun v => (18432 + 8 * v + e.1 % 8, e.2)
    unusable := i.unusable.filterMap fun e =>
      if e.1 = 1 || e.1 = 2 then (servedAfter t e.2.1).map fun v => (e.1, v, e.2.2) else some e
    strikes := i.strikes.filterMap fun e => (servedAfter t e.1).map fun v => (v, e.2) }

/-- Marked tiles get the spare of their die row (R348): row-shift repair. -/
def repairTiles (s : State) : State :=
  if s.integrity.markTiles = [] then s
  else tableWrite { s with integrity := { s.integrity.markTiles.foldl shiftRow s.integrity with markTiles := [] } }

/-- S6: the repair table is loaded and repairs are applied; with both copies invalid fault 0x2010 and an empty table. -/
def stepS6 (f : StartFacts) (s : State) : StepEnd :=
  match bestCopy s.integrity.copies f.repairA f.repairB with
  | some c =>
    let s1 := objSet 0x6000 0x14 c.1 { s with integrity := loadTable c.2 s.integrity }
    (1, 0, repairTiles (repairRows s1))
  | none =>
    let s1 := raiseFault 0x2010 (unitSite 4 0 0 0) { s with
      integrity := loadTable RepairTable.empty { s.integrity with copies := [(0, RepairTable.empty), (0, RepairTable.empty)] }
      start := { s.start with fullBeam := true, fullTile := true } }
    (2, 0, s1)

/-- An RWP entry that the module clears itself. -/
def clearKept (i j : Nat) (s : State) : State :=
  objSet i j 0 { s with flash := mdel s.flash (objKey i j) }

/-- S7: beam and bobbin are tested and written with zero rows (R87); failing rows are marked and mapped to spares; with
a row that has none, now or from before, fault 0x2007 (R115). -/
def stepS7 (f : StartFacts) (s : State) : StepEnd :=
  let full := objGet s 0x3100 0x13 = 1 || s.start.fullBeam || s.start.failed = some 7
  let s1 := clearKept 0x3100 0x13 { s with mem := s.mem.filter (fun c => addrSpace (c.1 / 520) == 3), upsets := []
                                           poison := [], landed := [], start := { s.start with fullBeam := full } }
  let s2 := f.badRows.foldl (fun s a =>
    if (spareKey a).any fun k => spareLeft s k = 0 then s else markRow a s) s1
  let stuck := f.badRows.any fun a => !s2.integrity.markRows.contains a && !s2.integrity.mapped.contains a
  if s2.integrity.hardRow || stuck then (4, 0x2007, s2) else (if full then 2 else 1, 0, repairRows s2)

/-- S8: the tile test; registers are cleared and the scrubbers begin (R112); failing tiles are marked and the start fails,
as it does where the repairs of a die need more than two added hops on a path (R61). No start passes S8 with a tile past
repair (R350). -/
def stepS8 (f : StartFacts) (s : State) : StepEnd :=
  let full := objGet s 0x2200 8 = 1 || s.start.fullTile || s.start.failed = some 8 || !s.integrity.strikes.isEmpty
  let s1 := clearKept 0x2200 8 { s with mem := [], tiles := [], scrubBase := s.tick
                                        net := { s.net with routers := f.badRouters }
                                        start := { s.start with fullTile := full } }
  let s2 := f.badTiles.foldl (fun s t => markTile t.val s) s1
  let s3 := { s2 with start := { s2.start with marked := s2.start.marked + f.badTiles.length } }
  let long := (List.range 4).any fun d => tooLong s3.integrity.shifts f.badRouters d
  if !f.badTiles.isEmpty || s3.integrity.hardTile || long then (4, 0, s3) else (if full then 2 else 1, 0, s3)

/-- The failed ports of a bridge pair. -/
def portsOf (p : Nat) (l : List (Fin 4 × Fin 34)) : List (Nat × Nat) :=
  (l.filter fun x => x.1.val == p).map fun x => (x.1.val, x.2.val)

/-- S10: bridges train (R214, R216): up to 2 failed ports of a pair are replaced by its reserve ports; a pair with more
is retried at half rate; a pair with more even then is fault 0x4004. Marked ports count as failed. -/
def stepS10 (f : StartFacts) (s : State) : StepEnd :=
  let marks := s.integrity.markPorts
  let bad (l : List (Fin 4 × Fin 34)) (p : Nat) := ((portsOf p l) ++ marks.filter (·.1 == p)).eraseDups.length
  let half := (List.range 4).any fun p => decide (2 < bad f.bridgeFull p)
  let left (p : Nat) := if 2 < bad f.bridgeFull p then bad f.bridgeHalf p else bad f.bridgeFull p
  if (List.range 4).any fun p => decide (2 < left p) then (4, 0x4004, s)
  else
    let use : SMap Nat := ((List.range 4).map fun p => (p, left p)).filter (·.2 != 0)
    let s1 := tableWrite { s with integrity := { s.integrity with portUse := use, markPorts := [] } }
    let total := (use.map (·.2)).foldl (· + ·) 0
    (if half then 2 else 1, 0, objSet 0x4000 0x14 (flag half) (objSet 0x4000 0x16 total s1))

/-- The links that S11 trains: every enabled one but those that failed at the last start (R252). -/
def s11Links (s : State) : List Nat :=
  (List.range 36).filter fun l => objGet s (0x4100 + l) 0xE == 1 && !s.start.failLinks.contains l

/-- S11 begins: the links train; lanes that the hardware finds go through steps 1 to 4 (R248). -/
def stepS11 (f : StartFacts) (s : State) : State :=
  let go := s11Links s
  f.links.foldl (fun s x => if go.contains x.1.val then trainLanes x.1.val x.2 s else s) (go.foldl (fun s l => fnEnable l s) s)

/-- Whether a link has left training (R248): it is up or out of use, has failed 3 times, or waits at step 5 for its
module's coordinates (R249). -/
def linkSettled (s : State) (l : Nat) : Bool :=
  let k := linkAt s l
  linkUp s l || linkState s l == 0 || 4 ≤ linkState s l && decide (3 ≤ k.trainings)
    || linkState s l == 1 && k.step == 5 && !coordsSet s

/-- A link that still trains as the time of S11 ends has not passed its step. -/
def cutTraining (s : State) (l : Nat) : State :=
  if linkState s l = 1 && !linkSettled s l then trainEnd l (failedState (linkAt s l).step) s else s

/-! ## Time alignment -/

/-- The handshake request leaves on a link (R266). -/
def sendHandshake (l : Nat) (s : State) : State :=
  toPort l (.symbol l 3 (timePayload 3 0 s.tick)) (linkSet l { linkAt s l with t0 := some s.tick } s)

/-- S12 begins: a TIME symbol of subkind 3 on every up link. -/
def beginS12 (s : State) : State :=
  ((List.range 36).filter (linkUp s)).foldl (fun s l => sendHandshake l s)
    (beginStep 12 { s with start := { s.start with echoes := [] } })

/-- S11 ends: the links that failed go in the journal, and S12 begins. -/
def endS11 (s : State) : State :=
  let s1 := (s11Links s).foldl cutTraining s
  let failed := (s11Links s).filter fun l => decide (4 ≤ linkState s1 l)
  beginS12 (passStep 11 1 { s1 with start := { s1.start with failLinks := failed } })

/-- Whether the module is at a step of its start. -/
def atStep (s : State) (k : Nat) : Bool := startState s == 0 && stepNow s == k && !s.start.halted

/-- S11 ends once every link it trains has left training. -/
def settleS11 (s : State) : State :=
  if atStep s 11 && (s11Links s).all (linkSettled s) then endS11 s else s

/-- A link that comes up during S12 carries the handshake request too (R266). -/
def greet (l : Nat) (was s : State) : State :=
  if atStep s 12 && linkUp s l && !linkUp was l then sendHandshake l s else s

/-- LINK_TRAINING (R248). -/
def execLinkTraining (link : LinkIx) (lanes : List LaneTrain) (s : State) : Host.Outcome State Fault Refusal :=
  .next (settleS11 (trainLink4 link.val lanes s))

/-- TRAINING_STEP_TIMEOUT (R248). -/
def execTrainingTimeout (link : LinkIx) (step lane : Nat) (s : State) : Host.Outcome State Fault Refusal :=
  .next (settleS11 (stepTimeout link.val step lane s))

/-- COORD (R249). -/
def execCoord (link : LinkIx) (peer : Coord) (peerLink : BitVec 6) (dir rank : BitVec 3) (stepping : BitVec 8)
    (s : State) : Host.Outcome State Fault Refusal :=
  .next (settleS11 (takeCoord link.val peer peerLink dir rank stepping s))

/-- TIME_DELAY_ECHO (R250). -/
def execTimeDelayEcho (link : LinkIx) (t0 : BitVec 64) (turnaround : BitVec 24) (s : State) :
    Host.Outcome State Fault Refusal :=
  .next (settleS11 (greet link.val s (takeEcho link.val t0 turnaround s)))

/-- A recovered image copies itself into flash, which keeps its earlier contents until then (R359). -/
def copyImage (j : Start) : Start := match j.copy with
  | none => j
  | some b => { j with firmware := some b, copy := none }

/-- S13 (R447, R358): ready; restarts are cleared, the fused count follows the image, a recovered image is copied into
flash, the self-test starts. -/
def reachReady (s : State) : State :=
  let s1 := setOutcome 13 1 (setOutcome 12 1 (objSet 0x2200 6 0 (objSet 0x2200 1 1 (objSet 0x2200 2 13 s))))
  let v := max (objGet s1 0x6100 6) (objGet s1 0x6100 8)
  let s2 := objSet 0x2200 9 ((s.tick - s.start.since) / 800000) (objSet 0x6100 6 v s1)
  let s3 := { s2 with
    flash := mset 0 s2.flash (objKey 0x6100 6) v
    start := { copyImage s2.start with failed := none, halted := false, facts := none, lastRef := objGet s2 0x2202 1 } }
  let s4 := writeJournal (if objGet s3 0x6000 0x17 = 1 then fnEnable 36 s3 else s3)
  let b := healthBits s4
  checkHealth (objSet 0x6000 0x11 (objGet s4 0x6000 0x11 &&& b)
    (if objGet s4 0x6000 0x11 &&& b = 0 then objSet 0x6000 0x10 0 s4 else s4))

/-- The offset θ of R266, doubled. -/
def theta2 (t0 t2 t3 u : Nat) : Int := ((t2 : Int) - u - t0) - ((t3 : Int) - t2)

/-- The counter moves by 8 × round(θ / 8): to the nearest multiple, a tie by a free value. -/
def thetaStep (s : State) (th2 : Int) : Int :=
  let q := (th2 + 8) / 16
  if (th2 + 8) % 16 = 0 && Config.freeBool s.free then 8 * (q - 1) else 8 * q

/-- Ticks added to the counter and to what the module has stamped by it. -/
def moveClock (d : Int) (s : State) : State :=
  { s with scrubBase := s.scrubBase + d, tick := ((s.tick : Int) + d).toNat, boundary := ((s.boundary : Int) + d).toNat, free := s.free + 1
           start := { s.start with since := ((s.start.since : Int) + d).toNat } }

/-- The module adopts its neighbour's time by link `l` and is ready. -/
def adopt (l : Nat) (th2 : Int) (s : State) : State :=
  reachReady (objSet 0x4200 0xB l (objSet 0x4200 0xA 1 (moveClock (thetaStep s th2)
    { s with start := { s.start with echoes := [] } })))

/-- The echo of the lowest-numbered link that has answered. -/
def lowestEcho : List (Nat × Int) → Option (Nat × Int)
  | [] => none
  | x :: r => match lowestEcho r with
    | none => some x
    | some y => if y.1 < x.1 then some y else some x

/-- The echoes of S12 are judged (R266). -/
def takeEchoes (s : State) : State :=
  match lowestEcho s.start.echoes with
  | none => s
  | some x => if atStep s 12 then adopt x.1 x.2 s else s

/-- An echo at S12. DESIGN CHOICE (log 115): while a lower-numbered link has been asked and has not answered, it waits
until the next pick boundary. -/
def echoAtS12 (l : Nat) (th2 : Int) (s : State) : State :=
  let s1 := { s with start := { s.start with echoes := s.start.echoes ++ [(l, th2)] } }
  if (List.range l).any fun i => linkUp s i && (linkAt s i).t0.isSome then s1 else takeEchoes s1

/-- Between the start tick's write and the start tick, the largest |θ|, rounded up to a whole tick (R268). -/
def recordTheta (th2 : Int) (s : State) : State :=
  let m := (th2.natAbs + 1) / 2
  if signed 16 (objGet s 0x4200 0x15) < m then objSet 0x4200 0x15 (min m 32767) s else s

/-- A handshake symbol (R266): a request is answered in time states 1 and 2; an echo, whose value is the responder's t2,
meets the send time t0 kept for its link: it adjusts the counter at S12, and is a start check while a start tick waits. -/
def handshake (l : Nat) (echo : Bool) (value u : Nat) (s : State) : State :=
  if !echo then
    if objGet s 0x4200 0xA = 1 || objGet s 0x4200 0xA = 2 then toPort l (.symbol l 3 (timePayload 3 u s.tick)) s else s
  else match (linkAt s l).t0 with
  | none => s
  | some t0 =>
    let th := theta2 t0 value s.tick u
    let s1 := linkSet l { linkAt s l with t0 := none } s
    if atStep s 12 then echoAtS12 l th s1
    else if objGet s 0x4200 0x14 = 1 then recordTheta th s1 else s

/-- TIME_HANDSHAKE (R266), with the fields of the symbol's payload (R229); its reserved bits are ignored (R11). -/
def execTimeHandshake (link : LinkIx) (echo : Bool) (turnaround : BitVec 24) (_reserved : BitVec 32) (value : BitVec 64)
    (s : State) : Host.Outcome State Fault Refusal :=
  .next (handshake link.val echo value.toNat turnaround.toNat s)

/-- TIME_ROOT_TIMEOUT (R267): with 0x4200:09 set and no answer, the module becomes the time root. -/
def execTimeRootTimeout (s : State) : Host.Outcome State Fault Refusal :=
  .next (if startState s = 0 && stepNow s = 12 && objGet s 0x4200 9 = 1 then reachReady (objSet 0x4200 0xA 2 s) else s)

/-! ## Running a start -/

/-- Step `k` carried out, 0 to 8. -/
def stepEnd (f : StartFacts) (k : Nat) (s : State) : StepEnd :=
  if k = 0 then (1, 0, s) else if k = 1 then stepS1 f s else if k = 2 then stepS2 f s
  else if k = 3 then stepS3 f s else if k = 4 then stepS4 f s else if k = 5 then stepS5 f s
  else if k = 6 then stepS6 f s else if k = 7 then stepS7 f s else stepS8 f s

/-- A step that failed: S3 leads to the recovery path. -/
def stepFailed (k code : Nat) (s : State) : State := if k = 3 then enterRecovery code s else failStep k code s

/-- The steps from `k` on, as far as S9, which waits for its alignment tick; fuel bounds their number. -/
def runSteps (f : StartFacts) : Nat → Nat → State → State
  | 0, _, s => s
  | n + 1, k, s =>
    let r := stepEnd f k (beginStep k s)
    if 9 ≤ k then beginStep k s
    else if r.1 = 4 then stepFailed k r.2.1 r.2.2
    else
      let next := if k = 5 && s.start.first = 5 then 9 else k + 1
      runSteps f n next (objSet 0x2200 2 next (passStep k r.1 r.2.2))

/-- START (R447): the steps run from the first step of the reset kind, a recovered image's start from S4. Without a
valid input S0 waits. -/
def runStart (f : StartFacts) (s : State) : State :=
  if startState s ≠ 0 || s.start.halted || s.start.facts.isSome || !s.power.input then s
  else
    let s1 := if stepNow s = 4 then { s with start := { s.start with facts := some f } }
      else bumpKept 0x2200 4 { s with start := { s.start with facts := some f, since := s.tick, recovery := false } }
    runSteps f 14 (stepNow s) s1

/-- START (R447). -/
def execStart (facts : StartFacts) (s : State) : Host.Outcome State Fault Refusal := .next (runStart facts s)

/-- The steps after the crossing alignment: S10, and S11 as far as it comes. -/
def afterAlignment (f : StartFacts) (s : State) : State :=
  let r := stepS10 f (beginStep 10 (passStep 9 1 s))
  if r.1 = 4 then failStep 10 r.2.1 r.2.2
  else settleS11 (stepS11 f (beginStep 11 (passStep 10 r.1 r.2.2)))

/-- ALIGNMENT_TICK (R449): every crossing has its native delay, or a tile is marked and S9 fails. -/
def execAlignmentTick (badTile : Option TileIx) (s : State) : Host.Outcome State Fault Refusal :=
  .next (match s.start.facts with
    | none => s
    | some f =>
      if startState s ≠ 0 || stepNow s ≠ 9 then s
      else match badTile with
        | some t => failStep 9 0 (markTile t.val { s with start := { s.start with marked := s.start.marked + 1 } })
        | none => afterAlignment f s)

/-- The fault of a step that fails (start step table). -/
def stepFault (k : Nat) : Nat :=
  if k = 1 || k = 4 then 0x1003 else if k = 2 then 0x1005 else if k = 5 then 0x1012 else if k = 7 then 0x2007
  else if k = 10 then 0x4004 else 0

/-- The step in progress fails: S3 leads to the recovery path; S0, S11 and S12 have no failure. -/
def failCurrent (s : State) : State :=
  let k := stepNow s
  if startState s ≠ 0 || s.start.halted || k = 0 || 11 ≤ k then s
  else if k = 3 then enterRecovery 0x7001 s else failStep k (stepFault k) s

/-- START_STEP_TIMEOUT (R447): S11 ends with the links that have come up. -/
def execStartTimeout (s : State) : Host.Outcome State Fault Refusal :=
  .next (if atStep s 11 then endS11 s else failCurrent s)

/-- AUTOMATIC_RESTART (R448): a failed start below the limit starts again from S2. -/
def execAutoRestart (s : State) : Host.Outcome State Fault Refusal :=
  .next (if s.start.halted && startState s = 0 then resetTo 4 2 (bump 0x2200 6 1 s) else s)

/-- RAIL_FAULT (R437): fault 0x1003; during the steps that bring rails up the step fails. -/
def execRailFault (rail : Fin 13) (s : State) : Host.Outcome State Fault Refusal :=
  let m := objGet s 0x2000 0xE
  let s1 := objSet 0x2000 0xE (if bitOf m rail.val then m - 2 ^ rail.val else m) s
  .next (if startState s = 0 && (stepNow s = 1 || stepNow s = 4) then failCurrent s1 else powerFault 0x1003 rail.val s1)

/-- INPUT_VALID (R438, R452): after absence the input has been valid, and SENSE_N closed, for 10 ms; a cold start. -/
def execInputValid (s : State) : Host.Outcome State Fault Refusal :=
  .next (if s.power.input then s
    else
      let r := resetTo 1 0 (interruptStart s)
      { r with power := { r.power with input := true } })

/-- REFERENCE_LOSS (R440): the input in use is lost; during a job fault 0x1010, otherwise a start from S5. -/
def execReferenceLoss (s : State) : Host.Outcome State Fault Refusal :=
  let u := objGet s 0x2202 1
  let s1 := bump 0x2202 5 1 (objSet 0x2202 (if u = 0 then 2 else 3) 0 s)
  .next (if 1 < u then s
    else if s.job then raiseFault 0x1010 (unitSite 4 0 0 u) s1
    else
      let r := resetTo 6 5 (interruptStart (objSet 0x4200 0xA 0 s1))
      objSet 0x2202 5 (objGet s1 0x2202 5) r)

/-- RESET_N_LOW (R446): during a job FAULT symbols with 0x1004 leave first; then a warm reset. -/
def execResetNLow (s : State) : Host.Outcome State Fault Refusal :=
  .next (if !s.power.input then s
    else resetTo 2 2 (interruptStart (if s.job then sendFaults 0x1004 (ownCoord s) (stampNow s) s else s)))

/-- The warm reset that 0x2200:07 asks for (R445). -/
def requestReset (s : State) : State := resetTo 3 2 (interruptStart s)

end Sys2Proof.Machine
end

