-- ==== Sys2Proof/Machine/JobStart.lean ====
section
/-! DEFINITION. The job start: the write of the start tick and the start check (R268), the checks at the start tick
(R263, R286, R365), and what a job begins with. -/

namespace Sys2Proof.Machine

/-- A fault of C0 at a job start. -/
def startFault (code detail : Nat) (s : State) : State := raiseFault code (unitSite 4 0 0 (detail % 2 ^ 18)) s

/-- The broadcast links whose peer belongs to the slice. -/
def sliceLinks (s : State) : List Nat :=
  ((List.range 6).filterMap (broadcastLink s)).filter fun l => inSlice s (coordOf (objGet s (0x4100 + l) 6))

/-- The start tick is accepted (R268, R378): the job is in progress; less than 800,000 ticks before it,
fault 0x4021; otherwise the start check exchange runs. -/
def acceptStart (b0 : Nat) (s : State) : State :=
  let s1 := objSet 0x4200 0x15 0 (objSet 0x4200 0x14 1 (objSet 0x4200 0x13 b0 { s with
    job := true, started := false, ports := { s.ports with egress := true } }))
  if b0 < s.tick + 800000 then startFault 0x4021 0 (objSet 0x4200 0x14 3 s1)
  else (sliceLinks s1).foldl (fun s l => sendHandshake l s) s1

/-- Whether the slice objects are consistent (R263, R258). -/
def sliceOk (s : State) : Bool :=
  let lead := coordOf (objGet s 0x4200 0xC)
  let axes := List.range 3
  let big := axes.any fun a => decide (4 < extent s a)
  let aligned := axes.all fun a => coordAxis lead a % 4 == 0
  let boxed := axes.all fun a => extent s a % 4 == 0
  let mask (a : Nat) := objGet s 0x4200 (0x10 + a)
  let within := axes.all fun a => (List.range 16).all fun c => !bitOf (mask a) c || c / 4 == coordAxis lead a / 4
  inSlice s lead && ((objGet s 0x4200 0xE == 0) == (objGet s 0x4200 1 == objGet s 0x4200 0xC))
    && axes.all (fun a => decide (sliceAt s a < extent s a)) && sliceSize s == objGet s 0x4300 6
    && (!big || aligned) && (boxed && aligned || within)

/-- Whether slice objects and pattern are those of the first key bundle (R365). -/
def bundleMatches (s : State) : Bool :=
  match s.security.bound, s.pattern with
  | some b, some p => b == (p.hash, objGet s 0x4200 0xC, objGet s 0x4200 0xD, objGet s 0x4200 0xE)
  | _, _ => false

/-- The faults of the checks that fail at the start tick, each with its unit: C0, a selvedge port, the treadle. -/
def startFaults (s : State) : List (Nat × FaultSite) :=
  (if sliceOk s then [] else [(0x4023, unitSite 4 0 0 0)])
    ++ (if 3 < signed 16 (objGet s 0x4200 0x15) then [(0x4020, unitSite 2 0 0 0)] else [])
    ++ (if admitHorizon s < horizon s + 1 then [(0x6001, unitSite 4 0 0 0)] else [])
    ++ (if session s = 3 && !bundleMatches s then [(0x7011, unitSite 4 0 0 0)] else [])

/-- Job settings (0x6200:04): stepping, numeric profile, latency profile, pace floor. -/
def jobSettings (s : State) (p : Pattern) : Nat :=
  steppingCode s * 2 ^ 24 + p.numeric * 2 ^ 16 + p.latency * 2 ^ 8 + objGet s 0x4300 3

/-- Register 3 at the start tick (R360): job settings, H, A and the class B budgets. -/
def measureJob (s : State) : State :=
  extendReg 3 (sha384 (leBytes 4 (objGet s 0x6200 4) ++ leBytes 1 (horizon s) ++ leBytes 1 (admitHorizon s)
    ++ ((List.range 8).map fun i => leBytes (objLen 0x4000 (2 + i)) (objGet s 0x4000 (2 + i))).flatten)) s

/-- Counts of a job and their values at its start. -/
def jobCounts : List (Nat × Nat × Nat) := [
  (0x4300, 0xA, 0), (0x6200, 2, 0), (0x6200, 3, 0),
  (0x5000, 5, 1), (0x5000, 6, 0), (0x5000, 7, 0), (0x5000, 8, 0), (0x5000, 9, 0), (0x5000, 0xB, 0), (0x5000, 0xC, 0),
  (0x5000, 0xD, 0), (0x5000, 0xE, 0), (0x5000, 0xF, 0), (0x5100, 0xD, 0), (0x5100, 0xE, 0), (0x5100, 0xF, 0),
  (0x5200, 6, 0), (0x6000, 5, 0xFFFFFFFF), (0x6000, 6, 0), (0x6000, 7, 0), (0x2000, 0xC, 0), (0x2000, 0xD, 0)]

/-- Broadcast words and landing slacks at a job's start. -/
def jobEntries (s : State) : State :=
  let s1 := jobCounts.foldl (fun s e => objSet e.1 e.2.1 e.2.2 s) s
  let s2 := (List.range 36).foldl (fun s l => objSet (0x4100 + l) 0xD 0xFFFFFFFF s) s1
  (List.range 16).foldl (fun s w => objSet 0x5000 (0x10 + w) 0 s) s2

/-- The lineage table is written as zeros on the lead (R84). DESIGN CHOICE (log 116): with lineage mode off
(0x6200:01) it is left as it is. -/
def clearLineage (s : State) : State :=
  if !isLead s || !lineageOn s || !lineageNamed s then s
  else (List.range 4096).foldl (fun s i => backStore (objGet s 0x6200 6 + i) (freshFrame (zeros 512) 0) s) s

/-- The digest descriptors of the pattern in their tiles (R275). -/
def placeDigests (p : Pattern) (s : State) : State :=
  p.digests.foldl (fun s d => tileSet d.1 { tileAt s d.1 with digests := d.2 } s) s

/-- Time pick 0 begins at `b0`, on every link too (R225). -/
def beginJob (b0 : Nat) (p : Pattern) (s : State) : State :=
  let s1 := jobEntries { s with
    started := true, tiles := s.tiles.map fun t => (t.1, { t.2 with corrected := [] })
    tp := 0, sp := 0, tick := max s.tick b0, boundary := b0, landed := []
    sealedJob := session s == 3
    hold := { Hold.reset with floor0 := objGet s 0x4300 3 }
    treadle := { Treadle.reset with history := [(0, b0, 0)], floorReq := s.treadle.floorReq }
    power := { s.power with lastPace := none, lastEmerg := none }
    ports := { s.ports with dests := List.replicate 8 Dest.reset } }
  let s2 := objSet 0x4300 1 (objGet s 0x4300 3) (objSet 0x4200 0x14 2 (objSet 0x6200 4 (jobSettings s1 p)
    (octSet 0x6200 5 p.hash s1)))
  let s3 := if session s2 = 3 then objSet 0x6100 0x11 4 s2 else s2
  transmitAll true (countModule 1 1 (countModule 0 1 (clearLineage (clearTrees (placeDigests p (measureJob s3))))))

/-- The start tick (R263, R268): without a pattern fault 0x4021; then the checks; a module that passes them begins time pick 0. -/
def startTick (s : State) : State :=
  if !s.job || s.started || s.integrity.stopLine || objGet s 0x4200 0x14 ≠ 1 then s
  else match s.pattern with
  | none => startFault 0x4021 0 (objSet 0x4200 0x14 3 s)
  | some p =>
    let b0 := objGet s 0x4200 0x13
    if startFaults s = [] then beginJob b0 p (closeLinks s)
    else raiseFaults (startFaults s) (objSet 0x4200 0x14 3 { s with tick := max s.tick b0, boundary := b0 })

/-- JOB_START_TICK (R263). -/
def execStartTick (s : State) : Host.Outcome State Fault Refusal := .next (startTick s)

end Sys2Proof.Machine
end

