-- ==== Sys2Proof/Machine/Replies.lean ====
section
/-! DEFINITION. How responses leave: bytes of a request and a response, CAN FD frames and segmentation (R390, R391),
management datagrams (R395), request slots (R397). -/

namespace Sys2Proof.Machine

/-! ## Bytes -/

/-- The bytes of a response, with a frame kind in bits [7:5] of byte 0 (request and response header table). -/
def responseBytes (kind : Nat) (r : Response) : Bytes :=
  leBytes 1 (32 * kind + r.txn.toNat) ++ leBytes 1 r.opcode.toNat ++ leBytes 2 r.index.toNat ++ leBytes 1 r.sub.toNat
    ++ leBytes 1 r.status.toNat ++ leBytes 2 r.data.length ++ r.data

/-- The request that bytes spell. -/
def requestOf (b : Bytes) : Request where
  txn    := BitVec.ofNat 5 (leAt b 0 1)
  opcode := BitVec.ofNat 8 (leAt b 1 1)
  index  := BitVec.ofNat 16 (leAt b 2 2)
  sub    := BitVec.ofNat 8 (leAt b 4 1)
  status := BitVec.ofNat 8 (leAt b 5 1)
  data   := slice b 8 (leAt b 6 2)

/-! ## CAN FD (R390, R391) -/

/-- The CAN FD data length that holds `n` bytes. -/
def canSize (n : Nat) : Nat :=
  if n ≤ 8 then n else if n ≤ 12 then 12 else if n ≤ 16 then 16 else if n ≤ 20 then 20 else if n ≤ 24 then 24
  else if n ≤ 32 then 32 else if n ≤ 48 then 48 else 64

/-- A frame of a function, padded; a port with node id 0 or without its controller is silent (R390, R353). -/
def canEmit (fn : Nat) (b : Bytes) (s : State) : State :=
  if pathOpen s .can then emit (.canFrame (128 * fn + objGet s 0x9000 1) (slice b 0 (canSize b.length))) s else s

/-- Consecutive frames of a request or response of `n` data bytes. -/
def canCount (n : Nat) : Nat := (n - 56 + 61) / 62

/-- The sequence of consecutive frame `n`: 1 to 255, then 1 again; 0 for the first frame. -/
def canSeq (n : Nat) : Nat := if n = 0 then 0 else (n - 1) % 255 + 1

/-- Consecutive frame `n` of a response. -/
def canPart (r : Response) (n : Nat) : Bytes :=
  leBytes 1 (64 + r.txn.toNat) ++ leBytes 1 (canSeq n) ++ (r.data.drop (56 + 62 * (n - 1))).take 62

/-- The last frame of the block that follows frame `n` (R391). -/
def canBlockEnd (n total : Nat) : Nat := min (16 * (n / 16 + 1)) total

/-- The block after frame `n` of a response leaves. -/
def canBlock (r : Response) (n : Nat) (s : State) : State :=
  ((List.range (canBlockEnd n (canCount r.data.length) - n)).map fun i => n + 1 + i).foldl
    (fun s k => canEmit 6 (canPart r k) s) s

/-- A response leaves on the CAN FD port: whole in a single frame, or its first frame and first block. -/
def canStart (r : Response) (s : State) : State :=
  if r.data.length ≤ 56 then
    canEmit 6 (responseBytes 0 r) { s with can := { s.can with last := some r, sending := none } }
  else
    let head := slice (responseBytes 1 r) 0 64
    canBlock r 0 (canEmit 6 head { s with can := { s.can with sending := some (r, 0) } })

/-! ## Datagrams and slots -/

/-- A management datagram with a response: counter repeated, a tag when the request had one (R395). -/
def datagramOf (s : State) (counter : Nat) (tagged : Bool) (r : Response) : Bytes :=
  let b := ascii "CHOD" ++ leBytes 8 counter ++ responseBytes 0 r
  if tagged then b ++ hmacSha256 (octGet s 0x9001 8) b else b

/-- A request slot's offset in BAR0. -/
def slotBase (k : Nat) : Nat := 0xC00000 + 0x40000 * k

/-- A response is written to its slot, its sequence copied, vector 4 raised (R397). -/
def slotReply (k : Nat) (r : Response) (s : State) : State :=
  let s1 := portPut (slotBase k + 0x20040) (responseBytes 0 r) s
  raiseVector 4 (portPut (slotBase k + 4) (portGet s1 (slotBase k) 4) s1)

/-- A response goes where its request came from. -/
def deliverReply (rcpt : ReplyTo) (r : Response) (s : State) : State :=
  match rcpt with
  | .sender p => emit (.response p r) s
  | .slot k => slotReply k r s
  | .datagram c t => if pathOpen s .mgmt then emit (.datagram (datagramOf s c t r)) s else s
  | .canPort => canStart r s
  | .nowhere => s

/-- A response counted and sent. -/
def reply (rcpt : ReplyTo) (r : Response) (s : State) : State := deliverReply rcpt r (countRequest r s)

end Sys2Proof.Machine
end

