-- ==== Sys2Proof/Machine/Objects.lean ====
section
/-! DEFINITION. The object service (R375 to R386, R462): reading entries, the refusals of their chapters, what a write
does, descriptors, persistent stores, signed writes (R374). -/

namespace Sys2Proof.Machine

/-! ## Entries -/

/-- Subindex 0 of an index: a U8 constant, the highest subindex (R375). -/
def subZero (i n : Nat) : ObjRow where
  idx := i
  n := 1
  sub := 0
  m := 1
  ty := 2
  acc := 0
  dA := n
  dB := n
  len := 1
  fixed := true
  job := false
  held := false
  en := false
  lo := 0
  hi := 255

/-- The row of an entry, subindex 0 included. -/
def entry? (i j : Nat) : Option ObjRow := if j = 0 then (highSub? i).map (subZero i) else objRow? i j

/-- Whether an entry's value is a byte string. -/
def ObjRow.octets (r : ObjRow) : Bool := r.ty == 10 || r.ty == 11

/-- Whether an index is a link's. -/
def linkIndex (i : Nat) : Bool := 0x4100 ≤ i && i ≤ 0x4123

/-- The default of an entry as DESCRIBE gives it. -/
def entryDefault (s : State) (r : ObjRow) (i j : Nat) : Nat :=
  if j = 0 then r.dA else if linkIndex i && j = 2 then linkDir (i - 0x4100) else objDefault s.ident i j

/-- Nominal cycles with stretch as ticks, rounded (R223): 5/4 of the cycles, over 17/8 or 15/8 cycles a tick. -/
def termTicks (s : State) (cycles : Nat) : Nat :=
  let d := match s.ident.grade with | .A => 17 | .B => 15
  (2 * 5 * 8 * cycles + 4 * d) / (2 * 4 * d)

/-- The cycles that a control budget of `c` flits adds to a path (R223). -/
def controlWait (s : State) : Nat := 16 * objGet s 0x4000 2

/-- Marks that wait for a job boundary or a start (0x6000:15). -/
def marksPending (s : State) : Nat :=
  s.integrity.markRows.length + s.integrity.markTiles.length + s.integrity.markPorts.length

/-- The current value of a numeric entry on a path. -/
def numValue (p : Path) (s : State) (r : ObjRow) (i j : Nat) : Nat :=
  if j = 0 then r.dA
  else if linkIndex i && j = 2 then linkDir (i - 0x4100)
  else if i = 0x2100 && j = 1 then s.tick % 2 ^ 64
  else if i = 0x2000 && j = 0xB then s.power.energy / 1000000
  else if i = 0x4300 then
    (if j = 8 then s.sp else if j = 9 then s.tp else if j = 0xB then s.tp - s.sp else objGet s i j)
  else if i = 0x4200 then
    (if j = 0x16 then termTicks s (170 + controlWait s)
     else if j = 0x17 then termTicks s (318 + 2 * controlWait s)
     else if j = 0x18 then termTicks s (262 + controlWait s) else objGet s i j)
  else if i = 0x5200 && 0x20 ≤ j && j < 0x30 then loadStatus s (j - 0x20)
  else if i = 0x6000 then
    (match s.integrity.first with
     | some f => if j = 2 then f.code.toNat else if j = 3 then f.stamp else if j = 4 then f.sp
                 else if j = 0x12 then s.integrity.shifts.length
                 else if j = 0x13 then (s.integrity.spareUse.map (·.2)).foldl (· + ·) 0
                 else if j = 0x15 then marksPending s else objGet s i j
     | none => if j = 0x12 then s.integrity.shifts.length
               else if j = 0x13 then (s.integrity.spareUse.map (·.2)).foldl (· + ·) 0
               else if j = 0x15 then marksPending s else objGet s i j)
  else if i = 0x7000 then
    (if j = 8 then selectedEvent s p else if j = 9 then liveEntry s (selectedEvent s p)
     else if j = 0xA then snapEntry s (selectedEvent s p) else objGet s i j)
  else if i = 0x8102 && 0x11 ≤ j && j ≤ 0x18 then releaseIndex s (j - 0x11)
  else if i = 0x9002 then fnEntry (fnAt s (if j = 0x25 then 36 else if j = 0x26 then 37 else j - 1))
  else if i = 0x1000 && j = 7 then Config.boardIssue
  else if i = 0x1000 && j = 8 then Config.manufactureDate
  else if i = 0x1000 && j = 9 then Config.mgmtFirmwareVersion
  else if i = 0x8000 && j = 1 then Config.pciVendorId
  else objGet s i j

/-- The bytes of a fault log entry, zeros where it is empty. -/
def logEntry (r : Option FaultRec) : Bytes := (r.map faultBytes).getD (zeros 32)

/-- The current value of a byte-string entry. -/
def octValue (s : State) (i j : Nat) : Bytes :=
  if i = 0x1000 && j = 1 then ascii "Galsewald"
  else if i = 0x1000 && j = 2 then ascii "Chropa M20"
  else if i = 0x1000 && j = 3 then ascii (match s.ident.grade with | .A => "GW-CHM20-A" | .B => "GW-CHM20-B")
  else if i = 0x1000 && j = 6 then Config.serialNumber
  else if i = 0x6001 then logEntry (if j = 1 then s.integrity.first else s.integrity.ring[j - 2]?)
  else if i = 0x6002 then logEntry s.integrity.saved[j - 1]?
  else if i = 0x6100 && j = 4 then Config.certificateChain true
  else if i = 0x6100 && j = 5 then Config.certificateChain false
  else if i = 0x6100 && 9 ≤ j && j ≤ 0x10 then s.security.measure.getD (j - 9) []
  else if i = 0x2201 then s.start.journal.getD (j - 1) (zeros 64)
  else if i = 0x9001 && j = 7 then Config.macAddress 0
  else if (i = 0x8100 || i = 0x8101) && j = 2 then Config.macAddress (i - 0x8100 + 1)
  else octGet s i j

/-- The value of an entry as a read returns it (R376). -/
def readEntry (p : Path) (s : State) (r : ObjRow) (i j : Nat) : Bytes :=
  if r.octets then (if r.fixed then slice (octValue s i j) 0 r.len else octValue s i j)
  else leBytes r.len (numValue p s r i j)

/-! ## Privilege (R379) -/

/-- The privilege of a path: 0 public, 1 operator. -/
def pathPrivilege (s : State) : Path → Nat
  | .pcie | .mgmtTagged => 1
  | .can => objGet s 0x9000 5
  | .mgmt | .doe => 0

/-- The privilege that a write needs: 2 vendor. -/
def writePrivilege (i j : Nat) : Nat :=
  if i = 0x1000 && j = 0xB || i = 0x1002 && j = 5 then 1
  else if 0x1000 ≤ i && i ≤ 0x10FF || i = 0x6100 && (j = 0x13 || j = 0x14) then 2 else 1

/-- Entries that some paths may not write: the port privilege over PCIe only, the operator key not over the management
port (R396). -/
def pathBarred (p : Path) (i j : Nat) : Bool :=
  i == 0x9000 && j == 5 && p != .pcie || i == 0x9001 && j == 8 && (p == .mgmt || p == .mgmtTagged)

/-! ## Reserved bits (R11) -/

/-- The value of a numeric entry with its reserved bits 0: the module ignores one that is written as 1. PRESUMED (log 122):
0xFFFF, the unset value of 0x4200:0C, stays whole. -/
def definedNum (i j n : Nat) : Nat :=
  if i = 0x4200 && (j = 1 || j = 2 || j = 0xD || j = 0xE) then n % 0x1000
  else if i = 0x4200 && j = 0xC then (if n = 0xFFFF then n else n % 0x1000)
  else if i = 0x4200 && j = 0xF then n % 8
  else if i = 0x5200 && 8 ≤ j && j < 0x10 then n / 65536 * 65536
  else if i = 0x7000 && j = 1 then n % 4
  else if i = 0x6100 && j = 0x14 then n % 16
  else n

/-- The same of a byte string: result destinations and overflow selectors. -/
def definedOct (i j : Nat) (v : Bytes) : Bytes :=
  if i = 0x8102 && j ≤ 8 then
    leBytes 1 (leAt v 0 1 % 4) ++ slice v 1 3 ++ zeros 4 ++ slice v 8 24 ++ zeros 16
  else if i = 0x7000 && 0x10 ≤ j && j ≤ 0x17 then
    slice v 0 2 ++ leBytes 1 (leAt v 2 1 % 4) ++ zeros 5 ++ slice v 8 6 ++ zeros 2
  else v

/-- The value of an entry as the module takes it. -/
def definedValue (r : ObjRow) (i j : Nat) (v : Bytes) : Bytes :=
  if r.octets then definedOct i j v else leBytes v.length (definedNum i j (leNat v))

/-! ## Refusals of the owning chapters -/

/-- Whether every coordinate of an entry lies below the machine extent of its axis. -/
def coordInside (s : State) (v : Nat) : Bool :=
  (List.range 3).all fun a => bits v (8 - 4 * a) 4 ≤ bits (objGet s 0x4200 2) (8 - 4 * a) 4

/-- Whether slice extents fit a shape of R258: each from 1 to 4, or each a multiple of 4. -/
def extentsFit (v : Nat) : Bool :=
  let e := (List.range 3).map fun a => bits v (8 - 4 * a) 4 + 1
  (e.all (· ≤ 4) || e.all (· % 4 == 0))

/-- A refusal where a condition does not hold. -/
def unlessOk (ok : Bool) (status : Nat) : Nat := if ok then 0 else status

/-- The first of two refusals. -/
def orElse (a b : Nat) : Nat := if a = 0 then b else a

/-- Refusals of coordinates and slices (R254 to R261, R268). -/
def refuseTopology (s : State) (j n : Nat) : Nat :=
  if j = 1 then unlessOk (coordInside s n) 6
  else if j = 2 then unlessOk ((List.range 3).all fun a => bits n (8 - 4 * a) 4 % 4 == 3) 6
  else if 3 ≤ j && j ≤ 8 then unlessOk (decide (n ≤ 15 || n = 0xFF)) 6
  else if j = 0xD then unlessOk (extentsFit n) 6
  else if j = 0x13 then unlessOk (startState s == 1 && session s != 5) 0xD
  else 0

/-- Refusals of the pace floor (R26, R47). -/
def refuseFloor (s : State) (n : Nat) : Nat :=
  if s.job && !isLead s then 7
  else if n < Config.minPace s.ident.grade || Config.maxPace < n then 6
  else unlessOk (!s.job || decide ((if s.started then s.hold.floor0 else objGet s 0x4300 3) ≤ n)) 6

/-- Refusals of the result consumer index (R294, R403): past the producer, or past an enabled destination's release
index. -/
def refuseConsumer (s : State) (n : Nat) : Nat :=
  let c := objGet s 0x5000 9
  let past (e : Nat) := idxAhead c e < idxAhead c n
  unlessOk (!past (objGet s 0x5000 8) && (List.range 8).all fun d => !destOn (destEntry s d) || !past (releaseIndex s d)) 6

/-- Refusals of the tracer's entries (R297, R314). -/
def refuseServing (s : State) (j n : Nat) : Nat :=
  if j = 1 || j = 3 then unlessOk (decide (n % 24 = 0 && n < 737280)) 6
  else if j = 6 then orElse (unlessOk (decide (idxAhead (objGet s 0x5100 7) n ≤ 1024)) 6)
    (unlessOk (s.job && s.started && isLead s && !s.integrity.stopLine) 0xD)
  else 0

/-- Refusals of a chain entry (R325). -/
def refuseChain (s : State) (k n : Nat) : Nat :=
  let inc := bits n 24 8
  let out := bits n 16 8
  let fields := decide ((inc ≤ 37 || inc = 0xFF) && (out ≤ 35 || out = 0xFF))
  let twice := inc != 0xFF && (List.range 8).any fun i => i != k && chainIn s i == inc
  orElse (unlessOk (fields && !twice) 6) (unlessOk (openLoad s k).isNone 0xD)

/-- Refusals of a load record (R322): zeros close the slot, anything else needs an empty one. -/
def refuseLoad (s : State) (i : Nat) (v : Bytes) : Nat :=
  if allZero v then unlessOk (!closeRefused s i) 0xD
  else unlessOk ((loadAt s i).state == 0 && !s.integrity.stopLine) 0xD

/-- A destination entry that differs from the stored one in the enable bit alone, now clear (R419). -/
def onlyDisables (s : State) (d : Nat) (v : Bytes) : Bool :=
  let e := destEntry s d
  v.drop 1 == e.drop 1 && leAt e 0 1 == leAt v 0 1 + 1 && leAt e 0 1 % 2 == 1

/-- Whether a destination entry's fields are in range. -/
def destFieldsOk (v : Bytes) : Bool :=
  decide (leAt v 1 1 ≤ 1)

/-- Refusals of counters and sampling (R428 to R434). -/
def refuseCounters (s : State) (i j : Nat) (v : Bytes) : Nat :=
  let n := leNat v
  if i = 0x7000 then
    (if j = 3 then unlessOk (!snapRefused s) 0xD
     else if 0x10 ≤ j && j ≤ 0x17 then unlessOk (selectorOk v) 6 else 0)
  else if j = 1 then unlessOk (session s < 3 || 5 < session s) 0xD
  else if 6 ≤ j && j ≤ 9 then
    unlessOk (decide (idxAhead (objGet s 0x7100 j) n ≤ idxAhead (objGet s 0x7100 j) (objGet s 0x7100 (j - 4)))) 6
  else 0

/-- Refusals of the field network's entries. -/
def refuseField (s : State) (j n : Nat) : Nat :=
  if j = 2 then unlessOk (n == 125000 || n == 250000 || n == 500000 || n == 1000000) 6
  else if j = 3 then unlessOk ((n == 1000000 || n == 2000000 || n == 4000000 || n == 5000000)
    && decide (objGet s 0x9000 2 ≤ n)) 6
  else if j = 6 then unlessOk (n == 0 || decide (100 ≤ n)) 6 else 0

/-- Refusals of the lineage table's place (0x6200:06): beam rows, on the grid, a multiple of 24, all of them. -/
def refuseLineage (n : Nat) : Nat :=
  unlessOk (addrSpace n == 1 && (addrTile n).isSome && addrRow n % 24 == 0 && decide (addrRow n + 4096 ≤ 737280)) 6

/-- The refusal that an entry's chapter states, 0 for none (R462, point 11). -/
def ownRefusal (s : State) (i j : Nat) (v : Bytes) : Nat :=
  let n := leNat v
  if i = 0x4300 && j = 3 then refuseFloor s n
  else if i = 0x6200 && j = 6 then refuseLineage n
  else if i = 0x4200 then refuseTopology s j n
  else if linkIndex i && j = 0xE then (if jobOn s && n = 0 then 7 else 0)
  else if i = 0x5000 && j = 9 then refuseConsumer s n
  else if i = 0x5100 then refuseServing s j n
  else if i = 0x5200 && 8 ≤ j && j < 0x10 then refuseChain s (j - 8) n
  else if i = 0x5200 && 0x10 ≤ j && j < 0x20 then refuseLoad s (j - 0x10) v
  else if i = 0x6000 && j = 8 then unlessOk (n == 0 || stopState s != 0) 0xD
  else if i = 0x7000 || i = 0x7100 then refuseCounters s i j v
  else if (i = 0x8100 || i = 0x8101) && j = 6 then unlessOk (decide (leAt v 16 1 ≤ 128)) 6
  else if i = 0x8102 && j ≤ 8 then unlessOk (destFieldsOk v) 6
  else if i = 0x9000 then refuseField s j n
  else if i = 0x2000 && j = 3 then unlessOk (decide (1000 ≤ n && n ≤ objGet s 0x1001 7)) 6
  else 0

/-- Whether a write is stored in flash before it is answered: RWP entries (R385), and the operator key. -/
def persists (r : ObjRow) (i j : Nat) : Bool := r.acc == 4 || i == 0x9001 && j == 8

/-- Whether an entry cannot be written: CONST and RO, the signed write counter apart, which a signed write writes. -/
def unwritable (vendor : Bool) (r : ObjRow) (i j : Nat) : Bool :=
  r.acc == 0 || r.acc == 1 && !(vendor && i == 0x6100 && j == 0x13)

/-- The status of a write of `v` to an entry with a privilege (R462, points 4 to 12). -/
def writeStatus (p : Path) (priv : Nat) (s : State) (i j : Nat) (v : Bytes) : Nat :=
  match entry? i j with
  | none => 1
  | some r =>
    if priv < writePrivilege i j || pathBarred p i j then 5
    else if unwritable (priv == 2) r i j then 3
    else if r.fixed && v.length != r.len || r.len < v.length then 2
    else if r.ty = 1 && 1 < leNat v || r.ty = 10 && !utf8Valid v then 6
    else if r.job && jobOn s && !(i == 0x8102 && j ≤ 8 && onlyDisables s (j - 1) (definedValue r i j v)) then 7
    else if !r.octets && (definedNum i j (leNat v) < r.lo || r.hi < definedNum i j (leNat v))
      && !(i == 0x9000 && j == 6) then 6
    else if ownRefusal s i j (definedValue r i j v) ≠ 0 then ownRefusal s i j (definedValue r i j v)
    else if persists r i j && 16 ≤ s.stores.length then 0xA else 0

/-! ## What a write does -/

/-- Links that wait for coordinates at training step 5 send theirs (R257). -/
def coordsWritten (s : State) : State :=
  ((List.range 36).filter fun l => linkState s l == 1 && (linkAt s l).step == 5).foldl (fun s l => sendCoord l s) s

/-- An enable entry written (R387). -/
def writeEnable (fn i j n : Nat) (s : State) : State :=
  let s1 := objSet i j n s
  if n = 1 then fnEnable fn s1 else fnDisable fn s1

/-- A result destination written; during a job it stops at once and its unsent records are never sent (R419). -/
def writeDest (d : Nat) (v : Bytes) (s : State) : State :=
  let k := destAt s d
  let s1 := octSet 0x8102 (1 + d) v s
  if s.job then destSet d { k with log := k.log.take (destSent s d), unacked := [] } s1 else s1

/-- A write of 1 to 0x6000:08 (R346): ends a stopped job, or is latched while it stops. -/
def writeEnd (n : Nat) (s : State) : State :=
  if n = 0 then s
  else if stopState s = 2 then endStopped s
  else if stopState s = 1 then { s with integrity := { s.integrity with endLatched := true } }
  else s

/-- A load record written: zeros close the slot. -/
def writeLoad (i : Nat) (v : Bytes) (s : State) : State := if allZero v then closeLoad i s else openLoadSlot i v s

/-- The operator key written: installed, its counter starts again (R395). -/
def writeKey (v : Bytes) (s : State) : State := objSet 0x9001 0xA 0 (objSet 0x9001 9 1 (octSet 0x9001 8 v s))

/-- The value of a numeric entry written into place. -/
def writeNum (p : Path) (i j n : Nat) (s : State) : State :=
  if i = 0x4300 && j = 3 then
    (if s.job then { s with treadle := { s.treadle with floorReq := some n } } else objSet i j n s)
  else if i = 0x4200 && j = 1 then retrainUp (coordsWritten (objSet i j n s))
  else if i = 0x4200 && j = 0x13 then acceptStart n s
  else if linkIndex i && j = 0xE then writeEnable (i - 0x4100) i j n s
  else if i = 0x6000 && j = 0x17 then writeEnable 36 i j n s
  else if i = 0x9001 && j = 1 then writeEnable 37 i j n s
  else if i = 0x6000 && j = 8 then writeEnd n s
  else if i = 0x7000 && j = 3 then requestSnap n s
  else if i = 0x7000 && j = 8 then
    { s with counting := { s.counting with select := mset 0 s.counting.select (pathIx p) n } }
  else if i = 0x2200 && j = 7 then (if n = 1 then requestReset s else s)
  else if i = 0x6100 && j = 0x13 then s
  else if i = 0x6100 && j = 0x14 then
    let m := objGet s 0x6100 0x14 ||| n
    objSet i j m { s with flash := mput s.flash (objKey i j) m }
  else objSet i j n s

/-- The value of a byte-string entry written into place. -/
def writeOct (i j : Nat) (v : Bytes) (s : State) : State :=
  if i = 0x5200 && 0x10 ≤ j && j < 0x20 then writeLoad (j - 0x10) v s
  else if i = 0x7000 && j = 2 then setModes v s
  else if i = 0x7000 && 0x10 ≤ j then writeSelector (j - 0x10) v s
  else if i = 0x8102 then writeDest (j - 1) v s
  else if i = 0x9001 && j = 8 then writeKey v s
  else octSet i j v s

/-- An accepted write takes effect. -/
def writeEntry (p : Path) (r : ObjRow) (i j : Nat) (v : Bytes) (s : State) : State :=
  if r.octets then writeOct i j v s else writeNum p i j (leNat v) s

/-- An accepted write and its answer: a persistent value is answered once stored (R385); a reset request is answered
before the reset. -/
def doWrite (p : Path) (rcpt : ReplyTo) (q : Request) (raw : Bytes) (s : State) : State :=
  let i := q.index.toNat
  let j := q.sub.toNat
  let done := responseTo q 0 []
  match entry? i j with
  | none => reply rcpt (responseTo q 1 []) s
  | some r =>
    let v := definedValue r i j raw
    if persists r i j then
      let s1 := writeEntry p r i j v s
      { s1 with stores := s1.stores ++ [{ key := objKey i j, num := leNat v, oct := v, rcpt := rcpt, resp := done }] }
    else if i = 0x2200 then writeEntry p r i j v (reply rcpt done s)
    else reply rcpt done (writeEntry p r i j v s)

/-! ## The service -/

/-- Whether a request is malformed (R382): reserved opcode, nonzero status, a security message with an entry or on the
CAN FD port, an opcode the mailbox does not accept (R410). -/
def malformed (p : Path) (q : Request) : Bool :=
  let o := q.opcode.toNat
  !(o == 1 || o == 2 || o == 3 || o == 4 || o == 0x10) || q.status != 0
    || o == 0x10 && (p == .can || q.index != 0 || q.sub != 0) || p == .doe && (o == 2 || o == 4)

/-- Indices that the management controller answers from its own copy (R384). -/
def mgmtCopy (i : Nat) : Bool := i / 256 == 0x10 || i / 256 == 0x20 || i / 256 == 0x22 || i / 256 == 0x90

/-- READ: the value; a withheld one as zeros with status 0x08 (R380, R435). -/
def serveRead (p : Path) (rcpt : ReplyTo) (q : Request) (s : State) : State :=
  let i := q.index.toNat
  let j := q.sub.toNat
  match entry? i j with
  | none => reply rcpt (responseTo q 1 []) s
  | some r =>
    let hidden := withholding s && (r.held || i == 0x7000 && (j == 9 || j == 0xA) && eventWithheld (selectedEvent s p))
    if r.acc = 3 then reply rcpt (responseTo q 4 []) s
    else if hidden then reply rcpt (responseTo q 8 (zeros r.len)) s
    else reply rcpt (responseTo q 0 (readEntry p s r i j)) s

/-- WRITE with the privilege of its path. -/
def serveWrite (p : Path) (rcpt : ReplyTo) (q : Request) (s : State) : State :=
  let st := writeStatus p (pathPrivilege s p) s q.index.toNat q.sub.toNat q.data
  if st = 0 then doWrite p rcpt q q.data s else reply rcpt (responseTo q st []) s

/-- The descriptor of an entry (R381). -/
def descriptor (s : State) (r : ObjRow) (i j : Nat) : Bytes :=
  leBytes 1 r.ty ++ leBytes 1 r.acc ++ leBytes 1 (16 * writePrivilege i j)
    ++ leBytes 1 (flag r.job + 2 * flag r.held + 4 * flag r.en) ++ leBytes 4 r.len
    ++ leBytes 8 (if r.octets then 0 else entryDefault s r i j)

/-- DESCRIBE. -/
def serveDescribe (rcpt : ReplyTo) (q : Request) (s : State) : State :=
  match entry? q.index.toNat q.sub.toNat with
  | none => reply rcpt (responseTo q 1 []) s
  | some r => reply rcpt (responseTo q 0 (descriptor s r q.index.toNat q.sub.toNat)) s

/-- A signed write refused: fault 0x7020, status 0x09 (R374). -/
def refuseSigned (rcpt : ReplyTo) (q : Request) (s : State) : State :=
  reply rcpt (responseTo q 9 []) (raiseFault 0x7020 (unitSite 4 0 0 0) s)

/-- The signed write counter takes the envelope's counter; it is kept through resets. -/
def takeCounter (n : Nat) (s : State) : State :=
  objSet 0x6100 0x13 n { s with flash := mput s.flash (objKey 0x6100 0x13) n }

/-- SIGNED WRITE (R374): the envelope gives vendor privilege for the entry it names. -/
def serveSigned (p : Path) (rcpt : ReplyTo) (q : Request) (e : Envelope) (s : State) : State :=
  if !envelopeOk s e || e.index != q.index || e.sub != q.sub then refuseSigned rcpt q s
  else
    let st := writeStatus p 2 s q.index.toNat q.sub.toNat e.value
    if st = 0 then doWrite p rcpt q e.value (takeCounter e.counter.toNat s) else reply rcpt (responseTo q st []) s

/-- A request carried out by the object service, in the order of checks of R462. -/
def serve (p : Path) (rcpt : ReplyTo) (q : Request) (s : State) : State :=
  let o := q.opcode.toNat
  if malformed p q then reply rcpt (responseTo q 0xE []) s
  else if !codeRunning s && !mgmtCopy q.index.toNat then reply rcpt (responseTo q 0xD []) s
  else if o = 1 then serveRead p rcpt q s
  else if o = 2 then serveWrite p rcpt q s
  else if o = 3 then serveDescribe rcpt q s
  else if o = 4 then
    (match envelopeOf q.data with
     | none => refuseSigned rcpt q s
     | some e => serveSigned p rcpt q e s)
  else
    let r := securityMessage q.data s
    reply rcpt (responseTo q r.1 r.2.1) r.2.2

/-! ## Commands on a path -/

/-- A request of one opcode for an entry. -/
def request (opcode i j : Nat) (data : Bytes) : Request where
  txn    := 0
  opcode := BitVec.ofNat 8 opcode
  index  := BitVec.ofNat 16 i
  sub    := BitVec.ofNat 8 j
  status := 0
  data   := data

/-- A request that reaches the service on a path that is up. -/
def onPath (p : Path) (q : Request) (s : State) : State := if pathOpen s p then serve p (.sender p) q s else s

/-- A WRITE request on a path. -/
def writeOn (p : Path) (i j : Nat) (data : Bytes) (s : State) : State := onPath p (request 2 i j data) s

/-- DESCRIBE (R381). -/
def execDescribe (path : Path) (index : BitVec 16) (sub : BitVec 8) (s : State) : Host.Outcome State Fault Refusal :=
  .next (onPath path (request 3 index.toNat sub.toNat []) s)

/-- A signed write on a path that is up. -/
def signedOn (p : Path) (e : Envelope) (s : State) : State :=
  let q := request 4 e.index.toNat e.sub.toNat []
  if !pathOpen s p then s
  else if malformed p q then reply (.sender p) (responseTo q 0xE []) s
  else if !codeRunning s && !mgmtCopy e.index.toNat then reply (.sender p) (responseTo q 0xD []) s
  else serveSigned p (.sender p) q e s

/-- SIGNED_WRITE (R374). -/
def execSignedWrite (path : Path) (e : Envelope) (s : State) : Host.Outcome State Fault Refusal := .next (signedOn path e s)

/-- The oldest store in flash is complete: its response leaves, 0x1002:04 counts it (R385). -/
def completeStore (s : State) : State :=
  match s.stores with
  | [] => s
  | x :: xs => reply x.rcpt x.resp (bumpKept 0x1002 4 (storeFlash x { s with stores := xs }))

/-- PERSISTENT_STORE_COMPLETE (R385). -/
def execStoreComplete (s : State) : Host.Outcome State Fault Refusal := .next (completeStore s)

/-- PACE_FLOOR_WRITE (R47). -/
def execPaceFloorWrite (path : Path) (data : Bytes) (s : State) : Host.Outcome State Fault Refusal :=
  .next (writeOn path 0x4300 3 data s)

/-- MODULE_COORDINATES_WRITE (R257). -/
def execCoordsWrite (path : Path) (data : Bytes) (s : State) : Host.Outcome State Fault Refusal :=
  .next (writeOn path 0x4200 1 data s)

/-- JOB_START_TICK_WRITE (R268). -/
def execStartTickWrite (path : Path) (data : Bytes) (s : State) : Host.Outcome State Fault Refusal :=
  .next (writeOn path 0x4200 0x13 data s)

/-- RESULT_CONSUMER_INDEX_WRITE (R294, R403). -/
def execConsumerIndexWrite (path : Path) (data : Bytes) (s : State) : Host.Outcome State Fault Refusal :=
  .next (writeOn path 0x5000 9 data s)

/-- TRACER_PRODUCER_INDEX_WRITE (R314). -/
def execTracerProducerWrite (path : Path) (data : Bytes) (s : State) : Host.Outcome State Fault Refusal :=
  .next (writeOn path 0x5100 6 data s)

/-- LOAD_RECORD_WRITE (R322). -/
def execLoadRecordWrite (path : Path) (slot : Fin 16) (data : Bytes) (s : State) : Host.Outcome State Fault Refusal :=
  .next (writeOn path 0x5200 (0x10 + slot.val) data s)

/-- LOAD_SLOT_CLOSE (R322): 128 zero bytes. -/
def execLoadSlotClose (path : Path) (slot : Fin 16) (s : State) : Host.Outcome State Fault Refusal :=
  .next (writeOn path 0x5200 (0x10 + slot.val) (zeros 128) s)

/-- CHAIN_ENTRY_WRITE (R325). -/
def execChainEntryWrite (path : Path) (chain : Fin 8) (data : Bytes) (s : State) : Host.Outcome State Fault Refusal :=
  .next (writeOn path 0x5200 (8 + chain.val) data s)

/-- END_STOPPED_JOB (R346). -/
def execEndStoppedJob (path : Path) (data : Bytes) (s : State) : Host.Outcome State Fault Refusal :=
  .next (writeOn path 0x6000 8 data s)

/-- DEFAULTS_AT_NEXT_RESET (R386). -/
def execDefaultsAtReset (path : Path) (data : Bytes) (s : State) : Host.Outcome State Fault Refusal :=
  .next (writeOn path 0x1002 5 data s)

/-- The enable entry of a function. -/
def enableEntry (fn : Nat) : Nat × Nat :=
  if fn < 36 then (0x4100 + fn, 0xE) else if fn = 36 then (0x6000, 0x17) else (0x9001, 1)

/-- ENABLE_WRITE (R387). -/
def execEnableWrite (path : Path) (fn : FnIx) (data : Bytes) (s : State) : Host.Outcome State Fault Refusal :=
  .next (writeOn path (enableEntry fn.val).1 (enableEntry fn.val).2 data s)

/-- RESULT_DESTINATION_WRITE (R419). -/
def execResultDestWrite (path : Path) (dest : Fin 8) (data : Bytes) (s : State) : Host.Outcome State Fault Refusal :=
  .next (writeOn path 0x8102 (1 + dest.val) data s)

/-- COUNTING_MODES_WRITE (R422). -/
def execCountingModesWrite (path : Path) (data : Bytes) (s : State) : Host.Outcome State Fault Refusal :=
  .next (writeOn path 0x7000 2 data s)

/-- SNAPSHOT_REQUEST (R428). -/
def execSnapshotRequest (path : Path) (data : Bytes) (s : State) : Host.Outcome State Fault Refusal :=
  .next (writeOn path 0x7000 3 data s)

/-- OVERFLOW_SELECTOR_WRITE (R430, R431). -/
def execSelectorWrite (path : Path) (sel : Fin 8) (data : Bytes) (s : State) : Host.Outcome State Fault Refusal :=
  .next (writeOn path 0x7000 (0x10 + sel.val) data s)

/-- READ_INDEX_WRITE (R434). -/
def execReadIndexWrite (path : Path) (die : DieIx) (data : Bytes) (s : State) : Host.Outcome State Fault Refusal :=
  .next (writeOn path 0x7100 (6 + die.val) data s)

/-- RESET_REQUEST (R445). -/
def execResetRequest (path : Path) (data : Bytes) (s : State) : Host.Outcome State Fault Refusal :=
  .next (writeOn path 0x2200 7 data s)

end Sys2Proof.Machine
end

