-- ==== Sys2Proof/Machine/Can.lean ====
section
/-! DEFINITION. The CAN FD port (R390 to R394) and the management Ethernet port (R395, R396). -/

namespace Sys2Proof.Machine

/-! ## Transactions -/

/-- The transaction open on the port: a request being received, a response being sent, or a request whose store is not
complete. -/
def canTxn (s : State) : Option (BitVec 5) :=
  match s.can.open_, s.can.sending with
  | some t, _ => some t.req.txn
  | none, some x => some x.1.txn
  | none, none => (s.stores.find? fun x => x.rcpt == .canPort).map (·.resp.txn)

/-- The header of the open transaction as a response of a status. -/
def canAnswer (s : State) (status : Nat) : Option Response :=
  match s.can.open_, s.can.sending with
  | some t, _ => some (responseTo t.req status [])
  | none, some x => some { x.1 with status := BitVec.ofNat 8 status, data := [] }
  | none, none =>
    (s.stores.find? fun x => x.rcpt == .canPort).map fun x => { x.resp with status := BitVec.ofNat 8 status, data := [] }

/-- The open transaction ends with a status (R392): a partial write is discarded, what a store still owes goes nowhere,
0x9000:0A counts it. -/
def canEnd (status : Nat) (s : State) : State :=
  match canAnswer s status with
  | none => s
  | some r =>
    let s1 := { s with
      can := { s.can with open_ := none, sending := none }
      stores := s.stores.map fun x => if x.rcpt = .canPort then { x with rcpt := .nowhere } else x }
    reply .canPort r (bump 0x9000 0xA 1 s1)

/-- Whether a frame with a node id is for this port (R390); it has an ear only while it is up. -/
def canHears (s : State) (node : BitVec 7) : Bool := pathOpen s .can && node.toNat == objGet s 0x9000 1

/-- Whether a transaction number is that of the open or of the last completed transaction (R392). -/
def canRepeat (s : State) (txn : BitVec 5) : Bool :=
  canTxn s == some txn || (s.can.last.map (·.txn)) == some txn

/-- A repeated request: the transaction's response is sent again, if there is one. -/
def canAgain (txn : BitVec 5) (s : State) : State :=
  if canTxn s = some txn then
    (match s.can.sending with
     | some x => if s.can.open_.isNone then canStart x.1 s else s
     | none => s)
  else match s.can.last with
    | some r => canStart r s
    | none => s

/-- A port that hears a frame has recovered from bus-off (R394). -/
def canAwake (s : State) : State := if objGet s 0x9000 7 = 2 then objSet 0x9000 7 0 s else s

/-- A request begins: a repeat is answered again, any other aborts the open transaction with status 0x0B. -/
def canBegin (txn : BitVec 5) (f : State → State) (s : State) : State :=
  if canRepeat s txn then canAgain txn (canAwake s) else f (canEnd 0xB (canAwake s))

/-- SINGLE_FRAME (R391). -/
def execSingleFrame (node : BitVec 7) (r : Request) (s : State) : Host.Outcome State Fault Refusal :=
  .next (if canHears s node then canBegin r.txn (serve .can .canPort r) s else s)

/-- A segmented request begins with its header and first 56 data bytes. -/
def openTransfer (r : Request) (len : Nat) (s : State) : State :=
  if len ≤ 56 then serve .can .canPort { r with data := slice r.data 0 len } s
  else { s with can := { s.can with open_ := some { req := { r with data := slice r.data 0 56 }, total := len, next := 1 } } }

/-- FIRST_FRAME (R391). -/
def execFirstFrame (node : BitVec 7) (r : Request) (len : Nat) (s : State) : Host.Outcome State Fault Refusal :=
  .next (if canHears s node then canBegin r.txn (openTransfer r len) s else s)

/-- The acknowledgement of a request's frames: the last one received in order (R391). -/
def canAck (txn : BitVec 5) (n : Nat) (s : State) : State := canEmit 6 (leBytes 1 (96 + txn.toNat) ++ leBytes 1 (canSeq n)) s

/-- A consecutive frame of the open request: in order its data is taken; the last of a block is acknowledged, in order or
not; the whole request is served. -/
def takePart (t : Transfer) (seq : BitVec 8) (data : Bytes) (s : State) : State :=
  let n := t.next
  let stop := canBlockEnd (n - 1) (canCount t.total)
  if seq.toNat = canSeq n then
    let d := t.req.data ++ data.take (min 62 (t.total - t.req.data.length))
    let q := { t.req with data := d }
    if n = canCount t.total then
      serve .can .canPort { q with data := slice d 0 t.total }
        (canAck q.txn n { s with can := { s.can with open_ := none } })
    else
      let s1 := { s with can := { s.can with open_ := some { t with req := q, next := n + 1 } } }
      if n = stop then canAck q.txn n s1 else s1
  else if seq.toNat = canSeq stop then canAck t.req.txn (n - 1) s
  else s

/-- CONSECUTIVE_FRAME (R391). -/
def execConsecutiveFrame (node : BitVec 7) (txn : BitVec 5) (seq : BitVec 8) (data : Bytes) (s : State) :
    Host.Outcome State Fault Refusal :=
  .next (match s.can.open_ with
    | some t => if canHears s node && t.req.txn = txn then takePart t seq data s else s
    | none => s)

/-- The frame of the current block, or the one before it, that an acknowledgement names. -/
def ackedFrame (n total : Nat) (seq : Nat) : Option Nat :=
  ((List.range (canBlockEnd n total + 1 - n)).map fun i => n + i).find? fun k => canSeq k == seq

/-- An acknowledgement of a response: after the last frame it is complete; otherwise the sender goes on after the frame
named. -/
def takeCanAck (r : Response) (n : Nat) (seq : BitVec 8) (s : State) : State :=
  let total := canCount r.data.length
  match ackedFrame n total seq.toNat with
  | none => s
  | some k =>
    if k = total then { s with can := { s.can with last := some r, sending := none } }
    else canBlock r k { s with can := { s.can with sending := some (r, k) } }

/-- ACKNOWLEDGEMENT_FRAME (R391). -/
def execAckFrame (node : BitVec 7) (txn : BitVec 5) (seq : BitVec 8) (s : State) : Host.Outcome State Fault Refusal :=
  .next (match s.can.sending with
    | some x => if canHears s node && x.1.txn = txn then takeCanAck x.1 x.2 seq s else s
    | none => s)

/-- ABORT (R392): the open transfer of its transaction ends. -/
def execAbort (node : BitVec 7) (txn : BitVec 5) (_status : BitVec 8) (s : State) : Host.Outcome State Fault Refusal :=
  .next (if canHears s node && canTxn s = some txn then canEnd 0xF s else s)

/-- CAN_TRANSFER_TIMEOUT (R392): more than 100 ms without a frame in an open transfer. -/
def execCanTimeout (s : State) : Host.Outcome State Fault Refusal :=
  .next (if s.can.open_.isSome || s.can.sending.isSome then canEnd 0xC s else s)

/-! ## Heartbeat and bus state -/

/-- The heartbeat's 8 bytes (R393). -/
def heartbeatBytes (s : State) : Bytes :=
  leBytes 1 (flag (codeRunning s) + 2 * flag (jobOn s) + 4 * objGet s 0x6000 0x10 + 8 * objGet s 0x6000 0x1A)
    ++ leBytes 1 (stopState s) ++ leBytes 2 (objGet s 0x4200 1) ++ leBytes 1 (objGet s 0x2200 2) ++ zeros 3

/-- HEARTBEAT (R393): a period of 0 turns it off. -/
def execHeartbeat (s : State) : Host.Outcome State Fault Refusal :=
  .next (if objGet s 0x9000 6 = 0 then s else canEmit 0xD (heartbeatBytes s) s)

/-- BUS_OFF (R394): counted; the port recovers by itself. -/
def execBusOff (s : State) : Host.Outcome State Fault Refusal := .next (objSet 0x9000 7 2 (bump 0x9000 8 1 s))

/-- CAN_WIRING_FAULT (R394): present, state 3; a retry that finds it gone, error active again. -/
def execCanWiring (present : Bool) (s : State) : Host.Outcome State Fault Refusal :=
  .next (if present then objSet 0x9000 7 3 s else if objGet s 0x9000 7 = 3 then objSet 0x9000 7 0 s else s)

/-! ## Management Ethernet (R395) -/

/-- A datagram: untagged at public privilege; a tagged one only with the right tag and a greater counter. -/
def takeDatagram (counter : Nat) (raw : Bytes) (r : Request) (tag : Option Bytes) (s : State) : State :=
  if !pathOpen s .mgmt then s
  else match tag with
    | none => serve .mgmt (.datagram counter false) r s
    | some t =>
      let ok := objGet s 0x9001 9 == 1 && t == hmacSha256 (octGet s 0x9001 8) raw
      if ok && objGet s 0x9001 0xA < counter then
        serve .mgmtTagged (.datagram counter true) r (objSet 0x9001 0xA counter s)
      else bump 0x9001 0xB 1 s

/-- MANAGEMENT_DATAGRAM (R395). -/
def execMgmtDatagram (counter : BitVec 64) (raw : Bytes) (r : Request) (tag : Option Bytes) (s : State) :
    Host.Outcome State Fault Refusal :=
  .next (takeDatagram counter.toNat raw r tag s)

end Sys2Proof.Machine
end

