-- ==== Sys2Proof/Machine/Pcie.lean ====
section
/-! DEFINITION. The PCI Express port: BAR0 (R401, R402), recovery (R404), function resets (R400), BAR2 (R407, R408), MSI-X
(R409), the DOE mailbox (R410). -/

namespace Sys2Proof.Machine

/-! ## MSI-X (R409) -/

/-- A vector is unmasked: a pending interrupt is delivered once. -/
def unmask (v : Nat) (s : State) : State :=
  let s1 := { s with masked := s.masked &&& ~~~(1#32 <<< v) }
  if s1.pendVec.getLsbD v then emit (.interrupt v) { s1 with pendVec := s1.pendVec &&& ~~~(1#32 <<< v) } else s1

/-- A vector is masked. -/
def maskVector (v : Nat) (s : State) : State := { s with masked := s.masked ||| (1#32 <<< v) }

/-- MSIX_UNMASK (R409). -/
def execMsixUnmask (vector : Fin 32) (s : State) : Host.Outcome State Fault Refusal :=
  .next (if pcieUp s then unmask vector.val s else s)

/-- Bytes written to the MSI-X table at 0x10000: mask bits are bit 0 of byte 12 of each entry. -/
def msixWrite (o : Nat) (b : Bytes) (s : State) : State :=
  (List.range 32).foldl (fun s v =>
    let at_ := 0x1000C + 16 * v
    if at_ < o || o + b.length ≤ at_ then s
    else if leAt b (at_ - o) 1 % 2 = 1 then maskVector v s else unmask v s) (portPut o b s)

/-! ## The recovery path (R404) -/

/-- Where the linear image space of the recovery path lies in the model's port memory. -/
def imageBase : Nat := 0x10000000

/-- Whether the recovery window is open. -/
def recovering (s : State) : Bool := startState s == 3

/-- The recovery aperture select. -/
def apertureSelect (s : State) : Nat := leNat (portGet s 0x30 4)

/-- A recovery command: the boot ROM checks the image (R357). A refused one leaves the window open; an accepted one starts
from S4. -/
def recover (seq : Nat) (s : State) : State :=
  if !pcieUp s || !recovering s || seq = leNat (portGet s 0x3C 4) then s
  else
    let s1 := portPut 0x38 (leBytes 4 seq) s
    let image := portGet s1 imageBase (leNat (portGet s1 0x34 4))
    let c := imageFault s1 image
    let s2 := raiseVector 5 (portPut 0x3C (leBytes 4 seq) (portPut 0x40 (leBytes 4 c) s1))
    if c ≠ 0 then s2
    else
      let s3 := objSet 0x2200 2 4 (objSet 0x2200 1 0 (setOutcome 3 2 (takeImage image s2)))
      { s3 with start := { s3.start with copy := some image } }

/-- RECOVERY_COMMAND (R404). -/
def execRecoveryCommand (seq : BitVec 32) (s : State) : Host.Outcome State Fault Refusal := .next (recover seq.toNat s)

/-! ## BAR0 (R401, R402) -/

/-- A register write dropped. -/
def dropReg (s : State) : State := bump 0x8000 0xA 1 s

/-- A write to an object that a register mirrors (R402). -/
def mirror (i j : Nat) (b : Bytes) (s : State) : State := serve .pcie .nowhere (request 2 i j b) s

/-- A 4-byte write to the register block. -/
def regWrite (o : Nat) (b : Bytes) (s : State) : State :=
  if o = 0x1C then mirror 0x5000 9 b s
  else if o = 0x20 then mirror 0x5100 6 b s
  else if o = 0x30 && recovering s && leNat b ≤ 11 then portPut o b s
  else if o = 0x34 && recovering s then portPut o b s
  else if o = 0x38 && recovering s then recover (leNat b) (portPut o b s)
  else if 0x100 ≤ o && o < 0x120 then portPut o (if o % 8 = 0 then b else leBytes 4 (leNat b % 2)) s
  else dropReg s

/-- A write to the register block: 4 or 8 bytes, naturally aligned. -/
def regAccess (o : Nat) (b : Bytes) (s : State) : State :=
  if b.length = 4 && o % 4 = 0 then regWrite o b s
  else if b.length = 8 && o % 8 = 0 then regWrite (o + 4) (b.drop 4) (regWrite o (b.take 4) s)
  else dropReg s

/-- A write to the load command block (R405). -/
def blockWrite (o : Nat) (b : Bytes) (s : State) : State :=
  let s1 := portPut o b s
  if o ≤ loadBlock && loadBlock < o + b.length then loadCommand (BitVec.ofNat 32 (loadField s1 0 4)) s1 else s1

/-- The request in a slot. -/
def slotRequest (s : State) (k : Nat) : Request :=
  let o := slotBase k + 0x40
  requestOf (portGet s o (8 + leNat (portGet s (o + 6) 2)))

/-- A write to a request slot (R397): a request sequence that differs from the response sequence is a request. -/
def slotWrite (k o : Nat) (b : Bytes) (s : State) : State :=
  let s1 := portPut o b s
  let base := slotBase k
  if o ≤ base && base < o + b.length && portGet s1 base 4 != portGet s1 (base + 4) 4 then
    serve .pcie (.slot k) (slotRequest s1 k) s1
  else s1

/-- Where in port memory a write to a ring, a sample buffer or the graph ring's range goes; in the recovery path the
graph ring's range is the recovery aperture. `none`: a reserved offset, or the counter pages. -/
def ringPlace (s : State) (o : Nat) : Option Nat :=
  if 0x100000 ≤ o && o < 0x140000 || 0x180000 ≤ o && o < 0x200000 || 0x400000 ≤ o && o < 0xC00000 then some o
  else if 0x2000000 ≤ o && o < 0x4000000 then
    some (if recovering s then imageBase + 0x2000000 * apertureSelect s + (o - 0x2000000) else o)
  else none

/-- A write to BAR0. -/
def bar0Write (o : Nat) (b : Bytes) (s : State) : State :=
  if !pcieUp s || b = [] then s
  else if o < 0x10000 then regAccess o b s
  else if o < 0x10200 then msixWrite o b s
  else if loadBlock ≤ o && o < loadBlock + 0x1000 then blockWrite o b s
  else if 0xC00000 ≤ o && o < 0xD00000 then slotWrite ((o - 0xC00000) / 0x40000) o b s
  else match ringPlace s o with
    | some a => portPut a b s
    | none => s

/-- WRITE (R378): an entry over a path, or bytes of BAR0. -/
def execWrite (w : WriteTarget) (s : State) : Host.Outcome State Fault Refusal :=
  .next (match w with
    | .entry path index sub data => writeOn path index.toNat sub.toNat data s
    | .bar0 offset data => bar0Write offset data s)

/-- PORT_MEMORY_READ_ERROR (R401): the completion is poisoned, fault 0x8001. -/
def execPortMemError (offset : Nat) (s : State) : Host.Outcome State Fault Refusal :=
  .next (if pcieUp s then
      emit (.completion (portGet s offset 8) true) (raiseFault 0x8001 (unitSite 4 0 0 (offset % 2 ^ 18)) s)
    else s)

/-! ## Resets of the function (R400) -/

/-- PERST_DEASSERT (R400): training starts once the port's power is up too. -/
def execPerstDeassert (s : State) : Host.Outcome State Fault Refusal :=
  .next (if s.power.perst then s
    else
      let s1 := { s with power := { s.power with perst := true } }
      if pcieUp s1 then pcieTrain s1 else s1)

/-- A reset of the PCIe function: MSI-X masked, pending interrupts gone, load command and slots abandoned. -/
def resetFunction (kind : PcieReset) (s : State) : State :=
  let s1 := bump 0x8000 0xD 1 { s with
    masked := 0xFFFFFFFF, pendVec := 0, loadSeq := none
    stores := s.stores.map fun x => match x.rcpt with | .slot _ => { x with rcpt := .nowhere } | _ => x }
  match kind with
  | .hot | .linkDown => pcieTrain s1
  | .flr | .d3hot => s1

/-- PCIE_FUNCTION_RESET (R400). -/
def execPcieReset (kind : PcieReset) (s : State) : Host.Outcome State Fault Refusal :=
  .next (if pcieUp s then resetFunction kind s else s)

/-- DOE_REQUEST (R410). -/
def execDoeRequest (r : Request) (s : State) : Host.Outcome State Fault Refusal := .next (onPath .doe r s)

/-! ## BAR2 (R407, R408) -/

/-- The entry of BAR2 aperture `k`. -/
def aperture (s : State) (k : Nat) : Nat := leNat (portGet s (0x100 + 8 * k) 8)

/-- The beam row that BAR2 offset `o` maps: its aperture is enabled and names a column, the row exists. -/
def bar2Row (s : State) (o : Nat) : Option Nat :=
  let e := aperture s (o / 2 ^ 28)
  let a := e % 2 ^ 32
  let row := addrRow a + o % 2 ^ 28 / 512
  if 2 ^ 30 ≤ o || !bitOf e 32 || addrSpace a != 1 || 737280 ≤ row then none
  else (addrTile a).map fun t => rowAddr t 1 row

/-- A row read by the debug window, a background access (R99): its data, and whether it is poisoned. A bad row is handled as a scrub read (R111); a
corrected one is counted and written back (R108). -/
def windowRow (a : Nat) (s0 : State) : Bytes × Bool × State :=
  let r := fetchRow s0 a
  let s := serveSlice a (backSlot s0 a) rankBackground (drawn a s0)
  let t := (addrTile a).getD 0
  if r.bad || !proofOk r.frame then
    (List.replicate 512 0xFF, true,
      markRow a (queuePoison t (addrRow a) (raiseFault 0x2009 (tileSite t a 0 0) s)))
  else if r.corrected = 0 then (r.frame.data, false, s)
  else (r.frame.data, false, queueFix a (bump 0x3100 4 1 s))

/-- The rows of a BAR2 read from offset `o`, `n` of them: their bytes, whether any is poisoned. -/
def windowRows : Nat → Nat → State → Bytes × Bool × State
  | 0, _, s => ([], false, s)
  | n + 1, o, s =>
    let x := match bar2Row s o with
      | none => (List.replicate 512 0xFF, false, s)
      | some a => windowRow a s
    let y := windowRows n (o + 512) x.2.2
    (x.1 ++ y.1, x.2.1 || y.2.1, y.2.2)

/-- A BAR2 read: each row whole; in a sealed job the window is closed (R371). -/
def bar2Get (o len : Nat) (s : State) : State :=
  if withholding s then emit (.completion (List.replicate len 0xFF) false) s
  else
    let first := o / 512
    let x := windowRows ((o + len + 511) / 512 - first) (512 * first) s
    emit (.completion (if x.2.1 then List.replicate len 0xFF else slice x.1 (o % 512) len) x.2.1) x.2.2

/-- BAR2_READ (R407, R408). -/
def execBar2Read (offset len : Nat) (s : State) : Host.Outcome State Fault Refusal :=
  .next (if pcieUp s && codeRunning s then bar2Get offset len s else s)

/-- A BAR2 write: one whole aligned row outside a job; any other is dropped and counted. -/
def bar2Put (o : Nat) (b : Bytes) (s : State) : State :=
  match bar2Row s o with
  | some a =>
    if s.job || withholding s || o % 512 ≠ 0 || b.length ≠ 512 then bump 0x8000 0xB 1 s
    else backPut a b s
  | none => bump 0x8000 0xB 1 s

/-- BAR2_WRITE (R407). -/
def execBar2Write (offset : Nat) (data : Bytes) (s : State) : Host.Outcome State Fault Refusal :=
  .next (if pcieUp s && codeRunning s then bar2Put offset data s else s)

end Sys2Proof.Machine
end

