-- ==== Sys2Proof/Machine/Time.lean ====
section
/-! DEFINITION. The pick boundary (R26 to R28) and everything that comes about at it. -/

namespace Sys2Proof.Machine

/-- A function of each tile that has a state of its own. -/
def eachTile (f : Nat → State → State) (s : State) : State := s.tiles.foldl (fun s t => f t.1 s) s

/-! ## The end of a schedule pick -/

/-- Items of landing pick `p` or before that have not landed (R33): each a hold request stamped with its landing pick,
awaited from now on. -/
def missedItems (p : Nat) (s : State) : State :=
  let late := s.hold.expected.filter (·.land ≤ p)
  let s1 := awaitItems (late.map (·.item)) { s with hold := { s.hold with
    expected := s.hold.expected.filter (p < ·.land) } }
  late.foldl (fun s e => bump (0x4100 + e.oidx.toNat) 0xC 1 (linkHold e.oidx.toNat e.land 2 s)) s1

/-- A tile that ends SP `p` in cycle `c` with an operation still waiting for rows that were to be read by then raises a
hold request with reason 0x01, and the release waits for the rows (R33, R37, R43). DEDUCED (log 110): the landing pick of
what a tile awaits is at the latest the pick of the read. -/
def missedRows (p c t : Nat) (s : State) : State :=
  let tile := tileAt s t
  let rows := (tile.pipe.flatMap fun k =>
    (k.reads.filter fun r => r.await && r.val.isNone && decide (r.due < tile.count c)).map (·.addr)).eraseDups
  if rows.isEmpty || s.hold.awaited.contains (.row (rows.headD 0)) then s
  else tileHold t p 1 c (awaitItems (rows.map .row) s)

/-- The elements of every BCHK that a tile has read by the pick's end are judged (R192). -/
def judgeChecks (c t : Nat) (s : State) : State :=
  (List.range (tileAt s t).pipe.length).foldl (fun s _ => judgeCheck t c s) s

/-- Whether a tile has issued in the pick that began in cycle `c0`. -/
def activeIn (c0 : Nat) (t : Tile) : Bool :=
  t.seq.running && !t.seq.waiting || decide (t.count c0 ≤ t.seq.pickStart) && t.seq.begun.isSome

/-- Whether a tile ends a pick of `n` cycles with fewer than 2 margin cycles left, or has not ended it. -/
def thin (n : Nat) (t : Tile) : Bool :=
  t.seq.running && !t.seq.waiting || decide (n < t.cycleOf t.seq.cycle + 1 - t.cycleOf t.seq.pickStart + 2)

/-- Cycles of the pick that another region has used: its 128, its stretched periods, those it began late. -/
def Region.used (r : Region) : Nat := 128 + r.stretches + r.lag

/-- Thin margins and stretches of the pick that ends (0x2100:05, 0x2100:06). -/
def judgeMargins (s : State) : State :=
  let n := cyclesNow s
  let busy := s.tiles.filter fun t => activeIn s.cycle0 t.2
  let s1 := if busy.any (fun t => thin n t.2) || s.regions.any (fun r => decide (n < r.2.used + 2)) then bump 0x2100 6 1 s
    else s
  let s2 := objMax 0x2100 5 (((s.tiles.map (·.2.seq.stretches)) ++ s.regions.map (·.2.stretches)).foldl max 0) s1
  eachTile (fun t s =>
    let tile := tileAt s t
    if tile.seq.stretches = 0 then s else tileSet t { tile with seq := { tile.seq with stretches := 0 } } s) s2

/-- OVERRUN (R32): a tile that has not ended SP `p` raises a hold request stamped `p`. -/
def overrun (p c t : Nat) (s : State) : State :=
  let tile := tileAt s t
  if tile.seq.running && !tile.seq.waiting then countTile t 8 1 c (tileHold t p 3 c s) else s

/-- The regions other than tiles end SP `p` (R32): a selvedge region that has not had its 128 cycles raises a hold request;
a late one begins the next pick late. While the slice is held it catches up. -/
def endRegions (p : Nat) (s : State) : State :=
  let n := cyclesNow s
  let s1 := s.regions.foldl (fun s r => if n < r.2.used && 4 ≤ r.1 then portsHold (r.1 - 4) p s else s) s
  { s1 with regions := s.regions.foldl (fun m r => mset Region.reset m r.1
      { stretches := 0, stretched := r.2.stretched, lag := r.2.used - n }) [] }

/-- SP `p` ends in cycle `c`: what is late is found out, and margins and overruns are judged (R32, R33). -/
def endSp (p c : Nat) (s : State) : State :=
  let s1 := eachTile (missedRows p c) (missingWords p (missedItems p s))
  endRegions p (eachTile (overrun p c) (judgeMargins s1))

/-! ## The beginning of a schedule pick -/

/-- A tile that has not ended the SP before owes the SP that begins (R32). -/
def owePick (t : Nat) (s : State) : State :=
  let tile := tileAt s t
  if tile.seq.running && !tile.seq.waiting then
    tileSet t { tile with seq := { tile.seq with behind := tile.seq.behind + 1 } } s
  else s

/-- A tile at its pick-boundary wait begins the SP (R27). -/
def resumeTile (t : Nat) (s : State) : State :=
  let tile := tileAt s t
  if tile.seq.running && tile.seq.waiting then
    tileSet t { tile with seq := tile.seq.resume (tile.count s.cycle0) } s else s

/-- The groups of tasks whose end SP is `p`. -/
def endingGroups (s : State) (p : Nat) : List Nat :=
  s.treadle.tasks.filterMap fun k => match k.state with
    | .running _ b => if b = p then some k.rec_.group else none
    | _ => none

/-- Arms and closes take effect; every window of an ending task closes (R117). On a tile that has not ended the SP before
they do so when it ends it (R32). -/
def windowsAt (p : Nat) (s : State) : State :=
  let gs := endingGroups s p
  eachTile (fun t s =>
    let q := (tileAt s t).seq
    if q.running && !q.waiting then s else windowBoundary (gs.contains (groupOf s t)) t s.cycle0 s) s

/-- SP `s.sp` begins: windows, pace, words, the tiles, the starts, landing queues, a snapshot. -/
def beginSp (s : State) : State :=
  let p := s.sp
  let s1 := wordsEffect (applyPaces (windowsAt p s))
  snapBoundary (releaseAll (startTasks p (eachTile resumeTile (eachTile owePick s1))))

/-! ## The boundary -/

/-- The next boundary of the pacer, which is counted: the time base has reached it; budgets of a time pick start again
(R221). -/
def nextBoundary (s : State) : State :=
  let b := s.boundary + paceNow s
  countModule 0 1 { s with tick := max s.tick b, boundary := b, net := { s.net with spent := [] } }

/-- The time pick of a job that begins: TP, the cycle of its beginning, the TP-to-SP history of 256 picks (R343). -/
def nextPick (s : State) : State :=
  let c := s.cycle0 + cyclesNow s
  let s1 := nextBoundary s
  { s1 with tp := s.tp + 1, cycle0 := c,
            treadle := { s1.treadle with history := ((s.tp + 1, s1.boundary, s.sp) :: s.treadle.history).take 256 } }

/-- The SP of the newest history entry: the one in force, in a held pick the pending stop pick (R336, R343). -/
def noteSp (s : State) : State :=
  { s with treadle := { s.treadle with history := match s.treadle.history with
    | [] => []
    | h :: r => (h.1, h.2.1, spField s) :: r } }

/-- The result vector, once after an SP in which records were written (R296). -/
def tellResults (s : State) : State :=
  if s.treadle.wrote then raiseVector 2 { s with treadle := { s.treadle with wrote := false } } else s

/-- Regions that are late catch up while the slice is held. -/
def catchUp (s : State) : State :=
  { s with regions := s.regions.foldl (fun m r => mset Region.reset m r.1 { r.2 with stretches := 0, lag := 0 }) [] }

/-- A boundary of a running job: the end of the pick, the hold's decision, the beginning of the next (R28). What has
crossed the mesh by then is with its unit. -/
def jobBoundary (s0 : State) : State :=
  let s := closeLinks (settleAll s0)
  let c := s.cycle0 + cyclesNow s
  let s1 := eachTile (fun t s => judgeChecks c t (flushSends t ((tileAt s t).count c) s)) s
  let s2 := if s1.hold.held then s1 else endSp s1.sp c s1
  let s3 := decideHold (s2.tp + 1) (nextPick s2)
  if s3.hold.held then transmitAll false (catchUp (countModule 2 1 (noteSp s3)))
  else transmitAll true (beginSp (countModule 1 1 (noteSp { s3 with sp := s3.sp + 1 })))

/-- A boundary of a safe stop (R340): the first abandons what is in progress and shows state 1; once the first fault is
known a module other than the lead goes on to state 2. -/
def stoppedBoundary (s : State) : State :=
  let s1 := nextPick (closeLinks s)
  transmitAll false (if stopState s = 0 then stopBoundary s1 else if s.integrity.first.isSome then finishStop s1 else s1)

/-- The pick pacer reaches the next boundary. -/
def pickBoundary (s : State) : State :=
  let s1 := if s.job && s.started && !s.integrity.stopLine then jobBoundary s
    else if s.job && s.integrity.stopLine then stoppedBoundary s
    else transmitAll false (takeEchoes (offerCoords (snapBoundary (nextBoundary (closeLinks (settleAll s))))))
  carrySnaps (tellResults (loadSelectors s1))

/-- PICK_BOUNDARY (R26). -/
def execPickBoundary (s : State) : Host.Outcome State Fault Refusal := .next (pickBoundary s)

end Sys2Proof.Machine
end

