-- ==== Sys2Proof/Machine/Dispatch.lean ====
section
/-! DEFINITION. One arm for each command: the direct call of its meaning. -/

namespace Sys2Proof.Machine

/-- The effect of a command on everything but the queue. -/
def exec (i : Instr) (s : State) : Host.Outcome State Fault Refusal :=
  match i with
  | .pickBoundary => Sys2Proof.Machine.execPickBoundary s
  | .holdRequest r router => Sys2Proof.Machine.execHoldRequest r router s
  | .hold tr w => Sys2Proof.Machine.execHold tr w s
  | .release tr w => Sys2Proof.Machine.execRelease tr w s
  | .sendRelease => Sys2Proof.Machine.execSendRelease s
  | .pace tr w => Sys2Proof.Machine.execPace tr w s
  | .holdLimitExpiry => Sys2Proof.Machine.execHoldLimitExpiry s
  | .clockStretch r c => Sys2Proof.Machine.execClockStretch r c s
  | .replicaHardThreshold site => Sys2Proof.Machine.execReplicaHardThreshold site s
  | .paceFloorWrite path data => Sys2Proof.Machine.execPaceFloorWrite path data s
  | .beamToLatch t c f => Sys2Proof.Machine.execBeamToLatch t c f s
  | .weightBlockReady t c => Sys2Proof.Machine.execWeightBlockReady t c s
  | .beamToBobbin t c f => Sys2Proof.Machine.execBeamToBobbin t c f s
  | .bobbinToBeam t c f => Sys2Proof.Machine.execBobbinToBeam t c f s
  | .bobbinToRegs t c f => Sys2Proof.Machine.execBobbinToRegs t c f s
  | .regsToBobbin t c f => Sys2Proof.Machine.execRegsToBobbin t c f s
  | .beamToRegs t c f => Sys2Proof.Machine.execBeamToRegs t c f s
  | .regsToBeam t c f => Sys2Proof.Machine.execRegsToBeam t c f s
  | .armWindow t c f => Sys2Proof.Machine.execArmWindow t c f s
  | .closeWindow t c f => Sys2Proof.Machine.execCloseWindow t c f s
  | .sendSide t c f => Sys2Proof.Machine.execSendSide t c f s
  | .sendMesh t c f => Sys2Proof.Machine.execSendMesh t c f s
  | .handSelvedge t c f => Sys2Proof.Machine.execHandSelvedge t c f s
  | .publishWord t c f => Sys2Proof.Machine.execPublishWord t c f s
  | .loop t c depth trip => Sys2Proof.Machine.execLoop t c depth trip s
  | .endloop t c depth => Sys2Proof.Machine.execEndloop t c depth s
  | .pickwait t c => Sys2Proof.Machine.execPickwait t c s
  | .select t c flag len => Sys2Proof.Machine.execSelect t c flag len s
  | .endSchedule t c => Sys2Proof.Machine.execEndSchedule t c s
  | .stream t c f => Sys2Proof.Machine.execStream t c f s
  | .contribution t c => Sys2Proof.Machine.execContribution t c s
  | .drain t c f => Sys2Proof.Machine.execDrain t c f s
  | .adown t c f => Sys2Proof.Machine.execAdown t c f s
  | .aup t c f => Sys2Proof.Machine.execAup t c f s
  | .aset t c f => Sys2Proof.Machine.execAset t c f s
  | .setbound t c f => Sys2Proof.Machine.execSetbound t c f s
  | .fadd t c f => Sys2Proof.Machine.execFadd t c f s
  | .fsub t c f => Sys2Proof.Machine.execFsub t c f s
  | .fmul t c f => Sys2Proof.Machine.execFmul t c f s
  | .fma t c f => Sys2Proof.Machine.execFma t c f s
  | .fmax t c f => Sys2Proof.Machine.execFmax t c f s
  | .fmin t c f => Sys2Proof.Machine.execFmin t c f s
  | .iadd t c f => Sys2Proof.Machine.execIadd t c f s
  | .isub t c f => Sys2Proof.Machine.execIsub t c f s
  | .imul t c f => Sys2Proof.Machine.execImul t c f s
  | .imax t c f => Sys2Proof.Machine.execImax t c f s
  | .imin t c f => Sys2Proof.Machine.execImin t c f s
  | .and t c f => Sys2Proof.Machine.execAnd t c f s
  | .or t c f => Sys2Proof.Machine.execOr t c f s
  | .xor t c f => Sys2Proof.Machine.execXor t c f s
  | .andn t c f => Sys2Proof.Machine.execAndn t c f s
  | .shl t c f => Sys2Proof.Machine.execShl t c f s
  | .shr t c f => Sys2Proof.Machine.execShr t c f s
  | .sra t c f => Sys2Proof.Machine.execSra t c f s
  | .cmp t c f => Sys2Proof.Machine.execCmp t c f s
  | .sel t c f => Sys2Proof.Machine.execSel t c f s
  | .setflag t c f => Sys2Proof.Machine.execSetflag t c f s
  | .bchk t c f => Sys2Proof.Machine.execBchk t c f s
  | .exp2 t c f => Sys2Proof.Machine.execExp2 t c f s
  | .log2 t c f => Sys2Proof.Machine.execLog2 t c f s
  | .rcp t c f => Sys2Proof.Machine.execRcp t c f s
  | .rsqrt t c f => Sys2Proof.Machine.execRsqrt t c f s
  | .sigm t c f => Sys2Proof.Machine.execSigm t c f s
  | .rsum t c f => Sys2Proof.Machine.execRsum t c f s
  | .rmax t c f => Sys2Proof.Machine.execRmax t c f s
  | .rmin t c f => Sys2Proof.Machine.execRmin t c f s
  | .rdot t c f => Sys2Proof.Machine.execRdot t c f s
  | .argmax t c f => Sys2Proof.Machine.execArgmax t c f s
  | .topk t c f => Sys2Proof.Machine.execTopk t c f s
  | .cvt t c f => Sys2Proof.Machine.execCvt t c f s
  | .rand t c f => Sys2Proof.Machine.execRand t c f s
  | .gumb t c f => Sys2Proof.Machine.execGumb t c f s
  | .ldr t c f => Sys2Proof.Machine.execLdr t c f s
  | .str t c f => Sys2Proof.Machine.execStr t c f s
  | .gath t c f => Sys2Proof.Machine.execGath t c f s
  | .scat t c f => Sys2Proof.Machine.execScat t c f s
  | .vectorReadable t c => Sys2Proof.Machine.execVectorReadable t c s
  | .shadowSetup t => Sys2Proof.Machine.execShadowSetup t s
  | .laneExchange t c => Sys2Proof.Machine.execLaneExchange t c s
  | .scrubRead t c => Sys2Proof.Machine.execScrubRead t c s
  | .scrubWriteBack t c slice => Sys2Proof.Machine.execScrubWriteBack t c slice s
  | .lateScrubPass t => Sys2Proof.Machine.execLateScrubPass t s
  | .landingWrite t c => Sys2Proof.Machine.execLandingWrite t c s
  | .sideLanding t c from_ window woff row => Sys2Proof.Machine.execSideLanding t c from_ window woff row s
  | .meshEjection t c h row crc => Sys2Proof.Machine.execMeshEjection t c h row crc s
  | .classBInjection die => Sys2Proof.Machine.execClassBInjection die s
  | .digestRowWrite t c entry => Sys2Proof.Machine.execDigestRowWrite t c entry s
  | .bridgePortFailure pair port => Sys2Proof.Machine.execBridgePortFailure pair port s
  | .controlBlock link b => Sys2Proof.Machine.execControlBlock link b s
  | .scheduledRow link f chk => Sys2Proof.Machine.execScheduledRow link f chk s
  | .scheduledRetrans link f chk => Sys2Proof.Machine.execScheduledRetrans link f chk s
  | .backgroundWrite link f chk ref => Sys2Proof.Machine.execBackgroundWrite link f chk ref s
  | .backgroundAck p => Sys2Proof.Machine.execBackgroundAck p s
  | .backgroundRetry ref => Sys2Proof.Machine.execBackgroundRetry ref s
  | .retryRequest link seq => Sys2Proof.Machine.execRetryRequest link seq s
  | .retransmission link => Sys2Proof.Machine.execRetransmission link s
  | .selvedgeLateRow link row => Sys2Proof.Machine.execSelvedgeLateRow link row s
  | .idle link retry payload pick => Sys2Proof.Machine.execIdle link retry payload pick s
  | .timeDelayRequest link t0 turnaround => Sys2Proof.Machine.execTimeDelayRequest link t0 turnaround s
  | .timeDelayEcho link t0 turnaround => Sys2Proof.Machine.execTimeDelayEcho link t0 turnaround s
  | .timeHandshake link echo turnaround reserved value => Sys2Proof.Machine.execTimeHandshake link echo turnaround reserved value s
  | .fault link code origin stamp => Sys2Proof.Machine.execFault link code origin stamp s
  | .coord link peer peerLink dir rank stepping => Sys2Proof.Machine.execCoord link peer peerLink dir rank stepping s
  | .linkTraining link lanes => Sys2Proof.Machine.execLinkTraining link lanes s
  | .trainingTimeout link step lane => Sys2Proof.Machine.execTrainingTimeout link step lane s
  | .blockLockLoss link lane => Sys2Proof.Machine.execBlockLockLoss link lane s
  | .coordsWrite path data => Sys2Proof.Machine.execCoordsWrite path data s
  | .startTickWrite path data => Sys2Proof.Machine.execStartTickWrite path data s
  | .startTick => Sys2Proof.Machine.execStartTick s
  | .timeRootTimeout => Sys2Proof.Machine.execTimeRootTimeout s
  | .alignmentTick badTile => Sys2Proof.Machine.execAlignmentTick badTile s
  | .admissionScan => Sys2Proof.Machine.execAdmissionScan s
  | .admissionLate => Sys2Proof.Machine.execAdmissionLate s
  | .recordsMissing => Sys2Proof.Machine.execRecordsMissing s
  | .graphHeader h graph => Sys2Proof.Machine.execGraphHeader h graph s
  | .taskRecords h recs => Sys2Proof.Machine.execTaskRecords h recs s
  | .scanSummary h graphs recNotices floor => Sys2Proof.Machine.execScanSummary h graphs recNotices floor s
  | .broadcastWord h word value pubModule pubTile => Sys2Proof.Machine.execBroadcastWord h word value pubModule pubTile s
  | .snapshotCommand h effectSp => Sys2Proof.Machine.execSnapshotCommand h effectSp s
  | .resultRecordWrite graphSeq task => Sys2Proof.Machine.execResultRecordWrite graphSeq task s
  | .consumerIndexWrite path data => Sys2Proof.Machine.execConsumerIndexWrite path data s
  | .stagingWrite port p => Sys2Proof.Machine.execStagingWrite port p s
  | .windowWrite port p => Sys2Proof.Machine.execWindowWrite port p s
  | .tracerProducerWrite path data => Sys2Proof.Machine.execTracerProducerWrite path data s
  | .matchCmd entry => Sys2Proof.Machine.execMatchCmd entry s
  | .insertCmd entry => Sys2Proof.Machine.execInsertCmd entry s
  | .pinCmd entry => Sys2Proof.Machine.execPinCmd entry s
  | .unpinCmd entry => Sys2Proof.Machine.execUnpinCmd entry s
  | .evictCmd entry => Sys2Proof.Machine.execEvictCmd entry s
  | .loadRecordWrite path slot data => Sys2Proof.Machine.execLoadRecordWrite path slot data s
  | .loadSlotClose path slot => Sys2Proof.Machine.execLoadSlotClose path slot s
  | .chainEntryWrite path chain data => Sys2Proof.Machine.execChainEntryWrite path chain data s
  | .chain source p => Sys2Proof.Machine.execChain source p s
  | .loadVerification slot => Sys2Proof.Machine.execLoadVerification slot s
  | .plate port p => Sys2Proof.Machine.execPlate port p s
  | .safeStop code site => Sys2Proof.Machine.execSafeStop code site s
  | .faultRecord die => Sys2Proof.Machine.execFaultRecord die s
  | .withdrawResults => Sys2Proof.Machine.execWithdrawResults s
  | .invalidationRepeat => Sys2Proof.Machine.execInvalidationRepeat s
  | .endStoppedJob path data => Sys2Proof.Machine.execEndStoppedJob path data s
  | .selfTestFailure what => Sys2Proof.Machine.execSelfTestFailure what s
  | .mgmtWatchdog => Sys2Proof.Machine.execMgmtWatchdog s
  | .recoveryCommand seq => Sys2Proof.Machine.execRecoveryCommand seq s
  | .attestationRequest path nonce => Sys2Proof.Machine.execAttestationRequest path nonce s
  | .offerRequest path nonce mode => Sys2Proof.Machine.execOfferRequest path nonce mode s
  | .accept path xpub kem confirm => Sys2Proof.Machine.execAccept path xpub kem confirm s
  | .keyBundle path seq sealed tag => Sys2Proof.Machine.execKeyBundle path seq sealed tag s
  | .offerTimeout => Sys2Proof.Machine.execOfferTimeout s
  | .clearing => Sys2Proof.Machine.execClearing s
  | .ideKm keys go => Sys2Proof.Machine.execIdeKm keys go s
  | .signedWrite path e => Sys2Proof.Machine.execSignedWrite path e s
  | .write w => Sys2Proof.Machine.execWrite w s
  | .describe path index sub => Sys2Proof.Machine.execDescribe path index sub s
  | .storeComplete => Sys2Proof.Machine.execStoreComplete s
  | .defaultsAtReset path data => Sys2Proof.Machine.execDefaultsAtReset path data s
  | .enableWrite path fn data => Sys2Proof.Machine.execEnableWrite path fn data s
  | .fnStartDone fn => Sys2Proof.Machine.execFnStartDone fn s
  | .fnStartFailed fn => Sys2Proof.Machine.execFnStartFailed fn s
  | .fnLost fn => Sys2Proof.Machine.execFnLost fn s
  | .fnStopDone fn => Sys2Proof.Machine.execFnStopDone fn s
  | .singleFrame node r => Sys2Proof.Machine.execSingleFrame node r s
  | .firstFrame node r len => Sys2Proof.Machine.execFirstFrame node r len s
  | .consecutiveFrame node txn seq data => Sys2Proof.Machine.execConsecutiveFrame node txn seq data s
  | .ackFrame node txn seq => Sys2Proof.Machine.execAckFrame node txn seq s
  | .abort node txn status => Sys2Proof.Machine.execAbort node txn status s
  | .canTimeout => Sys2Proof.Machine.execCanTimeout s
  | .heartbeat => Sys2Proof.Machine.execHeartbeat s
  | .busOff => Sys2Proof.Machine.execBusOff s
  | .canWiring present => Sys2Proof.Machine.execCanWiring present s
  | .mgmtDatagram counter raw r tag => Sys2Proof.Machine.execMgmtDatagram counter raw r tag s
  | .perstDeassert => Sys2Proof.Machine.execPerstDeassert s
  | .pcieReset kind => Sys2Proof.Machine.execPcieReset kind s
  | .loadCommand seq => Sys2Proof.Machine.execLoadCommand seq s
  | .loadDmaComplete dmaOk pattern reloc => Sys2Proof.Machine.execLoadDmaComplete dmaOk pattern reloc s
  | .bar2Read offset len => Sys2Proof.Machine.execBar2Read offset len s
  | .bar2Write offset data => Sys2Proof.Machine.execBar2Write offset data s
  | .msixUnmask vector => Sys2Proof.Machine.execMsixUnmask vector s
  | .doeRequest r => Sys2Proof.Machine.execDoeRequest r s
  | .addressResolution port ipv6 target => Sys2Proof.Machine.execAddressResolution port ipv6 target s
  | .portLinkChange port up => Sys2Proof.Machine.execPortLinkChange port up s
  | .acknowledgement port p => Sys2Proof.Machine.execAcknowledgement port p s
  | .ackSend stream => Sys2Proof.Machine.execAckSend stream s
  | .resultPacketSend dest => Sys2Proof.Machine.execResultPacketSend dest s
  | .resultResend dest => Sys2Proof.Machine.execResultResend dest s
  | .resultDestWrite path dest data => Sys2Proof.Machine.execResultDestWrite path dest data s
  | .countingModesWrite path data => Sys2Proof.Machine.execCountingModesWrite path data s
  | .snapshotRequest path data => Sys2Proof.Machine.execSnapshotRequest path data s
  | .snapshotDone => Sys2Proof.Machine.execSnapshotDone s
  | .selectorWrite path sel data => Sys2Proof.Machine.execSelectorWrite path sel data s
  | .selectorOverflow sel => Sys2Proof.Machine.execSelectorOverflow sel s
  | .sampleRecord t actual => Sys2Proof.Machine.execSampleRecord t actual s
  | .readIndexWrite path die data => Sys2Proof.Machine.execReadIndexWrite path die data s
  | .inputValid => Sys2Proof.Machine.execInputValid s
  | .inputOutOfRange mv => Sys2Proof.Machine.execInputOutOfRange mv s
  | .senseOpen => Sys2Proof.Machine.execSenseOpen s
  | .railFault rail => Sys2Proof.Machine.execRailFault rail s
  | .referenceLoss => Sys2Proof.Machine.execReferenceLoss s
  | .powerWindow watts => Sys2Proof.Machine.execPowerWindow watts s
  | .powerEmergency watts => Sys2Proof.Machine.execPowerEmergency watts s
  | .throttleTemp deci => Sys2Proof.Machine.execThrottleTemp deci s
  | .overtemp deci => Sys2Proof.Machine.execOvertemp deci s
  | .coolantRange inlet flow => Sys2Proof.Machine.execCoolantRange inlet flow s
  | .resetNLow => Sys2Proof.Machine.execResetNLow s
  | .resetRequest path data => Sys2Proof.Machine.execResetRequest path data s
  | .start facts => Sys2Proof.Machine.execStart facts s
  | .startTimeout => Sys2Proof.Machine.execStartTimeout s
  | .autoRestart => Sys2Proof.Machine.execAutoRestart s
  | .transferReadable t c => Sys2Proof.Machine.execTransferReadable t c s
  | .drainRow t c => Sys2Proof.Machine.execDrainRow t c s
  | .streamRead t c => Sys2Proof.Machine.execStreamRead t c s
  | .jobEnd => Sys2Proof.Machine.execJobEnd s
  | .pllLoss die => Sys2Proof.Machine.execPllLoss die s
  | .refStateChange inputB st => Sys2Proof.Machine.execRefStateChange inputB st s
  | .mgmtResetDone => Sys2Proof.Machine.execMgmtResetDone s
  | .coolantSensor flow => Sys2Proof.Machine.execCoolantSensor flow s
  | .portMemError offset => Sys2Proof.Machine.execPortMemError offset s

end Sys2Proof.Machine
end

