-- ==== Sys2Proof/Safety.lean ====
section
/-! DEFINITION. What the claims about the block speak of: the canonical form of its stores, what no command may change,
what faults may change, which commands issue in a tile's slots and what they leave in its pipeline. -/

namespace Sys2Proof.Machine

/-! ## Stores and queue -/

/-- Port memory's canonical form: addresses rising, no entry equal to what an unlisted byte reads as. -/
def portWf : List Host.Cell → Bool
  | [] => true
  | [c] => c.2 != 0
  | c :: d :: r => c.2 != 0 && decide (c.1 < d.1) && portWf (d :: r)

/-- The invariant of every state that a step answers: the row store and port memory are in canonical form, so that equal
stores are equal data; there are a fault unit for each of the four dies, 38 functions, 16 load slots and 8 result
destinations. -/
structure Inv (s : State) : Prop where
  rows  : memWf s.mem = true
  port  : portWf s.pmem = true
  dies  : s.integrity.dies.length = 4
  fns   : s.fns.length = 38
  loads : s.loads.length = 16
  dests : s.ports.dests.length = 8

/-- What a command may not change: the module's grade and stepping, the commands that wait. What the module has driven
out stays driven out, and no number of a free value is used again. -/
structure Unaltered (s t : State) : Prop where
  ident   : t.ident = s.ident
  pending : t.pending = s.pending
  out     : s.out <+: t.out
  free    : s.free ≤ t.free

/-! ## Faults -/

/-- `t` differs from `s` only in what counters, outputs, faults and hold requests may change: object entries, link ports,
the network, the treadle's snapshot, the fault log, the egress gate, counters, pending vectors, outputs, free values. -/
def OnlyAside (s t : State) : Prop :=
  t = { s with
    objs := t.objs, links := t.links, net := t.net, treadle := t.treadle, integrity := t.integrity, ports := t.ports
    counting := t.counting, pendVec := t.pendVec, out := t.out, free := t.free }

/-- `t` differs from `s` only in what counts, packets and control symbols sent may change. -/
def OnlySent (s t : State) : Prop :=
  t = { s with objs := t.objs, links := t.links, net := t.net, counting := t.counting, out := t.out }

/-- A record of fault `code` has been added to those of die `d`, as the newest. -/
def Recorded (s t : State) (d code : Nat) : Prop :=
  ∃ r : FaultRec, t.integrity.dies.getD d [] = s.integrity.dies.getD d [] ++ [r] ∧ r.code = BitVec.ofNat 16 code

/-- The records of die `d` have grown, by one of fault `code` among others that the same command raised. -/
def Raised (s t : State) (d code : Nat) : Prop :=
  ∃ xs : List FaultRec, t.integrity.dies.getD d [] = s.integrity.dies.getD d [] ++ xs ∧
    ∃ r ∈ xs, r.code = BitVec.ofNat 16 code

/-! ## Control words -/

/-- Control traffic of the die that the word enters at may go: its budget is not spent, none waits, and no copy of a
word has reached another die and waits to be taken (R221, R245). -/
def wordClear (s : State) (tr : Travel) : Prop :=
  isSpent s (arrivalDie s tr) 1 = false ∧ (∀ x ∈ s.net.waiting.getD (3 * arrivalDie s tr) [], x.act ≠ 1) ∧
    ∀ o ∈ s.net.arrived, ∀ k w, o ≠ .wordIn k w

/-- In a job, control traffic of the die that the word enters at has spent its budget or waits. -/
def wordWaits (s : State) (tr : Travel) : Prop :=
  s.job = true ∧ (isSpent s (arrivalDie s tr) 1 = true ∨
    ∃ x ∈ s.net.waiting.getD (3 * arrivalDie s tr) [], x.act = 1) ∧ ∀ o ∈ s.net.arrived, ∀ k w, o ≠ .wordIn k w

/-! ## Packets -/

/-- A packet of an activity may enter the mesh of die `d` at once: its activity has not spent its budget and none of it
waits; outside a job nothing waits (R221). -/
def mayGo (s : State) (d act : Nat) : Prop :=
  s.job = false ∨ isSpent s d act = false ∧ ∀ x ∈ s.net.waiting.getD (3 * d + levelOf act) [], x.act ≠ act

/-- A packet of an activity must wait at its injection point in die `d`. -/
def mustWait (s : State) (d act : Nat) : Prop :=
  s.job = true ∧ (isSpent s d act = true ∨ ∃ x ∈ s.net.waiting.getD (3 * d + levelOf act) [], x.act = act)

/-- A packet has joined those waiting at its injection point in die `d`, as the last of its level; nothing else has
changed but what counts and links show. -/
def Waits (s t : State) (d act n : Nat) (items : List Output) : Prop :=
  OnlySent s t ∧ t.net = { s.net with
    waiting := s.net.waiting.set (3 * d + levelOf act) (s.net.waiting.getD (3 * d + levelOf act) [] ++
      [{ act := act, flits := n, items := items }]) }

/-- A tile once a row has arrived at an input of it: a row for a window open on beam rows joins the column landing port,
any other the queue of its input; where that is full, or a row before it waits, it stays with its sender (R90, R91,
R101). -/
def entered (tile : Tile) (inp : LandIn) (r : LandRow) : Tile :=
  let w := windowAt tile r.hdr.window
  let i := landIndex inp
  let q := tile.queue.getD i []
  if w.opened = true ∧ addrSpace w.first = 1 then { tile with column := tile.column ++ [r] }
  else if q.length < 4 ∧ tile.kept.getD i [] = [] then { tile with queue := tile.queue.set i (q ++ [r]) }
  else { tile with kept := tile.kept.set i (tile.kept.getD i [] ++ [r]) }

/-! ## Frames of tile commands -/

/-- The part of a tile that the timing of a command leaves alone: no cycle numbers, no claims, no write-back queue; of an
operation in flight what it is, how far it has come, which rows it reads. -/
structure Steady where
  works : List (Work × Nat × List Nat)
  running : Bool
  waiting : Bool
  sched : Nat
  bundle : Nat
  loops : List LoopFrame
  arm : Option (Nat × Nat)
  pickStart : Nat
  stretches : Nat
  stretched : Option Nat
  behind : Nat
  next : Option Nat
  begun : Option Nat
  base : List RowAddr
  params : Bytes
  shBase : List RowAddr
  shParams : Bytes
  shSeed : BitVec 128
  latch0 : Latch
  latch1 : Latch
  active1 : Bool
  accs : SMap AccRow
  bounds : List Int
  descs : List Descriptor
  flags : BitVec 32
  lanes : SMap Lane
  shLanes : SMap Lane
  shReady : Bool
  exchange : Bool
  drawWait : Option Nat
  laneErrs : List Nat
  draws : Nat
  windows : SMap Window
  acts : List WinAct
  queue : List (List LandRow)
  kept : List (List LandRow)
  column : List LandRow
  sinking : List (Nat × Nat × RowFrame)
  writes : List (Nat × Nat × RowFrame)
  digests : List Digest
  scrubRow : Nat
  scrubAt : Nat
  scrubLate : Bool
  corrected : SMap Nat

/-- That part of a tile. -/
def steady (t : Tile) : Steady where
  works := t.pipe.map fun p => (p.work, p.done, p.reads.map (·.addr))
  running := t.seq.running
  waiting := t.seq.waiting
  sched := t.seq.sched
  bundle := t.seq.bundle
  loops := t.seq.loops
  arm := t.seq.arm
  pickStart := t.seq.pickStart
  stretches := t.seq.stretches
  stretched := t.seq.stretched
  behind := t.seq.behind
  next := t.seq.next
  begun := t.seq.begun
  base := t.base
  params := t.params
  shBase := t.shBase
  shParams := t.shParams
  shSeed := t.shSeed
  latch0 := t.latch0
  latch1 := t.latch1
  active1 := t.active1
  accs := t.accs
  bounds := t.bounds
  descs := t.descs
  flags := t.flags
  lanes := t.lanes
  shLanes := t.shLanes
  shReady := t.shReady
  exchange := t.exchange
  drawWait := t.drawWait
  laneErrs := t.laneErrs
  draws := t.draws
  windows := t.windows
  acts := t.acts
  queue := t.queue
  kept := t.kept
  column := t.column
  sinking := t.sinking
  writes := t.writes
  digests := t.digests
  scrubRow := t.scrubRow
  scrubAt := t.scrubAt
  scrubLate := t.scrubLate
  corrected := t.corrected

/-- `t` differs from `s` only in tiles, rows with their stored bits, and in what faults and counters may change. -/
def OnlyTiles (s t : State) : Prop :=
  t = { s with
    tiles := t.tiles, mem := t.mem, upsets := t.upsets, poison := t.poison, landed := t.landed, objs := t.objs
    links := t.links, net := t.net, treadle := t.treadle, integrity := t.integrity, ports := t.ports
    counting := t.counting, pendVec := t.pendVec, out := t.out, free := t.free }

/-- The schedule pick nearest to `ref` whose low 16 bits are `low`. -/
def nearestSp (ref low : Nat) : Nat :=
  let sp := ref / 2 ^ 16 * 2 ^ 16 + low
  if sp + 2 ^ 15 ≤ ref then sp + 2 ^ 16 else if ref + 2 ^ 15 ≤ sp then sp - 2 ^ 16 else sp

/-! ## Slots of a tile -/

/-- The state and the tile as a slot command of cycle `c` finds them: rows readable by then are stored, and the sequencer
stands at cycle `c`. -/
def found (t c : Nat) (s : State) : State × Tile :=
  let u := settle t ((tileAt s t).count c) s
  (u, ((tileAt u t).issueAt u t c).1)

/-- What a slot command of tile `t` in cycle `c` leaves alone: everything but tiles, rows and what faults and counters
may change; of the other tiles all but cycle numbers, claims and write-backs; every row but those readable by then. -/
def SlotFrame (s s' : State) (t c : Nat) : Prop :=
  OnlyTiles s s' ∧ (∀ u, u ≠ t → steady (tileAt s' u) = steady (tileAt s u)) ∧
    ∀ a, rowGet s' a = rowGet (found t c s).1 a

/-- The command has joined the operations in flight of tile `t` as the last, with the rows it reads, nothing delivered;
the tile is otherwise as the command found it, but for timing. -/
def Joined (s s' : State) (t c : Nat) (w : Work) (rows : List Nat) : Prop :=
  steady (tileAt s' t) =
    { steady (found t c s).2 with works := (steady (found t c s).2).works ++ [(w, 0, rows)] } ∧ SlotFrame s s' t c

/-- The V-slot operation of a command whose result comes with VECTOR_READABLE; BCHK, which has none, is left out. -/
def vectorSlot (i : Instr) : Option (TileIx × Nat × VSlot) :=
  match i with
  | .fadd t c f => some (t, c, .e .fadd f)
  | .fsub t c f => some (t, c, .e .fsub f)
  | .fmul t c f => some (t, c, .e .fmul f)
  | .fma t c f => some (t, c, .e .fma f)
  | .fmax t c f => some (t, c, .e .fmax f)
  | .fmin t c f => some (t, c, .e .fmin f)
  | .iadd t c f => some (t, c, .e .iadd f)
  | .isub t c f => some (t, c, .e .isub f)
  | .imul t c f => some (t, c, .e .imul f)
  | .imax t c f => some (t, c, .e .imax f)
  | .imin t c f => some (t, c, .e .imin f)
  | .and t c f => some (t, c, .e .and f)
  | .or t c f => some (t, c, .e .or f)
  | .xor t c f => some (t, c, .e .xor f)
  | .andn t c f => some (t, c, .e .andn f)
  | .shl t c f => some (t, c, .e .shl f)
  | .shr t c f => some (t, c, .e .shr f)
  | .sra t c f => some (t, c, .e .sra f)
  | .cmp t c f => some (t, c, .e .cmp f)
  | .sel t c f => some (t, c, .e .sel f)
  | .setflag t c f => some (t, c, .e .setflag f)
  | .exp2 t c f => some (t, c, .e .exp2 f)
  | .log2 t c f => some (t, c, .e .log2 f)
  | .rcp t c f => some (t, c, .e .rcp f)
  | .rsqrt t c f => some (t, c, .e .rsqrt f)
  | .sigm t c f => some (t, c, .e .sigm f)
  | .rsum t c f => some (t, c, .e .rsum f)
  | .rmax t c f => some (t, c, .e .rmax f)
  | .rmin t c f => some (t, c, .e .rmin f)
  | .rdot t c f => some (t, c, .e .rdot f)
  | .argmax t c f => some (t, c, .e .argmax f)
  | .topk t c f => some (t, c, .e .topk f)
  | .rand t c f => some (t, c, .e .rand f)
  | .gumb t c f => some (t, c, .e .gumb f)
  | .cvt t c f => some (t, c, .cvt f)
  | .ldr t c f => some (t, c, .ldr f)
  | .str t c f => some (t, c, .str f)
  | .gath t c f => some (t, c, .gath f)
  | .scat t c f => some (t, c, .scat f)
  | _ => none

/-- The row transfer of a command. -/
def moveSlot (i : Instr) : Option (TileIx × Nat × TOp × TSlot) :=
  match i with
  | .beamToBobbin t c f => some (t, c, .beamBobbin, f)
  | .bobbinToBeam t c f => some (t, c, .bobbinBeam, f)
  | .bobbinToRegs t c f => some (t, c, .bobbinReg, f)
  | .regsToBobbin t c f => some (t, c, .regBobbin, f)
  | .beamToRegs t c f => some (t, c, .beamReg, f)
  | .regsToBeam t c f => some (t, c, .regBeam, f)
  | _ => none

/-- The tile and cycle of a command that a tile carries out only while the module issues. -/
def tileCommand (i : Instr) : Option (TileIx × Nat) :=
  match i with
  | .loop t c _ _ => some (t, c)
  | .endloop t c _ => some (t, c)
  | .pickwait t c => some (t, c)
  | .select t c _ _ => some (t, c)
  | .endSchedule t c => some (t, c)
  | .stream t c _ => some (t, c)
  | .contribution t c => some (t, c)
  | .drain t c _ => some (t, c)
  | .adown t c _ => some (t, c)
  | .aup t c _ => some (t, c)
  | .aset t c _ => some (t, c)
  | .setbound t c _ => some (t, c)
  | .beamToLatch t c _ => some (t, c)
  | .weightBlockReady t c => some (t, c)
  | .armWindow t c _ => some (t, c)
  | .closeWindow t c _ => some (t, c)
  | .sendSide t c _ => some (t, c)
  | .sendMesh t c _ => some (t, c)
  | .handSelvedge t c _ => some (t, c)
  | .publishWord t c _ => some (t, c)
  | .bchk t c _ => some (t, c)
  | .vectorReadable t c => some (t, c)
  | .transferReadable t c => some (t, c)
  | .drainRow t c => some (t, c)
  | .streamRead t c => some (t, c)
  | .landingWrite t c => some (t, c)
  | .sideLanding t c _ _ _ _ => some (t, c)
  | .meshEjection t c _ _ _ => some (t, c)
  | .digestRowWrite t c _ => some (t, c)
  | i => match vectorSlot i, moveSlot i with
    | some (t, c, _), _ => some (t, c)
    | none, some (t, c, _, _) => some (t, c)
    | none, none => none

/-- The tile and cycle of a command that is a slot of the bundle of its cycle. -/
def slotCommand (i : Instr) : Option (TileIx × Nat) :=
  match i with
  | .loop t c _ _ => some (t, c)
  | .endloop t c _ => some (t, c)
  | .pickwait t c => some (t, c)
  | .select t c _ _ => some (t, c)
  | .endSchedule t c => some (t, c)
  | .stream t c _ => some (t, c)
  | .drain t c _ => some (t, c)
  | .adown t c _ => some (t, c)
  | .aup t c _ => some (t, c)
  | .aset t c _ => some (t, c)
  | .setbound t c _ => some (t, c)
  | .beamToLatch t c _ => some (t, c)
  | .armWindow t c _ => some (t, c)
  | .closeWindow t c _ => some (t, c)
  | .sendSide t c _ => some (t, c)
  | .sendMesh t c _ => some (t, c)
  | .handSelvedge t c _ => some (t, c)
  | .publishWord t c _ => some (t, c)
  | .bchk t c _ => some (t, c)
  | i => match vectorSlot i, moveSlot i with
    | some (t, c, _), _ => some (t, c)
    | none, some (t, c, _, _) => some (t, c)
    | none, none => none

/-! ## Object writes -/

/-- The write that a command makes: path, index, subindex, data. -/
def objectWrite (i : Instr) : Option (Path × Nat × Nat × Bytes) :=
  match i with
  | .paceFloorWrite p v => some (p, 0x4300, 3, v)
  | .coordsWrite p v => some (p, 0x4200, 1, v)
  | .startTickWrite p v => some (p, 0x4200, 0x13, v)
  | .consumerIndexWrite p v => some (p, 0x5000, 9, v)
  | .tracerProducerWrite p v => some (p, 0x5100, 6, v)
  | .loadRecordWrite p k v => some (p, 0x5200, 0x10 + k.val, v)
  | .loadSlotClose p k => some (p, 0x5200, 0x10 + k.val, zeros 128)
  | .chainEntryWrite p k v => some (p, 0x5200, 8 + k.val, v)
  | .endStoppedJob p v => some (p, 0x6000, 8, v)
  | .defaultsAtReset p v => some (p, 0x1002, 5, v)
  | .enableWrite p fn v =>
    some (if fn.val < 36 then (p, 0x4100 + fn.val, 0xE, v) else if fn.val = 36 then (p, 0x6000, 0x17, v)
      else (p, 0x9001, 1, v))
  | .resultDestWrite p d v => some (p, 0x8102, 1 + d.val, v)
  | .countingModesWrite p v => some (p, 0x7000, 2, v)
  | .snapshotRequest p v => some (p, 0x7000, 3, v)
  | .selectorWrite p k v => some (p, 0x7000, 0x10 + k.val, v)
  | .readIndexWrite p d v => some (p, 0x7100, 6 + d.val, v)
  | .resetRequest p v => some (p, 0x2200, 7, v)
  | .write (.entry p i j v) => some (p, i.toNat, j.toNat, v)
  | _ => none

/-- The response of the object service to a request of an opcode on a path. -/
def answerOf (opcode ix j status : Nat) (data : Bytes) : Response where
  txn    := 0
  opcode := BitVec.ofNat 8 (opcode + 0x80)
  index  := BitVec.ofNat 16 ix
  sub    := BitVec.ofNat 8 j
  status := BitVec.ofNat 8 status
  data   := data

/-- A request was turned away with a status: the response leaves on its path, the counts of requests and of refusals
advance, the last refusal is kept, and nothing else changes. -/
def TurnedAway (s s' : State) (p : Path) (opcode ix j status : Nat) : Prop :=
  s' = { s with objs := s'.objs, out := s.out ++ [.response p (answerOf opcode ix j status [])] } ∧
  objGet s' 0x1002 1 = objGet s 0x1002 1 + 1 ∧ objGet s' 0x1002 2 = objGet s 0x1002 2 + 1 ∧
  objGet s' 0x1002 3 = 65536 * ix + 256 * j + status

end Sys2Proof.Machine
end

