-- ==== Sys2Proof/Certificates/Slice0/Obligations.lean ====
section
/-! DEFINITION. The statements for the provers, from the manual's numbered rules. -/

open Sys2Proof Sys2Proof.Machine

/-- For every command and state, a step of a state with that command at the front of its queue is the command carried
out on the state with the rest of the queue. With no command waiting, a step advances the time counter by one tick
and changes nothing else: this is the choice of the model (assumption 1), since the command table has no row for a
tick. -/
def Obligations.StepRunsFrontCommand : Prop :=
  (∀ (c : Instr) (q : List Instr) (s : State), s.pending = c :: q → step s = exec c { s with pending := q }) ∧
  (∀ s : State, s.pending = [] → step s = .next { s with tick := s.tick + 1 })

/-- Right after reset every numeric object entry and every byte-string entry holds its default, every row reads as a row
of zeros with the proof word of zeros, every port memory byte reads 0, every landed bit is set, no job runs, the
pick counts are 0, the module is in start state 0 and no command waits. That an unwritten row reads as zeros before
step S7 is the choice of the model (assumption 3). -/
def Obligations.ResetLeavesDefaults : Prop :=
  (∀ i j, objGet State.reset i j = objDefault State.reset.ident i j) ∧
  (∀ i j, octGet State.reset i j = octDefault i j) ∧
  (∀ a, rowGet State.reset a = { data := zeros 512, tag := 0, proof := 0x30FCEDC0 }) ∧
  (∀ a, portByte State.reset a = 0) ∧
  (∀ a, isLanded State.reset a = true) ∧
  (∀ t, tileAt State.reset t = Tile.reset) ∧
  State.reset.job = false ∧ State.reset.tp = 0 ∧ State.reset.sp = 0 ∧ startState State.reset = 0 ∧
  State.reset.pending = []

/-- The row store and port memory of the state right after reset are in canonical form, and every unit of the module is
there: four fault units, 38 functions, 16 load slots, 8 result destinations. -/
def Obligations.ResetMeetsInvariant : Prop :=
  Inv State.reset

/-- From every state whose row store and port memory are in canonical form and which has its four fault units, 38
functions, 16 load slots and 8 result destinations, whatever command is at the front of the queue, a step that
answers a next state answers one of which the same holds. -/
def Obligations.EveryStepKeepsTheInvariant : Prop :=
  ∀ s t : State, Inv s → step s = .next t → Inv t

/-- Whatever command is carried out in whatever state, it answers a next state: the waiting commands, the grade and the
stepping are as before, everything driven out before is still there, and no number of a free value is used again. -/
def Obligations.EveryCommandKeepsQueueAndOutputs : Prop :=
  ∀ (c : Instr) (s : State), ∃ t, exec c s = .next t ∧ Unaltered s t

/-- Once the safe stop has reached its boundary (0x6000:01 is not 0), every command of a tile leaves the state as it is:
K, M, T, S and V slot commands, results and rows becoming readable, landings. A slot command of a cycle in which its
tile issues no bundle leaves the state as it is too: no schedule runs, the tile stands at its pick-boundary wait, or
the pick has had its 128 scheduled cycles. -/
def Obligations.StoppedTilesIssueNothing : Prop :=
  (∀ (i : Instr) (t : TileIx) (c : Nat) (s : State), tileCommand i = some (t, c) → stopState s ≠ 0 →
    exec i s = .next s) ∧
  (∀ (i : Instr) (t : TileIx) (c : Nat) (s : State), slotCommand i = some (t, c) → tileIssues s t c = false →
    exec i s = .next s) ∧
  (∀ (t c : Nat) (s : State),
    let q := (tileAt s t).seq
    let l := max ((tileAt s t).count c) q.cycle
    q.running = false ∧ q.waiting = false ∨ q.waiting = true ∧ q.cycle < l ∨
      q.waiting = false ∧ q.pickStart + q.stall + 128 ≤ l → tileIssues s t c = false)

/-- In a running job a pick boundary places the next boundary one pace later, TP advances, and SP advances exactly when
the new pick is not held. In a safe stop TP advances and SP does not; outside a job, or before time pick 0, neither
does. -/
def Obligations.PickBoundaryAdvancesCounts : Prop :=
  ∀ s : State,
    ∃ t, exec .pickBoundary s = .next t ∧ t.boundary = s.boundary + paceNow s ∧
      (s.job = true ∧ s.started = true ∧ s.integrity.stopLine = false →
        t.tp = s.tp + 1 ∧ t.cycle0 = s.cycle0 + cyclesNow s ∧ t.sp = (if t.hold.held then s.sp else s.sp + 1)) ∧
      (s.job = true ∧ s.integrity.stopLine = true → t.tp = s.tp + 1 ∧ t.sp = s.sp) ∧
      (s.integrity.stopLine = false ∧ (s.job = false ∨ s.started = false) → t.tp = s.tp ∧ t.sp = s.sp)

/-- In a job with no safe stop, a HOLD that enters the module while control traffic is free, whose stop pick has not
begun and whose sequence is the expected one, sets the stop pick to the smaller of its own and the pending one; the
expected sequence of the sender moves on; a power emergency adds its argument, an admission HOLD for an incomplete
admission its records to what RELEASE awaits. Nothing else of the module changes but what the relayed copies of the
word count. Where control traffic of the die has spent its budget, and outside a job or in a safe stop, the hold
unit is as before. -/
def Obligations.HoldWordSetsStopPick : Prop :=
  ∀ (tr : Travel) (w : ControlWord) (s : State),
    let st := nearest s.sp w.pick.toNat
    (holdLive s = true → wordClear s tr → s.sp < st → seqOk .hold w s = true →
      ∃ t, exec (.hold tr w) s = .next t ∧ OnlySent { s with hold := t.hold } t ∧
        t.hold = { s.hold with
          stop := some (match s.hold.stop with | none => st | some x => min x st)
          seqs := mset 0 s.hold.seqs (seqKey w.sender .hold) ((w.seq.toNat + 1) % 65536)
          first := holdFirst s.hold st (nearest s.sp w.stamp.toNat) w
          awaited := s.hold.awaited ++ (if w.reason = 4 ∧ admitComplete s (st - admitHorizon s) = false
            then [.records (st - admitHorizon s)] else [])
          emergency := s.hold.emergency ++ (if w.reason = 5 then [(w.sender, w.arg.toNat)] else []) }) ∧
    (wordWaits s tr → ∃ t, exec (.hold tr w) s = .next t ∧ OnlySent s t) ∧
    (holdLive s = false → ∃ t, exec (.hold tr w) s = .next t ∧ OnlySent s t)

/-- In a job with no safe stop, words that enter the module while control traffic is free: a RELEASE in sequence for the
pending stop pick is counted, and the resume pick becomes at least its stamp plus the hold horizon plus 1; a PACE in
sequence whose effect SP has not begun is kept with its sender, effect SP and throttle request; the hold unit is
otherwise as before but for the expected sequence of the sender, and the rest of the module but for what the relayed
copies count. A HOLD whose stop pick has begun is fault 0x5001, one in time but out of sequence 0x5003; a RELEASE
for another stop pick than the pending one or out of sequence is 0x5003; a PACE out of sequence is 0x5003, one in
sequence whose effect SP has begun 0x5005: the record goes to the fault unit of C0, the hold unit is as before, and
only what faults and the relayed copies change is changed. Where control traffic of the die has spent its budget,
and outside a job or in a safe stop, the hold unit is as before. -/
def Obligations.ControlWordsAreTakenOrFaults : Prop :=
  ∀ (tr : Travel) (w : ControlWord) (s : State),
    let p := nearest s.sp w.pick.toNat
    let failed := fun (i : Instr) (code : Nat) => ∃ t, exec i s = .next t ∧ Recorded s t 0 code ∧ OnlyAside s t
    let counts := fun (k : CwKind) => mset 0 s.hold.seqs (seqKey w.sender k) ((w.seq.toNat + 1) % 65536)
    (holdLive s = true → wordClear s tr → s.hold.stop = some p → seqOk .release w s = true →
      ∃ t, exec (.release tr w) s = .next t ∧ OnlySent { s with hold := t.hold } t ∧
        t.hold = { s.hold with seqs := counts .release, seen := s.hold.seen + 1
                               resume := max s.hold.resume (nearest s.tp w.stamp.toNat + horizon s + 1) }) ∧
    (holdLive s = true → wordClear s tr → seqOk .pace w s = true → s.sp < p →
      ∃ t, exec (.pace tr w) s = .next t ∧ OnlySent { s with hold := t.hold } t ∧
        t.hold = { s.hold with
          seqs := counts .pace
          paces := s.hold.paces ++ [{ effect := p, sender := some w.sender, value := w.arg.toNat }] }) ∧
    (Inv s → holdLive s = true → wordClear s tr →
      (p ≤ s.sp → failed (.hold tr w) 0x5001) ∧
      (s.sp < p → seqOk .hold w s = false → failed (.hold tr w) 0x5003) ∧
      (s.hold.stop ≠ some p ∨ seqOk .release w s = false → failed (.release tr w) 0x5003) ∧
      (seqOk .pace w s = false → failed (.pace tr w) 0x5003) ∧
      (seqOk .pace w s = true → p ≤ s.sp → failed (.pace tr w) 0x5005)) ∧
    (wordWaits s tr ∨ holdLive s = false → ∀ i, i = .release tr w ∨ i = .pace tr w →
      ∃ t, exec i s = .next t ∧ OnlySent s t)

/-- At the hold unit, in a job with no safe stop, a hold request stamped p whose stop pick p + 1 + H has not begun moves
the stop pick to at most that, takes the next own sequence of HOLD words, and adds the items that the request is
for, of an admission request the records still missing, to those RELEASE awaits; a power request keeps its count as
an emergency. A request whose stop pick has begun is fault 0x5001. Outside a job or in a safe stop nothing but the
router queues changes. At a router output with nothing queued it is queued; where one is queued the two are
combined, the smaller request kept with the sum of the counts up to 1023, and 0x4000:11 counts it. -/
def Obligations.HoldRequestIsSentOrQueued : Prop :=
  (∀ (r : HoldReq) (s : State),
    let st := r.sp + 1 + horizon s
    (holdLive s = true → s.sp < st →
      ∃ t, exec (.holdRequest r none) s = .next t ∧ OnlySent { s with hold := t.hold } t ∧
        t.hold.stop = some (match s.hold.stop with | none => st | some x => min x st) ∧
        ownSeq t .hold = (ownSeq s .hold + 1) % 65536 ∧
        (∀ x, x ∈ s.hold.awaited ∨ x ∈ requestItems s r → x ∈ t.hold.awaited) ∧
        (r.reason = 4 → admitComplete s (st - admitHorizon s) = false →
          .records (st - admitHorizon s) ∈ t.hold.awaited) ∧
        t.hold.emergency = s.hold.emergency ++ (if r.reason = 5 then [(ownCoord s, r.count % 1024)] else []) ∧
        t.hold.held = s.hold.held ∧ t.hold.seen = s.hold.seen ∧ t.hold.resume = s.hold.resume ∧
        t.hold.seqs = s.hold.seqs ∧ t.hold.paces = s.hold.paces ∧ t.hold.throttle = s.hold.throttle) ∧
    (Inv s → holdLive s = true → st ≤ s.sp → ∃ t, exec (.holdRequest r none) s = .next t ∧ Recorded s t 0 0x5001 ∧
      OnlyAside { s with hold := t.hold } t ∧ t.hold.stop = s.hold.stop ∧ t.hold.held = s.hold.held) ∧
    (holdLive s = false → ∃ t, exec (.holdRequest r none) s = .next t ∧
      t = { s with hold := { s.hold with routers := t.hold.routers } })) ∧
  (∀ (r : HoldReq) (o : Nat) (s : State),
    let routers := s.hold.routers.filter (·.2 != r)
    (routers.lookup o = none → ∃ t, exec (.holdRequest r (some o)) s = .next t ∧
      t = { s with hold := { s.hold with routers := t.hold.routers } } ∧ t.hold.routers.lookup o = some r ∧
      ∀ k, k ≠ o → t.hold.routers.lookup k = routers.lookup k) ∧
    (∀ q, routers.lookup o = some q → ∃ t, exec (.holdRequest r (some o)) s = .next t ∧
      t.hold.routers.lookup o = some
        { (if r.sp < q.sp ∨ r.sp = q.sp ∧ (r.ocls < q.ocls ∨ r.ocls = q.ocls ∧ r.oidx < q.oidx) then r else q) with
          count := min 1023 (q.count + r.count) } ∧
      objGet t 0x4000 0x11 = objGet s 0x4000 0x11 + 1 ∧
      (∀ k, k ≠ o → t.hold.routers.lookup k = routers.lookup k) ∧
      t = { s with hold := { s.hold with routers := t.hold.routers }, objs := t.objs }))

/-- In a held pick of a job with no safe stop, with no RELEASE of its own sent, once every tile has arrived at the stop
pick and nothing is awaited, SEND_RELEASE marks the RELEASE as sent, counts the own RELEASE, takes the next own
sequence of RELEASE words and makes the resume pick at least TP + H + 1. Otherwise nothing changes. While the slice
has been held for more time picks than 0x4300:07, HOLD_LIMIT_EXPIRY records fault 0x5002 at C0; otherwise it changes
nothing. -/
def Obligations.HeldModuleReleasesOrTimesOut : Prop :=
  (∀ (st : Nat) (s : State), holdLive s = true → s.hold.held = true → s.hold.sent = false → allArrived s = true →
    s.hold.awaited = [] → s.hold.stop = some st →
    ∃ t, exec .sendRelease s = .next t ∧ OnlySent { s with hold := t.hold } t ∧
      t.hold = { s.hold with sent := true, seen := s.hold.seen + 1, own := t.hold.own
                             resume := max s.hold.resume (s.tp + horizon s + 1) } ∧
      ownSeq t .release = (ownSeq s .release + 1) % 65536) ∧
  (∀ s : State, allArrived s = false ∨ s.hold.awaited ≠ [] ∨ s.hold.held = false ∨ s.hold.sent = true ∨
    s.hold.stop = none ∨ holdLive s = false → exec .sendRelease s = .next s) ∧
  (∀ s : State, Inv s → holdLive s = true → s.hold.held = true → objGet s 0x4300 7 < s.tp - s.hold.stopTp →
    ∃ t, exec .holdLimitExpiry s = .next t ∧ Recorded s t 0 0x5002 ∧ OnlyAside s t) ∧
  (∀ s : State, holdLive s = false ∨ s.hold.held = false ∨ s.tp - s.hold.stopTp ≤ objGet s 0x4300 7 →
    exec .holdLimitExpiry s = .next s)

/-- On a tile that issues its bundle: LOOP opens a loop of its depth whose body begins with the next bundle, with one
pass fewer to begin than its trip count. ENDLOOP with passes left goes back to the first bundle of the body one
cycle later, with one pass fewer; with none left it closes the loop; with no loop open it changes nothing. SELECT of
a set flag marks the second arm to be passed over, of a clear flag passes over the first. PICKWAIT waits at the
boundary, or begins the next pick at once on a tile that owes one, the waiting arms and closes of its windows taking
effect. END stops the schedule and waits at the boundary; where a next schedule waits after an overrun it begins
that task one cycle later: shadow base words and parameter block live, the parameter block written to bobbin row
4,095, draws 0, exponent bounds 127, the exchange of lane sets to come; on a tile that owes picks the waiting arms
and closes take effect and every window closes. Only this of the tile changes, and rows are written only where they
became readable. -/
def Obligations.ControlSlotSteersTheSequencer : Prop :=
  ∀ (t : TileIx) (c : Nat) (d : BitVec 2) (n : BitVec 24) (flag : BitVec 5) (len : BitVec 11) (s : State),
    tileIssues s t c = true →
    let tile := (found t c s).2
    let q := tile.seq
    let goes := fun (i : Instr) (tile' : Tile) => ∃ s', exec i s = .next s' ∧ tileAt s' t = tile' ∧ SlotFrame s s' t c
    let ends := fun (tile' : Tile) => ∃ s', exec (.endSchedule t c) s = .next s' ∧ SlotFrame s s' t c ∧
      steady (tileAt s' t) = steady (if q.behind = 0 then tile'
        else { closeWindows (tile.acts.foldl applyAct tile') with acts := [] })
    let idle := { q with waiting := true, running := false, behind := 0, next := none }
    goes (.loop t c d n) { tile with
      seq := { q with loops := { depth := d.toNat, body := q.bundle + 1, left := n.toNat - 1 } :: q.loops } } ∧
    (∀ l r, q.loops = l :: r → 0 < l.left → goes (.endloop t c d) { tile with
      seq := { q with loops := { l with left := l.left - 1 } :: r, bundle := l.body, cycle := q.cycle + 1 } }) ∧
    (∀ l r, q.loops = l :: r → l.left = 0 → goes (.endloop t c d) { tile with seq := { q with loops := r } }) ∧
    (q.loops = [] → goes (.endloop t c d) tile) ∧
    (tile.flags.getLsbD flag.toNat = true → goes (.select t c flag len) { tile with
      seq := { q with arm := some (q.bundle + (len.toNat + 1), len.toNat + 1) } }) ∧
    (tile.flags.getLsbD flag.toNat = false → goes (.select t c flag len) { tile with
      seq := { q with bundle := q.bundle + (len.toNat + 1) + 1, cycle := q.cycle + 1 } }) ∧
    (q.behind = 0 → goes (.pickwait t c) { tile with seq := { q with waiting := true } }) ∧
    (0 < q.behind → ∃ s', exec (.pickwait t c) s = .next s' ∧ SlotFrame s s' t c ∧
      steady (tileAt s' t) = steady { tile.acts.foldl applyAct { tile with seq := { q with
        waiting := false, cycle := q.cycle + 1, bundle := (bundleOn q 1).1, arm := (bundleOn q 1).2
        pickStart := q.cycle + 1, stall := 0, stretches := 0, behind := q.behind - 1 } } with acts := [] }) ∧
    (q.next = none → ends { tile with seq := idle }) ∧
    (∀ k, q.next = some k → ends { tile with
      seq := { Sequencer.reset with
        running := true, sched := k, cycle := q.cycle + 1, pickStart := q.cycle + 1
        begun := some (q.cycle + 1), behind := q.behind - 1 }
      base := tile.shBase, params := tile.shParams, exchange := true, drawWait := none, draws := 0
      bounds := List.replicate 8 127
      writes := tile.writes ++ [(q.cycle + 1 + 1, rowAddr t 0 4095,
        freshFrame (slice tile.shParams 0 64 ++ zeros 448) 0)] })

/-- On a tile that issues its bundle, an arm whose rows lie in bobbin, beam or registers and a close are each kept as
the last of the actions waiting for the boundary, with window number, first row and count; windows and landed bits
are as before. An arm with any other row range is fault 0x2004 and keeps nothing. -/
def Obligations.WindowActionsWaitForTheBoundary : Prop :=
  ∀ (t : TileIx) (c : Nat) (f : TSlot) (s : State), tileIssues s t c = true →
    let s1 := (found t c s).1
    let tile := (found t c s).2
    let rows := operandRows s1 t tile f.sbase.toNat f.soff.toNat (f.count.toNat + 1) [0, 1, 3] 0
    (∀ l, rows = .ok l → ∃ s', exec (.armWindow t c f) s = .next s' ∧ SlotFrame s s' t c ∧ s'.landed = s1.landed ∧
      tileAt s' t = { tile with acts := tile.acts ++
        [{ window := f.doff.toNat % 256, arm := some (l.headD 0, f.count.toNat + 1), bundle := tile.seq.bundle }] }) ∧
    (∀ a, Inv s → rows = .error a → ∃ s', exec (.armWindow t c f) s = .next s' ∧ SlotFrame s s' t c ∧
      Recorded s s' (dieOf t) 0x2004 ∧ tileAt s' t = tile) ∧
    (∃ s', exec (.closeWindow t c f) s = .next s' ∧ SlotFrame s s' t c ∧ s'.landed = s1.landed ∧
      tileAt s' t = { tile with acts := tile.acts ++
        [{ window := f.doff.toNat % 256, arm := none, bundle := tile.seq.bundle }] })

/-- On a tile that issues its bundle, each of the six row transfers whose source and destination ranges exist joins the
operations in flight of its tile with the rows it reads and the rows it will write; no row is written yet but those
that became readable, and nothing else of the tile changes but timing. A range that does not exist is fault 0x2004
and the tile is as it was found. -/
def Obligations.RowTransfersJoinThePipe : Prop :=
  ∀ (i : Instr) (t : TileIx) (c : Nat) (op : TOp) (f : TSlot) (s : State), tileIssues s t c = true →
    moveSlot i = some (t, c, op, f) →
    let s1 := (found t c s).1
    let tile := (found t c s).2
    let src := operandRows s1 t tile f.sbase.toNat f.soff.toNat (f.count.toNat + 1) [(moveSpaces op).1] f.column.toNat
    let dst := operandRows s1 t tile f.dbase.toNat f.doff.toNat (f.count.toNat + 1) [(moveSpaces op).2] f.column.toNat
    (∀ a b, src = .ok a → dst = .ok b → ∃ s', exec i s = .next s' ∧ Joined s s' t c (.move op b) a) ∧
    (∀ a, Inv s → src = .error a ∨ (∃ b, src = .ok b) ∧ dst = .error a → ∃ s', exec i s = .next s' ∧
      SlotFrame s s' t c ∧ Recorded s s' (dieOf t) 0x2004 ∧ tileAt s' t = tile)

/-- While the module issues, the first transfer in flight whose next row is read and readable by the cycle of
TRANSFER_ROW_READABLE writes that row: the destination holds the data, tag and proof word read, every other row is
as before, and the transfer has delivered one row more, leaving the pipe with its last. With no such row nothing
changes. -/
def Obligations.TransferredRowBecomesReadable : Prop :=
  ∀ (t : TileIx) (c : Nat) (s : State), issuing s = true →
    let due := firstReady (moveNext t ((tileAt s t).count c)) (tileAt s t).pipe
    (∀ (i : Nat) (p : InFlight) (a : Nat) (f : RowFrame) (w : Nat), due = some (i, p, a, f, w) →
      ∃ s', exec (.transferReadable t c) s = .next s' ∧ OnlyTiles s s' ∧
        rowGet s' a = { f with data := slice f.data 0 512 } ∧ (∀ b, b ≠ a → rowGet s' b = rowGet s b) ∧
        steady (tileAt s' t) = steady { tileAt s t with pipe := delivered i p.reads.length p (tileAt s t).pipe } ∧
        ∀ u, u ≠ t → steady (tileAt s' u) = steady (tileAt s u)) ∧
    (due = none → exec (.transferReadable t c) s = .next s)

/-- On a tile that issues its bundle, every vector operation of form E (but BCHK) or C whose fields the loader accepts
joins the operations in flight of its tile with the register rows it reads and the stipple fields it draws, nothing
delivered. No row is written but those that became readable; of the tile only what a draw changes and timing may
change: the draw counter advances by one draw for every four fields, and an operation without fields leaves the lane
sets as they are. -/
def Obligations.VectorCommandsJoinThePipe : Prop :=
  ∀ (i : Instr) (t : TileIx) (c : Nat) (v : VSlot) (s : State), tileIssues s t c = true →
    vectorSlot i = some (t, c, v) → legalV v = true → ((∃ op f, v = .e op f) ∨ ∃ f, v = .cvt f) →
    let s1 := (found t c s).1
    let tile := (found t c s).2
    let l := (tileAt s t).count c
    let drew := tile.drawn s1 t l (vFields v) tile.seq.bundle
    ∃ s', exec i s = .next s' ∧ SlotFrame s s' t c ∧
      steady (tileAt s' t) = { steady drew.2.1 with
        works := (steady tile).works ++ [(.v v drew.1, 0, (vReads t l v).map (·.1))] } ∧
      (tileAt s' t).draws = tile.draws + (vFields v + 3) / 4 ∧
      (vFields v = 0 → (tileAt s' t).lanes = tile.lanes ∧ (tileAt s' t).shLanes = tile.shLanes)

/-- On a tile that issues its bundle, an LDR or STR whose fields the loader accepts and whose bobbin rows exist joins
the operations in flight of its tile: LDR reads the bobbin rows and will write the register rows, STR the other way
round. Nothing else of the tile changes but timing. Bobbin rows that do not exist are fault 0x2004 and the tile is
as it was found. -/
def Obligations.RowMovesOfTheVectorSlotJoinThePipe : Prop :=
  ∀ (t : TileIx) (c : Nat) (f : FormL) (s : State), tileIssues s t c = true → legalV (.ldr f) = true →
    let s1 := (found t c s).1
    let tile := (found t c s).2
    let rows := operandRows s1 t tile f.base.toNat f.off.toNat (f.rows.toNat + 1) [0] 0
    let regs := (List.range (f.rows.toNat + 1)).map fun i => rowAddr t 3 (32 * f.reg.toNat + f.first.toNat + i)
    (∀ bob, rows = .ok bob → ∃ s', exec (.ldr t c f) s = .next s' ∧ Joined s s' t c (.v (.ldr f) regs) bob) ∧
    (∀ bob, rows = .ok bob → ∃ s', exec (.str t c f) s = .next s' ∧ Joined s s' t c (.v (.str f) bob) regs) ∧
    (∀ a, Inv s → rows = .error a → ∀ i, i = .ldr t c f ∨ i = .str t c f → ∃ s', exec i s = .next s' ∧
      SlotFrame s s' t c ∧ Recorded s s' (dieOf t) 0x2004 ∧ tileAt s' t = tile)

/-- On a tile that issues its bundle, a GATH or SCAT whose fields the loader accepts, whose index row exists in bobbin
and whose target base names bobbin or beam joins the operations in flight of its tile. Where it awaits an index row
that has not landed it waits with that row alone. Otherwise, where every index names a row that exists, GATH goes on
to read the named rows and will write the registers, SCAT reads the registers and will write the named rows. An
index row, a target base or an index that names no row is fault 0x2004 and nothing joins. -/
def Obligations.GatherAndScatterFollowTheirIndexRow : Prop :=
  ∀ (t : TileIx) (c : Nat) (f : FormG) (s : State), tileIssues s t c = true → legalV (.gath f) = true →
    let s1 := (found t c s).1
    let tile := (found t c s).2
    let l := (tileAt s t).count c
    let regs := (List.range (f.rows.toNat + 1)).map fun i => rowAddr t 3 (32 * f.reg.toNat + f.first.toNat + i)
    let index := operandRows s1 t tile f.ibase.toNat f.ioff.toNat 1 [0] 0
    let target := addrSpace (baseWord s1 t tile f.tbase.toNat)
    let fails := Inv s → ∀ i, i = .gath t c f ∨ i = .scat t c f → ∃ s', exec i s = .next s' ∧ SlotFrame s s' t c ∧
      Raised s s' (dieOf t) 0x2004 ∧ steady (tileAt s' t) = steady tile
    ((∃ a, index = .error a) ∨ 2 ≤ target → fails) ∧
    ∀ x, index = .ok [x] → target < 2 →
    (f.await = true ∧ isLanded s1 x = false →
      (∃ s', exec (.gath t c f) s = .next s' ∧ Joined s s' t c (.v (.gath f) []) [x]) ∧
      (∃ s', exec (.scat t c f) s = .next s' ∧ Joined s s' t c (.v (.scat f) []) [x])) ∧
    (f.await = false ∨ isLanded s1 x = true →
      let named := indexRows s1 t tile f (readFrame s1 t x l).data
      ((∃ a, named = .error a) → fails) ∧
      ∀ rows, named = .ok rows →
        (∃ s', exec (.gath t c f) s = .next s' ∧ Joined s s' t c (.v (.gath f) regs) (x :: rows)) ∧
        (∃ s', exec (.scat t c f) s = .next s' ∧ Joined s s' t c (.v (.scat f) rows) (x :: regs)))

/-- While the module issues, VECTOR_RESULT_READABLE delivers the next result of the first vector operation in flight
that has one readable by its cycle: of an operation of form E or C the elements of its result in their registers,
the rest of each register row as it was; of LDR, STR, GATH and SCAT the next row. The rows that the result covers
hold it, with tag 0 and a fresh proof word, every other row is as before, and the operation has delivered one result
more, leaving the pipe with its last. A SETFLAG result sets its flag exactly when an element of its source is not
zero; no other flag changes. With no result readable nothing changes. -/
def Obligations.VectorResultsWriteTheirRows : Prop :=
  ∀ (t : TileIx) (c : Nat) (s : State), issuing s = true →
    let due := firstReady (vDue ((tileAt s t).count c)) (tileAt s t).pipe
    (∀ (i : Nat) (p : InFlight) (v : VSlot) (us : List Nat) (w : Nat), due = some (i, p, v, us, w) →
      let tile := { tileAt s t with pipe := delivered i (vDeliveries v) p (tileAt s t).pipe }
      let moved := ((p.reads[if v matches .gath _ | .scat _ then p.done + 1 else p.done]?.bind (·.val)).map
        (·.data)).getD []
      let rows := if (v matches .e _ _) ∨ (v matches .cvt _)
        then (vOut v us p.reads p.done).puts.flatMap (regFrames s t) else [(us.getD p.done 0, freshFrame moved 0)]
      ∃ s', exec (.vectorReadable t c) s = .next s' ∧ OnlyTiles s s' ∧
        (∀ a, rowGet s' a = match (rows.reverse.find? (·.1 == a)) with | some x => x.2 | none => rowGet s a) ∧
        steady (tileAt s' t) = { steady tile with flags := (tileAt s' t).flags } ∧
        (∀ n, n < 32 → (tileAt s' t).flags.getLsbD n = match v with
          | .e .setflag f => if n = f.dst.toNat % 16 then (wholeOperands .setflag f p.reads).1.any (· != 0)
            else (tileAt s t).flags.getLsbD n
          | _ => (tileAt s t).flags.getLsbD n) ∧
        (∀ u, u ≠ t → steady (tileAt s' u) = steady (tileAt s u))) ∧
    (due = none → exec (.vectorReadable t c) s = .next s)

/-- For elements of the width w of the operation type: IADD, ISUB and IMUL wrap modulo 2^w, or with the saturation bit
limit the exact result to the signed range; IMAX and IMIN compare as signed; AND, OR, XOR and ANDN work bit by bit;
SHL, SHR and SRA shift by the count modulo w, SRA copying the sign; SEL takes a where c is not zero, else b; RAND
takes the stipple field; the integer CMP conditions 0 to 5 give all ones or zero. -/
def Obligations.ElementwiseLaneResults : Prop :=
  ∀ (f : FormE) (a b c u : Nat), f.ty.toNat ≤ 3 → 2 ≤ f.ty.toNat →
    let w := tyWidth f.ty.toNat
    a < 2 ^ w → b < 2 ^ w →
    let i := (BitVec.ofNat w a).toInt
    let j := (BitVec.ofNat w b).toInt
    let lim := fun v : Int => if f.sat then max (-(2 ^ (w - 1) : Int)) (min v (2 ^ (w - 1) - 1)) else v
    let ones := fun x : Bool => if x then 2 ^ w - 1 else 0
    lane .iadd f a b c u = (BitVec.ofInt w (lim (i + j))).toNat ∧
    lane .isub f a b c u = (BitVec.ofInt w (lim (i - j))).toNat ∧
    lane .imul f a b c u = (BitVec.ofInt w (lim (i * j))).toNat ∧
    lane .imax f a b c u = (if i < j then b else a) ∧
    lane .imin f a b c u = (if j < i then b else a) ∧
    lane .and f a b c u = (BitVec.ofNat w a &&& BitVec.ofNat w b).toNat ∧
    lane .or f a b c u = (BitVec.ofNat w a ||| BitVec.ofNat w b).toNat ∧
    lane .xor f a b c u = (BitVec.ofNat w a ^^^ BitVec.ofNat w b).toNat ∧
    lane .andn f a b c u = (BitVec.ofNat w a &&& ~~~BitVec.ofNat w b).toNat ∧
    lane .shl f a b c u = (BitVec.ofNat w a <<< (b % w)).toNat ∧
    lane .shr f a b c u = (BitVec.ofNat w a >>> (b % w)).toNat ∧
    lane .sra f a b c u = ((BitVec.ofNat w a).sshiftRight (b % w)).toNat ∧
    lane .sel f a b c u = (if c ≠ 0 then a else b) ∧
    lane .rand f a b c u = u ∧
    (f.c = 0 → lane .cmp f a b c u = ones (decide (i = j))) ∧ (f.c = 1 → lane .cmp f a b c u = ones (decide (i ≠ j))) ∧
    (f.c = 2 → lane .cmp f a b c u = ones (decide (i < j))) ∧ (f.c = 3 → lane .cmp f a b c u = ones (decide (i ≤ j))) ∧
    (f.c = 4 → lane .cmp f a b c u = ones (decide (j < i))) ∧ (f.c = 5 → lane .cmp f a b c u = ones (decide (j ≤ i)))

/-- On a tile that issues its bundle, a BCHK that the loader accepts, whose elements are read in its issue cycle, on a
tile with nothing in flight, is judged at once with the exponent bound that its register holds: nothing stays in
flight, and an element that fails its condition is fault 0x3008 of the tile. Otherwise, with more elements or
operations in flight, the BCHK joins them with that bound, and VECTOR_RESULT_READABLE judges it. -/
def Obligations.BoundCheckIsJudgedOnItsElements : Prop :=
  ∀ (t : TileIx) (c : Nat) (f : FormE) (s : State), tileIssues s t c = true → legalV (.e .bchk f) = true →
    c ∉ (tileAt s t).stops →
    let s1 := (found t c s).1
    let tile := (found t c s).2
    let l := (tileAt s t).count c
    let reads := readsOf s1 t false (vReads t l (.e .bchk f))
    let bound := vKept (.e .bchk f) tile.bounds []
    let atOnce := (tileAt s t).pipe = [] ∧ vCycles (.e .bchk f) = 1
    let judged := fun (s' : State) => OnlyTiles s s' ∧ (tileAt s' t).pipe = [] ∧ ∀ a, rowGet s' a = rowGet s1 a
    (∀ k n, Inv s → atOnce → (vOut (.e .bchk f) bound reads 0).fail = some (k, n) →
      ∃ s', exec (.bchk t c f) s = .next s' ∧ judged s' ∧ k = 0x3008 ∧ Raised s s' (dieOf t) 0x3008) ∧
    (atOnce → (vOut (.e .bchk f) bound reads 0).fail = none →
      (readsFx s1 t tile.seq.bundle false (vReads t l (.e .bchk f))).faults = [] →
      ∃ s', exec (.bchk t c f) s = .next s' ∧ judged s' ∧ s'.integrity = s.integrity) ∧
    (¬ atOnce → ∃ s', exec (.bchk t c f) s = .next s' ∧
      Joined s s' t c (.v (.e .bchk f) bound) ((vReads t l (.e .bchk f)).map (·.1)))

/-- On a tile that issues its bundle, a latch load whose beam rows exist joins the operations in flight with the rows it
reads, its format code and the cycles until its block is ready: its read cycles plus 7, two more for a codebook
block, four more from a neighbour column; rows that do not exist are fault 0x2004. While the module issues,
WEIGHT_BLOCK_READY takes the first load in flight that is ready by its cycle and has read its rows: its block stands
in the idle latch, loaded and fresh, the load leaves the pipe, and the active latch and every row are as before.
With no such load nothing of any tile or row changes. -/
def Obligations.LatchLoadJoinsAndBlockBecomesReady : Prop :=
  ∀ (t : TileIx) (c : Nat) (f : TSlot) (s : State),
    let s1 := (found t c s).1
    let tile := (found t c s).2
    let src := operandRows s1 t tile f.sbase.toNat f.soff.toNat (f.count.toNat + 1) [1] f.column.toNat
    let code := f.doff.toNat / 2 ^ 15
    (∀ rows, tileIssues s t c = true → src = .ok rows → ∃ s', exec (.beamToLatch t c f) s = .next s' ∧
      Joined s s' t c (.load code (readCycles (f.count.toNat + 1) + 7 + (if bookBits code = 0 then 0 else 2) +
        (if readLat t (rows.headD 0) = Config.beamRead false then 0 else 4))) rows) ∧
    (∀ a, Inv s → tileIssues s t c = true → src = .error a → ∃ s', exec (.beamToLatch t c f) s = .next s' ∧
      SlotFrame s s' t c ∧ Recorded s s' (dieOf t) 0x2004 ∧ tileAt s' t = tile) ∧
    (issuing s = true →
      let due := firstReady (loadDone ((tileAt s t).count c)) (tileAt s t).pipe
      (∀ i p b, due = some (i, p, b) →
        ∃ s', exec (.weightBlockReady t c) s = .next s' ∧ OnlyTiles s s' ∧ b.loaded = true ∧ b.fresh = true ∧
          tileAt s' t = setIdle b { tileAt s t with pipe := (tileAt s t).pipe.eraseIdx i } ∧
          activeLatch (tileAt s' t) = activeLatch (tileAt s t) ∧
          (∀ u, u ≠ t → tileAt s' u = tileAt s u) ∧ s'.mem = s.mem) ∧
      (due = none → ∃ s', exec (.weightBlockReady t c) s = .next s' ∧ s'.mem = s.mem ∧
        ∀ u, tileAt s' u = tileAt s u))

/-- On a tile that issues its bundle, where the activation rows and scale rows exist: a STREAM without swap on a loaded
active latch joins the operations in flight with that block. One with swap on a tile with no latch load in flight
and a fresh idle latch exchanges the latches, the block that was active no longer fresh, and joins with the block
that was idle. One without swap on a latch never loaded, or with swap and no load in flight and an idle latch not
written since it became idle, is fault 0x3002 and joins nothing; rows that do not exist are fault 0x2004 and nothing
joins. On a tile that issues its bundle, a STREAM with swap, on a tile whose array path is free and where the only
load in flight has read its rows, writes the idle latch before the swap and is ready later, takes the block of that
load: it is the active latch afterwards, and the STREAM joins the operations in flight with it, the load having
left. -/
def Obligations.StreamTakesTheActiveBlock : Prop :=
  (∀ (t : TileIx) (c : Nat) (f : MStream) (s : State), tileIssues s t c = true →
    let s1 := (found t c s).1
    let tile := (found t c s).2
    let n := f.count.toNat + 1
    let v := f.vidx.toNat
    let x := steady tile
    let block := if f.swap then idleLatch tile else activeLatch tile
    let acts := bobbinRows s1 t tile f.abase.toNat (vectorRows v n)
    let scales := if scaleBytes block.fmt = 0 then .ok [] else
      bobbinRows s1 t tile f.sbase.toNat (scaleRowsOf v n (scaleBytes block.fmt))
    let noLoad := ∀ p ∈ tile.pipe, loadSpan p = none
    (∀ ra rs, acts = .ok ra → scales = .ok rs → f.swap = false → (activeLatch tile).loaded = true →
      ∃ s', exec (.stream t c f) s = .next s' ∧ Joined s s' t c (.stream f block) (ra.map (·.1) ++ rs.map (·.1))) ∧
    (∀ ra rs, acts = .ok ra → scales = .ok rs → f.swap = true → noLoad → (idleLatch tile).fresh = true →
      ∃ s', exec (.stream t c f) s = .next s' ∧ SlotFrame s s' t c ∧
        activeLatch (tileAt s' t) = idleLatch tile ∧ idleLatch (tileAt s' t) =
          { activeLatch tile with fresh := false } ∧
        steady (tileAt s' t) = { x with
          works := x.works ++ [(.stream f block, 0, ra.map (·.1) ++ rs.map (·.1))]
          latch0 := (tileAt s' t).latch0, latch1 := (tileAt s' t).latch1, active1 := !tile.active1 }) ∧
    (Inv s → f.swap = false ∧ (activeLatch tile).loaded = false ∨
        f.swap = true ∧ noLoad ∧ (idleLatch tile).fresh = false →
      ∃ s', exec (.stream t c f) s = .next s' ∧ SlotFrame s s' t c ∧ Raised s s' (dieOf t) 0x3002 ∧
        steady (tileAt s' t) = x) ∧
    (Inv s → (∃ a, acts = .error a) ∨ (∃ a, scales = .error a) → f.swap = false → (activeLatch tile).loaded = true →
      ∃ s', exec (.stream t c f) s = .next s' ∧ SlotFrame s s' t c ∧ Raised s s' (dieOf t) 0x2004 ∧
        steady (tileAt s' t) = x)) ∧
  (∀ (t : TileIx) (c r w code lat : Nat) (f : MStream) (p : InFlight) (data : List Bytes) (s : State),
    tileIssues s t c = true →
    let s1 := (found t c s).1
    let tile := (found t c s).2
    let l := (tileAt s t).count c
    let n := f.count.toNat + 1
    let v := f.vidx.toNat
    tile.pipe = [p] → p.work = .load code lat → readData p.reads = some data →
    loadSpan p = some (w, r) → w < l → l ≤ r → tile.arrayBusy ≤ l → f.swap = true →
    let block := parseBlock code data
    ∀ ra rs, bobbinRows s1 t tile f.abase.toNat (vectorRows v n) = .ok ra →
    (if scaleBytes block.fmt = 0 then .ok [] else
      bobbinRows s1 t tile f.sbase.toNat (scaleRowsOf v n (scaleBytes block.fmt))) = .ok rs →
    ∃ s', exec (.stream t c f) s = .next s' ∧ SlotFrame s s' t c ∧ activeLatch (tileAt s' t) = block ∧
      idleLatch (tileAt s' t) = { activeLatch tile with fresh := false } ∧
      (steady (tileAt s' t)).works = [(.stream f block, 0, ra.map (·.1) ++ rs.map (·.1))])

/-- On a tile that issues its bundle, an ADOWN whose slot list entry is valid and whose vector, scale and adapter rows
exist joins the operations in flight with its descriptor and slot, reading its vectors, their scales and, unless the
slot is 0xFFFF, the rows of the A matrix; an AUP likewise with the slots of its rows up to the first whose entry is
not valid, its vectors and the rows of the B matrix of those slots. An ADOWN whose entry is not valid is fault
0x3006 and joins nothing. -/
def Obligations.AdapterPassesJoinThePipe : Prop :=
  ∀ (t : TileIx) (c : Nat) (s : State), tileIssues s t c = true →
    let s1 := (found t c s).1
    let tile := (found t c s).2
    let beam := fun (first n : Nat) => (List.range n).map fun m => rowAddr t 1 (first + m)
    (∀ (f : MAdown) (slot : Nat) ra rs, slotOf (descAt tile f.desc.toNat) f.row.toNat = some slot →
      let d := descAt tile f.desc.toNat
      let ar := (d.rank + 1) / 2
      let first := fun i => d.baseRow + slot * d.stride + d.aOff + (f.slice.toNat + i) * ar
      bobbinRows s1 t tile f.abase.toNat (vectorRows f.vidx.toNat (f.count.toNat + 1)) = .ok ra →
      bobbinRows s1 t tile d.scale (scaleRowsOf f.vidx.toNat (f.count.toNat + 1) 4) = .ok rs →
      (slot = 0xFFFF ∨ first f.count.toNat + ar ≤ 737280) →
      ∃ s', exec (.adown t c f) s = .next s' ∧ Joined s s' t c (.adown f d slot) (ra.map (·.1) ++ rs.map (·.1) ++
        if slot = 0xFFFF then [] else (List.range (f.count.toNat + 1)).flatMap fun i => beam (first i) ar)) ∧
    (∀ (f : MAup) ra,
      let d := descAt tile f.desc.toNat
      let slots := validSlots d ((List.range (f.count.toNat + 1)).map fun i => f.row.toNat + i)
      let br := (d.rank + 3) / 4
      let first := fun slot => d.baseRow + slot * d.stride + d.bOff + f.block.toNat * br
      bobbinRows s1 t tile f.base.toNat (vectorRows f.vidx.toNat (f.count.toNat + 1)) = .ok ra →
      (∀ x ∈ slots, x = 0xFFFF ∨ first x + br ≤ 737280) →
      ∃ s', exec (.aup t c f) s = .next s' ∧ Joined s s' t c (.aup f d slots) (ra.map (·.1) ++
        slots.flatMap fun x => if x = 0xFFFF then [] else beam (first x) br)) ∧
    (∀ f : MAdown, Inv s → slotOf (descAt tile f.desc.toNat) f.row.toNat = none →
      ∃ s', exec (.adown t c f) s = .next s' ∧ SlotFrame s s' t c ∧ Raised s s' (dieOf t) 0x3006 ∧
        steady (tileAt s' t) = steady tile)

/-- On a tile that issues its bundle, an ASET whose bobbin row exists and spells a descriptor with all fields in range
joins the operations in flight with the fields read and the five rows that it reads, the descriptor row and the four
rows of the slot list; once its five cycles have passed the named descriptor of its tile holds those fields and the
slot list entries read, the other descriptors as before, and the ASET has left. One whose fields are out of range is
fault 0x3006 and sets nothing, one whose row does not exist 0x2004. SETBOUND sets the named exponent-bound register
to the signed value of its field and leaves the others and all else of the tile as they are. -/
def Obligations.AsetAndSetboundWriteTheirRegisters : Prop :=
  (∀ (t : TileIx) (c : Nat) (f : MAset) (g : MSetbound) (s : State), tileIssues s t c = true →
    let s1 := (found t c s).1
    let tile := (found t c s).2
    let l := max ((tileAt s t).count c) tile.arrayBusy
    let row := bobbinRows s1 t tile f.base.toNat [(f.off.toNat, 0)]
    let fails := fun (code : Nat) => Inv s → ∃ s', exec (.aset t c f) s = .next s' ∧ SlotFrame s s' t c ∧
      Raised s s' (dieOf t) code ∧ steady (tileAt s' t) = steady tile
    (∀ a o, row = .ok [(a, o)] →
      let d := (readFrame s1 t a l).data
      let x := parseDescriptor d []
      (descriptorOk d = true → ∃ s', exec (.aset t c f) s = .next s' ∧
        Joined s s' t c (.aset f.desc.toNat (some x)) (a :: (List.range 4).map fun i => rowAddr t 0 (x.list + i))) ∧
      (descriptorOk d = false → fails 0x3006)) ∧
    (∀ a, row = .error a → fails 0x2004) ∧
    (∃ s', exec (.setbound t c g) s = .next s' ∧ SlotFrame s s' t c ∧
      tileAt s' t = { tile with bounds := tile.bounds.set g.reg.toNat g.val.toInt })) ∧
  (∀ (c r : Nat) (d : Descriptor) (tile : Tile) (p : InFlight), tile.pipe = [p] → p.work = .aset r (some d) →
    (p.issue + 5 ≤ c → tile.loadDescs c = { tile with pipe := []
                                                      descs := tile.descs.set r { d with
                                                        table := slotEntries (p.reads.drop 1) } }) ∧
    (c < p.issue + 5 → tile.loadDescs c = tile))

/-- While the module issues, the first array operation in flight with an item whose contribution reaches its row by the
cycle delivers it: with the overwrite bit the row takes the contribution, its count 1 and its mode; without it the
contribution is added in the mode of the row; every other accumulator row, every bobbin and beam row and every other
tile are as before. A contribution in the other mode than the row is fault 0x3002 and leaves all accumulator rows as
they are. An item whose slot list entry is not valid is fault 0x3006 and ends its operation. With no item due
nothing changes. -/
def Obligations.ContributionUpdatesItsAccumulatorRow : Prop :=
  ∀ (t : TileIx) (c : Nat) (s : State), issuing s = true →
    let tile := tileAt s t
    let due := firstReady (itemDone (tile.count c)) tile.pipe
    (∀ i p n row ovr k, due = some (i, p, n, row, ovr, some k) →
      (∀ r, applyContrib ovr k (accAt tile row) = some r → ∃ s', exec (.contribution t c) s = .next s' ∧
        accAt (tileAt s' t) row = r ∧ (∀ q, q % 1024 ≠ row % 1024 → accAt (tileAt s' t) q = accAt tile q) ∧
        tileAt s' t = { tile with pipe := delivered i n p tile.pipe, accs := (tileAt s' t).accs } ∧
        s' = { s with tiles := s'.tiles } ∧ ∀ u, u ≠ t → tileAt s' u = tileAt s u) ∧
      (Inv s → applyContrib ovr k (accAt tile row) = none → ∃ s', exec (.contribution t c) s = .next s' ∧
        Recorded s s' (dieOf t) 0x3002 ∧ OnlyTiles s s' ∧ s'.mem = s.mem ∧
        tileAt s' t = { tile with pipe := delivered i n p tile.pipe } ∧ ∀ u, u ≠ t → tileAt s' u = tileAt s u)) ∧
    (∀ i p n row ovr, Inv s → due = some (i, p, n, row, ovr, none) → ∃ s', exec (.contribution t c) s = .next s' ∧
      Recorded s s' (dieOf t) 0x3006 ∧ OnlyTiles s s' ∧ s'.mem = s.mem ∧
      tileAt s' t = { tile with pipe := tile.pipe.eraseIdx i } ∧ ∀ u, u ≠ t → tileAt s' u = tileAt s u) ∧
    (due = none → ∃ s', exec (.contribution t c) s = .next s' ∧ s' = { s with tiles := s'.tiles } ∧
      ∀ u, tileAt s' u = tileAt s u)

/-- On a tile that issues its bundle, a DRAIN whose destination rows exist in bobbin joins the operations in flight with
them, the stipple fields it draws and the exponent bound that its register holds; no accumulator row changes. Rows
that do not exist are fault 0x2004 and nothing joins. While the module issues, DRAIN_DESTINATION_ROW takes the first
drain in flight with a row due: where every accumulator row of it has the mode of the drain and passes its checks,
the converted row is kept to become readable at the drain latency, with tag 0 and a fresh proof word, and no
accumulator row changes; otherwise the first check that fails is the fault of its code and the drain leaves the pipe
with nothing written. -/
def Obligations.DrainJoinsAndItsRowsFollow : Prop :=
  ∀ (t : TileIx) (c : Nat) (s : State),
    let s1 := (found t c s).1
    let tile := (found t c s).2
    let l := max ((tileAt s t).count c) tile.drainBusy
    (∀ f : MDrain, tileIssues s t c = true →
      let n := f.count.toNat + 1
      let rows := operandRows s1 t tile f.dbase.toNat f.doff.toNat n [0] 0
      let drew := tile.drawn s1 t l (if f.fmt.toNat = 6 then 256 * n else 0) tile.seq.bundle
      (∀ dst, rows = .ok dst → ∃ s', exec (.drain t c f) s = .next s' ∧ SlotFrame s s' t c ∧
        (tileAt s' t).accs = tile.accs ∧
        steady (tileAt s' t) = { steady drew.2.1 with
          works := (steady tile).works ++ [(.drain f drew.1 (tile.bounds.getD f.bound.toNat 127), 0, dst)] }) ∧
      (∀ a, Inv s → rows = .error a → ∃ s', exec (.drain t c f) s = .next s' ∧ SlotFrame s s' t c ∧
        Raised s s' (dieOf t) 0x2004 ∧ steady (tileAt s' t) = steady tile)) ∧
    (∀ i p f us bound a, issuing s = true →
      let tile := tileAt s t
      firstReady (drainDue (tile.count c)) tile.pipe = some (i, p, f, us, bound, a) →
      let rows := (List.range (drainPer f.fmt.toNat)).map fun j =>
        (f.row.toNat + drainPer f.fmt.toNat * p.done + j) % 1024
      let ok := fun r => (accAt tile r).tag = some (decide (f.fmt.toNat = 8)) ∧
        drainCheck (accAt tile r) (objGet s 0x3200 1) bound = none
      ((∀ r ∈ rows, ok r) → ∃ s', exec (.drainRow t c) s = .next s' ∧ OnlyAside { s with tiles := s'.tiles } s' ∧
        tileAt s' t = { tile with
          pipe := delivered i p.reads.length p tile.pipe
          writes := tile.writes ++ [(p.issue + p.done + Config.drainLat (profile s), a,
            freshFrame (drainData f tile rows (us.drop (256 * p.done))).1 0)] } ∧
        s'.integrity = s.integrity ∧ ∀ u, u ≠ t → tileAt s' u = tileAt s u) ∧
      (Inv s → (∃ r ∈ rows, ¬ ok r) → ∃ s' code, exec (.drainRow t c) s = .next s' ∧
        OnlyAside { s with tiles := s'.tiles } s' ∧ Recorded s s' (dieOf t) code ∧
        code ∈ [0x3001, 0x3002, 0x3003, 0x3004, 0x3005] ∧
        tileAt s' t = { tile with pipe := tile.pipe.eraseIdx i } ∧ ∀ u, u ≠ t → tileAt s' u = tileAt s u)) ∧
    (issuing s = true → firstReady (drainDue ((tileAt s t).count c)) (tileAt s t).pipe = none →
      ∃ s', exec (.drainRow t c) s = .next s' ∧ s' = { s with tiles := s'.tiles } ∧ ∀ u, tileAt s' u = tileAt s u)

/-- While the module issues, SHADOW_SET_SETUP of a tile whose shadow set is not set up fills it with the lanes that the
delivered seed gives the tile and counts it in 0x3300:04; one already set up is left as it is. LANE_SET_EXCHANGE of
a tile with an exchange to come makes the shadow set active, set up from the seed if it is not yet, and the active
set shadow, no longer set up; of a tile with none to come it changes nothing of any tile. No row changes. -/
def Obligations.LaneSetsAreSetUpOnceAndExchanged : Prop :=
  ∀ (t : TileIx) (c : Nat) (s : State), issuing s = true →
    let tile := tileAt s t
    (tile.shReady = false → ∃ s', exec (.shadowSetup t) s = .next s' ∧
      tileAt s' t = { tile with shLanes := seedLanes s t tile.shSeed, shReady := true } ∧
      objGet s' 0x3300 4 = objGet s 0x3300 4 + 1 ∧ s' = { s with tiles := s'.tiles, objs := s'.objs } ∧
      ∀ u, u ≠ t → tileAt s' u = tileAt s u) ∧
    (tile.shReady = true → ∃ s', exec (.shadowSetup t) s = .next s' ∧ s' = { s with tiles := s'.tiles } ∧
      ∀ u, tileAt s' u = tileAt s u) ∧
    (tile.exchange = true → ∃ s', exec (.laneExchange t c) s = .next s' ∧
      OnlyAside { s with tiles := s'.tiles } s' ∧
      (tileAt s' t).lanes = (if tile.shReady then tile.shLanes else seedLanes s t tile.shSeed) ∧
      (tileAt s' t).shLanes = tile.lanes ∧ (tileAt s' t).shReady = false ∧
      (tileAt s' t).exchange = false ∧ (tileAt s' t).drawWait = none ∧ (tileAt s' t).laneErrs = [] ∧
      (tileAt s' t).draws = tile.draws ∧ ∀ u, u ≠ t → steady (tileAt s' u) = steady (tileAt s u)) ∧
    (tile.exchange = false → ∃ s', exec (.laneExchange t c) s = .next s' ∧ s' = { s with tiles := s'.tiles } ∧
      ∀ u, tileAt s' u = tileAt s u)

/-- While the module issues, in a cycle of index 15 modulo 16 of the first 128 of a pick, SCHEDULE_STREAM_READ of a tile
whose schedule has a row left to read takes that row from its column, through the correction stage, and puts it into
its place in the schedule store; every other row and the rest of every tile but timing are as before. In such a
cycle with no row left no row changes; in any other cycle, and with no schedule to read ahead, no tile and no row
changes. The place of a row in the store is the choice of the model (assumption 24). -/
def Obligations.ScheduleRowsAreStreamedIn : Prop :=
  ∀ (t : TileIx) (c : Nat) (s : State), issuing s = true →
    let tile := tileAt s t
    let k := pickIndex s (tile.count c) tile
    let still := ∃ s', exec (.streamRead t c) s = .next s' ∧ s' = { s with tiles := s'.tiles } ∧
      ∀ u, tileAt s' u = tileAt s u
    (s.pattern = none → still) ∧
    ∀ p, s.pattern = some p →
      (streamAhead s p t tile.seq = none → still) ∧
      ∀ d rows, streamAhead s p t tile.seq = some (d, rows) →
        (k % 16 ≠ 15 ∨ 128 ≤ k → still) ∧
        (k % 16 = 15 → k < 128 → rows[k / 16]? = none → ∃ s', exec (.streamRead t c) s = .next s' ∧ OnlyTiles s s' ∧
          (∀ b, rowGet s' b = rowGet s b) ∧ ∀ u, steady (tileAt s' u) = steady (tileAt s u)) ∧
        (∀ r, k % 16 = 15 → k < 128 → rows[k / 16]? = some r →
          let x := (fetchRow s (rowAddr t 1 (addrRow (baseWord s t tile 11) + d.stream + r))).frame
          let a := rowAddr t 2 (r % 1024)
          ∃ s', exec (.streamRead t c) s = .next s' ∧ OnlyTiles s s' ∧
            rowGet s' a = { x with data := slice x.data 0 512 } ∧ (∀ b, b ≠ a → rowGet s' b = rowGet s b) ∧
            ∀ u, steady (tileAt s' u) = steady (tileAt s u))

/-- On a tile that issues its bundle, with nothing in flight and the sender free, an S-slot command with a legal
destination and existing, landed source rows sends its first row at once: SEND_ON_SIDE_LINK its two cycles to the
neighbour with window and offset, the row landing there at the side-link latency; SEND_ON_MESH its nine flits with
the route header of its destination and its pad hops, the row landing no earlier than the latency of its path and
pad; PUBLISH_BROADCAST_WORD the first 8 bytes as the value of its word, which becomes pending for SP + A. The rows
after the first stay in flight, and the sender is busy for all of them. No row of memory changes but those that
became readable. Source rows that do not exist are fault 0x2004 and nothing leaves. -/
def Obligations.SendsLeaveAtTheirSender : Prop :=
  ∀ (t : TileIx) (c a q : Nat) (rest : List Nat) (f : SSlot) (s : State), tileIssues s t c = true →
    (tileAt s t).pipe = [] →
    let s1 := (found t c s).1
    let tile := (found t c s).2
    let l := (tileAt s t).count c
    let c1 := (tileAt s t).cycleOf l
    let row := readFrame s1 t a l
    let dst := 24 * f.dy.toNat + f.dx.toNat
    let woff := f.soff.toNat % 128
    let hdr : LandHdr := { window := f.window.toNat, woff := woff, seq := 0, landSp := 0 }
    let rows := fun (op : SOp) =>
      operandRows s1 t tile f.sbase.toNat f.soff.toNat (sendRowsOf op f) [0, 3] 0
    let legal := fun (op : SOp) => senderOf t op f = some q ∧ (tileAt s t).senders.getD q 0 ≤ l ∧
      ((op = .side ∨ op = .mesh) → foreign s1 t f.modl.toNat = false)
    let sends := fun (op : SOp) => legal op ∧ (f.await = true → isLanded s1 a = true) ∧ rows op = .ok (a :: rest)
    let left := fun (op : SOp) (s' : State) => (∀ b, rowGet s' b = rowGet s1 b) ∧
      (steady (tileAt s' t)).works = (if rest = [] then [] else [(.send op f, 1, a :: rest)]) ∧
      (tileAt s' t).senders = tile.senders.set q (l + rowBusy op * sendRowsOf op f) ∧
      ∀ u, u ≠ t → steady (tileAt s' u) = steady (tileAt s u)
    (sends .side → ∃ s', exec (.sendSide t c f) s = .next s' ∧ OnlyTiles s s' ∧ left .side s' ∧
      .sideRow t dst (sideCycles f.window.toNat woff row) ∈ s'.out ∧
      ∃ r ∈ s'.net.rows, r.dst = dst ∧ r.hdr = hdr ∧ r.row = row ∧ r.due = c1 + Config.sideLanding (profile s)) ∧
    (sends .mesh → ∃ s', exec (.sendMesh t c f) s = .next s' ∧ OnlyTiles s s' ∧ left .mesh s' ∧
      let h : Route := { classB := false, kind := 0, dx := f.dx, dy := f.dy, sx := BitVec.ofNat 5 (tileX t)
                         sy := BitVec.ofNat 5 (tileY t), window := f.window, woff := BitVec.ofNat 7 woff
                         pad := BitVec.ofNat 3 (padHops s t dst), act := 0, gen := 0 }
      let lat := flightLat s t dst + Config.meshHop * h.pad.toNat
      .meshRow t dst (rowFlits h row) lat ∈ s'.out ∧
      ∃ r ∈ s'.net.rows, r.dst = dst ∧ r.hdr = hdr ∧ r.row = row ∧ c1 + lat ≤ r.due) ∧
    (sends .publish →
      let w := f.window.toNat % 16
      let p := s.sp - (tileAt s t).seq.behind
      (w, p + admitHorizon s) ∉ s.treadle.got →
      ∃ s', exec (.publishWord t c f) s = .next s' ∧ OnlyTiles { s with hold := s'.hold } s' ∧ left .publish s' ∧
        let v := BitVec.ofNat 64 (leAt row.data 0 8)
        .publish t w v ∈ s'.out ∧ { word := w, value := v, effect := p + admitHorizon s } ∈ s'.treadle.pending) ∧
    (∀ (i : Instr) (op : SOp) (e : Nat), Inv s →
      (i, op) ∈ [(.sendSide t c f, .side), (.sendMesh t c f, .mesh), (.handSelvedge t c f, .selvedge),
        (.publishWord t c f, .publish)] → legal op → rows op = .error e →
      ∃ s', exec i s = .next s' ∧ OnlyTiles s s' ∧ Raised s s' (dieOf t) 0x2004 ∧ (tileAt s' t).pipe = [] ∧
        ∀ b, rowGet s' b = rowGet s1 b)

/-- On a tile that issues its bundle, with nothing in flight, whose mesh injector is free, while no other row is on the
network, a hand-off with existing, landed source rows lists one row per row of the send at the link that the send
table entry names, in consecutive slots, stamped with the SP of its tile; the first of them is read at once and
reaches the send buffer at the latency of its path to the attach tile of the port and its pad. What the port listed
before is still there. -/
def Obligations.HandOffReachesItsPort : Prop :=
  ∀ (t : TileIx) (c a : Nat) (rest : List Nat) (f : SSlot) (s : State), tileIssues s t c = true →
    (tileAt s t).pipe = [] → s.net.rows = [] →
    let s1 := (found t c s).1
    let n := (tileAt s t).count c
    let e := sendEntry s (dieOf t) (f.dx.toNat * 32 + f.dy.toNat)
    let l := bits e 58 6
    let u := attachTile l
    let frame := fun (i : Nat) => handedFrame s t e f i zeroRow
    (tileAt s t).senders.getD 4 0 ≤ n → (f.await = true → isLanded s1 a = true) →
    operandRows s1 t (found t c s).2 f.sbase.toNat f.soff.toNat (f.count.toNat + 1) [0, 3] 0 = .ok (a :: rest) →
    (∀ h ∈ (linkAt s l).handed, h.tile ≠ t) →
    ∃ s', exec (.handSelvedge t c f) s = .next s' ∧ OnlyTiles s s' ∧ (∀ b, rowGet s' b = rowGet s1 b) ∧
      (linkAt s' l).handed = (linkAt s l).handed ++ (List.range (f.count.toNat + 1)).map fun i =>
        { slot := bits e 54 4 + i, sp := s.sp - (tileAt s t).seq.behind, tile := t, issue := n
          woff := (f.soff.toNat + i) % 128
          ready := if i = 0 then
            some ((tileAt s t).cycleOf n + flightLat s t u + Config.meshHop * padHops s t u) else none
          frame := if i = 0 then { frame 0 with row := readFrame s1 t a n } else frame i, late := false }

/-- The two cycles of a row on a side link give back its window, its offset and its frame. The nine flits of a row on
the mesh give back its route header, every field at every value, and its frame, and each passes the check of its
CRC-16. Where the hops that the repair state adds to a path are no more than two for each die crossed, the flight
and the pad hops together take the latency of the profile. The bit order of the CRC is the choice of the model
(assumption 107). -/
def Obligations.RowsOnTheWireReadBack : Prop :=
  (∀ (window woff : Nat) (row : RowFrame), window < 256 → woff < 128 → row.data.length = 512 →
    sideReceive (sideCycles window woff row) = some (window, woff, row)) ∧
  (∀ (h : Route) (row : RowFrame), row.data.length = 512 →
    flitsRow (rowFlits h row) = (h, row) ∧ (rowFlits h row).length = 9 ∧ ∀ f ∈ rowFlits h row, flitOk f = true) ∧
  (∀ (s : State) (a b : Nat), pathPhys s a b ≤ pathHops a b + 2 * pathDies a b →
    flightLat s a b + Config.meshHop * padHops s a b = meshLat (profile s) a b)

/-- On a tile that issues its bundle, SEND_ON_SIDE_LINK to anything but an orthogonal logical neighbour, SEND_ON_MESH to
a tile off the grid, and either with a Module field that names another module, record fault 0x4003 of the tile:
nothing is sent and no row changes. -/
def Obligations.IllegalSendDestinationsAreFaults : Prop :=
  ∀ (t : TileIx) (c : Nat) (f : SSlot) (s : State), Inv s → tileIssues s t c = true → (tileAt s t).pipe = [] →
    let s1 := (found t c s).1
    let neighbour := f.dx.toNat < 24 ∧ (f.dy.toNat = tileY t ∧ (f.dx.toNat = tileX t + 1 ∨ f.dx.toNat + 1 = tileX t) ∨
      f.dx.toNat = tileX t ∧ (f.dy.toNat = tileY t + 1 ∨ f.dy.toNat + 1 = tileY t))
    let fails := fun (i : Instr) => ∃ s', exec i s = .next s' ∧ Recorded s s' (dieOf t) 0x4003 ∧ OnlyTiles s s' ∧
      (∀ a, rowGet s' a = rowGet s1 a) ∧ (tileAt s' t).pipe = [] ∧ s'.net.rows = s.net.rows
    (¬ neighbour ∨ foreign s1 t f.modl.toNat = true → fails (.sendSide t c f)) ∧
    (24 ≤ f.dx.toNat ∨ foreign s1 t f.modl.toNat = true → fails (.sendMesh t c f))

/-- While the module issues: a side-link row with a good proof word and a sound class S row of the mesh enter the queue
of their input where an entry is free and no earlier row waits with the sender, else stay with their sender, or join
the column landing port where their window is open on beam rows. A row that the module sent becomes readable in the
cycle of its nominal landing or one later, which counts as a late crossing in 0x2100:07, never earlier; it leaves
the network. A side-link row with a bad proof word is fault 0x4001. A mesh row that a router or bridge port on its
way has found bad is fault 0x4002 of its die, counted in 0x4000:13; with a bad header 0x4003; of another kind than a
row it has no effect; with a bad proof word 0x4001. A class B row waits at the mesh input with its generation. A
faulty row enters nothing, and no row of memory changes. -/
def Obligations.RowsThatArriveAtATile : Prop :=
  ∀ (t : TileIx) (c : Nat) (h : Route) (side : LandIn) (window : BitVec 8) (woff : BitVec 7) (row : RowFrame)
    (s : State),
    issuing s = true →
    let tile := tileAt s t
    let hdr : LandHdr := { window := window.toNat, woff := woff.toNat, seq := 0, landSp := 0 }
    let mhdr : LandHdr := { window := h.window.toNat, woff := h.woff.toNat, seq := 0, landSp := 0 }
    let enters := fun (i : Instr) (inp : LandIn) (r : LandRow) (rows : List NetRow) (late : Nat) =>
      ∃ s', exec i s = .next s' ∧ s' = { s with
          tiles := s'.tiles, objs := s'.objs, counting := s'.counting, net := { s.net with rows := rows } } ∧
        objGet s' 0x2100 7 = objGet s 0x2100 7 + late ∧ (∀ u, u ≠ t → tileAt s' u = tileAt s u) ∧
        tileAt s' t = entered tile inp r
    let landing := fun (hdr : LandHdr) (since : Nat) =>
      ({ hdr := hdr, row := row, back := none, port := none, since := since } : LandRow)
    let since := fun (due : Nat) => max (due - 1) (min c due)
    let fails := fun (i : Instr) (d code : Nat) => Inv s → ∃ s', exec i s = .next s' ∧ Recorded s s' d code ∧
      OnlyAside s s'
    (proofOk row = true →
      ((∀ r ∈ s.net.rows, r.dst ≠ t) →
        enters (.sideLanding t c side window woff row) side (landing hdr c) s.net.rows 0) ∧
      (∀ r, s.net.rows = [r] → r.dst = t → r.inp = side → r.hdr = hdr → r.port = none →
        enters (.sideLanding t c side window woff row) side (landing hdr (since r.due)) []
          (if r.due ≤ c then 1 else 0))) ∧
    (proofOk row = false → fails (.sideLanding t c side window woff row) (dieOf t) 0x4001) ∧
    (∀ x, fails (.meshEjection t c h row (.router x)) (dieOf x) 0x4002) ∧
    (∀ pair port, fails (.meshEjection t c h row (.port pair port))
      (if pair.val = 1 then 2 else if pair.val = 3 then 1 else 0) 0x4002) ∧
    (routeOk h = false → fails (.meshEjection t c h row .good) (dieOf t) 0x4003) ∧
    (routeOk h = true → h.kind ≠ 0 → exec (.meshEjection t c h row .good) s = .next s) ∧
    (routeOk h = true → h.kind = 0 →
      (proofOk row = false → fails (.meshEjection t c h row .good) (dieOf t) 0x4001) ∧
      (proofOk row = true → h.classB = true → enters (.meshEjection t c h row .good) .mesh { landing mhdr c with
        back := some { gen := h.gen, sender := ownCoord s, ref := 0 } } s.net.rows 0) ∧
      (proofOk row = true → h.classB = false →
        ((∀ r ∈ s.net.rows, r.dst ≠ t) →
          enters (.meshEjection t c h row .good) .mesh (landing mhdr c) s.net.rows 0) ∧
        (∀ r, s.net.rows = [r] → r.dst = t → r.inp = .mesh → r.hdr = mhdr → r.port = none →
          r.src.1 = 24 * h.sy.toNat + h.sx.toNat →
          enters (.meshEjection t c h row .good) .mesh (landing mhdr (since r.due)) []
            (if r.due ≤ c then 1 else 0))))

/-- While the module issues, on a tile for which no row is on the way or stays with its sender, with no row at the
column port and none sinking into the beam, in a cycle that is not the first of a task, LANDING_QUEUE_WRITE takes
the first two rows that have arrived, of the inputs in the order +x, −x, +y, −y, mesh, selvedge, or the one that
waits, and leaves the rest queued: each class S row whose window is open on bobbin or register rows, within the
window and with a good proof word, lands in the row of its window, with its landed bit set; every other row is as
before. A row for a closed window is fault 0x5004, its header kept; past the window 0x2008; with a bad proof word
0x2003: nothing is written. With no row queued, a row at the column port whose slice is free sets out for its beam
row and is written at the beam write latency; a row that has sunk is written by the first LANDING_QUEUE_WRITE of its
cycle or later. -/
def Obligations.LandingQueueWritesInOrder : Prop :=
  ∀ (t : TileIx) (c : Nat) (s : State), issuing s = true →
    let tile := tileAt s t
    tile.queue.length = 6 → tile.kept = List.replicate 6 [] → (∀ r ∈ s.net.rows, r.dst ≠ t) →
    tile.seq.begun ≠ some (tile.count c) →
    let x := takeRows c 2 tile.queue
    let win := fun (r : LandRow) => windowAt tile r.hdr.window
    let dst := fun (r : LandRow) => (win r).first + r.hdr.woff
    let good := fun (r : LandRow) => r.back = none ∧ (win r).opened = true ∧ r.hdr.woff < (win r).rows ∧
      proofOk r.row = true
    let sound := fun (r : LandRow) => good r ∧ addrSpace (dst r) ≠ 1
    let fails := fun (code : Nat) => Inv s → ∃ s', exec (.landingWrite t c) s = .next s' ∧ (tileAt s' t).queue = x.2 ∧
      Recorded s s' (dieOf t) code ∧ s'.mem = s.mem ∧ s'.landed = s.landed
    (tile.column = [] → tile.sinking = [] →
      (∀ r, sound r → x.1 = [r] → ∃ s', exec (.landingWrite t c) s = .next s' ∧ (tileAt s' t).queue = x.2 ∧
        rowGet s' (dst r) = { r.row with data := slice r.row.data 0 512 } ∧ isLanded s' (dst r) = true ∧
        ∀ a, a ≠ dst r → rowGet s' a = rowGet s a) ∧
      (∀ r1 r2, sound r1 → sound r2 → dst r1 ≠ dst r2 → x.1 = [r1, r2] →
        ∃ s', exec (.landingWrite t c) s = .next s' ∧ (tileAt s' t).queue = x.2 ∧
          rowGet s' (dst r1) = { r1.row with data := slice r1.row.data 0 512 } ∧ isLanded s' (dst r1) = true ∧
          rowGet s' (dst r2) = { r2.row with data := slice r2.row.data 0 512 } ∧ isLanded s' (dst r2) = true ∧
          ∀ a, a ≠ dst r1 → a ≠ dst r2 → rowGet s' a = rowGet s a) ∧
      (∀ r, x.1 = [r] → r.back = none → (win r).opened = false → fails 0x5004) ∧
      (∀ r, x.1 = [r] → r.back = none → (win r).opened = true → (win r).rows ≤ r.hdr.woff → fails 0x2008) ∧
      (∀ r, x.1 = [r] → r.back = none → (win r).opened = true → r.hdr.woff < (win r).rows → proofOk r.row = false →
        fails 0x2003) ∧
      (x.1 = [] → ∃ s', exec (.landingWrite t c) s = .next s' ∧ s'.mem = s.mem ∧ (tileAt s' t).queue = tile.queue)) ∧
    (∀ r, tile.column = [r] → tile.sinking = [] → x.1 = [] → good r → addrSpace (dst r) = 1 → r.since ≤ c →
      (sliceFree s (dst r) c = true → ∃ s', exec (.landingWrite t c) s = .next s' ∧ (tileAt s' t).column = [] ∧
        (tileAt s' t).sinking = [(c + Config.beamWrite, dst r, r.row)] ∧ s'.mem = s.mem) ∧
      (sliceFree s (dst r) c = false → ∃ s', exec (.landingWrite t c) s = .next s' ∧ (tileAt s' t).column = [r] ∧
        objGet s' 0x3100 0x11 = objGet s 0x3100 0x11 + queued c tile.queue + 1 ∧ s'.mem = s.mem)) ∧
    (∀ w a f, tile.column = [] → tile.sinking = [(w, a, f)] → w ≤ c → x.1 = [] →
      ∃ s', exec (.landingWrite t c) s = .next s' ∧ (tileAt s' t).sinking = [] ∧ isLanded s' a = true ∧
        rowGet s' a = { f with data := slice f.data 0 512 } ∧ ∀ b, b ≠ a → rowGet s' b = rowGet s b)

/-- In a cycle in which the ports and the slice leave it free, SCRUB_READ of a row with no upset, no poison and a good
proof word moves the scrubber to the next row of its column and changes no row; of a row with an uncorrectable
codeword or a bad proof word it records fault 0x2009 as well. After the last row of the column and its spares the
pass is complete: 0x3100:07 counts it and the scrubber stands at row 0. In a cycle that is not free nothing changes.
SCRUB_WRITE_BACK in a scrub slot of its slice in which the slice is free takes the first queued row of the slice:
its stored bits are those of its frame, poisoned where the queue entry says so, the entry leaves the queue and
0x3100:09 counts it; the frame of the row and every other row are as before. Where another write of the row has
issued, the entry leaves the queue, counted in 0x3100:0A. In any other cycle, and with no row queued for the slice,
nothing changes. -/
def Obligations.ScrubberReadsAndWritesBack : Prop :=
  ∀ (t : TileIx) (c : Nat) (s : State),
    let tile := tileAt s t
    let a := rowAddr t 1 tile.scrubRow
    let free := backFree s a c = true
    let moved := fun (s' : State) => (tileAt s' t).scrubRow = tile.scrubRow + 1 ∧ OnlyTiles s s' ∧ s'.mem = s.mem
    (tile.scrubRow < 737280 → free → mget [] s.upsets a = [] → mget false s.poison a = false →
      proofOk (rowGet s a) = true → ∃ s', exec (.scrubRead t c) s = .next s' ∧ moved s' ∧ s'.integrity = s.integrity) ∧
    (Inv s → tile.scrubRow < 737280 → free → (fetchRow s a).bad = true ∨ proofOk (fetchRow s a).frame = false →
      ∃ s', exec (.scrubRead t c) s = .next s' ∧ moved s' ∧ Raised s s' (dieOf t) 0x2009) ∧
    (737280 ≤ tile.scrubRow → tile.scrubRow + 1 < 740352 → ∃ s', exec (.scrubRead t c) s = .next s' ∧ moved s') ∧
    (tile.scrubRow + 1 = 740352 → ∃ s', exec (.scrubRead t c) s = .next s' ∧ (tileAt s' t).scrubRow = 0 ∧
      (tileAt s' t).scrubLate = false ∧ objGet s' 0x3100 7 = objGet s 0x3100 7 + 1 ∧ s'.mem = s.mem) ∧
    (tile.scrubRow < 737280 → ¬ free → exec (.scrubRead t c) s = .next s) ∧
    (∀ (j : Fin 24) r bad, tile.writeBack.find? (·.1 % 24 == j.val) = some (r, bad) → r < 2 ^ 20 →
      let b := rowAddr t 1 r
      let slot := scrubSlot tile.seq (tile.count c) j = true ∧ sliceFree s b c = true
      (writeIssued s b c = false → slot → ∃ s', exec (.scrubWriteBack t c j) s = .next s' ∧
        mget [] s'.upsets b = [] ∧ (bad = true → mget false s'.poison b = true) ∧
        (tileAt s' t).writeBack = tile.writeBack.filter (·.1 != r) ∧ objGet s' 0x3100 9 = objGet s 0x3100 9 + 1 ∧
        s' = { s with tiles := s'.tiles, upsets := s'.upsets, poison := s'.poison, objs := s'.objs } ∧
        ∀ x, x ≠ b → mget [] s'.upsets x = mget [] s.upsets x ∧ mget false s'.poison x = mget false s.poison x) ∧
      (writeIssued s b c = true → ∃ s', exec (.scrubWriteBack t c j) s = .next s' ∧
        s' = { s with tiles := s'.tiles, objs := s'.objs } ∧ objGet s' 0x3100 0xA = objGet s 0x3100 0xA + 1 ∧
        (tileAt s' t).writeBack = tile.writeBack.filter (·.1 != r)) ∧
      (writeIssued s b c = false → ¬ slot → exec (.scrubWriteBack t c j) s = .next s)) ∧
    (∀ j : Fin 24, tile.writeBack.find? (·.1 % 24 == j.val) = none → exec (.scrubWriteBack t c j) s = .next s)

/-- When the time since the scrub pass of a column began has reached four pass periods, LATE_SCRUB_PASS counts one late
pass in 0x3100:08, once for the pass, and the pass continues at its row; no fault is raised and nothing else
changes. -/
def Obligations.LatePassIsCountedOnce : Prop :=
  ∀ (t : TileIx) (s : State),
    let tile := tileAt s t
    (tile.scrubLate = false → tile.scrubAt + 4 * passTicks s ≤ scrubTime s →
      ∃ s', exec (.lateScrubPass t) s = .next s' ∧
      objGet s' 0x3100 8 = objGet s 0x3100 8 + 1 ∧ tileAt s' t = { tile with scrubLate := true } ∧
      s' = { s with tiles := s'.tiles, objs := s'.objs } ∧ ∀ u, u ≠ t → tileAt s' u = tileAt s u) ∧
    (tile.scrubLate = true ∨ scrubTime s < tile.scrubAt + 4 * passTicks s → exec (.lateScrubPass t) s = .next s)

/-- While the module issues, on a tile with nothing in flight, DIGEST_ROW_WRITE of a send descriptor whose rows have all
been read, the newest at least 4 cycles ago, writes its digest row: the row holds the digest, the module and tile
coordinates and the count, with a fresh proof word, its landed bit is set, the descriptor starts anew, and every
other row is as before. Of a descriptor with rows still to read, or read less than 4 cycles ago, or of no
descriptor, nothing changes. -/
def Obligations.DigestRowIsWrittenWhenComplete : Prop :=
  ∀ (t : TileIx) (c : Nat) (i : Fin 8) (s : State), issuing s = true → (tileAt s t).pipe = [] →
    let tile := tileAt s t
    let ripe := fun (d : Digest) => d.seen.length = d.n ∧ d.lastAt + 4 ≤ tile.count c
    let named := (tile.digests.filter (·.send))[i.val]?
    (∀ d, named = some d → ripe d →
      let w := baseWord s t tile d.dbase
      let a := rowAddr t (addrSpace w) (addrRow w + d.doff)
      ∃ s', exec (.digestRowWrite t c i) s = .next s' ∧ isLanded s' a = true ∧
        rowGet s' a = freshFrame (digestRow s t d) 0 ∧ leAt (rowGet s' a).data 0 8 = d.acc.toNat ∧
        (tileAt s' t).digests = tile.digests.map (fun x => if x = d then d.fresh else x) ∧
        ∀ b, b ≠ a → rowGet s' b = rowGet s b) ∧
    (∀ d, named = some d → ¬ ripe d → exec (.digestRowWrite t c i) s = .next s) ∧
    (named = none → exec (.digestRowWrite t c i) s = .next s)

/-- CLASS_B_INJECTION takes the first packet waiting at the die that may go, by level control, notice, bulk, and within
a level the first whose activity has not spent its budget in this time pick: the budget spent rises by its flits,
the packet waits no more, the order of the others is unchanged, and frames for links join the class B queues of
their ports. With no such packet nothing changes. BRIDGE_PORT_FAILURE during a job marks the port, records fault
0x4005 and changes only what faults and the repair table may; outside a job it changes nothing. -/
def Obligations.WaitingPacketsAndFailedPorts : Prop :=
  (∀ (d : DieIx) (v i : Nat) (w : WaitB) (s : State),
    let queue := fun (v : Nat) => s.net.waiting.getD (3 * d.val + v) []
    let may := fun (x : WaitB) => isSpent s d x.act = false
    v < 3 → (queue v)[i]? = some w → may w → (∀ j x, j < i → (queue v)[j]? = some x → ¬ may x) →
    (∀ u, u < v → ∀ x ∈ queue u, ¬ may x) → s.net.arrived = [] → (∀ o ∈ w.items, ∃ l b f, o = .classB l b f) →
    ∃ t, exec (.classBInjection d) s = .next t ∧ OnlySent s t ∧
      spentBy t d w.act = spentBy s d w.act + w.flits ∧
      t.net.waiting = s.net.waiting.set (3 * d.val + v) ((queue v).eraseIdx i) ∧
      (∀ l b f, .classB l b f ∈ w.items → (s.tick, b, f) ∈ (linkAt t l).bulk) ∧
      t.net = { s.net with spent := t.net.spent, waiting := t.net.waiting }) ∧
  (∀ (d : DieIx) (s : State), s.net.arrived = [] →
    (∀ v, v < 3 → ∀ x ∈ s.net.waiting.getD (3 * d.val + v) [], isSpent s d x.act = true) →
    exec (.classBInjection d) s = .next s) ∧
  (∀ (p : Fin 4) (q : Fin 34) (s : State), Inv s → s.job = true → ∃ t, exec (.bridgePortFailure p q) s = .next t ∧
    (p.val, q.val) ∈ t.integrity.markPorts ∧ OnlyAside s t ∧
    Recorded s t (if p.val = 1 then 2 else if p.val = 3 then 1 else 0) 0x4005) ∧
  (∀ (p : Fin 4) (q : Fin 34) (s : State), s.job = false → exec (.bridgePortFailure p q) s = .next s)

/-- In a job whose safe stop has not come about, a sound frame for this module counts its corrected codewords in
0x41nn:09; before its landing SP it waits in the landing queue of the port, from then on it sets out on the mesh for
the selvedge queue of its tile, where it lands no earlier than the latency of its path and pad; a tile off the grid
is fault 0x4003. A sound frame for another module with a forward entry whose send SP is to come is handed to the
link of the entry, header and row kept but for its transmit SP, and counts in 0x41nn:12; with no entry it is fault
0x4012. An uncorrectable one, or one with a bad proof word, counts its codewords in 0x41nn:0A and is requested again
and awaited, or after more failures than 0x41nn:0F is fault 0x4011. Rows of memory change in none of these. Outside,
nothing changes. -/
def Obligations.ScheduledFramesLandForwardOrRetry : Prop :=
  ∀ (i : Instr) (link : LinkIx) (f : Frame) (chk : RxCheck) (s : State), Inv s →
    i = .scheduledRow link f chk ∨ i = .scheduledRetrans link f chk →
    let l := link.val
    let o := 0x4100 + l
    let u := 24 * f.ty.toNat + f.tx.toNat
    let q := f.seq.toNat
    let gives := fun (post : State → Prop) => ∃ s', exec i s = .next s' ∧ s'.mem = s.mem ∧ post s'
    (linkLive s = true → ∀ n, chk = .good n → proofOk f.row = true → f.dest = ownCoord s →
      (s.sp < landingSp s f → gives fun s' => s'.tiles = s.tiles ∧ objGet s' o 9 = objGet s o 9 + n ∧
        (linkAt s' l).landing = (linkAt s l).landing ++ [f]) ∧
      (landingSp s f ≤ s.sp → f.tx.toNat < 24 → gives fun s' => objGet s' o 9 = objGet s o 9 + n ∧
        ∃ r ∈ s'.net.rows, r.dst = u ∧ r.inp = .selvedge ∧ r.row = f.row ∧
          r.hdr = { window := f.window.toNat, woff := f.woff.toNat, seq := q, landSp := f.landSp.toNat } ∧
          cycleNow s + flightLat s (attachTile l) u + Config.meshHop * padHops s (attachTile l) u ≤ r.due) ∧
      (landingSp s f ≤ s.sp → 24 ≤ f.tx.toNat → gives fun s' => s'.tiles = s.tiles ∧ Recorded s s' (l / 9) 0x4003)) ∧
    (linkLive s = true → ∀ n, chk = .good n → proofOk f.row = true → f.dest ≠ ownCoord s →
      let e := match s.pattern with
        | none => 0
        | some p => ((p.forwards.getD l []).getD (positionSlot (q % 16)) 0).toNat
      let out := bits e 9 6
      let t := nearestSp s.sp f.sendSp.toNat + assumed s l + 1
      (e < 2 ^ 15 → gives fun s' => s'.tiles = s.tiles ∧ Recorded s s' (l / 9) 0x4012) ∧
      (2 ^ 15 ≤ e → s.sp < t → gives fun s' => s'.tiles = s.tiles ∧
        objGet s' (0x4100 + out) 0x12 = objGet s (0x4100 + out) 0x12 + 1 ∧
        ({ slot := bits e 5 4, sp := t - 1, tile := 768, issue := q, woff := f.woff.toNat
           ready := some (cycleNow s + meshLat (profile s) (attachTile l) (attachTile out))
           frame := { f with sendSp := BitVec.ofNat 16 t }, late := false } : Handed) ∈ (linkAt s' out).handed)) ∧
    (linkLive s = true → ∀ n, chk = .bad n ∨ (∃ m, chk = .good m) ∧ proofOk f.row = false ∧ n = 0 →
      let times := mget 0 (linkAt s l).failures q + 1
      (objGet s o 0xF < times → gives fun s' => Recorded s s' (l / 9) 0x4011 ∧ objGet s' o 0xA = objGet s o 0xA + n) ∧
      (times ≤ objGet s o 0xF → gives fun s' => .retry l q ∈ s'.out ∧ mget 0 (linkAt s' l).failures q = times ∧
        objGet s' o 0xA = objGet s o 0xA + n ∧
        (.frame l q ∈ s'.hold.awaited ∨ ∃ x ∈ s'.hold.expected, x.item = .frame l q))) ∧
    (linkLive s = false → exec i s = .next s)

/-- In a job whose safe stop has not come about: a sound background write for this module whose activity may go enters
the mesh at its port and arrives at the mesh input of its tile at the latency of the path, with its generation and
the sender that its acknowledgement goes to; one that must wait waits at its injection point, counted in 0x4000:12;
a tile off the grid is fault 0x4003. One for another module joins the class B queue of the link on its way. An
uncorrectable write or acknowledgement frame is requested again, or after more failures than 0x41nn:0F is fault
0x4011. An acknowledgement of a write in its generation with the window open ends it. A refused one has one refusal
more, takes the generation of the acknowledgement, plus one where the window is closed, and may go again from the
next time pick on; after 0x3100:0F refusals it is abandoned and counted in 0x3100:10. BACKGROUND_RETRY sends a write
whose time pick has come, from the corner tile of its die (the choice of the model, assumption 114), and changes
nothing before. Outside, nothing changes. -/
def Obligations.BackgroundWritesLandOrRetry : Prop :=
  (∀ (link : LinkIx) (f : Frame) (chk : RxCheck) (ref : Nat) (s : State), Inv s → s.net.arrived = [] →
    let l := link.val
    let d := l / 9
    let u := 24 * f.ty.toNat + f.tx.toNat
    let a := f.activity.toNat
    let i : Instr := .backgroundWrite link f chk ref
    let r : LandRow := { hdr := { window := f.window.toNat, woff := f.woff.toNat, seq := 0, landSp := 0 }, row := f.row
                         back := some { gen := f.gen, sender := peerCoord s l, ref := ref }, port := none
                         since := cycleNow s + meshLat (profile s) (attachTile l) u }
    (linkLive s = true → ∀ n, chk = .good n → proofOk f.row = true → f.dest = ownCoord s →
      (f.tx.toNat < 24 → mayGo s d a → ∃ s', exec i s = .next s' ∧ OnlySent { s with tiles := s'.tiles } s' ∧
        tileAt s' u = entered (tileAt s u) .mesh r ∧ ∀ v, v ≠ u → tileAt s' v = tileAt s v) ∧
      (f.tx.toNat < 24 → mustWait s d a → ∃ s', exec i s = .next s' ∧
        Waits s s' d a 9 [backLanding (attachTile l) u a f.window.toNat f.woff.toNat f.gen f.row (peerCoord s l) ref] ∧
        objGet s' 0x4000 0x12 = objGet s 0x4000 0x12 + 1) ∧
      (24 ≤ f.tx.toNat → ∃ s', exec i s = .next s' ∧ Recorded s s' d 0x4003 ∧ OnlyAside s s')) ∧
    (linkLive s = true → ∀ n x, chk = .good n → proofOk f.row = true → f.dest ≠ ownCoord s →
      routeLink s f.dest = some x → mayGo s d a → ∃ s', exec i s = .next s' ∧ OnlySent s s' ∧
        (linkAt s' x).bulk = (linkAt s x).bulk ++ [(s.tick, noticeLevel f.kind, f)]) ∧
    (linkLive s = false → exec i s = .next s)) ∧
  (∀ (i : Instr) (link : LinkIx) (f : Frame) (chk : RxCheck) (ref n : Nat) (acks : List BackAck) (s : State), Inv s →
    linkLive s = true →
    i = .backgroundWrite link f chk ref ∧ (chk = .bad n ∨ (∃ m, chk = .good m) ∧ proofOk f.row = false ∧ n = 0) ∨
      i = .backgroundAck ⟨link, ⟨f, chk⟩, acks⟩ ∧ chk = .bad n →
    let l := link.val
    let q := f.seq.toNat
    let times := mget 0 (linkAt s l).failures q + 1
    (objGet s (0x4100 + l) 0xF < times → ∃ s', exec i s = .next s' ∧ Recorded s s' (l / 9) 0x4011 ∧ OnlyAside s s') ∧
    (times ≤ objGet s (0x4100 + l) 0xF → ∃ s', exec i s = .next s' ∧ .retry l q ∈ s'.out ∧
      mget 0 (linkAt s' l).failures q = times ∧ s'.mem = s.mem ∧ s'.tiles = s.tiles)) ∧
  (∀ (link : LinkIx) (f : Frame) (n : Nat) (a : BackAck) (s : State), linkLive s = true → s.net.arrived = [] →
    mayGo s (link.val / 9) 2 →
    let i : Instr := .backgroundAck ⟨link, ⟨f, .good n⟩, [a]⟩
    (f.dest = ownCoord s → ∀ w, s.net.backs.find? (·.ref == a.ref) = some w →
      let rest := s.net.backs.filter (·.ref != a.ref)
      let refused := a.opened = false ∨ a.gen ≠ w.gen
      (¬ refused → ∃ s', exec i s = .next s' ∧ OnlySent s s' ∧ s'.net.backs = rest) ∧
      (refused → objGet s 0x3100 0xF ≤ w.refused + 1 → ∃ s', exec i s = .next s' ∧ OnlySent s s' ∧
        s'.net.backs = rest ∧ objGet s' 0x3100 0x10 = objGet s 0x3100 0x10 + 1) ∧
      (refused → w.refused + 1 < objGet s 0x3100 0xF → ∃ s', exec i s = .next s' ∧ OnlySent s s' ∧
        s'.net.backs.find? (·.ref == a.ref) = some { w with
          refused := w.refused + 1, gen := if a.opened then a.gen else a.gen + 1, retryTp := some (s.tp + 1) } ∧
        s'.net.backs.filter (·.ref != a.ref) = rest)) ∧
    (f.dest ≠ ownCoord s → f.activity = 2 → f.kind = .backAck → ∀ x, routeLink s f.dest = some x →
      ∃ s', exec i s = .next s' ∧ OnlySent s s' ∧ (linkAt s' x).bulk = (linkAt s x).bulk ++ [(s.tick, true, f)])) ∧
  (∀ (ref tp : Nat) (w : BackWrite) (s : State), s.net.backs.find? (·.ref == ref) = some w → w.retryTp = some tp →
    let r : LandRow := { hdr := { window := w.window % 256, woff := w.woff, seq := 0, landSp := 0 }, row := w.row
                         back := some { gen := w.gen, sender := w.dest, ref := w.ref }, port := none
                         since := cycleNow s + meshLat (profile s) (corner w.die) w.tile }
    (linkLive s = true → tp ≤ s.tp → w.window < 256 → w.die < 4 → s.net.arrived = [] → mayGo s w.die w.act →
      ∃ s', exec (.backgroundRetry ref) s = .next s' ∧ .backWrite { w with retryTp := none } ∈ s'.out ∧
        OnlySent { s with tiles := s'.tiles } s' ∧ tileAt s' w.tile = entered (tileAt s w.tile) .mesh r ∧
        s'.net.backs.find? (·.ref == ref) = some { w with retryTp := none }) ∧
    (linkLive s = false ∨ s.tp < tp → exec (.backgroundRetry ref) s = .next s))

/-- The positions of the pick of a link that have begun are filled first. A retry request for a frame sent within 17
time picks, in RETRY_REQUEST or in an IDLE, then puts that frame, or the empty frame its position carried, among
those to resend; an older one is fault 0x4013; in a safe stop neither. RETRANSMISSION of a link that is up sends the
first of them in the reserve slot where it is free and has not begun, a scheduled row as a retransmission, and
counts it in 0x41nn:0B; with none to resend it does nothing more. SELVEDGE_LATE_ROW of a job sends a late row in the
send buffer in a free position and takes it off the list. A control block that cannot be corrected is fault 0x4014
in a job and counts in 0x41nn:0A outside, where training repeats the exchange that it interrupted; a good one counts
its symbols of reserved type in the top 16 bits of 0x41nn:11 and changes nothing else, nor does an IDLE with no
retry and no pick to check. An IDLE whose tag does not match the pick of a sealed job is fault 0x7010. -/
def Obligations.RetriesAndControlBlocks : Prop :=
  ∀ (link : LinkIx) (s : State), Inv s →
    let l := link.val
    let o := 0x4100 + l
    let s0 := advanceLink l s
    let k := linkAt s0 l
    let full := linkState s l == 2
    let r := reserveSlot full
    (∀ (q : BitVec 16) (i : Instr), i = .retryRequest link q ∨ (∃ p, i = .idle link (some q) p none) →
      let age := (s.tp % 4096 + 4096 - q.toNat / 16) % 4096
      let empty : SentFrame := { tp := s.tp - age, seq := q.toNat, frame := emptyFrame (s.tp - age) (q.toNat % 16) }
      (stopState s ≠ 0 → exec i s = .next s0) ∧
      (stopState s = 0 → age < 17 → q.toNat % 16 < positions full → ∃ s', exec i s = .next s' ∧
        (s.tick, (k.sent.find? (·.seq == q.toNat)).getD empty) ∈ (linkAt s' l).resend ∧
        (∀ y ∈ k.resend, y ∈ (linkAt s' l).resend) ∧ s' = { s0 with links := s'.links }) ∧
      (stopState s = 0 → 17 ≤ age ∨ positions full ≤ q.toNat % 16 → ∃ s', exec i s = .next s' ∧
        Recorded s s' (l / 9) 0x4013 ∧ OnlyAside s0 s')) ∧
    (∀ x rest, k.resend = x :: rest → linkUp s l = true → k.used.lookup r = none → notBegun s full r = true →
      let g := if classS x.2.frame.kind then { x.2.frame with kind := .retransmission } else x.2.frame
      ∃ s', exec (.retransmission link) s = .next s' ∧ OnlySent s0 s' ∧ s'.out = s0.out ++ [.linkFrame l r g] ∧
        (linkAt s' l).resend = rest ∧ (linkAt s' l).used.lookup r = some (.frame g) ∧
        objGet s' o 0xB = objGet s0 o 0xB + 1) ∧
    (k.resend = [] → exec (.retransmission link) s = .next s0) ∧
    (∀ n h at_ pos, s.job = true → ((linkAt s l).handed.filter (·.late))[n]? = some h → h.ready = some at_ →
      h ∈ k.handed → freePosition s0 l = some pos → ∃ s', exec (.selvedgeLateRow link n) s = .next s' ∧
        s'.out = s0.out ++ [.linkFrame l pos { h.frame with seq := frameSeq s.tp pos }] ∧
        (linkAt s' l).handed = k.handed.erase h ∧ s'.tiles = s.tiles ∧ s'.mem = s.mem) ∧
    (s.job = false → ∀ n, exec (.selvedgeLateRow link n) s = .next s) ∧
    (exec (.controlBlock link ⟨true, 0⟩) s = .next s) ∧
    (∀ n, 0 < n → objGet s o 0x11 / 2 ^ 48 + n < 2 ^ 16 → ∃ s', exec (.controlBlock link ⟨true, n⟩) s = .next s' ∧
      s' = { s with objs := s'.objs } ∧ objGet s' o 0x11 = objGet s o 0x11 + n * 2 ^ 48) ∧
    (∀ n, s.job = true → ∃ s', exec (.controlBlock link ⟨false, n⟩) s = .next s' ∧ Recorded s s' (l / 9) 0x4014 ∧
      OnlyAside s s') ∧
    (∀ n, s.job = false → ∃ s', exec (.controlBlock link ⟨false, n⟩) s = .next s' ∧ OnlySent s s' ∧
      objGet s' o 0xA = objGet s o 0xA + 1 ∧ (linkState s l ≠ 1 → s' = { s with objs := s'.objs }) ∧
      (linkState s l = 1 → (linkAt s l).step = 6 → .symbol l 3 (timePayload 1 0 s.tick) ∈ s'.out) ∧
      (linkState s l = 1 → (linkAt s l).step = 5 → coordsSet s = true →
        .symbol l 5 (coordPayload (ownCoord s) l (linkDir l) (linkRank l) (objGet s 0x1000 5)) ∈ s'.out)) ∧
    (∀ p, exec (.idle link none p none) s = .next s) ∧
    (∀ payload p, linkSealed s l = true → linkLive s = true → pickTagOk s l p payload = false →
      ∃ s', exec (.idle link none payload (some p)) s = .next s' ∧ Recorded s s' (l / 9) 0x7010 ∧ OnlyAside s s' ∧
        objGet s' 0x6100 0x15 = objGet s 0x6100 0x15 + 1)

/-- Outside a job, training of an enabled link that trains, or has failed fewer than 3 times at step S11, counts the
training and records the good lanes: with 3 or more the link trains on at the COORD exchange, with fewer it is in
state 4. In the exchange each COORD records the coordinates and link of the peer; the eighth in a row that agree
with each other begins the delay measurement at the current tick where it is what is expected, and leaves state 5
where it is not; a miswired link records what it receives and stays miswired. A delay request on a link that trains
or is up is echoed at the port. The echo of the round trip in progress records it; the 64th records the largest in
0x41nn:05 and the delay in 0x41nn:04, and a delay of at most 8 picks brings the link up, in state 2 with all four
lanes, else 3, a longer one leaves state 6. A step that times out takes a lane, or leaves state 4, 5 or 6. With the
last link of S11 settled the start goes on to S12. Loss of block lock of a link that is up is fault 0x4010 in a job,
and outside one takes the link down. -/
def Obligations.LinkTrainingRunsItsSteps : Prop :=
  ∀ (link : LinkIx) (s : State), Inv s →
    let l := link.val
    let k := linkAt s l
    let o := 0x4100 + l
    let gives := fun (i : Instr) (post : State → Prop) => ∃ t, exec i s = .next (settleS11 t) ∧ t.mem = s.mem ∧
      t.tiles = s.tiles ∧ post t
    let good := fun (m : Nat) => ((List.range 4).filter (bitOf m)).length
    (∀ lanes : List LaneTrain, (mayTrain s l = false → exec (.linkTraining link lanes) s = .next (settleS11 s)) ∧
      (mayTrain s l = true → gives (.linkTraining link lanes) fun t => (linkAt t l).trainings = k.trainings + 1 ∧
        (∀ i x, i < 4 → lanes[i]? = some x → bitOf (objGet t o 3) i = laneGood x) ∧
        (3 ≤ ((lanes.take 4).filter laneGood).length → linkState t l = 1 ∧ (linkAt t l).step = 5 ∧
          (coordsSet s = true →
            .symbol l 5 (coordPayload (ownCoord s) l (linkDir l) (linkRank l) (objGet s 0x1000 5)) ∈ t.out)) ∧
        (((lanes.take 4).filter laneGood).length < 3 → linkState t l = 4))) ∧
    (∀ (peer : Coord) (pl : BitVec 6) (dir rank : BitVec 3) (st : BitVec 8),
      let n := if peer = peerCoord s l ∧ pl.toNat = objGet s o 7 ∧ k.stepping = some st.toNat then k.coords + 1 else 1
      let good := peer = expectedPeer s (linkDir l) ∧ rank.toNat = linkRank l ∧
        dir.toNat = (if linkDir l % 2 = 0 then linkDir l + 1 else linkDir l - 1)
      let takes := fun (post : State → Prop) => gives (.coord link peer pl dir rank st) fun t =>
        objGet t o 6 = coordNat peer ∧ objGet t o 7 = pl.toNat ∧ (linkAt t l).coords = n ∧ post t
      (linkState s l = 5 → takes fun t => linkState t l = 5) ∧
      (linkState s l = 1 → k.step = 5 → coordsSet s = false ∨ n < 8 → takes fun t =>
        linkState t l = 1 ∧ (linkAt t l).step = 5) ∧
      (linkState s l = 1 → k.step = 5 → coordsSet s = true → 8 ≤ n →
        (good → takes fun t => (linkAt t l).step = 6 ∧ (linkAt t l).t0 = some s.tick ∧
          .symbol l 3 (timePayload 1 0 s.tick) ∈ t.out) ∧
        (¬ good → takes fun t => linkState t l = 5)) ∧
      (linkState s l ≠ 5 → linkState s l ≠ 1 ∨ k.step ≠ 5 →
        exec (.coord link peer pl dir rank st) s = .next (settleS11 s))) ∧
    (∀ (t0 : BitVec 64) (u : BitVec 24),
      (linkState s l = 1 ∨ linkUp s l = true → ∃ s', exec (.timeDelayRequest link t0 u) s = .next s' ∧ OnlySent s s' ∧
        .symbol l 3 (timePayload 2 u.toNat t0.toNat) ∈ s'.out) ∧
      (linkState s l ≠ 1 → linkUp s l = false → exec (.timeDelayRequest link t0 u) s = .next s)) ∧
    (∀ (t0 : BitVec 64) (u : BitVec 24), linkState s l = 1 → k.step = 6 → k.t0 = some t0.toNat →
      let trips := k.trips ++ [s.tick - t0.toNat - u.toNat]
      (trips.length < 64 → gives (.timeDelayEcho link t0 u) fun t => (linkAt t l).trips = trips ∧
        (linkAt t l).t0 = some s.tick ∧ linkState t l = 1) ∧
      (64 ≤ trips.length → (fnAt s l).state = 1 → gives (.timeDelayEcho link t0 u) fun t =>
        let rtt := trips.foldl max 0
        objGet t o 5 = rtt ∧ objGet t o 4 = delayPicks rtt ∧
        linkState t l = (if 8 < delayPicks rtt then 6 else if objGet s o 3 = 15 then 2 else 3))) ∧
    (∀ step lane : Nat,
      (linkState s l ≠ 1 → exec (.trainingTimeout link step lane) s = .next (settleS11 s)) ∧
      (linkState s l = 1 → step = 5 → coordsSet s = true →
        gives (.trainingTimeout link step lane) fun t => linkState t l = 5) ∧
      (linkState s l = 1 → step = 6 → gives (.trainingTimeout link step lane) fun t => linkState t l = 6) ∧
      (linkState s l = 1 → step ≤ 3 → gives (.trainingTimeout link step lane) fun t =>
        objGet t o 3 = (if bitOf (objGet s o 3) lane then objGet s o 3 - 2 ^ lane else objGet s o 3) ∧
        linkState t l = (if good (objGet t o 3) < 3 then 4 else 1))) ∧
    (∀ lane : Fin 4, (linkUp s l = false → exec (.blockLockLoss link lane) s = .next s) ∧
      (linkUp s l = true → s.job = true → ∃ s', exec (.blockLockLoss link lane) s = .next s' ∧
        Recorded s s' (l / 9) 0x4010 ∧ OnlyAside s s') ∧
      (linkUp s l = true → s.job = false → ∃ s', exec (.blockLockLoss link lane) s = .next s' ∧ linkState s' l = 0 ∧
        s'.mem = s.mem ∧ s'.tiles = s.tiles))

/-- For every bundle whose operations the loader accepts, decoding its 256 bits gives the bundle back, every field of
every slot at every value; a word of 256 bits that decodes to a bundle is that bundle encoded, so no reserved bit is
ignored. The same holds of the 128 bits of the control words HOLD, RELEASE and PACE. -/
def Obligations.BundlesAndControlWordsDecodeAsEncoded : Prop :=
  (∀ b : Bundle, legalBundle b = true → encodeBundle b < 2 ^ 256 ∧ decodeBundle (encodeBundle b) = some b) ∧
  (∀ (x : Nat) (b : Bundle), x < 2 ^ 256 → decodeBundle x = some b → encodeBundle b = x ∧ legalBundle b = true) ∧
  (∀ (k : CwKind) (w : ControlWord), encodeCw k w < 2 ^ 128 ∧ decodeCw (encodeCw k w) = some (k, w)) ∧
  (∀ (x : Nat) (k : CwKind) (w : ControlWord), x < 2 ^ 128 → decodeCw x = some (k, w) → encodeCw k w = x)

/-- For every command that writes an entry: on a path that is down nothing happens. On a path that is up the mailbox
answers 0x0E; an entry of C0 with no code running 0x0D; no such entry 0x01; a path whose privilege is too low, or
which may not write the entry, 0x05; a CONST or RO entry 0x03; a length that is not that of an entry of fixed
length, or above the maximum of another, 0x02; a BOOL above 1 or a string that is not UTF-8 0x06; an entry refused
during a job, in a job or while a sealed one is cleared, 0x07 (a result destination apart, which a job may disable);
a number, its reserved bits left out, outside the range of the entry 0x06 (the heartbeat period apart, which has 0
too); otherwise a refusal of the chapter of the entry. Each refusal counts as a request served and refused, is kept
as the last one, and changes nothing else. -/
def Obligations.RefusedWritesChangeNothing : Prop :=
  ∀ (i : Instr) (p : Path) (ix j : Nat) (v : Bytes) (s : State), objectWrite i = some (p, ix, j, v) →
    let away := fun status => ∃ s', exec i s = .next s' ∧ TurnedAway s s' p 2 ix j status
    (pathOpen s p = false → exec i s = .next s) ∧
    (pathOpen s p = true → p = .doe → away 0xE) ∧
    (pathOpen s p = true → p ≠ .doe → codeRunning s = false → mgmtCopy ix = false → away 0xD) ∧
    (pathOpen s p = true → p ≠ .doe → codeRunning s = true ∨ mgmtCopy ix = true →
      (entry? ix j = none → away 1) ∧
      ∀ r, entry? ix j = some r →
        let low := pathPrivilege s p < writePrivilege ix j ∨ pathBarred p ix j = true
        let long := r.fixed = true ∧ v.length ≠ r.len ∨ r.len < v.length
        let bad := r.ty = 1 ∧ 1 < leNat v ∨ r.ty = 10 ∧ utf8Valid v = false
        let n := definedNum ix j (leNat v)
        let off := r.octets = false ∧ (n < r.lo ∨ r.hi < n) ∧ ¬ (ix = 0x9000 ∧ j = 6)
        let own := ownRefusal s ix j (definedValue r ix j v)
        (low → away 5) ∧
        (¬ low → r.acc ≤ 1 → away 3) ∧
        (¬ low → 2 ≤ r.acc → long → away 2) ∧
        (¬ low → 2 ≤ r.acc → ¬ long → bad → away 6) ∧
        (¬ low → 2 ≤ r.acc → ¬ long → ¬ bad → r.job = true → jobOn s = true → ix ≠ 0x8102 → away 7) ∧
        (¬ low → 2 ≤ r.acc → ¬ long → ¬ bad → r.job = false ∨ jobOn s = false → off → away 6) ∧
        (¬ low → 2 ≤ r.acc → ¬ long → ¬ bad → r.job = false ∨ jobOn s = false → ¬ off →
          own ≠ 0 → away own))

/-- On a path with operator privilege while the code runs, a write of the right length that no chapter refuses is
answered with status 0 and takes its effect: the pace floor outside a job at once, in a job on the lead as a
request; coordinates with every up link training again; a start tick begins a job with its start check, one less
than 800,000 ticks away fails it; indices of rings; a load record opens its slot or refuses it with its reason;
zeros close it; a chain entry; the end of a stopped job; defaults at the next reset; enables, answered once stored;
result destinations; counting modes, which clear the counters whose mode changes; a snapshot request; a selector,
loaded at the next boundary; a sample read index; a reset request; any other numeric entry its value, with its
reserved bits 0. A write to a ring of BAR0 writes port memory alone. -/
def Obligations.AcceptedWritesTakeEffect : Prop :=
  (∀ (p : Path) (v : Bytes) (s : State), Inv s → pathOpen s p = true → codeRunning s = true → pathPrivilege s p = 1 →
    let n := leNat v
    let done := fun (i : Instr) (ix j : Nat) (post : State → Prop) =>
      ∃ s', exec i s = .next s' ∧ .response p (answerOf 2 ix j 0 []) ∈ s'.out ∧ post s'
    let reads := fun (ix j : Nat) (s' : State) => objGet s' ix j = definedNum ix j n ∧
      s' = { s with objs := s'.objs, out := s.out ++ [.response p (answerOf 2 ix j 0 [])] }
    (v.length = 1 → s.job = false → Config.minPace s.ident.grade ≤ n → n ≤ Config.maxPace →
      done (.paceFloorWrite p v) 0x4300 3 (reads 0x4300 3)) ∧
    (v.length = 1 → s.job = true → s.started = true → isLead s = true → Config.minPace s.ident.grade ≤ n →
      s.hold.floor0 ≤ n → n ≤ Config.maxPace →
      done (.paceFloorWrite p v) 0x4300 3 fun s' => s'.treadle = { s.treadle with floorReq := some n }) ∧
    (v.length = 2 → jobOn s = false → coordInside s n = true → done (.coordsWrite p v) 0x4200 1 fun s' =>
      objGet s' 0x4200 1 = n % 0x1000 ∧ ∀ l, l < 36 → linkUp s l = true → linkState s' l = 1) ∧
    (v.length = 8 → s.job = false → startState s = 1 → session s ≠ 5 → done (.startTickWrite p v) 0x4200 0x13 fun s' =>
      s'.job = true ∧ s'.started = false ∧ objGet s' 0x4200 0x13 = n ∧
      objGet s' 0x4200 0x14 = (if s.tick + 800000 ≤ n then 1 else 3) ∧
      (n < s.tick + 800000 → Recorded s s' 0 0x4021)) ∧
    (v.length = 4 → (let c := objGet s 0x5000 9
        idxAhead c n ≤ idxAhead c (objGet s 0x5000 8) ∧
        ∀ d, d < 8 → destOn (destEntry s d) = true → idxAhead c n ≤ idxAhead c (releaseIndex s d)) →
      done (.consumerIndexWrite p v) 0x5000 9 (reads 0x5000 9)) ∧
    (v.length = 4 → idxAhead (objGet s 0x5100 7) n ≤ 1024 → s.job = true → s.started = true → isLead s = true →
      s.integrity.stopLine = false → done (.tracerProducerWrite p v) 0x5100 6 (reads 0x5100 6)) ∧
    (∀ k : Fin 16, (loadAt s k.val).state = 0 → s.integrity.stopLine = false → v.length = 128 → allZero v = false →
      done (.loadRecordWrite p k v) 0x5200 (0x10 + k.val) fun s' => loadRecord s' k.val = v ∧
        loadAt s' k.val = { Load.reset with
          state := if loadRefusal s k.val v = 0 then 1 else 6, reason := loadRefusal s k.val v, base := recBase v }) ∧
    (∀ k : Fin 16, closeRefused s k.val = false → done (.loadSlotClose p k) 0x5200 (0x10 + k.val) fun s' =>
      loadRecord s' k.val = zeros 128 ∧ loadAt s' k.val = Load.reset) ∧
    (∀ k : Fin 8, v.length = 4 → bits n 24 8 = 0xFF → bits n 16 8 ≤ 35 ∨ bits n 16 8 = 0xFF →
      openLoad s k.val = none → done (.chainEntryWrite p k v) 0x5200 (8 + k.val) (reads 0x5200 (8 + k.val))) ∧
    (v = [1] → stopState s = 2 → done (.endStoppedJob p v) 0x6000 8 fun s' => s'.job = false ∧ stopState s' = 0 ∧
      s'.integrity.stopLine = false ∧ s'.integrity.first = none ∧ s'.integrity.ring = []) ∧
    (v = [1] → stopState s = 1 → done (.endStoppedJob p v) 0x6000 8 fun s' => s'.integrity.endLatched = true) ∧
    (v.length = 1 → n ≤ 1 → jobOn s = false → done (.defaultsAtReset p v) 0x1002 5 (reads 0x1002 5)) ∧
    (∀ fn : FnIx, v.length = 1 → n ≤ 1 → s.stores.length < 16 → n = 1 ∨ s.job = false ∨ 36 ≤ fn.val →
      let e := enableEntry fn.val
      ∃ s', exec (.enableWrite p fn v) s = .next s' ∧ objGet s' e.1 e.2 = n ∧ s'.out = s.out ∧
        s'.stores = s.stores ++ [{ key := objKey e.1 e.2, num := n, oct := v, rcpt := .sender p
                                   resp := answerOf 2 e.1 e.2 0 [] }] ∧
        (n = 1 → (fnAt s fn.val).state = 0 → (fnAt s' fn.val).state = 1 ∧ (fn.val < 36 → linkState s' fn.val = 1)) ∧
        (n = 0 → (fnAt s fn.val).state = 2 → (fnAt s' fn.val).state = 3)) ∧
    (∀ d : Fin 8, v.length = 48 → destFieldsOk v = true → jobOn s = false →
      done (.resultDestWrite p d v) 0x8102 (1 + d.val) fun s' =>
        destEntry s' d = definedOct 0x8102 (1 + d.val) v ∧ s'.ports = s.ports) ∧
    (v.length = 6432 → jobOn s = false → done (.countingModesWrite p v) 0x7000 2 fun s' => octGet s' 0x7000 2 = v ∧
      ∀ e, mget Counter.zero s'.counting.live e =
        if modeBit (octGet s 0x7000 2) e = modeBit v e then mget Counter.zero s.counting.live e else Counter.zero) ∧
    (v.length = 8 → snapRefused s = false → done (.snapshotRequest p v) 0x7000 3 fun s' => objGet s' 0x7000 4 = 1 ∧
      objGet s' 0x7000 3 = n ∧ s'.treadle = { s.treadle with snapReq := some n }) ∧
    (∀ k : Fin 8, v.length = 16 → selectorOk (definedOct 0x7000 (0x10 + k.val) v) = true →
      done (.selectorWrite p k v) 0x7000 (0x10 + k.val) fun s' =>
      octGet s' 0x7000 (0x10 + k.val) = definedOct 0x7000 (0x10 + k.val) v ∧ s'.counting.live = s.counting.live ∧
      ∀ h, s.counting.shadows[k.val]? = some h → s'.counting.shadows[k.val]? = some { h with load := true }) ∧
    (∀ d : DieIx, v.length = 4 → (let r := objGet s 0x7100 (6 + d.val)
        idxAhead r n ≤ idxAhead r (objGet s 0x7100 (2 + d.val))) →
      done (.readIndexWrite p d v) 0x7100 (6 + d.val) (reads 0x7100 (6 + d.val))) ∧
    (v = [1] → jobOn s = false → done (.resetRequest p v) 0x2200 7 fun s' => objGet s' 0x2200 3 = 3 ∧
      objGet s' 0x2200 2 = 2 ∧ startState s' = 0) ∧
    (∀ (i : BitVec 16) (j : BitVec 8) (r : ObjRow), entry? i.toNat j.toNat = some r → r.acc = 2 → r.octets = false →
      v.length = r.len → r.lo ≤ definedNum i.toNat j.toNat n → definedNum i.toNat j.toNat n ≤ r.hi →
      (r.ty = 1 → n ≤ 1) →
      r.job = false ∨ jobOn s = false → writePrivilege i.toNat j.toNat ≤ 1 →
      ownRefusal s i.toNat j.toNat (definedValue r i.toNat j.toNat v) = 0 →
      pathBarred p i.toNat j.toNat = false →
      (i.toNat, j.toNat) ∉ [(0x4300, 3), (0x4200, 1), (0x4200, 0x13), (0x7000, 3), (0x7000, 8), (0x2200, 7)] →
      done (.write (.entry p i j v)) i.toNat j.toNat (reads i.toNat j.toNat))) ∧
  (∀ (o : Nat) (b : Bytes) (s : State), pcieUp s = true → 0x100000 ≤ o → o < 0x140000 →
    ∃ s', exec (.write (.bar0 o b)) s = .next s' ∧ portGet s' o b.length = b ∧ s' = { s with pmem := s'.pmem } ∧
      ∀ a, a < o ∨ o + b.length ≤ a → portByte s' a = portByte s a) ∧
  (∀ (o : Nat) (b : Bytes) (s : State), pcieUp s = false → exec (.write (.bar0 o b)) s = .next s)

/-- DESCRIBE on a path that is up, while the code runs, answers the 16-byte descriptor of the entry, or 0x01 where there
is none. SIGNED_WRITE whose envelope passes its checks and whose write is not refused takes the counter of the
envelope and answers 0; one whose envelope fails them answers 0x09, is fault 0x7020 at C0 and writes nothing.
PERSISTENT_STORE_COMPLETE takes the oldest store off the list, counts it in 0x1002:04 and sends the response that
waited. The mailbox refuses WRITE and SIGNED WRITE with 0x0E and reads an entry that is not withheld. A management
datagram without a tag is served at public privilege and answered with its counter; one with a tag that is wrong, or
whose counter is not greater than the last, is dropped and counted in 0x9001:0B; a right one takes its counter. On a
path that is down nothing happens. -/
def Obligations.RequestsOfThePathsAreServed : Prop :=
  (∀ (p : Path) (i : BitVec 16) (j : BitVec 8) (s : State),
    (pathOpen s p = false → exec (.describe p i j) s = .next s) ∧
    (pathOpen s p = true → codeRunning s = true →
      (entry? i.toNat j.toNat = none →
        ∃ s', exec (.describe p i j) s = .next s' ∧ TurnedAway s s' p 3 i.toNat j.toNat 1) ∧
      ∀ r, entry? i.toNat j.toNat = some r → ∃ s', exec (.describe p i j) s = .next s' ∧
        s' = { s with objs := s'.objs, out := s.out ++ [.response p (answerOf 3 i.toNat j.toNat 0
          (leBytes 1 r.ty ++ leBytes 1 r.acc ++ leBytes 1 (16 * writePrivilege i.toNat j.toNat) ++
            leBytes 1 (flag r.job + 2 * flag r.held + 4 * flag r.en) ++ leBytes 4 r.len ++
            leBytes 8 (if r.octets then 0 else entryDefault s r i.toNat j.toNat)))] } ∧
        objGet s' 0x1002 1 = objGet s 0x1002 1 + 1)) ∧
  (∀ (p : Path) (e : Envelope) (s : State), (pathOpen s p = false → exec (.signedWrite p e) s = .next s) ∧
    (Inv s → pathOpen s p = true → p ≠ .doe → codeRunning s = true →
      ∃ s', exec (.signedWrite p e) s = .next s' ∧
        if envelopeOk s e = true then
          (e.index = 0x6100 → e.sub = 0x14 → e.value.length = 1 →
            .response p (answerOf 4 0x6100 0x14 0 []) ∈ s'.out ∧ objGet s' 0x6100 0x13 = e.counter.toNat ∧
            objGet s' 0x6100 0x14 = (objGet s 0x6100 0x14 ||| leNat e.value % 16) ∧
            s' = { s with objs := s'.objs, flash := s'.flash, out := s'.out })
        else .response p (answerOf 4 e.index.toNat e.sub.toNat 9 []) ∈ s'.out ∧ Recorded s s' 0 0x7020 ∧
          OnlyAside s s')) ∧
  (∀ s : State, (s.stores = [] → exec .storeComplete s = .next s) ∧
    ∀ x rest, s.stores = x :: rest → ∃ s', exec .storeComplete s = .next s' ∧ s'.stores = rest ∧
      (∀ p, x.rcpt = .sender p → .response p x.resp ∈ s'.out) ∧ objGet s' 0x1002 4 = objGet s 0x1002 4 + 1) ∧
  (∀ (q : Request) (s : State), (pathOpen s .doe = false → exec (.doeRequest q) s = .next s) ∧
    (pathOpen s .doe = true → q.status = 0 → q.opcode = 2 ∨ q.opcode = 4 →
      ∃ s', exec (.doeRequest q) s = .next s' ∧ s' = { s with objs := s'.objs, out := s.out ++ [.response .doe
        { txn := q.txn, opcode := q.opcode + 0x80, index := q.index, sub := q.sub, status := 0xE, data := [] }] }) ∧
    (∀ r, pathOpen s .doe = true → codeRunning s = true → q.status = 0 → q.opcode = 1 →
      entry? q.index.toNat q.sub.toNat = some r → r.acc ≠ 3 → withholding s = false →
      ∃ s', exec (.doeRequest q) s = .next s' ∧ s' = { s with objs := s'.objs, out := s.out ++ [.response .doe
        { txn := q.txn, opcode := 0x81, index := q.index, sub := q.sub, status := 0
          data := readEntry .doe s r q.index.toNat q.sub.toNat }] })) ∧
  (∀ (n : BitVec 64) (raw : Bytes) (q : Request) (s : State),
    (∀ tag, pathOpen s .mgmt = false → exec (.mgmtDatagram n raw q tag) s = .next s) ∧
    (∀ r, pathOpen s .mgmt = true → codeRunning s = true → q.opcode = 2 → q.status = 0 →
      entry? q.index.toNat q.sub.toNat = some r → ∃ s', exec (.mgmtDatagram n raw q none) s = .next s' ∧
        s' = { s with objs := s'.objs, out := s.out ++ [.datagram (ascii "CHOD" ++ leBytes 8 n.toNat ++
          responseBytes 0 {
            txn := q.txn, opcode := 0x82, index := q.index, sub := q.sub, status := 5, data := [] })] }) ∧
    (∀ t, pathOpen s .mgmt = true → (let ok := objGet s 0x9001 9 = 1 ∧ t = hmacSha256 (octGet s 0x9001 8) raw
      (¬ ok ∨ n.toNat ≤ objGet s 0x9001 0xA → ∃ s', exec (.mgmtDatagram n raw q (some t)) s = .next s' ∧
        s' = { s with objs := s'.objs } ∧ objGet s' 0x9001 0xB = objGet s 0x9001 0xB + 1) ∧
      (ok → objGet s 0x9001 0xA < n.toNat → codeRunning s = true → q.opcode = 3 → q.status = 0 →
        ∃ s', exec (.mgmtDatagram n raw q (some t)) s = .next s' ∧ s' = { s with objs := s'.objs, out := s'.out } ∧
          objGet s' 0x9001 0xA = n.toNat ∧ ∃ body, s'.out = s.out ++
            [.datagram (ascii "CHOD" ++ leBytes 8 n.toNat ++ body ++
              hmacSha256 (octGet s 0x9001 8) (ascii "CHOD" ++ leBytes 8 n.toNat ++ body))]))))

/-- For the node of the port, with no transaction open and none to repeat: a single frame is served and its response
leaves in one frame; a first frame of more than 56 data bytes opens a transfer with its first 56. The next frame in
order of a transfer adds at most 62 bytes; the last of the first block is acknowledged. An acknowledgement of the
last frame of a response completes it. ABORT ends the open transaction with status 0x0F, more than 100 ms without a
frame with 0x0C; both count in 0x9000:0A. The repeat of the last request sends its response again. A heartbeat
carries flags, safe stop state, coordinates and start step. Bus-off is counted and shown; a wiring fault silences
the port until a retry finds it gone. Frames for another node do nothing. -/
def Obligations.CanFdPortCarriesTransactions : Prop :=
  (∀ (node : BitVec 7) (q : Request) (s : State), canHears s node = false → ∀ (len : Nat) (txn : BitVec 5)
      (seq st : BitVec 8) (v : Bytes), exec (.singleFrame node q) s = .next s ∧
      exec (.firstFrame node q len) s = .next s ∧
      exec (.consecutiveFrame node txn seq v) s = .next s ∧ exec (.ackFrame node txn seq) s = .next s ∧
      exec (.abort node txn st) s = .next s) ∧
  (∀ (node : BitVec 7) (q : Request) (s : State), canHears s node = true → objGet s 0x9000 7 ≠ 2 →
    (canTxn s = none → (s.can.last.map (·.txn)) ≠ some q.txn → q.opcode = 0x10 →
      ∃ s', exec (.singleFrame node q) s = .next s' ∧
        let r : Response :=
          { txn := q.txn, opcode := 0x90, index := q.index, sub := q.sub, status := 0xE, data := [] }
        s'.can = { s.can with last := some r, sending := none } ∧
        s'.out = s.out ++ [.canFrame (128 * 6 + objGet s 0x9000 1) (responseBytes 0 r)]) ∧
    (∀ len, canTxn s = none → (s.can.last.map (·.txn)) ≠ some q.txn → 56 < len →
      exec (.firstFrame node q len) s = .next { s with can := { s.can with
        open_ := some { req := { q with data := slice q.data 0 56 }, total := len, next := 1 } } }) ∧
    (∀ r, s.can.open_ = none → s.can.sending = none → s.stores = [] → s.can.last = some r → r.txn = q.txn →
      r.data.length ≤ 56 → ∃ s', exec (.singleFrame node q) s = .next s' ∧
        s' = { s with out := s.out ++ [.canFrame (128 * 6 + objGet s 0x9000 1)
          (slice (responseBytes 0 r) 0 (canSize (8 + r.data.length)))] }) ∧
    (∀ (t : Transfer) (v : Bytes), s.can.open_ = some t → t.next < canCount t.total → t.next < 16 →
      v.length = 62 → t.req.data.length + 62 ≤ t.total →
      exec (.consecutiveFrame node t.req.txn (BitVec.ofNat 8 t.next) v) s =
        .next { s with can := { s.can with
          open_ := some { t with req := { t.req with data := t.req.data ++ v }, next := t.next + 1 } } }) ∧
    (∀ (t : Transfer) (v : Bytes), s.can.open_ = some t → t.next = 16 → 16 < canCount t.total → v.length = 62 →
      t.req.data.length + 62 ≤ t.total → ∃ s', exec (.consecutiveFrame node t.req.txn 16 v) s = .next s' ∧
        s' = { s with
          can := { s.can with open_ := some { t with req := { t.req with data := t.req.data ++ v }, next := 17 } }
          out := s.out ++ [.canFrame (128 * 6 + objGet s 0x9000 1) (leBytes 1 (96 + t.req.txn.toNat) ++ [16])] }) ∧
    (∀ (r : Response) (n : Nat), s.can.sending = some (r, n) → n ≤ canCount r.data.length →
      canCount r.data.length ≤ 16 →
      0 < n → exec (.ackFrame node r.txn (BitVec.ofNat 8 (canCount r.data.length))) s =
        .next { s with can := { s.can with last := some r, sending := none } }) ∧
    (∀ (txn : BitVec 5) (st : BitVec 8), canTxn s = some txn → ∃ s', exec (.abort node txn st) s = .next s' ∧
      s'.can.open_ = none ∧ s'.can.sending = none ∧ (∀ x ∈ s'.stores, x.rcpt ≠ .canPort) ∧
      (∃ r : Response, s'.can.last = some r ∧ r.txn = txn ∧ r.status = 0xF ∧ r.data = []) ∧
      objGet s' 0x9000 0xA = objGet s 0x9000 0xA + 1) ∧
    (∀ (txn : BitVec 5) (st : BitVec 8), canTxn s ≠ some txn → exec (.abort node txn st) s = .next s)) ∧
  (∀ s : State, pathOpen s .can = true → s.can.open_.isSome = true ∨ s.can.sending.isSome = true →
    ∃ s', exec .canTimeout s = .next s' ∧ s'.can.open_ = none ∧ s'.can.sending = none ∧
      (∃ r : Response, s'.can.last = some r ∧ r.status = 0xC) ∧ objGet s' 0x9000 0xA = objGet s 0x9000 0xA + 1) ∧
  (∀ s : State, s.can.open_ = none → s.can.sending = none → exec .canTimeout s = .next s) ∧
  (∀ s : State, pathOpen s .can = true → objGet s 0x9000 6 ≠ 0 → exec .heartbeat s =
    .next { s with out := s.out ++ [.canFrame (128 * 13 + objGet s 0x9000 1)
      (leBytes 1 (flag (codeRunning s) + 2 * flag (jobOn s) + 4 * objGet s 0x6000 0x10 + 8 * objGet s 0x6000 0x1A) ++
        leBytes 1 (stopState s) ++ leBytes 2 (objGet s 0x4200 1) ++ leBytes 1 (objGet s 0x2200 2) ++ zeros 3)] }) ∧
  (∀ s : State, pathOpen s .can = false ∨ objGet s 0x9000 6 = 0 → exec .heartbeat s = .next s) ∧
  (∀ s : State, (∃ s', exec .busOff s = .next s' ∧ s' = { s with objs := s'.objs } ∧ objGet s' 0x9000 7 = 2 ∧
      objGet s' 0x9000 8 = objGet s 0x9000 8 + 1) ∧
    (∃ s', exec (.canWiring true) s = .next s' ∧ s' = { s with objs := s'.objs } ∧ objGet s' 0x9000 7 = 3 ∧
      pathOpen s' .can = false) ∧
    (objGet s 0x9000 7 = 3 → ∃ s', exec (.canWiring false) s = .next s' ∧ s' = { s with objs := s'.objs } ∧
      objGet s' 0x9000 7 = 0) ∧
    (objGet s 0x9000 7 ≠ 3 → exec (.canWiring false) s = .next s))

/-- Every transition of the function state machine for every function: start done goes to ON, or on to STOPPING where a
stop is pending; a failed start and a lost function go to OFF with the failure recorded; stop done goes to OFF, or
on to STARTING where a restart is pending. An enable written 1 starts an OFF function, clears stop pending of a
STARTING one, sets restart pending of a STOPPING one; written 0 it sets stop pending, enters STOPPING, clears
restart pending. An event in any other state changes nothing, and no other function changes. An enable write that is
not refused puts the response of status 0x00 among those that its store sends when complete. For a link STARTING
shows as link state 1, ON as 2 with all four lanes, else 3. -/
def Obligations.FunctionsFollowTheirStateMachine : Prop :=
  ∀ (fn : FnIx) (s : State), Inv s →
    let f := fnAt s fn.val
    let goes := fun (i : Instr) (g : Fn) (post : State → Prop) => ∃ s', exec i s = .next s' ∧ fnAt s' fn.val = g ∧
      (∀ m, m ≠ fn.val → fnAt s' m = fnAt s m) ∧ post s'
    let shows := fun (n : Nat) (s' : State) => fn.val < 36 → linkState s' fn.val = n
    (f.state = 1 → goes (.fnStartDone fn) { f with state := if f.stopP then 3 else 2, stopP := false }
      (shows (if objGet s (0x4100 + fn.val) 3 = 15 then 2 else 3))) ∧
    (f.state ≠ 1 → exec (.fnStartDone fn) s = .next s) ∧
    (f.state = 1 → goes (.fnStartFailed fn) { f with state := 0, stopP := false, fail := 1 } fun _ => True) ∧
    (f.state ≠ 1 → exec (.fnStartFailed fn) s = .next s) ∧
    (f.state = 2 → goes (.fnLost fn) { f with state := 0, fail := 2 } fun _ => True) ∧
    (f.state ≠ 2 → exec (.fnLost fn) s = .next s) ∧
    (f.state = 3 → f.restart = false → goes (.fnStopDone fn) { f with state := 0 } fun _ => True) ∧
    (f.state = 3 → f.restart = true →
      goes (.fnStopDone fn) { f with state := 1, restart := false, stopP := false } (shows 1)) ∧
    (f.state ≠ 3 → exec (.fnStopDone fn) s = .next s) ∧
    (∀ p, pathOpen s p = true → codeRunning s = true → pathPrivilege s p = 1 → s.stores.length < 16 →
      let answered := fun (s' : State) => ∃ x : Store, s'.stores = s.stores ++ [x] ∧ x.rcpt = .sender p ∧
        x.resp.status = 0 ∧ x.resp.opcode = 0x82
      let on := fun (g : Fn) (post : State → Prop) => goes (.enableWrite p fn [1]) g fun s' => answered s' ∧ post s'
      let off := fun (g : Fn) => s.job = false ∨ 36 ≤ fn.val → goes (.enableWrite p fn [0]) g answered
      (f.state = 0 → on { f with state := 1, stopP := false, restart := false } (shows 1) ∧ off f) ∧
      (f.state = 1 → on { f with stopP := false } (fun _ => True) ∧ off { f with stopP := true }) ∧
      (f.state = 2 → on f (fun _ => True) ∧ off { f with state := 3 }) ∧
      (f.state = 3 → on { f with restart := true } (fun _ => True) ∧ off { f with restart := false }))

/-- PERST_DEASSERT is recorded, and trains a port whose power is up. A reset of the function while the port is up masks
every vector, clears the pending ones and the load command, counts in 0x8000:0D, and trains the link after a hot
reset or link down. An unmasked vector that was pending is delivered once. Outside a job a whole aligned row written
to an enabled aperture of a column writes that row with tag 0 and a fresh proof word and no other; a write in a job,
of another length or place, or to a disabled aperture is dropped and counted in 0x8000:0B. A read of a whole sound
row of an open window completes with its 512 data bytes, a disabled aperture and a sealed job read all ones. A port
memory read error completes poisoned and is fault 0x8001. With the port down nothing happens. -/
def Obligations.PciePortResetsAndInterrupts : Prop :=
  (∀ s : State, (s.power.perst = true → exec .perstDeassert s = .next s) ∧
    (s.power.perst = false → ∃ s', exec .perstDeassert s = .next s' ∧
      s' = { s with power := { s.power with perst := true }, objs := s'.objs, out := s'.out, free := s'.free } ∧
      s'.out = if pcieUp { s with power := { s.power with perst := true } } = true then s.out ++ [.pcieTraining]
        else s.out)) ∧
  (∀ (k : PcieReset) (s : State), pcieUp s = true → ∃ s', exec (.pcieReset k) s = .next s' ∧ s'.masked = 0xFFFFFFFF ∧
    s'.pendVec = 0 ∧ s'.loadSeq = none ∧ objGet s' 0x8000 0xD = objGet s 0x8000 0xD + 1 ∧
    s'.out = s.out ++ (if k = .hot ∨ k = .linkDown then [.pcieTraining] else []) ∧ s'.pmem = s.pmem ∧
    s'.octets = s.octets ∧ s'.mem = s.mem ∧ s'.tiles = s.tiles ∧ s'.links = s.links) ∧
  (∀ (v : Fin 32) (s : State), pcieUp s = true → ∃ s', exec (.msixUnmask v) s = .next s' ∧
    s' = { s with masked := s'.masked, pendVec := s'.pendVec, out := s'.out } ∧ s'.masked.getLsbD v.val = false ∧
    (∀ w, w ≠ v.val → s'.masked.getLsbD w = s.masked.getLsbD w ∧ s'.pendVec.getLsbD w = s.pendVec.getLsbD w) ∧
    s'.pendVec.getLsbD v.val = false ∧
    s'.out = s.out ++ (if s.pendVec.getLsbD v.val = true then [.interrupt v.val] else [])) ∧
  (∀ (o : Nat) (b : Bytes) (s : State), pcieUp s = true → codeRunning s = true →
    (∀ a, bar2Row s o = some a → s.job = false → withholding s = false → o % 512 = 0 → b.length = 512 →
      ∃ s', exec (.bar2Write o b) s = .next s' ∧ rowGet s' a = { data := b, tag := 0, proof := crc32c b } ∧
        ∀ x, x ≠ a → rowGet s' x = rowGet s x) ∧
    (bar2Row s o = none ∨ s.job = true ∨ withholding s = true ∨ o % 512 ≠ 0 ∨ b.length ≠ 512 →
      ∃ s', exec (.bar2Write o b) s = .next s' ∧ s' = { s with objs := s'.objs } ∧
        objGet s' 0x8000 0xB = objGet s 0x8000 0xB + 1)) ∧
  (∀ (o n : Nat) (s : State), pcieUp s = true → codeRunning s = true →
    (withholding s = true →
      exec (.bar2Read o n) s = .next { s with out := s.out ++ [.completion (List.replicate n 0xFF) false] }) ∧
    (∀ a, withholding s = false → bar2Row s o = some a → o % 512 = 0 → mget [] s.upsets a = [] →
      mget false s.poison a = false → proofOk (rowGet s a) = true →
      ∃ s', exec (.bar2Read o 512) s = .next s' ∧ s'.mem = s.mem ∧ s'.integrity = s.integrity ∧
        s'.out = s.out ++ [.completion (rowGet s a).data false]) ∧
    (withholding s = false → bar2Row s o = none → o % 512 = 0 →
      exec (.bar2Read o 512) s = .next { s with out := s.out ++ [.completion (List.replicate 512 0xFF) false] })) ∧
  (∀ (o : Nat) (s : State), Inv s → pcieUp s = true → ∃ s', exec (.portMemError o) s = .next s' ∧
    Recorded s s' 0 0x8001 ∧ .completion (portGet s o 8) true ∈ s'.out ∧ OnlyAside s s') ∧
  (∀ (o n : Nat) (b : Bytes) (k : PcieReset) (v : Fin 32) (s : State), pcieUp s = false →
    exec (.pcieReset k) s = .next s ∧
    exec (.msixUnmask v) s = .next s ∧ exec (.bar2Write o b) s = .next s ∧ exec (.bar2Read o n) s = .next s ∧
    exec (.portMemError o) s = .next s)

/-- While the code runs, a load command whose sequence differs from the response sequence, with none under way, stores
its sequence and asks for the two DMA reads that its block names; one under way, or the same sequence, only stores
the sequence. When the DMA is complete the response carries the status and detail of the first check that fails, in
the order job, DMA, relocation block, pattern; 0x8000:09 shows the status, and a pattern that passes replaces the
loaded one and extends measurement register 4; a refused one leaves rows and pattern as they were. With no load
under way nothing happens. A recovery command while the recovery window is open, with a new sequence, is answered
with the status of the image check: a sound image starts from S4 and is kept to be copied into flash, a refused one
leaves the window open. -/
def Obligations.PatternLoadsReplaceThePattern : Prop :=
  (∀ (q : BitVec 32) (s : State), pcieUp s = true → codeRunning s = true →
    let f := fun (o n : Nat) => leNat (portGet s (0x20000 + o) n)
    (s.loadSeq = none → q.toNat ≠ leNat (portGet s 0x20004 4) → ∃ s', exec (.loadCommand q) s = .next s' ∧
      s' = { s with pmem := s'.pmem, loadSeq := some q, out := s.out ++
        [.dmaRead (f 8 8) (f 0x10 8), .dmaRead (f 0x18 8) (f 0x20 4)] } ∧ leNat (portGet s' 0x20000 4) = q.toNat) ∧
    (s.loadSeq ≠ none ∨ q.toNat = leNat (portGet s 0x20004 4) → ∃ s', exec (.loadCommand q) s = .next s' ∧
      s' = { s with pmem := s'.pmem } ∧ leNat (portGet s' 0x20000 4) = q.toNat)) ∧
  (∀ (q : BitVec 32) (s : State), pcieUp s = false ∨ codeRunning s = false → exec (.loadCommand q) s = .next s) ∧
  (∀ (ok : Bool) (f r : Bytes) (s : State), s.loadSeq = none → exec (.loadDmaComplete ok f r) s = .next s) ∧
  (∀ (ok : Bool) (f r : Bytes) (q : BitVec 32) (s : State), s.loadSeq = some q →
    let len := leNat (portGet s 0x20010 8)
    let bad := ok = false ∨ 0x40000000 < len ∨ f.length ≠ len ∨ r.length ≠ leNat (portGet s 0x20020 4)
    let checks := firstFail [checkReloc s f r, checkPattern s f len (relBase r)]
    let gives := fun (status detail : Nat) (post : State → Prop) => ∃ s', exec (.loadDmaComplete ok f r) s = .next s' ∧
      s'.loadSeq = none ∧ leNat (portGet s' 0x20004 4) = q.toNat ∧ objGet s' 0x8000 9 = status ∧
      leNat (portGet s' 0x2002C 4) = detail % 2 ^ 32 ∧ post s'
    let same := fun (s' : State) => s'.pattern = s.pattern ∧ s'.mem = s.mem ∧ s'.security = s.security
    (s.job = true → gives 0x22 0 same) ∧ (s.job = false → bad → gives 0x20 0 same) ∧
    (s.job = false → ¬ bad → match checks with
      | some (st, d) => gives st d same
      | none => gives 0 0 fun s' => s'.pattern = some (makePattern f r (ownRank s f)) ∧
          let m := s.security.measure
          let m4 := sha384 (m.getD 4 [] ++ slice (slice f 0x20 32) 0 48)
          s'.security = { s.security with measure := m.set 4 m4 })) ∧
  (∀ (q : BitVec 32) (s : State), pcieUp s = true → startState s = 3 → q.toNat ≠ leNat (portGet s 0x3C 4) →
    let s1 := portPut 0x38 (leBytes 4 q.toNat) s
    let image := portGet s1 0x10000000 (leNat (portGet s 0x34 4))
    let c := imageFault s1 image
    ∃ s', exec (.recoveryCommand q) s = .next s' ∧ leNat (portGet s' 0x3C 4) = q.toNat ∧
      leNat (portGet s' 0x40 4) = c % 2 ^ 32 ∧ (c ≠ 0 → startState s' = 3) ∧
      (c = 0 → startState s' = 0 ∧ objGet s' 0x2200 2 = 4 ∧ s'.start.copy = some image)) ∧
  (∀ (q : BitVec 32) (s : State), pcieUp s = false ∨ startState s ≠ 3 ∨ q.toNat = leNat (portGet s 0x3C 4) →
    exec (.recoveryCommand q) s = .next s)

/-- From a safe stop on a packet other than an acknowledgement does nothing. A packet that the port does not accept is
dropped and counted in 0x810p:09; so is one out of sequence, and its stream keeps its sequence. The rows of an open
staging write or window write in sequence enter the mesh within the bulk budget of the die of the port; where it
lasts for all of them, sound rows of a staging write that lie in the staging area are written from its target row on
and no other row, and the rows of a window write for an open window of its generation arrive in order at the mesh
input of their tile; the stream moves on. One that is refused writes nothing and adds one refusal. A plate packet at
a port that no chain names is dropped and counted in 0x5200:05; an open row of a segment for this module with an
open load lands at its region offset where its activity may go. An acknowledgement of a destination that names an
invalidation packet takes that packet alone off its list; another takes the packets up to its sequence off the list.
A request for the own address is answered with the MAC address while the egress is open; a link change is shown and
raises vector 7. -/
def Obligations.DataPortsTakePackets : Prop :=
  (∀ (i : Instr) (t : Nat) (p : Fin 2) (k : Packet) (s : State),
    (i, t) ∈ [(.stagingWrite p k, 1), (.windowWrite p k, 2), (.plate p k, 3), (.acknowledgement p k, 6)] →
    (s.integrity.stopLine = true → t ≠ 6 → exec i s = .next s) ∧
    (s.integrity.stopLine = false ∨ t = 6 →
      packetOk s p.val t k = false ∨ k.hdr.seq.toNat ≠ nextSeq s k.hdr.stream.toNat →
      ∃ s', exec i s = .next s' ∧ s' = { s with objs := s'.objs, ports := s'.ports } ∧
        objGet s' (0x8100 + p.val) 9 = objGet s (0x8100 + p.val) 9 + 1 ∧ s'.ports.streams = s.ports.streams ∧
        s'.ports.dests = s.ports.dests ∧ s'.ports.refusals = s.ports.refusals)) ∧
  (∀ (t u : Nat) (p : Fin 2) (k : Packet) (s : State), s.integrity.stopLine = false → portsSealed s = false →
    packetOk s p.val t k = true → k.hdr.seq.toNat = nextSeq s k.hdr.stream.toNat → k.hdr.flags = 0 →
    targetTile k.hdr.target.toNat = some u → s.net.arrived = [] →
    let x := k.hdr.target.toNat
    let rows := bodyRows k.hdr.items.toNat k.body
    let lasts := s.job = true → (∀ w ∈ s.net.waiting.getD (3 * (p.val + 1) + 2) [], w.act ≠ 5) ∧
      ∀ j, j < rows.length → spentBy s (p.val + 1) 5 + 9 * j < objGet s 0x4000 5
    let moves := fun (s' : State) => mget 0 s'.ports.streams k.hdr.stream.toNat = k.hdr.seq.toNat ∧
      objGet s' (0x8100 + p.val) 8 = objGet s (0x8100 + p.val) 8 + 1
    let refused := fun (i : Instr) (why : Nat) => ∃ s', exec i s = .next s' ∧ moves s' ∧ s'.mem = s.mem ∧
      s'.tiles = s.tiles ∧ ∃ e : Bytes, leAt e 8 1 = why ∧ leAt e 0 8 = k.hdr.seq.toNat ∧
        s'.ports.refusals = s.ports.refusals ++ [(k.hdr.stream.toNat, e)]
    let at_ := fun j : Nat => rowAddr u 1 (bits x 32 20 + j)
    let land := fun (y : RowFrame × Nat) => ({
      hdr := { window := bits x 44 8, woff := bits x 37 7 + y.2, seq := 0, landSp := 0 }, row := y.1
      back := some { gen := BitVec.ofNat 16 (bits x 0 16), sender := { x := 0, y := 0, z := 0 }, ref := 0 }
      port := some (k.hdr.stream.toNat, k.hdr.seq.toNat)
      since := cycleNow s + meshLat (profile s) (corner (p.val + 1)) u } : LandRow)
    (t = 1 → stagingWhy s x rows ≠ 0 → refused (.stagingWrite p k) (stagingWhy s x rows)) ∧
    (t = 1 → stagingWhy s x rows = 0 → lasts → ∃ s', exec (.stagingWrite p k) s = .next s' ∧ moves s' ∧
      s'.ports.refusals = s.ports.refusals ∧ (∀ j row, rows[j]? = some row → rowGet s' (at_ j) = row) ∧
      ∀ a, (∀ j, j < rows.length → a ≠ at_ j) → rowGet s' a = rowGet s a) ∧
    (t = 2 → windowWhy s x rows ≠ 0 → refused (.windowWrite p k) (windowWhy s x rows)) ∧
    (t = 2 → windowWhy s x rows = 0 → lasts → ∃ s', exec (.windowWrite p k) s = .next s' ∧ moves s' ∧
      s'.ports.refusals = s.ports.refusals ∧ s'.mem = s.mem ∧
      tileAt s' u = rows.zipIdx.foldl (fun tile y => entered tile .mesh (land y)) (tileAt s u) ∧
      ∀ v, v ≠ u → tileAt s' v = tileAt s v)) ∧
  (∀ (p : Fin 2) (k : Packet) (s : State), s.integrity.stopLine = false → packetOk s p.val 3 k = true →
    k.hdr.seq.toNat = nextSeq s k.hdr.stream.toNat →
    ((∀ c, c < 8 → chainIn s c ≠ 36 + p.val) → ∃ s', exec (.plate p k) s = .next s' ∧ s' = { s with objs := s'.objs } ∧
      objGet s' 0x5200 5 = objGet s 0x5200 5 + 1) ∧
    (∀ c slot : Nat, (List.range 8).find? (fun c => chainIn s c == 36 + p.val) = some c → openLoad s c = some slot →
      slot < 16 → portsSealed s = false → k.hdr.flags = 0 → k.hdr.items = 1 →
      coordOf (bits k.hdr.ref.toNat 52 12) = ownCoord s → s.net.arrived = [] → (∀ d, d < 4 → mayGo s d 5) →
      let row := frameOf (slice k.body 0 520)
      let u := bits k.hdr.target.toNat 38 10
      let o := 32768 * bits row.tag.toNat 0 5 + bits (16 * bits k.hdr.target.toNat 0 38) 0 15
      let a := rowAddr u 1 ((loadAt s slot).base + o)
      proofOk row = true → o < recRows (loadRecord s slot) → u < 768 →
      ∃ s', exec (.plate p k) s = .next s' ∧ rowGet s' a = row ∧ (∀ b, b ≠ a → rowGet s' b = rowGet s b) ∧
        mget 0 s'.ports.streams k.hdr.stream.toNat = k.hdr.seq.toNat ∧
        objGet s' 0x5200 3 = objGet s 0x5200 3 + 1)) ∧
  (∀ (p : Fin 2) (k : Packet) (s : State), Inv s → packetOk s p.val 6 k = true →
    k.hdr.seq.toNat = nextSeq s k.hdr.stream.toNat → portsSealed s = false → k.hdr.flags = 0 →
    let d := k.hdr.stream.toNat - 0xC0000000
    k.hdr.target.toNat = 0x40000000 + d →
    (∀ i ∈ s.integrity.invalid, i.dest = d → i.seq = k.hdr.ref.toNat →
      ∃ s', exec (.acknowledgement p k) s = .next s' ∧
      s'.integrity.invalid = s.integrity.invalid.filter (fun x => !(x.dest == d && x.seq == k.hdr.ref.toNat)) ∧
      s'.ports.dests = s.ports.dests ∧ s'.mem = s.mem) ∧
    ((∀ i ∈ s.integrity.invalid, i.dest = d → i.seq ≠ k.hdr.ref.toNat) →
      ∃ s', exec (.acknowledgement p k) s = .next s' ∧
      s'.integrity = s.integrity ∧ (destAt s' d).unacked = (destAt s d).unacked.filter (fun x => k.hdr.ref.toNat < x.1) ∧
      (∀ x ∈ (destAt s d).unacked, x.1 ≤ k.hdr.ref.toNat → x.2.1 + x.2.2 - 1 ≤ (destAt s' d).acked) ∧
      (destAt s d).acked ≤ (destAt s' d).acked ∧ (destAt s' d).log = (destAt s d).log ∧ s'.mem = s.mem)) ∧
  (∀ (p : Fin 2) (v6 : Bool) (a : Bytes) (s : State), exec (.addressResolution p v6 a) s =
    .next (if s.ports.egress = true ∧ ownAddress s p.val v6 a = true then
      { s with out := s.out ++ [.address p.val (Config.macAddress (p.val + 1))] } else s)) ∧
  (∀ (p : Fin 2) (up : Bool) (s : State), (objGet s (0x8100 + p.val) 1 = flag up →
      exec (.portLinkChange p up) s = .next s) ∧
    (objGet s (0x8100 + p.val) 1 ≠ flag up → ∃ s', exec (.portLinkChange p up) s = .next s' ∧
      s' = { s with objs := s'.objs, pendVec := s'.pendVec, out := s'.out } ∧ objGet s' (0x8100 + p.val) 1 = flag up ∧
      (s.masked.getLsbD 7 = false → .interrupt 7 ∈ s'.out) ∧ (s.masked.getLsbD 7 = true → s'.pendVec.getLsbD 7 = true)))

/-- While the egress is open and keys do not seal the ports: ACKNOWLEDGEMENT_SEND of a stream with packets to
acknowledge sends one packet in the own stream of the port and owes only those whose rows are not written; of a
stream with nothing to acknowledge it does nothing. RESULT_PACKET_SEND of an enabled destination whose packet is due
sends up to 64 records, counts them as sent and keeps the packet until it is acknowledged; after the wait of
0x8102:09 without progress RESULT_RESEND_TIMEOUT sends every unacknowledged packet again. A sound chain row, where
plate traffic may go in every die: with no chain of its source, or no open load or no outgoing link of its chain, it
counts in 0x5200:05; for this module it lands at its region offset and counts, the last one makes the load verify; a
bad proof word fails the load with reason 0x10, an offset past the region 0x11; for another module it goes on over
the outgoing link and counts in 0x5200:04. A chain frame of a link that cannot be corrected is requested again.
LOAD_VERIFICATION of a verifying load compares the module digest of its rows as they are read: done where it is a
shadow load or a job runs, else in force, or failed with reason 0x12. -/
def Obligations.DataPortsSendAndChainsLoadPlates : Prop :=
  (∀ (n : BitVec 32) (s : State), (mget 0 s.ports.unsent n.toNat = 0 → (∀ x ∈ s.ports.refusals, x.1 ≠ n.toNat) →
      exec (.ackSend n) s = .next s) ∧ (s.ports.egress = false → exec (.ackSend n) s = .next s) ∧
    (s.ports.egress = true → portsSealed s = false → 0 < mget 0 s.ports.unsent n.toNat →
      ∃ s' b, exec (.ackSend n) s = .next s' ∧ s' = { s with objs := s'.objs, ports := s'.ports, out := s'.out } ∧
        s'.out = s.out ++ [.packet (mget 0 s.ports.via n.toNat) b] ∧
        mget 0 s'.ports.unsent n.toNat = mget 0 s.ports.streams n.toNat - ackedSeq s n.toNat ∧
        mget 0 s'.ports.streams (0x80000000 + n.toNat) = mget 0 s.ports.streams (0x80000000 + n.toNat) + 1 ∧
        s'.ports.dests = s.ports.dests)) ∧
  (∀ (d : Fin 8) (s : State), Inv s →
    let x := destAt s d.val
    let p := destPort (destEntry s d.val)
    let on := s.ports.egress = true ∧ destOn (destEntry s d.val) = true
    let late := x.unacked ≠ [] ∧ x.progress + 800 * objGet s 0x8102 9 ≤ s.tick
    (¬ on ∨ packetDue s d.val = false → exec (.resultPacketSend d) s = .next s) ∧
    (on → packetDue s d.val = true → portsSealed s = false →
      let n := min 64 (x.log.length - destSent s d.val)
      ∃ s' b, exec (.resultPacketSend d) s = .next s' ∧ s'.out = s.out ++ [.packet p b] ∧
        s' = { s with objs := s'.objs, ports := s'.ports, out := s'.out } ∧
        destSent s' d.val = destSent s d.val + n ∧ (destAt s' d.val).nextSeq = x.nextSeq + 1 ∧
        (destAt s' d.val).unacked = x.unacked ++ [(x.nextSeq, destSent s d.val + 1, n)] ∧
        (destAt s' d.val).log = x.log) ∧
    (¬ on ∨ ¬ late → exec (.resultResend d) s = .next s) ∧
    (on → late → ∃ (s' : State) (bs : List Bytes), exec (.resultResend d) s = .next s' ∧ bs.length = x.unacked.length ∧
      s'.out = s.out ++ bs.map (.packet p) ∧ s' = { s with objs := s'.objs, ports := s'.ports, out := s'.out } ∧
      (destAt s' d.val).progress = s.tick ∧ (destAt s' d.val).unacked = x.unacked)) ∧
  (∀ (src : BitVec 8) (f : Frame) (chk : RxCheck) (s : State), Inv s → s.net.arrived = [] → (∀ d, d < 4 → mayGo s d 5) →
    36 ≤ src.toNat ∨ (∃ n, chk = .good n) →
    let gives := fun (post : State → Prop) => ∃ s', exec (.chain src ⟨f, chk⟩) s = .next s' ∧ post s'
    let way := (List.range 8).find? fun c => chainIn s c == src.toNat
    let drops := gives fun s' => OnlySent s s' ∧ objGet s' 0x5200 5 = objGet s 0x5200 5 + 1
    (way = none → drops) ∧
    ∀ c : Nat, way = some c →
      (f.dest ≠ ownCoord s → chainOut s c < 36 → gives fun s' => OnlySent s s' ∧
        objGet s' 0x5200 4 = objGet s 0x5200 4 + 1 ∧ (s.tick, false, f) ∈ (linkAt s' (chainOut s c)).bulk) ∧
      (f.dest ≠ ownCoord s → 36 ≤ chainOut s c → drops) ∧
      (f.dest = ownCoord s → openLoad s c = none → drops) ∧
      ∀ slot : Nat, f.dest = ownCoord s → openLoad s c = some slot → slot < 16 →
        let r := loadRecord s slot
        let l := loadAt s slot
        let o := 32768 * bits f.row.tag.toNat 0 5 + 128 * f.window.toNat + f.woff.toNat
        let a := rowAddr (24 * f.ty.toNat + f.tx.toNat) 1 (l.base + o)
        (proofOk f.row = false → gives fun s' =>
          loadAt s' slot = { l with state := 5, reason := 0x10 } ∧ s'.mem = s.mem) ∧
        (proofOk f.row = true → recRows r ≤ o ∨ 24 ≤ f.tx.toNat → gives fun s' =>
          loadAt s' slot = { l with state := 5, reason := 0x11 } ∧ s'.mem = s.mem) ∧
        (proofOk f.row = true → o < recRows r → f.tx.toNat < 24 → gives fun s' =>
          rowGet s' a = { f.row with data := slice f.row.data 0 512 } ∧ (∀ b, b ≠ a → rowGet s' b = rowGet s b) ∧
          objGet s' 0x5200 3 = objGet s 0x5200 3 + 1 ∧ loadAt s' slot =
            { l with landed := l.landed + 1, state := if l.landed + 1 = 768 * recRows r then 2 else l.state })) ∧
  (∀ (l : LinkIx) (src : BitVec 8) (f : Frame) (n : Nat) (s : State), src.toNat = l.val →
    mget 0 (linkAt s l).failures f.seq.toNat + 1 ≤ objGet s (0x4100 + l.val) 0xF →
    ∃ s', exec (.chain src ⟨f, .bad n⟩) s = .next s' ∧ .retry l.val f.seq.toNat ∈ s'.out ∧ s'.mem = s.mem ∧
      s'.loads = s.loads) ∧
  (∀ (k : Fin 16) (s : State), Inv s →
    let l := loadAt s k.val
    let r := loadRecord s k.val
    let ends := fun (v : Load) => ∃ s', exec (.loadVerification k) s = .next s' ∧ loadAt s' k.val = v ∧ s'.mem = s.mem ∧
      ∀ j, j ≠ k.val → loadAt s' j = loadAt s j
    let digest := (moduleDigest l.base (recRows r) s).1
    (l.state ≠ 2 → exec (.loadVerification k) s = .next s) ∧
    (l.state = 2 → digest ≠ recDigest r → ends { l with state := 5, reason := 0x12 }) ∧
    (l.state = 2 → digest = recDigest r →
      (recShadow r = true ∨ s.job = true → ends { l with state := 3 }) ∧
      (recShadow r = false → s.job = false → 16 ≤ (inForce s).length → ends { l with state := 5, reason := 0x13 }) ∧
      (recShadow r = false → s.job = false → (inForce s).length < 16 → ends { l with state := 4 })))

/-- On the lead module of a running job with no safe stop and a tracer budget, a command whose ring entry comes next for
its die completes it: a malformed entry with 0x85, a start node that is not in use with 0x82, a token list outside
the staging area with 0x83, each with no effect on rows; MATCH of a miss at the start node with 0x80, no page and
that node; INSERT of one page under a node without children takes the lowest free node, which it links below the
start node; PIN and UNPIN of one node move its pin count by one, UNPIN of one that is not pinned completes with
0x84; EVICT of none, or where no node may go, completes with no page, and takes the one node that may go off its
parent. Other walks complete with the answer that they find. A completed entry shows its status in byte 1, pages at
byte 64, last node at byte 68, epoch at byte 72; it counts in 0x5100:0A. Where the entry is not next, is of another
opcode, or the tracers do not serve, nothing happens. That a command is carried out in one step is the choice of the
model (assumption 119). -/
def Obligations.TracerCommandsCompleteTheirEntries : Prop :=
  ∀ (n : Fin 1024) (s : State), s.net.arrived = [] →
    let e := tracerEntry s n.val
    let d := tracerDie e
    let start := leAt e 4 4
    let op := leAt e 0 1
    let count := leAt e 20 4
    let ops : List (Instr × Nat) :=
      [(.matchCmd n, 1), (.insertCmd n, 2), (.pinCmd n, 3), (.unpinCmd n, 4), (.evictCmd n, 5)]
    let legal := 1 ≤ op ∧ op ≤ 5 ∧ fieldsOk e = true
    let completes := fun (i : Instr) (status pages last : Nat) (post : State → Prop) => ∃ s', exec i s = .next s' ∧
      leAt (tracerEntry s' n.val) 1 1 = status ∧ leAt (tracerEntry s' n.val) 64 4 = pages ∧
      leAt (tracerEntry s' n.val) 68 4 = last ∧ leAt (tracerEntry s' n.val) 72 4 = objGet s 0x5100 5 ∧
      objGet s' 0x5100 0xA = objGet s 0x5100 0xA + 1 ∧ post s'
    let same := fun s' : State => s'.mem = s.mem
    let live := nodeLive s d start = true
    let inBeam := objGet s 0x5100 3 + objGet s 0x5100 4 ≤ 737280
    let pins := nodePins (nodeGet s d start)
    let only := fun (m : Nat) (s' : State) => ∀ a, a ≠ nodeAddr s d m → rowGet s' a = rowGet s a
    (tracerLive s = false ∨ tracerNext s n.val = none → ∀ x ∈ ops, exec x.1 s = .next s) ∧
    (tracerLive s = true → ∀ i, tracerNext s n.val = some i → objGet s 0x5100 5 < 65536 →
      (¬ legal → ∀ x ∈ ops, completes x.1 0x85 0 0 same) ∧
      (legal → ∀ x ∈ ops, x.2 ≠ op → exec x.1 s = .next s) ∧
      (legal → ∀ x ∈ ops, x.2 = op → x.2 ≠ 5 → nodeLive s d start = false → completes x.1 0x82 0 0 same) ∧
      (legal → ∀ x ∈ ops, x.2 = op → x.2 ≤ 2 → live → tokensOk s e = false → completes x.1 0x83 0 0 same) ∧
      (legal → op ≤ 2 → live → tokensOk s e = true → leAt e 16 4 < 16 →
        ∀ x ∈ ops, x.2 = op → completes x.1 0x80 0 start same) ∧
      (legal → op = 1 → live → tokensOk s e = true → 16 ≤ leAt e 16 4 → nodeKids (nodeGet s d start) = 0 →
        nodeCont (nodeGet s d start) = 0 → completes (.matchCmd n) 0x80 0 start same) ∧
      (∀ c, legal → op = 2 → live → tokensOk s e = true → leAt e 16 4 / 16 = 1 → inBeam → treeNodes s < 2 ^ 32 →
        nodeKids (nodeGet s d start) = 0 → nodeCont (nodeGet s d start) = 0 →
        c < treeNodes s → nodeUsed (nodeGet s d c) = false → (∀ m, m < c → nodeUsed (nodeGet s d m) = true) →
        completes (.insertCmd n) 0x80 1 c fun s' => nodeUsed (nodeGet s' d c) = true ∧
          nodeParent (nodeGet s' d c) = start ∧ nodeTokens (nodeGet s' d c) = (tokensAt e 0 s).1 ∧
          kidList (nodeGet s' d start) = [(leAt (tokensAt e 0 s).1 0 4, c)] ∧
          objGet s' 0x5100 8 = objGet s 0x5100 8 + 1 ∧
          ∀ a, a ≠ nodeAddr s d c → a ≠ nodeAddr s d start → rowGet s' a = rowGet s a) ∧
      (legal → op = 3 → live → count = 1 → pins < 65535 → inBeam → completes (.pinCmd n) 0x80 0 0 fun s' =>
        nodePins (nodeGet s' d start) = pins + 1 ∧ only start s') ∧
      (legal → op = 4 → live → count = 1 → pins = 0 → inBeam → completes (.unpinCmd n) 0x84 0 0 same) ∧
      (legal → op = 4 → live → count = 1 → pins ≠ 0 → inBeam → completes (.unpinCmd n) 0x80 0 0 fun s' =>
        nodePins (nodeGet s' d start) + 1 = pins ∧ only start s') ∧
      (legal → op = 5 → count = 0 ∨ evictable (scanTree d s).1 = [] → completes (.evictCmd n) 0x80 0 0 same) ∧
      (∀ c r, legal → op = 5 → count = 1 → inBeam → evictable (scanTree d s).1 = [(c, r)] →
        let p := nodeParent r
        p < treeNodes s → (kidList (nodeGet s d p)).any (·.2 == c) = true → nodeExtends (nodeGet s d p) = false →
        completes (.evictCmd n) 0x80 1 0 fun s' => nodeUsed (nodeGet s' d c) = false ∧
          kidList (nodeGet s' d p) = (kidList (nodeGet s d p)).filter (·.2 != c) ∧
          ∀ a, a ≠ nodeAddr s d c → a ≠ nodeAddr s d p → rowGet s' a = rowGet s a) ∧
      (∀ (i : Instr) (x : Option Answer × State) (a : Answer), legal → live → x.1 = some a →
        a.pages < 2 ^ 32 → a.last < 2 ^ 32 → a.status < 256 →
        op = 1 ∧ i = .matchCmd n ∧ tokensOk s e = true ∧ x = matchEntry d (objGet s 0x5100 5) e s ∨
          op = 2 ∧ i = .insertCmd n ∧ tokensOk s e = true ∧ x = insertEntry d (objGet s 0x5100 5) e s ∨
          op = 3 ∧ i = .pinCmd n ∧ x = pinEntry d e s ∨
          op = 4 ∧ i = .unpinCmd n ∧ x = unpinEntry d e s ∨
          op = 5 ∧ i = .evictCmd n ∧ x = evictEntry d (objGet s 0x5100 5) e s →
        completes i a.status a.pages a.last fun s' => s'.mem = x.2.mem))

/-- Notices do nothing outside a job or once its safe stop has come about. One that cannot be corrected is requested
again, or after more failures than 0x41nn:0F is fault 0x4011; one whose notice traffic must wait waits at its
injection point, counted in 0x4000:12. One that may go sets out on its tree; with the stop line asserted the treadle
does not take it, and out of its sequence it is fault 0x6003. In sequence, a graph header adds its graph with effect
SP a + A; task records add their tasks, in order, waiting; a scan summary records the counts of its pick, and a pace
floor sent with it for its effect SP; a broadcast word becomes pending for p + A, a second one for the same SP is
fault 0x6002; a snapshot command announces its SP. The admission scan of the lead at a multiple of 16 that is not
summarised records its summary; it admits the next graph of the ring where it is not refused and there is room, and
counts one that is refused in 0x5000:0D. A summary or records still unsent at the end of SP a + A − H − 1 count once
in 0x5000:0F, with a hold request of reason 4; an admission incomplete at the end of SP q − 1 that no HOLD awaits is
fault 0x5006. The records of a due task with no streams are one task record at the producer index. -/
def Obligations.NoticesReachTheTreadle : Prop :=
  (∀ (i : Instr) (h : NoticeHdr) (s : State), Inv s →
    (∃ g, i = .graphHeader h g) ∨ (∃ l, i = .taskRecords h l) ∨ (∃ a b c, i = .scanSummary h a b c) ∨
      (∃ w v m t, i = .broadcastWord h w v m t) ∨ (∃ e, i = .snapshotCommand h e) →
    let l := h.rx.link.val
    let o := 0x4100 + l
    let times := mget 0 (linkAt s l).failures h.rx.seq.toNat + 1
    (linkLive s = false → exec i s = .next s) ∧
    (∀ n, linkLive s = true → h.rx.chk = .bad n →
      (objGet s o 0xF < times → ∃ s', exec i s = .next s' ∧ Recorded s s' (l / 9) 0x4011 ∧ OnlyAside s s') ∧
      (times ≤ objGet s o 0xF → ∃ s', exec i s = .next s' ∧ .retry l h.rx.seq.toNat ∈ s'.out ∧ OnlySent s s' ∧
        mget 0 (linkAt s' l).failures h.rx.seq.toNat = times)) ∧
    (∀ n, linkLive s = true → h.rx.chk = .good n → s.net.arrived = [] →
      (mustWait s (l / 9) 2 → ∃ s', exec i s = .next s' ∧ OnlySent s s' ∧
        objGet s' 0x4000 0x12 = objGet s 0x4000 0x12 + 1 ∧ ∃ items, s'.net.waiting =
          s.net.waiting.set (3 * (l / 9) + 1) (s.net.waiting.getD (3 * (l / 9) + 1) [] ++
            [{ act := 2, flits := 9, items := items }])) ∧
      (mayGo s (l / 9) 2 → holdLive s = false → ∃ s', exec i s = .next s' ∧ OnlySent s s') ∧
      (mayGo s (l / 9) 2 → holdLive s = true → h.seq.toNat ≠ mget 0 s.treadle.seqs (coordNat h.sender) →
        ∃ s', exec i s = .next s' ∧ Recorded s s' 0 0x6003 ∧ OnlyAside s s'))) ∧
  (∀ (h : NoticeHdr) (n : Nat) (s : State), Inv s → linkLive s = true → holdLive s = true → h.rx.chk = .good n →
    s.net.arrived = [] → mayGo s (h.rx.link.val / 9) 2 → h.seq.toNat = mget 0 s.treadle.seqs (coordNat h.sender) →
    let gives := fun (i : Instr) (post : State → Prop) => ∃ s', exec i s = .next s' ∧ s'.mem = s.mem ∧
      s'.tiles = s.tiles ∧ mget 0 s'.treadle.seqs (coordNat h.sender) = (h.seq.toNat + 1) % 2 ^ 32 ∧
      (∀ c ∈ relayCopies s h.travel, ∃ x ∈ (linkAt s' c.1).bulk, x.2.2.kind = .notice) ∧ post s'
    (∀ g : Bytes, gives (.graphHeader h g) fun s' => s'.treadle.tasks = s.treadle.tasks ∧
      s'.treadle.graphs = s.treadle.graphs ++ [{
        seq := h.graphSeq, id := leAt g 4 4, tasks := leAt g 8 2, admSp := h.sp
        scanPos := h.scanPos, effect := h.sp + admitHorizon s, recorded := false }]) ∧
    (∀ l : List Bytes, gives (.taskRecords h l) fun s' => s'.treadle.graphs = s.treadle.graphs ∧
      ∃ ks, s'.treadle.tasks = s.treadle.tasks ++ ks ∧ ks.length = min 5 l.length ∧
        ∀ i k, ks[i]? = some k → k.graphSeq = h.graphSeq ∧ k.index = h.first + i ∧ k.state = .waiting ∧
          k.effect = h.sp + admitHorizon s ∧ k.rec_ = taskRecOf (slice (l.getD i []) 0 96)) ∧
    (∀ n m floor : Nat, gives (.scanSummary h n m floor) fun s' => (admissionAt s' h.sp).summary = some (n, m) ∧
      s'.hold.paces = s.hold.paces ++ (if floor = 0 then []
        else [{ effect := h.sp + admitHorizon s, sender := none, value := floor }])) ∧
    (∀ (w : Fin 16) (v : BitVec 64) (m : Coord) (t : Nat),
      let e := h.sp + admitHorizon s
      ((w.val, e) ∉ s.treadle.got → gives (.broadcastWord h w v m t) fun s' => (w.val, e) ∈ s'.treadle.got ∧
        s'.treadle.pending = s.treadle.pending ++ [{ word := w.val, value := v, effect := e }]) ∧
      ((w.val, e) ∈ s.treadle.got → gives (.broadcastWord h w v m t) fun s' =>
        Recorded s s' 0 0x6002 ∧ s'.treadle.pending = s.treadle.pending)) ∧
    (∀ e : Nat, gives (.snapshotCommand h e) fun s' => s'.treadle.snapAt = some e ∧ objGet s' 0x7000 4 = 1)) ∧
  (∀ s : State,
    let due := holdLive s = true ∧ s.started = true ∧ s.hold.held = false ∧ isLead s = true ∧ s.sp % 16 = 0 ∧
      (admissionAt s s.sp).summary = none
    let q := objGet s 0x5000 5
    let hdr := slotGet s q 0 64
    let raws := (List.range (leAt hdr 8 2)).map fun i => slotGet s q (64 + 96 * i) 96
    let need := resultDemand (replayOn s) (raws.map taskRecOf)
    (¬ due → exec .admissionScan s = .next s) ∧
    (due → leAt hdr 0 4 ≠ q → ∃ s', exec .admissionScan s = .next s' ∧ (admissionAt s' s.sp).summary = some (0, 0) ∧
      objGet s' 0x5000 5 = q ∧ s'.treadle.graphs = s.treadle.graphs ∧ s'.treadle.tasks = s.treadle.tasks ∧
      s'.treadle.floorReq = none ∧ s'.mem = s.mem ∧ s'.pmem = s.pmem) ∧
    (due → leAt hdr 0 4 = q → leAt hdr 8 2 ≤ 4096 → graphRefusal s hdr (raws.map taskRecOf) = none →
      (s.treadle.graphs.filter (graphOpen s s.sp)).length < 64 → owedEntries s + need ≤ freeEntries s →
      ∃ s', exec .admissionScan s = .next s' ∧ (admissionAt s' s.sp).summary.isSome = true ∧ s'.mem = s.mem ∧
        ∃ g ∈ s'.treadle.graphs, g.seq = q ∧ g.tasks = leAt hdr 8 2 ∧ g.effect = s.sp + admitHorizon s) ∧
    (due → leAt hdr 0 4 = q → leAt hdr 8 2 ≤ 4096 → graphRefusal s hdr (raws.map taskRecOf) ≠ none →
      owedEntries s + 1 ≤ freeEntries s →
      ∃ s', exec .admissionScan s = .next s' ∧ objGet s 0x5000 0xD < objGet s' 0x5000 0xD ∧ s'.mem = s.mem)) ∧
  (∀ s : State,
    let a := s.sp + horizon s + 1 - admitHorizon s
    let unsent := unsentNotices s a
    let late := holdLive s = true ∧ isLead s = true ∧ admitHorizon s ≤ s.sp + horizon s + 1 ∧ a % 16 = 0 ∧
      unsent ≠ [] ∧ a ∉ s.treadle.lateAt
    let request : HoldReq := { sp := s.sp, reason := 4, ocls := 4, oidx := 0, count := min 1023 (recordsIn unsent) }
    (¬ late → exec .admissionLate s = .next s) ∧
    (late → ∃ s', exec .admissionLate s = .next s' ∧ objGet s' 0x5000 0xF = objGet s 0x5000 0xF + 1 ∧
      s'.treadle = { s.treadle with lateAt := s.treadle.lateAt ++ [a] } ∧ s'.mem = s.mem ∧
      (s.hold.held = false → mayGo s 0 1 → .holdRequest request ∈ s'.out))) ∧
  (∀ s : State,
    let a := s.sp + 1 - admitHorizon s
    let missing := holdLive s = true ∧ s.started = true ∧ admitHorizon s ≤ s.sp + 1 ∧ a % 16 = 0 ∧
      admitComplete s a = false ∧ .records a ∉ s.hold.awaited
    (¬ missing → exec .recordsMissing s = .next s) ∧
    (Inv s → missing → ∃ s', exec .recordsMissing s = .next s' ∧ Recorded s s' 0 0x5006 ∧ OnlyAside s s')) ∧
  (∀ (g t : Nat) (s : State), (s.job = false ∨ isLead s = false ∨ issuing s = false →
      exec (.resultRecordWrite g t) s = .next s) ∧
    ∀ k a b st, s.job = true → isLead s = true → issuing s = true →
      s.treadle.tasks.find? (fun k => k.graphSeq == g && k.index == t && !k.recorded) = some k →
      (recordDue k s.sp = none → exec (.resultRecordWrite g t) s = .next s) ∧
      (recordDue k s.sp = some (a, b, st) → streamCount k.rec_ = 0 →
        let i := objGet s 0x5000 8
        ∃ s', exec (.resultRecordWrite g t) s = .next s' ∧ portGet s' (ringAddr i) 128 =
            leBytes 1 1 ++ leBytes 1 st ++ leBytes 2 k.index ++ leBytes 4 k.graphId ++ leBytes 8 a ++ leBytes 8 b ++
              zeros 4 ++ leBytes 4 i ++ zeros 96 ∧
          (∀ x ∈ s'.treadle.tasks, x.graphSeq = g → x.index = t → x.recorded = true) ∧
          s'.mem = s.mem ∧ s'.tiles = s.tiles))

/-- A unit that raises a stopping code leaves its record at the fault unit of its die; in a job with no safe stop it
asserts the stop line, closes the egress gates and sends a FAULT on every up link; no unit raises another code so.
FAULT from a module of the slice leaves a record of 0x4015 with that module and stamp, and in a job with no safe
stop goes on, with its own code, module and stamp, on every up link; from another it counts in 0x41nn:13.
FAULT_RECORD delivers the oldest record of a die and counts it. With no first fault, a stopping one of a job becomes
it, a remote one only where no local stopping one is on its way; a local one that goes before a local first fault
takes its place; no other record does. 16 ticks after the first fault, in state 1, the lead withdraws the results,
and a module whose job is not sealed goes to state 2 with its last records saved; that of a sealed job stays in
state 1, in session state 5, until it is cleared. An invalidation not acknowledged for 800,000 ticks is sent again.
A spare that fails its self-test is recorded, counted and never used. While the management controller resets, its
paths are down. PLL and replica faults are recorded. -/
def Obligations.FaultsAndTheSafeStop : Prop :=
  (∀ (code : BitVec 16) (site : FaultSite) (s : State), Inv s →
    (isStopping code.toNat = false → exec (.safeStop code site) s = .next s) ∧
    (isStopping code.toNat = true → ∃ s', exec (.safeStop code site) s = .next s' ∧ OnlyAside s s' ∧
      s'.integrity.dies.getD site.die.val [] =
        s.integrity.dies.getD site.die.val [] ++ [makeRecord s code.toNat site] ∧
      s'.integrity.first = s.integrity.first ∧
      (s.job = true → s'.integrity.stopLine = true ∧
        (s.integrity.stopLine = false → s'.ports.egress = false ∧ ∀ l, l < 36 → linkUp s l = true →
          .faultSymbol l code (ownCoord s) (stampNow s) ∈ s'.out)) ∧
      (s.job = false → s'.integrity.stopLine = s.integrity.stopLine ∧ s'.out = s.out))) ∧
  (∀ (link : LinkIx) (code : BitVec 16) (m : Coord) (stamp : BitVec 64) (s : State), Inv s →
    (inSlice s m = true → ∃ s' r, exec (.fault link code m stamp) s = .next s' ∧ OnlyAside s s' ∧
      s'.integrity.dies.getD (link.val / 9) [] = s.integrity.dies.getD (link.val / 9) [] ++ [r] ∧ r.code = 0x4015 ∧
      r.modl = m ∧ r.stamp = stamp.toNat ∧ (s.job = true → s'.integrity.stopLine = true) ∧
      (s.job = true → s.integrity.stopLine = false → s'.ports.egress = false ∧ ∀ l, l < 36 → linkUp s l = true →
        .faultSymbol l code m stamp.toNat ∈ s'.out)) ∧
    (inSlice s m = false → ∃ s', exec (.fault link code m stamp) s = .next s' ∧ s' = { s with objs := s'.objs } ∧
      objGet s' (0x4100 + link.val) 0x13 = objGet s (0x4100 + link.val) 0x13 + 1)) ∧
  (∀ (d : DieIx) (s : State), Inv s → (s.integrity.dies.getD d.val [] = [] → exec (.faultRecord d) s = .next s) ∧
    ∀ r rest, s.integrity.dies.getD d.val [] = r :: rest →
      let coming := ∃ k x, x ∈ (s.integrity.dies.set d.val rest).getD k [] ∧ localStop x = true
      let f := s.integrity.first
      let becomes := fun (first : Option FaultRec) => ∃ s', exec (.faultRecord d) s = .next s' ∧
        objGet s' 0x6000 6 = objGet s 0x6000 6 + 1 ∧ s'.mem = s.mem ∧ s'.integrity.first = first
      let new := some { r with flags := r.flags ||| 0x10 }
      (s.job = false ∨ recStops r = false → becomes f) ∧
      (s.job = true → recStops r = true → f = none → recRemote r = false ∨ ¬ coming → becomes new) ∧
      (s.job = true → recStops r = true → f = none → recRemote r = true → coming → becomes none) ∧
      (∀ x, s.job = true → recStops r = true → f = some x →
        (recRemote r = false → recRemote x = false → recBefore r x = true → becomes new) ∧
        (recRemote r = true ∨ recRemote x = true ∨ recBefore r x = false → becomes f))) ∧
  (∀ (r : FaultRec) (s : State), (stopState s ≠ 1 ∨ s.tick < r.stamp + 16 → s.integrity.first = some r →
      exec .withdrawResults s = .next s) ∧
    (s.integrity.first = some r → stopState s = 1 → r.stamp + 16 ≤ s.tick → s.sealedJob = false →
      s.integrity.endLatched = false → ∃ s', exec .withdrawResults s = .next s' ∧ stopState s' = 2 ∧
        s'.integrity.saved = r :: s.integrity.ring.drop (s.integrity.ring.length - 8) ∧ s'.mem = s.mem ∧
        (isLead s = true → s.integrity.withdrawn = false → s'.integrity.withdrawn = true ∧
          objGet s' 0x6000 5 = (suspectRecords s r.sp).headD (objGet s 0x5000 8))) ∧
    (s.integrity.first = some r → stopState s = 1 → r.stamp + 16 ≤ s.tick → s.sealedJob = true →
      ∃ s', exec .withdrawResults s = .next s' ∧ stopState s' = 1 ∧ session s' = 5 ∧ s'.sealedJob = true ∧
        s'.mem = s.mem)) ∧
  (∀ s : State, ∃ s', exec .invalidationRepeat s = .next s' ∧
    s'.out = s.out ++ (s.integrity.invalid.filter fun i => i.sent + 800000 ≤ s.tick).map (fun i =>
      .packet (destPort (destEntry s i.dest)) i.bytes) ∧ s'.integrity.invalid.length = s.integrity.invalid.length ∧
    (∀ i ∈ s'.integrity.invalid, s.tick < i.sent + 800000) ∧
    s' = { s with out := s'.out, integrity := { s.integrity with invalid := s'.integrity.invalid } }) ∧
  (∀ (w : Spare) (s : State), Inv s → ((fnAt s 36).state ≠ 2 ∨ spareIdle s w = false →
      exec (.selfTestFailure w) s = .next s) ∧
    ((fnAt s 36).state = 2 → spareIdle s w = true → ∃ s', exec (.selfTestFailure w) s = .next s' ∧
      Recorded s s' (spareSite w).die.val 0x3010 ∧ s'.integrity.unusable = s.integrity.unusable ++ [spareCode w] ∧
      objGet s' 0x6000 0x19 = objGet s 0x6000 0x19 + 1 ∧ s'.mem = s.mem ∧ s'.tiles = s.tiles)) ∧
  (∀ s : State, Inv s → (∃ s', exec .mgmtWatchdog s = .next s' ∧ Recorded s s' 0 0x8010 ∧ pathOpen s' .can = false ∧
      pathOpen s' .mgmt = false ∧ s'.integrity.stopLine = s.integrity.stopLine) ∧
    exec .mgmtResetDone s = .next { s with mgmtDown := false }) ∧
  (∀ (d : DieIx) (s : State), Inv s → (bitOf (objGet s 0x2202 6) d.val = false → exec (.pllLoss d) s = .next s) ∧
    (bitOf (objGet s 0x2202 6) d.val = true → ∃ s', exec (.pllLoss d) s = .next s' ∧ Recorded s s' d.val 0x1012 ∧
      objGet s' 0x2202 6 = objGet s 0x2202 6 - 2 ^ d.val ∧ OnlyAside s s')) ∧
  (∀ (site : FaultSite) (s : State), Inv s → ∃ s', exec (.replicaHardThreshold site) s = .next s' ∧
    Recorded s s' site.die.val 0x1013 ∧ objGet s' 0x2202 7 = objGet s 0x2202 7 + 1 ∧ OnlyAside s s')

/-- A start tick that waits begins the job where the checks pass: SP and TP are 0, the boundary is the start tick, the
pace in force is the floor, job counts start anew, a session in state 3 goes to 4; with no pattern fault 0x4021,
with failed checks the fault of every one of them, each at its unit, is raised and the job state is 3; otherwise
nothing happens. JOB_END of an open job with no safe stop leaves the module ready for a new start tick, of a sealed
one in session state 5; the flags that only SETFLAG writes stay, those of the broadcast words are gone. CLEARING
then, or in state 1 of the safe stop of a sealed job, leaves no row, tile queue or key and session state 0. An
attestation request is answered with a report over its nonce; an offer in state 0 goes to state 1 with a fresh key,
otherwise it is refused with 0x07, 0x0D or 0x06; an accept with the right confirmation goes to state 2, a wrong one
to 0; a sound first bundle goes to state 3. An offer not accepted in 60 s is dropped. IDE keys are taken in state 2
alone. -/
def Obligations.JobsAndSessionsBeginAndEnd : Prop :=
  (∀ s : State, Inv s →
    let waits := s.job = true ∧ s.started = false ∧ s.integrity.stopLine = false ∧ objGet s 0x4200 0x14 = 1
    let b0 := objGet s 0x4200 0x13
    (¬ waits → exec .startTick s = .next s) ∧
    (waits → s.pattern = none → ∃ s', exec .startTick s = .next s' ∧ Recorded s s' 0 0x4021 ∧ s'.started = false ∧
      objGet s' 0x4200 0x14 = 3) ∧
    ∀ p, waits → s.pattern = some p →
      (startFaults s ≠ [] → ∃ s', exec .startTick s = .next s' ∧ s'.started = false ∧ objGet s' 0x4200 0x14 = 3 ∧
        s'.tick = max s.tick b0 ∧ ∀ f ∈ startFaults s, Raised s s' f.2.die.val f.1) ∧
      (startFaults s = [] → ∃ s', exec .startTick s = .next s' ∧ s'.started = true ∧ s'.job = true ∧ s'.tp = 0 ∧
        s'.sp = 0 ∧ s'.boundary = b0 ∧ s'.tick = max s.tick b0 ∧ paceNow s' = objGet s 0x4300 3 ∧
        objGet s' 0x4200 0x14 = 2 ∧ objGet s' 0x5000 5 = 1 ∧ objGet s' 0x5000 8 = 0 ∧ s'.hold.held = false ∧
        s'.treadle.tasks = [] ∧ session s' = (if session s = 3 then 4 else session s))) ∧
  (∀ s : State, (s.job = false ∨ s.integrity.stopLine = true → exec .jobEnd s = .next s) ∧
    (s.job = true → s.integrity.stopLine = false → ∃ s', exec .jobEnd s = .next s' ∧ s'.job = false ∧
      s'.started = false ∧ s'.treadle.tasks = [] ∧ s'.treadle.graphs = [] ∧ s'.hold.held = false ∧
      session s' = (if s.sealedJob = true then 5 else session s) ∧ s'.loads = s.loads ∧ s'.mem = s.mem ∧
      (∀ t, (tileAt s' t).flags = (tileAt s t).flags &&& 0xFFFF) ∧
      ∀ t w, (windowAt (tileAt s' t) w).opened = false)) ∧
  (∀ s : State, (s.sealedJob = false → exec .clearing s = .next s) ∧
    (s.sealedJob = true → session s = 5 → stopState s ≠ 1 → ∃ s', exec .clearing s = .next s' ∧
      session s' = 0 ∧ s'.sealedJob = false ∧
      s'.mem = [] ∧ s'.upsets = [] ∧ s'.poison = [] ∧ s'.security.secret = [] ∧ s'.security.kBundle = [] ∧
      s'.security.linkKey = [] ∧ s'.security.reqKey = [] ∧ s'.security.resKey = [] ∧ s'.security.ringKey = [] ∧
      s'.security.plates = [] ∧ s'.integrity = s.integrity) ∧
    (s.sealedJob = true → stopState s = 1 → s.integrity.first ≠ none → isLead s = false ∨
      s.integrity.withdrawn = true → s.integrity.endLatched = false → ∃ s', exec .clearing s = .next s' ∧
      session s' = 0 ∧ stopState s' = 2 ∧ s'.mem = [] ∧ s'.security.linkKey = [])) ∧
  (∀ (p : Path) (nonce : Bytes) (s : State),
    let up := pathOpen s p = true ∧ p ≠ .can ∧ codeRunning s = true
    let gives := fun (i : Instr) (status : Nat) (post : State → Bytes → Prop) => ∃ s' d, exec i s = .next s' ∧
      s'.out = s.out ++ [.response p (answerOf 0x10 0 0 status d)] ∧ post s' d
    let same := fun (s' : State) (_ : Bytes) => s' = { s with objs := s'.objs, out := s'.out } ∧ session s' = session s
    (pathOpen s p = false → ∀ m x k c q b t, exec (.attestationRequest p nonce) s = .next s ∧
      exec (.offerRequest p nonce m) s = .next s ∧ exec (.accept p x k c) s = .next s ∧
      exec (.keyBundle p q b t) s = .next s) ∧
    (up → gives (.attestationRequest p nonce) 0 fun s' d => same s' d ∧ slice d 32 32 = slice nonce 0 32 ∧
      slice d 0 8 = ascii "CHRATT01") ∧
    (up → ∀ m : BitVec 8, (s.job = true → gives (.offerRequest p nonce m) 7 same) ∧
      (s.job = false → session s ≠ 0 → gives (.offerRequest p nonce m) 0xD same) ∧
      (s.job = false → session s = 0 → m.toNat ≠ objGet s 0x6200 1 → gives (.offerRequest p nonce m) 6 same) ∧
      (s.job = false → session s = 0 → m.toNat = objGet s 0x6200 1 → gives (.offerRequest p nonce m) 0 fun s' d =>
        session s' = 1 ∧ s'.security.nonce = nonce ∧ s'.security.secret = Config.freshSecret s.free ∧
        s'.free = s.free + 1 ∧ slice d 32 32 = slice nonce 0 32)) ∧
    (up → ∀ x k c : Bytes, (s.job = true ∨ session s ≠ 1 → gives (.accept p x k c) 0xD same) ∧
      (s.job = false → session s = 1 →
        let th := sha384 (s.security.offer ++ x ++ k)
        let prk := hmacSha384 th (Config.mlkemDecaps s.security.secret k ++ Config.x25519Shared s.security.secret x)
        if c = hmacSha384 (hmacSha384 prk (ascii "tenant confirm" ++ [1])) th then
          gives (.accept p x k c) 0 fun s' d => session s' = 2 ∧ s'.security.th = th ∧
            d = hmacSha384 (hmacSha384 prk (ascii "module confirm" ++ [1])) th
        else gives (.accept p x k c) 0xD fun s' _ => session s' = 0 ∧ s'.security.secret = [] ∧
          objGet s' 0x6100 0x16 = objGet s 0x6100 0x16 + 1)) ∧
    (up → ∀ (q : BitVec 32) (b t : Bytes), (session s < 2 ∨ 4 < session s → gives (.keyBundle p q b t) 0xD same) ∧
      (session s = 2 → s.job = false →
        match gcmOpen s.security.kBundle (zeros 8 ++ beBytes 4 q.toNat) s.security.th b t with
        | none => gives (.keyBundle p q b t) 0xD same
        | some m => if bundleOk s q.toNat m = true then gives (.keyBundle p q b t) 0 fun s' _ => session s' = 3 ∧
            s'.security.bundles = s.security.bundles + 1 ∧ s'.security.plates = s.security.plates ++ bundlePlates m ∧
            (s.security.bundles = 0 → s'.security.linkKey = slice m 48 32 ∧ s'.security.resKey = slice m 112 32)
          else gives (.keyBundle p q b t) 0xD same))) ∧
  (∀ s : State, (session s = 1 → leAt s.security.offer 64 8 + 48000000000 ≤ s.tick → ∃ s',
      exec .offerTimeout s = .next s' ∧ session s' = 0 ∧ s'.security.secret = [] ∧
      s' = { s with objs := s'.objs, security := s'.security }) ∧
    (session s ≠ 1 ∨ s.tick < leAt s.security.offer 64 8 + 48000000000 → exec .offerTimeout s = .next s)) ∧
  (∀ (k : Bytes) (go : Bool) (s : State), (session s ≠ 2 → exec (.ideKm k go) s = .next s) ∧
    (session s = 2 → k ≠ [] → ∃ s', exec (.ideKm k go) s = .next s' ∧ objGet s' 0x8000 0xC = (if go then 2 else 1) ∧
      s' = { s with objs := s'.objs, security := { s.security with ide := k } }))

/-- INPUT_VALID after absence is a cold start, and nothing with the input present. START does nothing in a start state
other than 0, with a start under way or failed, or without input; one whose S1 fails is halted there with fault
0x1003; one from S5 with valid references and locked PLLs waits at S9. ALIGNMENT_TICK at S9 with no bad tile and
sound bridges goes on to S11, where the links train; with a bad tile the start fails. Once every link of S11 has
settled, or its time is up, the module goes on to S12 and sends a handshake on every up link; until then S11 goes
on. At S12 the echo of the request sent on a link, where no lower link still owes one, makes the module ready at the
time of its neighbour; a lower link is waited for (the choice of the model, assumption 115). While a start tick
waits, an echo raises the recorded offset. A request is answered in time states 1 and 2. A module that may be the
root becomes ready at its timeout. A step that times out fails the start, S3 opens the recovery window. A halted
start restarts from S2. RESET_N outside absence is a warm reset; a rail fault is 0x1003 or fails the start; loss of
the reference in use is fault 0x1010 in a job, else a start from S5. -/
def Obligations.ModuleStartAndResets : Prop :=
  (∀ s : State, (s.power.input = true → exec .inputValid s = .next s) ∧
    (s.power.input = false → ∃ s', exec .inputValid s = .next s' ∧ s'.power.input = true ∧ objGet s' 0x2200 3 = 1 ∧
      objGet s' 0x2200 2 = 0 ∧ startState s' = 0 ∧ s'.job = false ∧ s'.integrity.stopLine = false)) ∧
  (∀ (f : StartFacts) (s : State), Inv s →
    let ready := startState s = 0 ∧ s.start.halted = false ∧ s.start.facts = none ∧ s.power.input = true
    (¬ ready → exec (.start f) s = .next s) ∧
    (ready → objGet s 0x2200 2 ≤ 1 → f.s1 = false → ∃ s', exec (.start f) s = .next s' ∧ s'.start.halted = true ∧
      s'.start.failed = some 1 ∧ Recorded s s' 0 0x1003 ∧ objGet s' 0x2200 2 = 1) ∧
    (ready → objGet s 0x2200 2 = 5 → s.start.first = 5 → f.refA = 1 → f.refB = 1 → s.start.failed ≠ some 5 →
      objGet s 0x2202 4 ≤ 1 → (∀ d, d < 4 → f.plls.getD d false = true) → ∃ s', exec (.start f) s = .next s' ∧
        objGet s' 0x2200 2 = 9 ∧ startState s' = 0 ∧ objGet s' 0x2202 1 = objGet s 0x2202 4 ∧
        objGet s' 0x2202 6 = 15 ∧ s'.start.facts = some f ∧ s'.mem = s.mem)) ∧
  (∀ (f : StartFacts) (s : State), Inv s → s.start.facts = some f →
    let at9 := startState s = 0 ∧ objGet s 0x2200 2 = 9
    (∀ b, ¬ at9 → exec (.alignmentTick b) s = .next s) ∧
    (∀ t, at9 → ∃ s', exec (.alignmentTick (some t)) s = .next s' ∧ s'.start.halted = true ∧ s'.start.failed = some 9 ∧
      (t.val ∈ s'.integrity.markTiles ∨ Recorded s s' (dieOf t) 0x3011)) ∧
    (at9 → f.bridgeFull = [] → s.integrity.markPorts = [] → ∃ t, exec (.alignmentTick none) s = .next (settleS11 t) ∧
      objGet t 0x2200 2 = 11 ∧ startState t = 0 ∧ t.mem = s.mem ∧ t.start.halted = s.start.halted)) ∧
  (∀ (b : Option TileIx) (s : State), s.start.facts = none → exec (.alignmentTick b) s = .next s) ∧
  (∀ s : State,
    let at11 := startState s = 0 ∧ objGet s 0x2200 2 = 11 ∧ s.start.halted = false
    let greets := fun s' : State => objGet s' 0x2200 2 = 12 ∧ startState s' = 0 ∧ s'.mem = s.mem ∧
      ∀ l, l < 36 → linkUp s' l = true → .symbol l 3 (timePayload 3 0 s.tick) ∈ s'.out ∧
        (linkAt s' l).t0 = some s.tick
    (at11 → (∃ l ∈ s11Links s, linkSettled s l = false) → settleS11 s = s) ∧
    (at11 → (∀ l ∈ s11Links s, linkSettled s l = true) → greets (settleS11 s)) ∧
    (at11 → ∃ s', exec .startTimeout s = .next s' ∧ greets s')) ∧
  (∀ (link : LinkIx) (u : BitVec 24) (res : BitVec 32) (value : BitVec 64) (s : State),
    let l := link.val
    let at12 := startState s = 0 ∧ objGet s 0x2200 2 = 12 ∧ s.start.halted = false
    let echo := Instr.timeHandshake link true u res value
    (objGet s 0x4200 0xA = 1 ∨ objGet s 0x4200 0xA = 2 → ∃ s', exec (.timeHandshake link false u res value) s = .next s' ∧
      OnlySent s s' ∧ .symbol l 3 (timePayload 3 u.toNat s.tick) ∈ s'.out) ∧
    (objGet s 0x4200 0xA ≠ 1 → objGet s 0x4200 0xA ≠ 2 → exec (.timeHandshake link false u res value) s = .next s) ∧
    ((linkAt s l).t0 = none → exec echo s = .next s) ∧
    ∀ t0, (linkAt s l).t0 = some t0 →
      let th := theta2 t0 value.toNat s.tick u.toNat
      let owes := ∃ i, i < l ∧ linkUp s i = true ∧ (linkAt s i).t0.isSome = true
      (at12 → ¬ owes → s.start.echoes = [] → ∃ s' k, exec echo s = .next s' ∧
        startState s' = 1 ∧ objGet s' 0x2200 2 = 13 ∧ objGet s' 0x4200 0xA = 1 ∧ objGet s' 0x4200 0xB = l ∧
        s'.tick = ((s.tick : Int) + 8 * k).toNat ∧ (16 * k - th).natAbs ≤ 8) ∧
      (at12 → owes → ∃ s', exec echo s = .next s' ∧ s'.start.echoes = s.start.echoes ++ [(l, th)] ∧
        (linkAt s' l).t0 = none ∧
        s' = { s with links := s'.links, start := { s.start with echoes := s'.start.echoes } }) ∧
      (¬ at12 → objGet s 0x4200 0x14 = 1 →
        let m := (th.natAbs + 1) / 2
        ∃ s', exec echo s = .next s' ∧ OnlySent s s' ∧ objGet s' 0x4200 0x15 =
          (if signed 16 (objGet s 0x4200 0x15) < m then min m 32767 else objGet s 0x4200 0x15)) ∧
      (¬ at12 → objGet s 0x4200 0x14 ≠ 1 → exec echo s = .next s)) ∧
  (∀ s : State,
    let waits := startState s = 0 ∧ objGet s 0x2200 2 = 12 ∧ objGet s 0x4200 9 = 1
    (¬ waits → exec .timeRootTimeout s = .next s) ∧
    (waits → ∃ s', exec .timeRootTimeout s = .next s' ∧ startState s' = 1 ∧ objGet s' 0x4200 0xA = 2 ∧
      objGet s' 0x2200 6 = 0)) ∧
  (∀ s : State,
    let k := objGet s 0x2200 2
    let runs := startState s = 0 ∧ s.start.halted = false ∧ 1 ≤ k ∧ k ≤ 11
    (¬ runs → exec .startTimeout s = .next s) ∧
    (runs → k ≠ 3 → k ≠ 11 → ∃ s', exec .startTimeout s = .next s' ∧ s'.start.halted = true ∧
      s'.start.failed = some k) ∧
    (runs → k = 3 → ∃ s', exec .startTimeout s = .next s' ∧ startState s' = 3 ∧ s'.start.recovery = true)) ∧
  (∀ s : State, (s.start.halted = false ∨ startState s ≠ 0 → exec .autoRestart s = .next s) ∧
    (s.start.halted = true → startState s = 0 → ∃ s', exec .autoRestart s = .next s' ∧ s'.start.halted = false ∧
      objGet s' 0x2200 2 = 2 ∧ objGet s' 0x2200 3 = 4 ∧ objGet s' 0x2200 6 = objGet s 0x2200 6 + 1)) ∧
  (∀ s : State, (s.power.input = false → exec .resetNLow s = .next s) ∧
    (s.power.input = true → ∃ s', exec .resetNLow s = .next s' ∧ s'.job = false ∧ objGet s' 0x2200 2 = 2 ∧
      objGet s' 0x2200 3 = 2 ∧ s'.mem = s.mem ∧ s'.flash = keptFlash s s.flash ∧
      (s.job = true → ∀ l, l < 36 → linkUp s l = true →
        .faultSymbol l 0x1004 (ownCoord s) (stampNow s) ∈ s'.out))) ∧
  (∀ (r : Fin 13) (s : State), Inv s →
    let m := objGet s 0x2000 0xE
    let start := startState s = 0 ∧ (objGet s 0x2200 2 = 1 ∨ objGet s 0x2200 2 = 4)
    let rails := fun s' : State => objGet s' 0x2000 0xE = if bitOf m r.val then m - 2 ^ r.val else m
    (¬ start → ∃ s', exec (.railFault r) s = .next s' ∧ Recorded s s' 0 0x1003 ∧ rails s' ∧ OnlyAside s s') ∧
    (start → s.start.halted = false → ∃ s', exec (.railFault r) s = .next s' ∧ rails s' ∧ s'.start.halted = true ∧
      Recorded s s' 0 0x1003)) ∧
  (∀ s : State, Inv s →
    let u := objGet s 0x2202 1
    (1 < u → exec .referenceLoss s = .next s) ∧
    (u ≤ 1 → s.job = true → ∃ s', exec .referenceLoss s = .next s' ∧ Recorded s s' 0 0x1010 ∧ OnlyAside s s' ∧
      objGet s' 0x2202 5 = objGet s 0x2202 5 + 1) ∧
    (u ≤ 1 → s.job = false → ∃ s', exec .referenceLoss s = .next s' ∧ objGet s' 0x2200 2 = 5 ∧
      objGet s' 0x2200 3 = 6 ∧ startState s' = 0 ∧ objGet s' 0x4200 0xA = 0 ∧ s'.mem = s.mem))

/-- A power window adds its energy; while the module runs unheld and a message may be sent, an average above the limit,
or heat, raises the own request by one tick in a PACE with effect SP = request SP + H + 1, one below the limit less
the hysteresis lowers it; else nothing else changes. A power emergency above the rating awaits the power, asks for a
hold of reason 5 and counts, once; one below ends the wait. A junction reading is recorded and sets the throttle at
the throttle temperature, until 3 °C below; at 105 °C it is fault 0x1030, the rails go off and the start state is 2.
Coolant out of range counts as heat and is fault 0x1031; a failed sensor is ignored from then on. An input out of
range or absent is fault 0x1001 and power-down, once. A change of the reference not in use is shown, its loss
counted. A stretched period of a region counts in 0x2100:04, at most once in any four consecutive cycles; of a tile,
its clock stands still in the next cycle in which it would run, and what it does is as before. -/
def Obligations.PowerHeatAndClocks : Prop :=
  (∀ (w : Nat) (s : State), Inv s →
    let r := ownRequest s
    let runs := holdLive s = true ∧ s.started = true ∧ s.hold.held = false ∧ paceFree s = true
    let limit := objGet s 0x2000 3
    let hot := s.power.hot = true ∨ limit < w
    let up := min Config.maxPace (if r = 0 then paceNow s + 1 else r + 1)
    let down := if r - 1 ≤ Config.minPace s.ident.grade then 0 else r - 1
    let energy := s.power.energy + w * objGet s 0x2000 5
    let quiet := exec (.powerWindow w) s = .next { s with power := { s.power with energy := energy } }
    let sends := fun (v : Nat) => ∃ s', exec (.powerWindow w) s = .next s' ∧ s'.power.energy = energy ∧
      s'.power.lastPace = some s.sp ∧ objGet s' 0x2000 0xC = objGet s 0x2000 0xC + 1 ∧ s'.mem = s.mem ∧
      s'.hold.paces = s.hold.paces ++ [{
        effect := s.sp + horizon s + 1, sender := some (ownCoord s), value := v % 1024 }]
    (¬ runs → quiet) ∧
    (runs → hot → up = r → quiet) ∧
    (runs → hot → up ≠ r → sends up) ∧
    (runs → ¬ hot → limit ≤ w + objGet s 0x2000 4 ∨ r = 0 → quiet) ∧
    (runs → ¬ hot → w + objGet s 0x2000 4 < limit → r ≠ 0 → sends down)) ∧
  (∀ (w : Nat) (s : State),
    let rated := objGet s 0x1001 7
    let free := holdLive s = true ∧ s.started = true ∧ s.hold.held = false ∧ .power ∉ s.hold.awaited
    let raised := min Config.maxPace (max (ownRequest s) (paceNow s) + 8)
    let request : HoldReq := { sp := s.sp, reason := 5, ocls := 5, oidx := 0, count := raised }
    (rated < w → free → ∃ s', exec (.powerEmergency w) s = .next s' ∧ objGet s' 0x2000 2 = w ∧
        s'.hold = { s.hold with awaited := s.hold.awaited ++ [.power] } ∧
        s'.power.lastEmerg = some (s.sp + 1 + horizon s) ∧ objGet s' 0x2000 0xD = objGet s 0x2000 0xD + 1 ∧
        (mayGo s 0 1 → .holdRequest request ∈ s'.out)) ∧
    (w = rated ∨ rated < w ∧ ¬ free → ∃ s', exec (.powerEmergency w) s = .next s' ∧ s' = { s with objs := s'.objs } ∧
      objGet s' 0x2000 2 = w) ∧
    (w < rated → ∃ s', exec (.powerEmergency w) s = .next s' ∧ objGet s' 0x2000 2 = w ∧
      .power ∉ s'.hold.awaited ∧ s'.mem = s.mem)) ∧
  (∀ (d : Int) (i : Instr) (s : State), Inv s → i = .throttleTemp d ∨ i = .overtemp d → -32768 ≤ d → d < 32768 →
    let limit := (objGet s 0x2000 6 : Int) * 10
    ∃ s', exec i s = .next s' ∧ signed 16 (objGet s' 0x2000 7) = d ∧
      s'.power.hot = (coolantBad s || decide (limit ≤ d) || s.power.hot && decide (limit - 30 < d)) ∧
      (d < 1050 → s' = { s with objs := s'.objs, power := { s.power with hot := s'.power.hot } }) ∧
      (1050 ≤ d → Recorded s s' 0 0x1030 ∧ s'.power.rails = false ∧ startState s' = 2 ∧
        objGet s' 0x2000 0xE = objGet s 0x2000 0xE % 4)) ∧
  (∀ (inlet : Int) (flow : Nat) (s : State), Inv s → -32768 ≤ inlet → inlet < 32768 →
    let fails := objGet s 0x2000 0xA
    let bad := bitOf fails 0 = false ∧ 450 < inlet ∨ bitOf fails 1 = false ∧ flow < 40
    ∃ s', exec (.coolantRange inlet flow) s = .next s' ∧ objGet s' 0x2000 9 = flow ∧
      signed 16 (objGet s' 0x2000 8) = inlet ∧ (bad → s'.power.hot = true ∧ Recorded s s' 0 0x1031) ∧
      (¬ bad → s'.integrity = s.integrity) ∧ s'.integrity.stopLine = s.integrity.stopLine ∧ s'.mem = s.mem) ∧
  (∀ (flow : Bool) (s : State), ∃ s', exec (.coolantSensor flow) s = .next s' ∧
    objGet s' 0x2000 0xA = (objGet s 0x2000 0xA ||| (if flow then 2 else 1)) ∧
    s' = { s with objs := s'.objs, power := { s.power with hot := s'.power.hot } }) ∧
  (∀ (mv : BitVec 32) (s : State), Inv s →
    let off := fun (i : Instr) => ∃ s', exec i s = .next s' ∧ Recorded s s' 0 0x1001 ∧ s'.power.input = false ∧
      s'.power.rails = false ∧ s'.stores = [] ∧ objGet s' 0x2000 0xE = 0 ∧
      objGet s' 0x2000 0xF = objGet s 0x2000 0xF + 1
    (s.power.input = false ∨ 40000 ≤ mv.toNat ∧ mv.toNat ≤ 60000 → ∃ s', exec (.inputOutOfRange mv) s = .next s' ∧
      s' = { s with objs := s'.objs } ∧ objGet s' 0x2000 1 = mv.toNat) ∧
    (s.power.input = true → mv.toNat < 40000 ∨ 60000 < mv.toNat → off (.inputOutOfRange mv)) ∧
    (s.power.input = true → off .senseOpen) ∧ (s.power.input = false → exec .senseOpen s = .next s)) ∧
  (∀ (b : Bool) (st : Fin 3) (s : State),
    let j := if b then 3 else 2
    (objGet s 0x2202 1 = flag b → exec (.refStateChange b st) s = .next s) ∧
    (objGet s 0x2202 1 ≠ flag b → ∃ s', exec (.refStateChange b st) s = .next s' ∧ s' = { s with objs := s'.objs } ∧
      objGet s' 0x2202 j = st.val ∧ objGet s' 0x2202 5 = objGet s 0x2202 5 +
        (if objGet s 0x2202 j = 1 ∧ st.val ≠ 1 then 1 else 0))) ∧
  (∀ (t : TileIx) (c : Nat) (s : State),
    let x := tileAt s t
    let near := ∃ n, x.seq.stretched = some n ∧ c < n + 4
    (near → exec (.clockStretch (.tile t) c) s = .next s) ∧
    (¬ near → ∃ s' n, exec (.clockStretch (.tile t) c) s = .next s' ∧ OnlyTiles s s' ∧
      (∀ a, rowGet s' a = rowGet s a) ∧ (∀ u, u ≠ t → steady (tileAt s' u) = steady (tileAt s u)) ∧
      steady (tileAt s' t) = { steady x with stretches := x.seq.stretches + 1, stretched := some c } ∧
      c < n ∧ n ∉ x.stops ∧ (∀ m, c < m → m < n → m ∈ x.stops) ∧ n ∈ (tileAt s' t).stops ∧
      objGet s' 0x2100 4 = objGet s 0x2100 4 + 1)) ∧
  (∀ (r : ClockRegion) (c k : Nat) (s : State), (∃ d : DieIx, r = .network d ∧ k = d ∨ r = .selvedge d ∧ k = 4 + d) →
    let x := mget Region.reset s.regions k
    let near := ∃ n, x.stretched = some n ∧ c < n + 4
    (near → exec (.clockStretch r c) s = .next s) ∧
    (¬ near → ∃ s', exec (.clockStretch r c) s = .next s' ∧ s' = { s with objs := s'.objs, regions := s'.regions } ∧
      objGet s' 0x2100 4 = objGet s 0x2100 4 + 1 ∧
      mget Region.reset s'.regions k = { x with stretches := x.stretches + 1, stretched := some c } ∧
      ∀ j, j ≠ k → mget Region.reset s'.regions j = mget Region.reset s.regions j))

/-- SNAPSHOT_TRANSFER_COMPLETE takes state 2 to 3 once the dies have carried all their values, and no other. A selector
whose shadow counter has passed 2^48 − 1 is reloaded with 2^48 − P and raises vector 8 + k, unless it raised one
within 800 ticks: then 0x7000:0B counts it; with the sample flag, sampling enabled and a tile event it takes a
sample of the tile; below, nothing happens. The record of the oldest sample of a tile goes into the buffer of its
die at the write index, which advances, counted in 0x7100:0C, with vector 16 at the threshold and flag [1] where one
was dropped before it; with 4,096 records unread it is dropped and counted in 0x7100:0B. Where samples of the die
must wait, it waits at its injection point. With no sample nothing happens. -/
def Obligations.CountersSnapshotsAndSamples : Prop :=
  (∀ s : State,
    let done := objGet s 0x7000 4 = 2 ∧ ∀ n ∈ s.counting.left, n = 0
    (¬ done → exec .snapshotDone s = .next s) ∧
    (done → ∃ s', exec .snapshotDone s = .next s' ∧ s' = { s with objs := s'.objs } ∧ objGet s' 0x7000 4 = 3)) ∧
  (∀ (k : Fin 8) (s : State), (∀ h, s.counting.shadows[k.val]? = some h → h.count < 2 ^ 48) →
    exec (.selectorOverflow k) s = .next s) ∧
  (∀ (k : Fin 8) (h : Shadow) (s : State), s.counting.shadows[k.val]? = some h → 2 ^ 48 ≤ h.count →
    let fresh := ∀ t, h.irqAt = some t → t + 800 ≤ s.tick
    let sample := bitOf (selFlags h.sel) 1 = true ∧ selEvent h.sel < 0xC000 ∧ objGet s 0x7100 1 = 1
    ∃ s' g, exec (.selectorOverflow k) s = .next s' ∧ s'.counting.shadows = s.counting.shadows.set k.val g ∧
      g.sel = h.sel ∧ g.count = 2 ^ 48 - selPeriod h.sel ∧
      s' = { s with objs := s'.objs, counting := s'.counting, pendVec := s'.pendVec, out := s'.out } ∧
      s'.counting.live = s.counting.live ∧
      (sample → s'.counting.samples = s.counting.samples ++ [takeSample (selEvent h.sel) s]) ∧
      (¬ sample → s'.counting.samples = s.counting.samples) ∧
      (fresh → g.irqAt = some s.tick ∧ s'.objs = s.objs ∧
        (s.masked.getLsbD (8 + k.val) = false → s'.out = s.out ++ [.interrupt (8 + k.val)]) ∧
        (s.masked.getLsbD (8 + k.val) = true → s'.pendVec.getLsbD (8 + k.val) = true)) ∧
      (¬ fresh → g.irqAt = h.irqAt ∧ s'.out = s.out ∧ s'.pendVec = s.pendVec ∧
        objGet s' 0x7000 0xB = objGet s 0x7000 0xB + 1)) ∧
  (∀ (t : TileIx) (n : Nat) (s : State), (∀ x ∈ s.counting.samples, x.event / 64 ≠ t.val) →
    exec (.sampleRecord t n) s = .next s) ∧
  (∀ (t : TileIx) (n : Nat) (x : Sample) (xs ys : List Sample) (s : State), s.counting.samples = xs ++ x :: ys →
    x.event / 64 = t.val → (∀ y ∈ xs, y.event / 64 ≠ t.val) → s.net.arrived = [] →
    let d := (dieOf t.val).val
    let w := objGet s 0x7100 (2 + d)
    let unread := idxAhead (objGet s 0x7100 (6 + d)) w
    let lost := s.counting.dropped.getD d false
    let b := sampleBytes x n
    (mayGo s d 6 → 4096 ≤ unread → ∃ s', exec (.sampleRecord t n) s = .next s' ∧ s'.counting.samples = xs ++ ys ∧
      objGet s' 0x7100 0xB = objGet s 0x7100 0xB + 1 ∧
      s' = { s with objs := s'.objs, net := s'.net, counting := s'.counting }) ∧
    (mayGo s d 6 → unread < 4096 → ∃ s', exec (.sampleRecord t n) s = .next s' ∧ s'.counting.samples = xs ++ ys ∧
      objGet s' 0x7100 (2 + d) = (w + 1) % 2 ^ 32 ∧ objGet s' 0x7100 0xC = objGet s 0x7100 0xC + 1 ∧
      portGet s' (0x180000 + 0x20000 * d + 32 * (w % 4096)) 32 = b.take 23 ++
        leBytes 1 (leAt b 23 1 + (if lost then 2 else 0)) ++ b.drop 24 ∧
      s' = { s with
        objs := s'.objs, net := s'.net, counting := s'.counting, pmem := s'.pmem, pendVec := s'.pendVec
        out := s'.out } ∧
      (unread + 1 = objGet s 0x7100 0xA → s.masked.getLsbD 16 = false → .interrupt 16 ∈ s'.out)) ∧
    (mustWait s d 6 → ∃ s', exec (.sampleRecord t n) s = .next s' ∧ s'.counting.samples = xs ++ ys ∧
      OnlySent s s' ∧ objGet s' 0x4000 0x12 = objGet s 0x4000 0x12 + 1 ∧ s'.net.waiting =
        s.net.waiting.set (3 * d + 2) (s.net.waiting.getD (3 * d + 2) [] ++
          [{ act := 6, flits := 1, items := [.sampleIn d b] }])))
end

