-- ==== Sys2Proof/Laws/State.lean ====
section
/-! SUPPORT. The fields that each update of State leaves alone, one lemma per field and update. -/

namespace Sys2Proof.Laws
open Sys2Proof.Machine

@[simp] theorem objSet_ident (i j v : Nat) (s : State) : (objSet i j v s).ident = s.ident := rfl
@[simp] theorem objSet_tick (i j v : Nat) (s : State) : (objSet i j v s).tick = s.tick := rfl
@[simp] theorem objSet_boundary (i j v : Nat) (s : State) : (objSet i j v s).boundary = s.boundary := rfl
@[simp] theorem objSet_cycle0 (i j v : Nat) (s : State) : (objSet i j v s).cycle0 = s.cycle0 := rfl
@[simp] theorem objSet_tp (i j v : Nat) (s : State) : (objSet i j v s).tp = s.tp := rfl
@[simp] theorem objSet_sp (i j v : Nat) (s : State) : (objSet i j v s).sp = s.sp := rfl
@[simp] theorem objSet_job (i j v : Nat) (s : State) : (objSet i j v s).job = s.job := rfl
@[simp] theorem objSet_started (i j v : Nat) (s : State) : (objSet i j v s).started = s.started := rfl
@[simp] theorem objSet_sealedJob (i j v : Nat) (s : State) : (objSet i j v s).sealedJob = s.sealedJob := rfl
@[simp] theorem objSet_octets (i j v : Nat) (s : State) : (objSet i j v s).octets = s.octets := rfl
@[simp] theorem objSet_flash (i j v : Nat) (s : State) : (objSet i j v s).flash = s.flash := rfl
@[simp] theorem objSet_flashOct (i j v : Nat) (s : State) : (objSet i j v s).flashOct = s.flashOct := rfl
@[simp] theorem objSet_stores (i j v : Nat) (s : State) : (objSet i j v s).stores = s.stores := rfl
@[simp] theorem objSet_mem (i j v : Nat) (s : State) : (objSet i j v s).mem = s.mem := rfl
@[simp] theorem objSet_pmem (i j v : Nat) (s : State) : (objSet i j v s).pmem = s.pmem := rfl
@[simp] theorem objSet_upsets (i j v : Nat) (s : State) : (objSet i j v s).upsets = s.upsets := rfl
@[simp] theorem objSet_poison (i j v : Nat) (s : State) : (objSet i j v s).poison = s.poison := rfl
@[simp] theorem objSet_landed (i j v : Nat) (s : State) : (objSet i j v s).landed = s.landed := rfl
@[simp] theorem objSet_tiles (i j v : Nat) (s : State) : (objSet i j v s).tiles = s.tiles := rfl
@[simp] theorem objSet_regions (i j v : Nat) (s : State) : (objSet i j v s).regions = s.regions := rfl
@[simp] theorem objSet_scrubBase (i j v : Nat) (s : State) : (objSet i j v s).scrubBase = s.scrubBase := rfl
@[simp] theorem objSet_hold (i j v : Nat) (s : State) : (objSet i j v s).hold = s.hold := rfl
@[simp] theorem objSet_links (i j v : Nat) (s : State) : (objSet i j v s).links = s.links := rfl
@[simp] theorem objSet_net (i j v : Nat) (s : State) : (objSet i j v s).net = s.net := rfl
@[simp] theorem objSet_pattern (i j v : Nat) (s : State) : (objSet i j v s).pattern = s.pattern := rfl
@[simp] theorem objSet_treadle (i j v : Nat) (s : State) : (objSet i j v s).treadle = s.treadle := rfl
@[simp] theorem objSet_loads (i j v : Nat) (s : State) : (objSet i j v s).loads = s.loads := rfl
@[simp] theorem objSet_integrity (i j v : Nat) (s : State) : (objSet i j v s).integrity = s.integrity := rfl
@[simp] theorem objSet_security (i j v : Nat) (s : State) : (objSet i j v s).security = s.security := rfl
@[simp] theorem objSet_fns (i j v : Nat) (s : State) : (objSet i j v s).fns = s.fns := rfl
@[simp] theorem objSet_can (i j v : Nat) (s : State) : (objSet i j v s).can = s.can := rfl
@[simp] theorem objSet_ports (i j v : Nat) (s : State) : (objSet i j v s).ports = s.ports := rfl
@[simp] theorem objSet_masked (i j v : Nat) (s : State) : (objSet i j v s).masked = s.masked := rfl
@[simp] theorem objSet_pendVec (i j v : Nat) (s : State) : (objSet i j v s).pendVec = s.pendVec := rfl
@[simp] theorem objSet_loadSeq (i j v : Nat) (s : State) : (objSet i j v s).loadSeq = s.loadSeq := rfl
@[simp] theorem objSet_mgmtDown (i j v : Nat) (s : State) : (objSet i j v s).mgmtDown = s.mgmtDown := rfl
@[simp] theorem objSet_counting (i j v : Nat) (s : State) : (objSet i j v s).counting = s.counting := rfl
@[simp] theorem objSet_power (i j v : Nat) (s : State) : (objSet i j v s).power = s.power := rfl
@[simp] theorem objSet_start (i j v : Nat) (s : State) : (objSet i j v s).start = s.start := rfl
@[simp] theorem objSet_free (i j v : Nat) (s : State) : (objSet i j v s).free = s.free := rfl
@[simp] theorem objSet_out (i j v : Nat) (s : State) : (objSet i j v s).out = s.out := rfl
@[simp] theorem objSet_pending (i j v : Nat) (s : State) : (objSet i j v s).pending = s.pending := rfl

@[simp] theorem octSet_ident (i j : Nat) (v : Bytes) (s : State) : (octSet i j v s).ident = s.ident := rfl
@[simp] theorem octSet_tick (i j : Nat) (v : Bytes) (s : State) : (octSet i j v s).tick = s.tick := rfl
@[simp] theorem octSet_boundary (i j : Nat) (v : Bytes) (s : State) : (octSet i j v s).boundary = s.boundary := rfl
@[simp] theorem octSet_cycle0 (i j : Nat) (v : Bytes) (s : State) : (octSet i j v s).cycle0 = s.cycle0 := rfl
@[simp] theorem octSet_tp (i j : Nat) (v : Bytes) (s : State) : (octSet i j v s).tp = s.tp := rfl
@[simp] theorem octSet_sp (i j : Nat) (v : Bytes) (s : State) : (octSet i j v s).sp = s.sp := rfl
@[simp] theorem octSet_job (i j : Nat) (v : Bytes) (s : State) : (octSet i j v s).job = s.job := rfl
@[simp] theorem octSet_started (i j : Nat) (v : Bytes) (s : State) : (octSet i j v s).started = s.started := rfl
@[simp] theorem octSet_sealedJob (i j : Nat) (v : Bytes) (s : State) : (octSet i j v s).sealedJob = s.sealedJob := rfl
@[simp] theorem octSet_objs (i j : Nat) (v : Bytes) (s : State) : (octSet i j v s).objs = s.objs := rfl
@[simp] theorem octSet_flash (i j : Nat) (v : Bytes) (s : State) : (octSet i j v s).flash = s.flash := rfl
@[simp] theorem octSet_flashOct (i j : Nat) (v : Bytes) (s : State) : (octSet i j v s).flashOct = s.flashOct := rfl
@[simp] theorem octSet_stores (i j : Nat) (v : Bytes) (s : State) : (octSet i j v s).stores = s.stores := rfl
@[simp] theorem octSet_mem (i j : Nat) (v : Bytes) (s : State) : (octSet i j v s).mem = s.mem := rfl
@[simp] theorem octSet_pmem (i j : Nat) (v : Bytes) (s : State) : (octSet i j v s).pmem = s.pmem := rfl
@[simp] theorem octSet_upsets (i j : Nat) (v : Bytes) (s : State) : (octSet i j v s).upsets = s.upsets := rfl
@[simp] theorem octSet_poison (i j : Nat) (v : Bytes) (s : State) : (octSet i j v s).poison = s.poison := rfl
@[simp] theorem octSet_landed (i j : Nat) (v : Bytes) (s : State) : (octSet i j v s).landed = s.landed := rfl
@[simp] theorem octSet_tiles (i j : Nat) (v : Bytes) (s : State) : (octSet i j v s).tiles = s.tiles := rfl
@[simp] theorem octSet_regions (i j : Nat) (v : Bytes) (s : State) : (octSet i j v s).regions = s.regions := rfl
@[simp] theorem octSet_scrubBase (i j : Nat) (v : Bytes) (s : State) : (octSet i j v s).scrubBase = s.scrubBase := rfl
@[simp] theorem octSet_hold (i j : Nat) (v : Bytes) (s : State) : (octSet i j v s).hold = s.hold := rfl
@[simp] theorem octSet_links (i j : Nat) (v : Bytes) (s : State) : (octSet i j v s).links = s.links := rfl
@[simp] theorem octSet_net (i j : Nat) (v : Bytes) (s : State) : (octSet i j v s).net = s.net := rfl
@[simp] theorem octSet_pattern (i j : Nat) (v : Bytes) (s : State) : (octSet i j v s).pattern = s.pattern := rfl
@[simp] theorem octSet_treadle (i j : Nat) (v : Bytes) (s : State) : (octSet i j v s).treadle = s.treadle := rfl
@[simp] theorem octSet_loads (i j : Nat) (v : Bytes) (s : State) : (octSet i j v s).loads = s.loads := rfl
@[simp] theorem octSet_integrity (i j : Nat) (v : Bytes) (s : State) : (octSet i j v s).integrity = s.integrity := rfl
@[simp] theorem octSet_security (i j : Nat) (v : Bytes) (s : State) : (octSet i j v s).security = s.security := rfl
@[simp] theorem octSet_fns (i j : Nat) (v : Bytes) (s : State) : (octSet i j v s).fns = s.fns := rfl
@[simp] theorem octSet_can (i j : Nat) (v : Bytes) (s : State) : (octSet i j v s).can = s.can := rfl
@[simp] theorem octSet_ports (i j : Nat) (v : Bytes) (s : State) : (octSet i j v s).ports = s.ports := rfl
@[simp] theorem octSet_masked (i j : Nat) (v : Bytes) (s : State) : (octSet i j v s).masked = s.masked := rfl
@[simp] theorem octSet_pendVec (i j : Nat) (v : Bytes) (s : State) : (octSet i j v s).pendVec = s.pendVec := rfl
@[simp] theorem octSet_loadSeq (i j : Nat) (v : Bytes) (s : State) : (octSet i j v s).loadSeq = s.loadSeq := rfl
@[simp] theorem octSet_mgmtDown (i j : Nat) (v : Bytes) (s : State) : (octSet i j v s).mgmtDown = s.mgmtDown := rfl
@[simp] theorem octSet_counting (i j : Nat) (v : Bytes) (s : State) : (octSet i j v s).counting = s.counting := rfl
@[simp] theorem octSet_power (i j : Nat) (v : Bytes) (s : State) : (octSet i j v s).power = s.power := rfl
@[simp] theorem octSet_start (i j : Nat) (v : Bytes) (s : State) : (octSet i j v s).start = s.start := rfl
@[simp] theorem octSet_free (i j : Nat) (v : Bytes) (s : State) : (octSet i j v s).free = s.free := rfl
@[simp] theorem octSet_out (i j : Nat) (v : Bytes) (s : State) : (octSet i j v s).out = s.out := rfl
@[simp] theorem octSet_pending (i j : Nat) (v : Bytes) (s : State) : (octSet i j v s).pending = s.pending := rfl

@[simp] theorem tileSet_ident (t : Nat) (v : Tile) (s : State) : (tileSet t v s).ident = s.ident := rfl
@[simp] theorem tileSet_tick (t : Nat) (v : Tile) (s : State) : (tileSet t v s).tick = s.tick := rfl
@[simp] theorem tileSet_boundary (t : Nat) (v : Tile) (s : State) : (tileSet t v s).boundary = s.boundary := rfl
@[simp] theorem tileSet_cycle0 (t : Nat) (v : Tile) (s : State) : (tileSet t v s).cycle0 = s.cycle0 := rfl
@[simp] theorem tileSet_tp (t : Nat) (v : Tile) (s : State) : (tileSet t v s).tp = s.tp := rfl
@[simp] theorem tileSet_sp (t : Nat) (v : Tile) (s : State) : (tileSet t v s).sp = s.sp := rfl
@[simp] theorem tileSet_job (t : Nat) (v : Tile) (s : State) : (tileSet t v s).job = s.job := rfl
@[simp] theorem tileSet_started (t : Nat) (v : Tile) (s : State) : (tileSet t v s).started = s.started := rfl
@[simp] theorem tileSet_sealedJob (t : Nat) (v : Tile) (s : State) : (tileSet t v s).sealedJob = s.sealedJob := rfl
@[simp] theorem tileSet_objs (t : Nat) (v : Tile) (s : State) : (tileSet t v s).objs = s.objs := rfl
@[simp] theorem tileSet_octets (t : Nat) (v : Tile) (s : State) : (tileSet t v s).octets = s.octets := rfl
@[simp] theorem tileSet_flash (t : Nat) (v : Tile) (s : State) : (tileSet t v s).flash = s.flash := rfl
@[simp] theorem tileSet_flashOct (t : Nat) (v : Tile) (s : State) : (tileSet t v s).flashOct = s.flashOct := rfl
@[simp] theorem tileSet_stores (t : Nat) (v : Tile) (s : State) : (tileSet t v s).stores = s.stores := rfl
@[simp] theorem tileSet_mem (t : Nat) (v : Tile) (s : State) : (tileSet t v s).mem = s.mem := rfl
@[simp] theorem tileSet_pmem (t : Nat) (v : Tile) (s : State) : (tileSet t v s).pmem = s.pmem := rfl
@[simp] theorem tileSet_upsets (t : Nat) (v : Tile) (s : State) : (tileSet t v s).upsets = s.upsets := rfl
@[simp] theorem tileSet_poison (t : Nat) (v : Tile) (s : State) : (tileSet t v s).poison = s.poison := rfl
@[simp] theorem tileSet_landed (t : Nat) (v : Tile) (s : State) : (tileSet t v s).landed = s.landed := rfl
@[simp] theorem tileSet_regions (t : Nat) (v : Tile) (s : State) : (tileSet t v s).regions = s.regions := rfl
@[simp] theorem tileSet_scrubBase (t : Nat) (v : Tile) (s : State) : (tileSet t v s).scrubBase = s.scrubBase := rfl
@[simp] theorem tileSet_hold (t : Nat) (v : Tile) (s : State) : (tileSet t v s).hold = s.hold := rfl
@[simp] theorem tileSet_links (t : Nat) (v : Tile) (s : State) : (tileSet t v s).links = s.links := rfl
@[simp] theorem tileSet_net (t : Nat) (v : Tile) (s : State) : (tileSet t v s).net = s.net := rfl
@[simp] theorem tileSet_pattern (t : Nat) (v : Tile) (s : State) : (tileSet t v s).pattern = s.pattern := rfl
@[simp] theorem tileSet_treadle (t : Nat) (v : Tile) (s : State) : (tileSet t v s).treadle = s.treadle := rfl
@[simp] theorem tileSet_loads (t : Nat) (v : Tile) (s : State) : (tileSet t v s).loads = s.loads := rfl
@[simp] theorem tileSet_integrity (t : Nat) (v : Tile) (s : State) : (tileSet t v s).integrity = s.integrity := rfl
@[simp] theorem tileSet_security (t : Nat) (v : Tile) (s : State) : (tileSet t v s).security = s.security := rfl
@[simp] theorem tileSet_fns (t : Nat) (v : Tile) (s : State) : (tileSet t v s).fns = s.fns := rfl
@[simp] theorem tileSet_can (t : Nat) (v : Tile) (s : State) : (tileSet t v s).can = s.can := rfl
@[simp] theorem tileSet_ports (t : Nat) (v : Tile) (s : State) : (tileSet t v s).ports = s.ports := rfl
@[simp] theorem tileSet_masked (t : Nat) (v : Tile) (s : State) : (tileSet t v s).masked = s.masked := rfl
@[simp] theorem tileSet_pendVec (t : Nat) (v : Tile) (s : State) : (tileSet t v s).pendVec = s.pendVec := rfl
@[simp] theorem tileSet_loadSeq (t : Nat) (v : Tile) (s : State) : (tileSet t v s).loadSeq = s.loadSeq := rfl
@[simp] theorem tileSet_mgmtDown (t : Nat) (v : Tile) (s : State) : (tileSet t v s).mgmtDown = s.mgmtDown := rfl
@[simp] theorem tileSet_counting (t : Nat) (v : Tile) (s : State) : (tileSet t v s).counting = s.counting := rfl
@[simp] theorem tileSet_power (t : Nat) (v : Tile) (s : State) : (tileSet t v s).power = s.power := rfl
@[simp] theorem tileSet_start (t : Nat) (v : Tile) (s : State) : (tileSet t v s).start = s.start := rfl
@[simp] theorem tileSet_free (t : Nat) (v : Tile) (s : State) : (tileSet t v s).free = s.free := rfl
@[simp] theorem tileSet_out (t : Nat) (v : Tile) (s : State) : (tileSet t v s).out = s.out := rfl
@[simp] theorem tileSet_pending (t : Nat) (v : Tile) (s : State) : (tileSet t v s).pending = s.pending := rfl

@[simp] theorem linkSet_ident (l : Nat) (v : Link) (s : State) : (linkSet l v s).ident = s.ident := rfl
@[simp] theorem linkSet_tick (l : Nat) (v : Link) (s : State) : (linkSet l v s).tick = s.tick := rfl
@[simp] theorem linkSet_boundary (l : Nat) (v : Link) (s : State) : (linkSet l v s).boundary = s.boundary := rfl
@[simp] theorem linkSet_cycle0 (l : Nat) (v : Link) (s : State) : (linkSet l v s).cycle0 = s.cycle0 := rfl
@[simp] theorem linkSet_tp (l : Nat) (v : Link) (s : State) : (linkSet l v s).tp = s.tp := rfl
@[simp] theorem linkSet_sp (l : Nat) (v : Link) (s : State) : (linkSet l v s).sp = s.sp := rfl
@[simp] theorem linkSet_job (l : Nat) (v : Link) (s : State) : (linkSet l v s).job = s.job := rfl
@[simp] theorem linkSet_started (l : Nat) (v : Link) (s : State) : (linkSet l v s).started = s.started := rfl
@[simp] theorem linkSet_sealedJob (l : Nat) (v : Link) (s : State) : (linkSet l v s).sealedJob = s.sealedJob := rfl
@[simp] theorem linkSet_objs (l : Nat) (v : Link) (s : State) : (linkSet l v s).objs = s.objs := rfl
@[simp] theorem linkSet_octets (l : Nat) (v : Link) (s : State) : (linkSet l v s).octets = s.octets := rfl
@[simp] theorem linkSet_flash (l : Nat) (v : Link) (s : State) : (linkSet l v s).flash = s.flash := rfl
@[simp] theorem linkSet_flashOct (l : Nat) (v : Link) (s : State) : (linkSet l v s).flashOct = s.flashOct := rfl
@[simp] theorem linkSet_stores (l : Nat) (v : Link) (s : State) : (linkSet l v s).stores = s.stores := rfl
@[simp] theorem linkSet_mem (l : Nat) (v : Link) (s : State) : (linkSet l v s).mem = s.mem := rfl
@[simp] theorem linkSet_pmem (l : Nat) (v : Link) (s : State) : (linkSet l v s).pmem = s.pmem := rfl
@[simp] theorem linkSet_upsets (l : Nat) (v : Link) (s : State) : (linkSet l v s).upsets = s.upsets := rfl
@[simp] theorem linkSet_poison (l : Nat) (v : Link) (s : State) : (linkSet l v s).poison = s.poison := rfl
@[simp] theorem linkSet_landed (l : Nat) (v : Link) (s : State) : (linkSet l v s).landed = s.landed := rfl
@[simp] theorem linkSet_tiles (l : Nat) (v : Link) (s : State) : (linkSet l v s).tiles = s.tiles := rfl
@[simp] theorem linkSet_regions (l : Nat) (v : Link) (s : State) : (linkSet l v s).regions = s.regions := rfl
@[simp] theorem linkSet_scrubBase (l : Nat) (v : Link) (s : State) : (linkSet l v s).scrubBase = s.scrubBase := rfl
@[simp] theorem linkSet_hold (l : Nat) (v : Link) (s : State) : (linkSet l v s).hold = s.hold := rfl
@[simp] theorem linkSet_net (l : Nat) (v : Link) (s : State) : (linkSet l v s).net = s.net := rfl
@[simp] theorem linkSet_pattern (l : Nat) (v : Link) (s : State) : (linkSet l v s).pattern = s.pattern := rfl
@[simp] theorem linkSet_treadle (l : Nat) (v : Link) (s : State) : (linkSet l v s).treadle = s.treadle := rfl
@[simp] theorem linkSet_loads (l : Nat) (v : Link) (s : State) : (linkSet l v s).loads = s.loads := rfl
@[simp] theorem linkSet_integrity (l : Nat) (v : Link) (s : State) : (linkSet l v s).integrity = s.integrity := rfl
@[simp] theorem linkSet_security (l : Nat) (v : Link) (s : State) : (linkSet l v s).security = s.security := rfl
@[simp] theorem linkSet_fns (l : Nat) (v : Link) (s : State) : (linkSet l v s).fns = s.fns := rfl
@[simp] theorem linkSet_can (l : Nat) (v : Link) (s : State) : (linkSet l v s).can = s.can := rfl
@[simp] theorem linkSet_ports (l : Nat) (v : Link) (s : State) : (linkSet l v s).ports = s.ports := rfl
@[simp] theorem linkSet_masked (l : Nat) (v : Link) (s : State) : (linkSet l v s).masked = s.masked := rfl
@[simp] theorem linkSet_pendVec (l : Nat) (v : Link) (s : State) : (linkSet l v s).pendVec = s.pendVec := rfl
@[simp] theorem linkSet_loadSeq (l : Nat) (v : Link) (s : State) : (linkSet l v s).loadSeq = s.loadSeq := rfl
@[simp] theorem linkSet_mgmtDown (l : Nat) (v : Link) (s : State) : (linkSet l v s).mgmtDown = s.mgmtDown := rfl
@[simp] theorem linkSet_counting (l : Nat) (v : Link) (s : State) : (linkSet l v s).counting = s.counting := rfl
@[simp] theorem linkSet_power (l : Nat) (v : Link) (s : State) : (linkSet l v s).power = s.power := rfl
@[simp] theorem linkSet_start (l : Nat) (v : Link) (s : State) : (linkSet l v s).start = s.start := rfl
@[simp] theorem linkSet_free (l : Nat) (v : Link) (s : State) : (linkSet l v s).free = s.free := rfl
@[simp] theorem linkSet_out (l : Nat) (v : Link) (s : State) : (linkSet l v s).out = s.out := rfl
@[simp] theorem linkSet_pending (l : Nat) (v : Link) (s : State) : (linkSet l v s).pending = s.pending := rfl

@[simp] theorem rowPut_ident (a : Nat) (f : RowFrame) (s : State) : (rowPut a f s).ident = s.ident := rfl
@[simp] theorem rowPut_tick (a : Nat) (f : RowFrame) (s : State) : (rowPut a f s).tick = s.tick := rfl
@[simp] theorem rowPut_boundary (a : Nat) (f : RowFrame) (s : State) : (rowPut a f s).boundary = s.boundary := rfl
@[simp] theorem rowPut_cycle0 (a : Nat) (f : RowFrame) (s : State) : (rowPut a f s).cycle0 = s.cycle0 := rfl
@[simp] theorem rowPut_tp (a : Nat) (f : RowFrame) (s : State) : (rowPut a f s).tp = s.tp := rfl
@[simp] theorem rowPut_sp (a : Nat) (f : RowFrame) (s : State) : (rowPut a f s).sp = s.sp := rfl
@[simp] theorem rowPut_job (a : Nat) (f : RowFrame) (s : State) : (rowPut a f s).job = s.job := rfl
@[simp] theorem rowPut_started (a : Nat) (f : RowFrame) (s : State) : (rowPut a f s).started = s.started := rfl
@[simp] theorem rowPut_sealedJob (a : Nat) (f : RowFrame) (s : State) : (rowPut a f s).sealedJob = s.sealedJob := rfl
@[simp] theorem rowPut_objs (a : Nat) (f : RowFrame) (s : State) : (rowPut a f s).objs = s.objs := rfl
@[simp] theorem rowPut_octets (a : Nat) (f : RowFrame) (s : State) : (rowPut a f s).octets = s.octets := rfl
@[simp] theorem rowPut_flash (a : Nat) (f : RowFrame) (s : State) : (rowPut a f s).flash = s.flash := rfl
@[simp] theorem rowPut_flashOct (a : Nat) (f : RowFrame) (s : State) : (rowPut a f s).flashOct = s.flashOct := rfl
@[simp] theorem rowPut_stores (a : Nat) (f : RowFrame) (s : State) : (rowPut a f s).stores = s.stores := rfl
@[simp] theorem rowPut_pmem (a : Nat) (f : RowFrame) (s : State) : (rowPut a f s).pmem = s.pmem := rfl
@[simp] theorem rowPut_landed (a : Nat) (f : RowFrame) (s : State) : (rowPut a f s).landed = s.landed := rfl
@[simp] theorem rowPut_tiles (a : Nat) (f : RowFrame) (s : State) : (rowPut a f s).tiles = s.tiles := rfl
@[simp] theorem rowPut_regions (a : Nat) (f : RowFrame) (s : State) : (rowPut a f s).regions = s.regions := rfl
@[simp] theorem rowPut_scrubBase (a : Nat) (f : RowFrame) (s : State) : (rowPut a f s).scrubBase = s.scrubBase := rfl
@[simp] theorem rowPut_hold (a : Nat) (f : RowFrame) (s : State) : (rowPut a f s).hold = s.hold := rfl
@[simp] theorem rowPut_links (a : Nat) (f : RowFrame) (s : State) : (rowPut a f s).links = s.links := rfl
@[simp] theorem rowPut_net (a : Nat) (f : RowFrame) (s : State) : (rowPut a f s).net = s.net := rfl
@[simp] theorem rowPut_pattern (a : Nat) (f : RowFrame) (s : State) : (rowPut a f s).pattern = s.pattern := rfl
@[simp] theorem rowPut_treadle (a : Nat) (f : RowFrame) (s : State) : (rowPut a f s).treadle = s.treadle := rfl
@[simp] theorem rowPut_loads (a : Nat) (f : RowFrame) (s : State) : (rowPut a f s).loads = s.loads := rfl
@[simp] theorem rowPut_integrity (a : Nat) (f : RowFrame) (s : State) : (rowPut a f s).integrity = s.integrity := rfl
@[simp] theorem rowPut_security (a : Nat) (f : RowFrame) (s : State) : (rowPut a f s).security = s.security := rfl
@[simp] theorem rowPut_fns (a : Nat) (f : RowFrame) (s : State) : (rowPut a f s).fns = s.fns := rfl
@[simp] theorem rowPut_can (a : Nat) (f : RowFrame) (s : State) : (rowPut a f s).can = s.can := rfl
@[simp] theorem rowPut_ports (a : Nat) (f : RowFrame) (s : State) : (rowPut a f s).ports = s.ports := rfl
@[simp] theorem rowPut_masked (a : Nat) (f : RowFrame) (s : State) : (rowPut a f s).masked = s.masked := rfl
@[simp] theorem rowPut_pendVec (a : Nat) (f : RowFrame) (s : State) : (rowPut a f s).pendVec = s.pendVec := rfl
@[simp] theorem rowPut_loadSeq (a : Nat) (f : RowFrame) (s : State) : (rowPut a f s).loadSeq = s.loadSeq := rfl
@[simp] theorem rowPut_mgmtDown (a : Nat) (f : RowFrame) (s : State) : (rowPut a f s).mgmtDown = s.mgmtDown := rfl
@[simp] theorem rowPut_counting (a : Nat) (f : RowFrame) (s : State) : (rowPut a f s).counting = s.counting := rfl
@[simp] theorem rowPut_power (a : Nat) (f : RowFrame) (s : State) : (rowPut a f s).power = s.power := rfl
@[simp] theorem rowPut_start (a : Nat) (f : RowFrame) (s : State) : (rowPut a f s).start = s.start := rfl
@[simp] theorem rowPut_free (a : Nat) (f : RowFrame) (s : State) : (rowPut a f s).free = s.free := rfl
@[simp] theorem rowPut_out (a : Nat) (f : RowFrame) (s : State) : (rowPut a f s).out = s.out := rfl
@[simp] theorem rowPut_pending (a : Nat) (f : RowFrame) (s : State) : (rowPut a f s).pending = s.pending := rfl

@[simp] theorem landedSet_ident (a : Nat) (v : Bool) (s : State) : (landedSet a v s).ident = s.ident := rfl
@[simp] theorem landedSet_tick (a : Nat) (v : Bool) (s : State) : (landedSet a v s).tick = s.tick := rfl
@[simp] theorem landedSet_boundary (a : Nat) (v : Bool) (s : State) : (landedSet a v s).boundary = s.boundary := rfl
@[simp] theorem landedSet_cycle0 (a : Nat) (v : Bool) (s : State) : (landedSet a v s).cycle0 = s.cycle0 := rfl
@[simp] theorem landedSet_tp (a : Nat) (v : Bool) (s : State) : (landedSet a v s).tp = s.tp := rfl
@[simp] theorem landedSet_sp (a : Nat) (v : Bool) (s : State) : (landedSet a v s).sp = s.sp := rfl
@[simp] theorem landedSet_job (a : Nat) (v : Bool) (s : State) : (landedSet a v s).job = s.job := rfl
@[simp] theorem landedSet_started (a : Nat) (v : Bool) (s : State) : (landedSet a v s).started = s.started := rfl
@[simp] theorem landedSet_sealedJob (a : Nat) (v : Bool) (s : State) : (landedSet a v s).sealedJob = s.sealedJob := rfl
@[simp] theorem landedSet_objs (a : Nat) (v : Bool) (s : State) : (landedSet a v s).objs = s.objs := rfl
@[simp] theorem landedSet_octets (a : Nat) (v : Bool) (s : State) : (landedSet a v s).octets = s.octets := rfl
@[simp] theorem landedSet_flash (a : Nat) (v : Bool) (s : State) : (landedSet a v s).flash = s.flash := rfl
@[simp] theorem landedSet_flashOct (a : Nat) (v : Bool) (s : State) : (landedSet a v s).flashOct = s.flashOct := rfl
@[simp] theorem landedSet_stores (a : Nat) (v : Bool) (s : State) : (landedSet a v s).stores = s.stores := rfl
@[simp] theorem landedSet_mem (a : Nat) (v : Bool) (s : State) : (landedSet a v s).mem = s.mem := rfl
@[simp] theorem landedSet_pmem (a : Nat) (v : Bool) (s : State) : (landedSet a v s).pmem = s.pmem := rfl
@[simp] theorem landedSet_upsets (a : Nat) (v : Bool) (s : State) : (landedSet a v s).upsets = s.upsets := rfl
@[simp] theorem landedSet_poison (a : Nat) (v : Bool) (s : State) : (landedSet a v s).poison = s.poison := rfl
@[simp] theorem landedSet_tiles (a : Nat) (v : Bool) (s : State) : (landedSet a v s).tiles = s.tiles := rfl
@[simp] theorem landedSet_regions (a : Nat) (v : Bool) (s : State) : (landedSet a v s).regions = s.regions := rfl
@[simp] theorem landedSet_scrubBase (a : Nat) (v : Bool) (s : State) : (landedSet a v s).scrubBase = s.scrubBase := rfl
@[simp] theorem landedSet_hold (a : Nat) (v : Bool) (s : State) : (landedSet a v s).hold = s.hold := rfl
@[simp] theorem landedSet_links (a : Nat) (v : Bool) (s : State) : (landedSet a v s).links = s.links := rfl
@[simp] theorem landedSet_net (a : Nat) (v : Bool) (s : State) : (landedSet a v s).net = s.net := rfl
@[simp] theorem landedSet_pattern (a : Nat) (v : Bool) (s : State) : (landedSet a v s).pattern = s.pattern := rfl
@[simp] theorem landedSet_treadle (a : Nat) (v : Bool) (s : State) : (landedSet a v s).treadle = s.treadle := rfl
@[simp] theorem landedSet_loads (a : Nat) (v : Bool) (s : State) : (landedSet a v s).loads = s.loads := rfl
@[simp] theorem landedSet_integrity (a : Nat) (v : Bool) (s : State) : (landedSet a v s).integrity = s.integrity := rfl
@[simp] theorem landedSet_security (a : Nat) (v : Bool) (s : State) : (landedSet a v s).security = s.security := rfl
@[simp] theorem landedSet_fns (a : Nat) (v : Bool) (s : State) : (landedSet a v s).fns = s.fns := rfl
@[simp] theorem landedSet_can (a : Nat) (v : Bool) (s : State) : (landedSet a v s).can = s.can := rfl
@[simp] theorem landedSet_ports (a : Nat) (v : Bool) (s : State) : (landedSet a v s).ports = s.ports := rfl
@[simp] theorem landedSet_masked (a : Nat) (v : Bool) (s : State) : (landedSet a v s).masked = s.masked := rfl
@[simp] theorem landedSet_pendVec (a : Nat) (v : Bool) (s : State) : (landedSet a v s).pendVec = s.pendVec := rfl
@[simp] theorem landedSet_loadSeq (a : Nat) (v : Bool) (s : State) : (landedSet a v s).loadSeq = s.loadSeq := rfl
@[simp] theorem landedSet_mgmtDown (a : Nat) (v : Bool) (s : State) : (landedSet a v s).mgmtDown = s.mgmtDown := rfl
@[simp] theorem landedSet_counting (a : Nat) (v : Bool) (s : State) : (landedSet a v s).counting = s.counting := rfl
@[simp] theorem landedSet_power (a : Nat) (v : Bool) (s : State) : (landedSet a v s).power = s.power := rfl
@[simp] theorem landedSet_start (a : Nat) (v : Bool) (s : State) : (landedSet a v s).start = s.start := rfl
@[simp] theorem landedSet_free (a : Nat) (v : Bool) (s : State) : (landedSet a v s).free = s.free := rfl
@[simp] theorem landedSet_out (a : Nat) (v : Bool) (s : State) : (landedSet a v s).out = s.out := rfl
@[simp] theorem landedSet_pending (a : Nat) (v : Bool) (s : State) : (landedSet a v s).pending = s.pending := rfl

@[simp] theorem portPut_ident (a : Nat) (bs : Bytes) (s : State) : (portPut a bs s).ident = s.ident := rfl
@[simp] theorem portPut_tick (a : Nat) (bs : Bytes) (s : State) : (portPut a bs s).tick = s.tick := rfl
@[simp] theorem portPut_boundary (a : Nat) (bs : Bytes) (s : State) : (portPut a bs s).boundary = s.boundary := rfl
@[simp] theorem portPut_cycle0 (a : Nat) (bs : Bytes) (s : State) : (portPut a bs s).cycle0 = s.cycle0 := rfl
@[simp] theorem portPut_tp (a : Nat) (bs : Bytes) (s : State) : (portPut a bs s).tp = s.tp := rfl
@[simp] theorem portPut_sp (a : Nat) (bs : Bytes) (s : State) : (portPut a bs s).sp = s.sp := rfl
@[simp] theorem portPut_job (a : Nat) (bs : Bytes) (s : State) : (portPut a bs s).job = s.job := rfl
@[simp] theorem portPut_started (a : Nat) (bs : Bytes) (s : State) : (portPut a bs s).started = s.started := rfl
@[simp] theorem portPut_sealedJob (a : Nat) (bs : Bytes) (s : State) : (portPut a bs s).sealedJob = s.sealedJob := rfl
@[simp] theorem portPut_objs (a : Nat) (bs : Bytes) (s : State) : (portPut a bs s).objs = s.objs := rfl
@[simp] theorem portPut_octets (a : Nat) (bs : Bytes) (s : State) : (portPut a bs s).octets = s.octets := rfl
@[simp] theorem portPut_flash (a : Nat) (bs : Bytes) (s : State) : (portPut a bs s).flash = s.flash := rfl
@[simp] theorem portPut_flashOct (a : Nat) (bs : Bytes) (s : State) : (portPut a bs s).flashOct = s.flashOct := rfl
@[simp] theorem portPut_stores (a : Nat) (bs : Bytes) (s : State) : (portPut a bs s).stores = s.stores := rfl
@[simp] theorem portPut_mem (a : Nat) (bs : Bytes) (s : State) : (portPut a bs s).mem = s.mem := rfl
@[simp] theorem portPut_upsets (a : Nat) (bs : Bytes) (s : State) : (portPut a bs s).upsets = s.upsets := rfl
@[simp] theorem portPut_poison (a : Nat) (bs : Bytes) (s : State) : (portPut a bs s).poison = s.poison := rfl
@[simp] theorem portPut_landed (a : Nat) (bs : Bytes) (s : State) : (portPut a bs s).landed = s.landed := rfl
@[simp] theorem portPut_tiles (a : Nat) (bs : Bytes) (s : State) : (portPut a bs s).tiles = s.tiles := rfl
@[simp] theorem portPut_regions (a : Nat) (bs : Bytes) (s : State) : (portPut a bs s).regions = s.regions := rfl
@[simp] theorem portPut_scrubBase (a : Nat) (bs : Bytes) (s : State) : (portPut a bs s).scrubBase = s.scrubBase := rfl
@[simp] theorem portPut_hold (a : Nat) (bs : Bytes) (s : State) : (portPut a bs s).hold = s.hold := rfl
@[simp] theorem portPut_links (a : Nat) (bs : Bytes) (s : State) : (portPut a bs s).links = s.links := rfl
@[simp] theorem portPut_net (a : Nat) (bs : Bytes) (s : State) : (portPut a bs s).net = s.net := rfl
@[simp] theorem portPut_pattern (a : Nat) (bs : Bytes) (s : State) : (portPut a bs s).pattern = s.pattern := rfl
@[simp] theorem portPut_treadle (a : Nat) (bs : Bytes) (s : State) : (portPut a bs s).treadle = s.treadle := rfl
@[simp] theorem portPut_loads (a : Nat) (bs : Bytes) (s : State) : (portPut a bs s).loads = s.loads := rfl
@[simp] theorem portPut_integrity (a : Nat) (bs : Bytes) (s : State) : (portPut a bs s).integrity = s.integrity := rfl
@[simp] theorem portPut_security (a : Nat) (bs : Bytes) (s : State) : (portPut a bs s).security = s.security := rfl
@[simp] theorem portPut_fns (a : Nat) (bs : Bytes) (s : State) : (portPut a bs s).fns = s.fns := rfl
@[simp] theorem portPut_can (a : Nat) (bs : Bytes) (s : State) : (portPut a bs s).can = s.can := rfl
@[simp] theorem portPut_ports (a : Nat) (bs : Bytes) (s : State) : (portPut a bs s).ports = s.ports := rfl
@[simp] theorem portPut_masked (a : Nat) (bs : Bytes) (s : State) : (portPut a bs s).masked = s.masked := rfl
@[simp] theorem portPut_pendVec (a : Nat) (bs : Bytes) (s : State) : (portPut a bs s).pendVec = s.pendVec := rfl
@[simp] theorem portPut_loadSeq (a : Nat) (bs : Bytes) (s : State) : (portPut a bs s).loadSeq = s.loadSeq := rfl
@[simp] theorem portPut_mgmtDown (a : Nat) (bs : Bytes) (s : State) : (portPut a bs s).mgmtDown = s.mgmtDown := rfl
@[simp] theorem portPut_counting (a : Nat) (bs : Bytes) (s : State) : (portPut a bs s).counting = s.counting := rfl
@[simp] theorem portPut_power (a : Nat) (bs : Bytes) (s : State) : (portPut a bs s).power = s.power := rfl
@[simp] theorem portPut_start (a : Nat) (bs : Bytes) (s : State) : (portPut a bs s).start = s.start := rfl
@[simp] theorem portPut_free (a : Nat) (bs : Bytes) (s : State) : (portPut a bs s).free = s.free := rfl
@[simp] theorem portPut_out (a : Nat) (bs : Bytes) (s : State) : (portPut a bs s).out = s.out := rfl
@[simp] theorem portPut_pending (a : Nat) (bs : Bytes) (s : State) : (portPut a bs s).pending = s.pending := rfl

@[simp] theorem emit_ident (o : Output) (s : State) : (emit o s).ident = s.ident := rfl
@[simp] theorem emit_tick (o : Output) (s : State) : (emit o s).tick = s.tick := rfl
@[simp] theorem emit_boundary (o : Output) (s : State) : (emit o s).boundary = s.boundary := rfl
@[simp] theorem emit_cycle0 (o : Output) (s : State) : (emit o s).cycle0 = s.cycle0 := rfl
@[simp] theorem emit_tp (o : Output) (s : State) : (emit o s).tp = s.tp := rfl
@[simp] theorem emit_sp (o : Output) (s : State) : (emit o s).sp = s.sp := rfl
@[simp] theorem emit_job (o : Output) (s : State) : (emit o s).job = s.job := rfl
@[simp] theorem emit_started (o : Output) (s : State) : (emit o s).started = s.started := rfl
@[simp] theorem emit_sealedJob (o : Output) (s : State) : (emit o s).sealedJob = s.sealedJob := rfl
@[simp] theorem emit_objs (o : Output) (s : State) : (emit o s).objs = s.objs := rfl
@[simp] theorem emit_octets (o : Output) (s : State) : (emit o s).octets = s.octets := rfl
@[simp] theorem emit_flash (o : Output) (s : State) : (emit o s).flash = s.flash := rfl
@[simp] theorem emit_flashOct (o : Output) (s : State) : (emit o s).flashOct = s.flashOct := rfl
@[simp] theorem emit_stores (o : Output) (s : State) : (emit o s).stores = s.stores := rfl
@[simp] theorem emit_mem (o : Output) (s : State) : (emit o s).mem = s.mem := rfl
@[simp] theorem emit_pmem (o : Output) (s : State) : (emit o s).pmem = s.pmem := rfl
@[simp] theorem emit_upsets (o : Output) (s : State) : (emit o s).upsets = s.upsets := rfl
@[simp] theorem emit_poison (o : Output) (s : State) : (emit o s).poison = s.poison := rfl
@[simp] theorem emit_landed (o : Output) (s : State) : (emit o s).landed = s.landed := rfl
@[simp] theorem emit_tiles (o : Output) (s : State) : (emit o s).tiles = s.tiles := rfl
@[simp] theorem emit_regions (o : Output) (s : State) : (emit o s).regions = s.regions := rfl
@[simp] theorem emit_scrubBase (o : Output) (s : State) : (emit o s).scrubBase = s.scrubBase := rfl
@[simp] theorem emit_hold (o : Output) (s : State) : (emit o s).hold = s.hold := rfl
@[simp] theorem emit_links (o : Output) (s : State) : (emit o s).links = s.links := rfl
@[simp] theorem emit_net (o : Output) (s : State) : (emit o s).net = s.net := rfl
@[simp] theorem emit_pattern (o : Output) (s : State) : (emit o s).pattern = s.pattern := rfl
@[simp] theorem emit_treadle (o : Output) (s : State) : (emit o s).treadle = s.treadle := rfl
@[simp] theorem emit_loads (o : Output) (s : State) : (emit o s).loads = s.loads := rfl
@[simp] theorem emit_integrity (o : Output) (s : State) : (emit o s).integrity = s.integrity := rfl
@[simp] theorem emit_security (o : Output) (s : State) : (emit o s).security = s.security := rfl
@[simp] theorem emit_fns (o : Output) (s : State) : (emit o s).fns = s.fns := rfl
@[simp] theorem emit_can (o : Output) (s : State) : (emit o s).can = s.can := rfl
@[simp] theorem emit_ports (o : Output) (s : State) : (emit o s).ports = s.ports := rfl
@[simp] theorem emit_masked (o : Output) (s : State) : (emit o s).masked = s.masked := rfl
@[simp] theorem emit_pendVec (o : Output) (s : State) : (emit o s).pendVec = s.pendVec := rfl
@[simp] theorem emit_loadSeq (o : Output) (s : State) : (emit o s).loadSeq = s.loadSeq := rfl
@[simp] theorem emit_mgmtDown (o : Output) (s : State) : (emit o s).mgmtDown = s.mgmtDown := rfl
@[simp] theorem emit_counting (o : Output) (s : State) : (emit o s).counting = s.counting := rfl
@[simp] theorem emit_power (o : Output) (s : State) : (emit o s).power = s.power := rfl
@[simp] theorem emit_start (o : Output) (s : State) : (emit o s).start = s.start := rfl
@[simp] theorem emit_free (o : Output) (s : State) : (emit o s).free = s.free := rfl
@[simp] theorem emit_pending (o : Output) (s : State) : (emit o s).pending = s.pending := rfl

@[simp] theorem emit_out (o : Output) (s : State) : (emit o s).out = s.out ++ [o] := rfl

end Sys2Proof.Laws
end

