-- ==== Sys2Proof/Laws/Tables.lean ====
section
/-! SUPPORT. Read after write of the sparse tables, and with them of object entries, tiles and links. -/

namespace Sys2Proof.Laws
open Sys2Proof.Machine

/-! ## Tables -/

theorem lookup_cons_ne {α : Type} (m : SMap α) (v : α) {j k : Nat} (h : k ≠ j) :
    List.lookup k ((j, v) :: m) = m.lookup k := by
  have : (k == j) = false := by simpa using h
  rw [List.lookup_cons, this]

theorem lookup_cons_same {α : Type} (m : SMap α) (v : α) (k : Nat) : List.lookup k ((k, v) :: m) = some v := by
  simp [List.lookup_cons]

theorem lookup_filter {α : Type} (m : SMap α) (p : Nat → Bool) (k : Nat) :
    (m.filter fun x => p x.1).lookup k = if p k then m.lookup k else none := by
  induction m with
  | nil => simp
  | cons x m ih =>
    obtain ⟨j, v⟩ := x
    by_cases hk : k = j
    · subst hk
      by_cases hj : p k
      · simp [hj, lookup_cons_same]
      · simp [hj, ih]
    · by_cases hj : p j
      · simp [hj, lookup_cons_ne _ _ hk, ih]
      · simp [hj, lookup_cons_ne _ _ hk, ih]

theorem lookup_append {α : Type} (m n : SMap α) (k : Nat) : (m ++ n).lookup k = (m.lookup k).or (n.lookup k) := by
  induction m with
  | nil => simp
  | cons x m ih =>
    obtain ⟨j, v⟩ := x
    by_cases hk : k = j
    · subst hk
      simp [lookup_cons_same]
    · simp [lookup_cons_ne _ _ hk, ih]

theorem lookup_below {α : Type} (m : SMap α) (j k : Nat) :
    (m.filter (·.1 < j)).lookup k = if k < j then m.lookup k else none := by
  simpa using lookup_filter m (fun x => decide (x < j)) k

theorem lookup_above {α : Type} (m : SMap α) (j k : Nat) :
    (m.filter (j < ·.1)).lookup k = if j < k then m.lookup k else none := by
  simpa using lookup_filter m (fun x => decide (j < x)) k

theorem lookup_mput {α : Type} (m : SMap α) (j k : Nat) (v : α) :
    (mput m j v).lookup k = if k = j then some v else m.lookup k := by
  unfold mput
  rw [lookup_append, lookup_below]
  by_cases h : k = j
  · subst h
    simp [lookup_cons_same]
  · rw [lookup_cons_ne _ _ h, lookup_above]
    rcases Nat.lt_or_gt_of_ne h with g | g
    · simp [h, g, Nat.lt_asymm g]
    · simp [h, g, Nat.lt_asymm g]

theorem mget_mset {α : Type} [DecidableEq α] (d : α) (m : SMap α) (j k : Nat) (v : α) :
    mget d (mset d m j v) k = if k = j then v else mget d m k := by
  unfold mset
  split
  · rename_i hv
    unfold mget
    rw [lookup_append, lookup_below, lookup_above]
    by_cases h : k = j
    · simp [h, hv]
    · rcases Nat.lt_or_gt_of_ne h with g | g
      · simp [h, g, Nat.lt_asymm g]
      · simp [h, g, Nat.lt_asymm g]
  · show mget d (mput m j v) k = _
    unfold mget
    rw [lookup_mput]
    split <;> rfl

@[simp] theorem mget_mset_same {α : Type} [DecidableEq α] (d : α) (m : SMap α) (k : Nat) (v : α) :
    mget d (mset d m k v) k = v := by simp [mget_mset]

/-- Setting another key leaves an entry as it is, whatever the default of the other. -/
theorem lookup_mset_ne {α : Type} [DecidableEq α] (d : α) (m : SMap α) {j k : Nat} (v : α) (h : k ≠ j) :
    (mset d m j v).lookup k = m.lookup k := by
  unfold mset
  split
  · rw [lookup_append, lookup_below, lookup_above]
    rcases Nat.lt_or_gt_of_ne h with g | g
    · simp [g, Nat.lt_asymm g]
    · simp [g, Nat.lt_asymm g]
  · have := lookup_mput m j k v
    rw [if_neg h] at this
    exact this

/-! ## Object entries -/

@[simp] theorem objGet_objSet_same (i j v : Nat) (s : State) : objGet (objSet i j v s) i j = v := by
  simp [objGet, objSet]

/-- Another entry is left as it is. -/
theorem objGet_objSet_ne (v : Nat) (s : State) {i j i' j' : Nat} (h : objKey i' j' ≠ objKey i j) :
    objGet (objSet i j v s) i' j' = objGet s i' j' := by
  simp [objGet, objSet, mget, lookup_mset_ne _ _ _ h]

@[simp] theorem octGet_octSet_same (i j : Nat) (v : Bytes) (s : State) : octGet (octSet i j v s) i j = v := by
  simp [octGet, octSet]

theorem octGet_octSet_ne (v : Bytes) (s : State) {i j i' j' : Nat} (h : objKey i' j' ≠ objKey i j) :
    octGet (octSet i j v s) i' j' = octGet s i' j' := by
  simp [octGet, octSet, mget, lookup_mset_ne _ _ _ h]

@[simp] theorem octGet_objSet (i j v i' j' : Nat) (s : State) : octGet (objSet i j v s) i' j' = octGet s i' j' := rfl
@[simp] theorem objGet_octSet (i j : Nat) (v : Bytes) (i' j' : Nat) (s : State) :
    objGet (octSet i j v s) i' j' = objGet s i' j' := rfl
@[simp] theorem objGet_tileSet (t : Nat) (v : Tile) (i j : Nat) (s : State) : objGet (tileSet t v s) i j = objGet s i j := rfl
@[simp] theorem objGet_linkSet (l : Nat) (v : Link) (i j : Nat) (s : State) : objGet (linkSet l v s) i j = objGet s i j := rfl
@[simp] theorem objGet_emit (o : Output) (i j : Nat) (s : State) : objGet (emit o s) i j = objGet s i j := rfl
@[simp] theorem objGet_rowPut (a : Nat) (f : RowFrame) (i j : Nat) (s : State) : objGet (rowPut a f s) i j = objGet s i j := rfl
@[simp] theorem objGet_portPut (a : Nat) (bs : Bytes) (i j : Nat) (s : State) : objGet (portPut a bs s) i j = objGet s i j := rfl

/-- A count advanced. -/
@[simp] theorem objGet_bump_same (i j n : Nat) (s : State) : objGet (bump i j n s) i j = objGet s i j + n := by
  unfold bump
  split
  · simp [*]
  · simp

theorem objGet_bump_ne (n : Nat) (s : State) {i j i' j' : Nat} (h : objKey i' j' ≠ objKey i j) :
    objGet (bump i j n s) i' j' = objGet s i' j' := by
  unfold bump
  split
  · rfl
  · exact objGet_objSet_ne _ _ h

/-! ## Tiles and links -/

theorem tileAt_tileSet (t u : Nat) (v : Tile) (s : State) : tileAt (tileSet t v s) u = if u = t then v else tileAt s u := by
  simp [tileAt, tileSet, mget_mset]

@[simp] theorem tileAt_tileSet_same (t : Nat) (v : Tile) (s : State) : tileAt (tileSet t v s) t = v := by
  simp [tileAt_tileSet]

theorem linkAt_linkSet (l k : Nat) (v : Link) (s : State) : linkAt (linkSet l v s) k = if k = l then v else linkAt s k := by
  simp [linkAt, linkSet, mget_mset]

@[simp] theorem linkAt_linkSet_same (l : Nat) (v : Link) (s : State) : linkAt (linkSet l v s) l = v := by
  simp [linkAt_linkSet]

end Sys2Proof.Laws
end

