-- ==== Sys2Proof/Laws/Memory.lean ====
section
/-! SUPPORT. Read after write of rows and of port memory. -/

namespace Sys2Proof.Laws
open Sys2Proof.Machine

/-! ## Bytes -/

@[simp] theorem slice_length (bs : Bytes) (o n : Nat) : (slice bs o n).length = n := by
  simp only [slice, List.length_append, List.length_replicate, List.length_take]
  omega

@[simp] theorem leBytes_length (n v : Nat) : (leBytes n v).length = n := by
  induction n generalizing v with
  | zero => rfl
  | succ n ih => simp [leBytes, ih]

@[simp] theorem zeros_length (n : Nat) : (zeros n).length = n := by simp [zeros]

/-- A slice that lies inside its string. -/
theorem slice_eq (bs : Bytes) (o n : Nat) (h : o + n ≤ bs.length) : slice bs o n = (bs.drop o).take n := by
  simp only [slice, List.length_take, List.length_drop]
  rw [show n - min n (bs.length - o) = 0 by omega]
  simp

/-- A string as long as asked for is its own slice. -/
theorem slice_self (bs : Bytes) (n : Nat) (h : bs.length = n) : slice bs 0 n = bs := by
  rw [slice_eq _ _ _ (by omega)]
  simp [← h]

theorem leNat_leBytes (n v : Nat) : leNat (leBytes n v) = v % 256 ^ n := by
  induction n generalizing v with
  | zero => simp [leBytes, leNat, Nat.mod_one]
  | succ n ih =>
    rw [leBytes, leNat, ih, BitVec.toNat_ofNat, show 256 ^ (n + 1) = 256 * 256 ^ n from Nat.pow_succ']
    exact (Nat.mod_mul (x := v) (a := 256) (b := 256 ^ n)).symm

/-! ## Memory -/

theorem lookup_cellsOf (a : Nat) (bs : Bytes) (x : Nat) :
    (cellsOf a bs).lookup x =
      if a ≤ x ∧ x < a + bs.length ∧ bs.getD (x - a) 0 ≠ rowDefault (x % 520) then some (bs.getD (x - a) 0) else none := by
  induction bs generalizing a with
  | nil =>
    rw [if_neg (fun h => by have := h.2.1; simp at this; omega)]
    rfl
  | cons b bs ih =>
    have step : ∀ (h : x ≠ a), (cellsOf (a + 1) bs).lookup x =
        if a ≤ x ∧ x < a + (b :: bs).length ∧ (b :: bs).getD (x - a) 0 ≠ rowDefault (x % 520)
        then some ((b :: bs).getD (x - a) 0) else none := by
      intro h
      rw [ih]
      by_cases e : a < x
      · have e1 : x - a = (x - (a + 1)) + 1 := by omega
        rw [e1, List.getD_cons_succ]
        by_cases g : x < a + 1 + bs.length
        · simp only [List.length_cons, show a + 1 ≤ x by omega, show a ≤ x by omega, g,
            show x < a + (bs.length + 1) by omega, true_and]
        · rw [if_neg (fun k => g k.2.1), if_neg (fun k => g (by have := k.2.1; simp at this; omega))]
      · rw [if_neg (fun k => e (by omega)), if_neg (fun k => e (by omega))]
    unfold cellsOf
    by_cases hx : x = a
    · subst hx
      have key : (cellsOf (x + 1) bs).lookup x = none := by
        rw [ih, if_neg (fun k => by omega)]
      split
      · rename_i hb
        rw [key, if_neg (fun k => k.2.2 (by simp [hb]))]
      · rename_i hb
        rw [lookup_cons_same, if_pos ⟨Nat.le_refl _, by simp, by simpa using hb⟩]
        simp
    · split
      · exact step hx
      · rw [lookup_cons_ne _ _ hx]
        exact step hx

/-- A byte after bytes were written. -/
theorem byteAt_memPut (m : List Host.Cell) (a : Nat) (bs : Bytes) (x : Nat) :
    byteAt (memPut m a bs) x = if a ≤ x ∧ x < a + bs.length then bs.getD (x - a) 0 else byteAt m x := by
  unfold byteAt memPut
  have hb : (m.filter (·.1 < a)).lookup x = if x < a then m.lookup x else none := lookup_below (α := Byte) m a x
  have ha : (m.filter (a + bs.length ≤ ·.1)).lookup x = if a + bs.length ≤ x then m.lookup x else none := by
    simpa using lookup_filter (α := Byte) m (fun y => decide (a + bs.length ≤ y)) x
  rw [lookup_append (α := Byte), lookup_append (α := Byte), hb, ha, lookup_cellsOf]
  by_cases h : a ≤ x ∧ x < a + bs.length
  · have h1 : ¬ x < a := by omega
    have h2 : ¬ a + bs.length ≤ x := by omega
    simp only [h1, h2, h.1, h.2, if_false, true_and, and_self, if_true, Option.none_or, Option.or_none]
    by_cases e : bs.getD (x - a) 0 = rowDefault (x % 520)
    · simp only [e, ne_eq, not_true_eq_false, if_false, Option.getD_none]
    · simp only [e, ne_eq, not_false_eq_true, if_true, Option.getD_some]
  · have h3 : ¬ (a ≤ x ∧ x < a + bs.length ∧ bs.getD (x - a) 0 ≠ rowDefault (x % 520)) := fun k => h ⟨k.1, k.2.1⟩
    simp only [h3, h, if_false, Option.or_none]
    by_cases g : x < a
    · simp only [g, show ¬ a + bs.length ≤ x by omega, if_true, if_false, Option.or_none]
    · simp only [g, show a + bs.length ≤ x by omega, if_true, if_false, Option.none_or]

/-- The stored frame of a row as its bytes. -/
theorem frameOf_frameBytes (f : RowFrame) : frameOf (frameBytes f) = { f with data := slice f.data 0 512 } := by
  have hd : (slice f.data 0 512).length = 512 := slice_length _ _ _
  have ht : (leBytes 2 f.tag.toNat).length = 2 := leBytes_length _ _
  have hp : (leBytes 4 f.proof.toNat).length = 4 := leBytes_length _ _
  have hl : (frameBytes f).length = 520 := by simp [frameBytes]
  have e1 : slice (frameBytes f) 0 512 = slice f.data 0 512 := by
    rw [slice_eq _ _ _ (by omega)]
    simp [frameBytes, List.append_assoc, hd]
  have e2 : slice (frameBytes f) 514 2 = leBytes 2 f.tag.toNat := by
    rw [slice_eq _ _ _ (by omega)]
    unfold frameBytes
    rw [show (514 : Nat) = (slice f.data 0 512 ++ zeros 2).length by simp, List.append_assoc, List.drop_left]
    exact List.take_left' ht
  have e3 : slice (frameBytes f) 516 4 = leBytes 4 f.proof.toNat := by
    rw [slice_eq _ _ _ (by omega)]
    unfold frameBytes
    rw [show (516 : Nat) = (slice f.data 0 512 ++ zeros 2 ++ leBytes 2 f.tag.toNat).length by simp, List.drop_left]
    exact List.take_of_length_le (by omega)
  unfold frameOf leAt
  rw [e1, e2, e3, leNat_leBytes, leNat_leBytes]
  have t1 : f.tag.toNat % 256 ^ 2 = f.tag.toNat := Nat.mod_eq_of_lt (by have := f.tag.isLt; omega)
  have t2 : f.proof.toNat % 256 ^ 4 = f.proof.toNat := Nat.mod_eq_of_lt (by have := f.proof.isLt; omega)
  rw [t1, t2]
  simp

/-- A row reads as it was written: 512 data bytes, tag and proof word. -/
theorem rowGet_rowPut_same (a : Nat) (f : RowFrame) (s : State) :
    rowGet (rowPut a f s) a = { f with data := slice f.data 0 512 } := by
  have hl : (frameBytes f).length = 520 := by simp [frameBytes]
  have : memGet (memPut s.mem (520 * a) (frameBytes f)) (520 * a) 520 = frameBytes f := by
    apply List.ext_getElem
    · simp [memGet, hl]
    · intro i h1 h2
      simp only [memGet, List.getElem_map, List.getElem_range]
      rw [byteAt_memPut, if_pos (by omega)]
      simp [List.getD_eq_getElem?_getD, h2]
  unfold rowGet
  rw [show (rowPut a f s).mem = memPut s.mem (520 * a) (frameBytes f) from rfl, this, frameOf_frameBytes]

/-- Another row reads as before. -/
theorem rowGet_rowPut_ne {a b : Nat} (h : b ≠ a) (f : RowFrame) (s : State) : rowGet (rowPut a f s) b = rowGet s b := by
  have hl : (frameBytes f).length = 520 := by simp [frameBytes]
  unfold rowGet
  apply congrArg frameOf
  simp only [rowPut, memGet]
  apply List.map_congr_left
  intro i hi
  simp only [List.mem_range] at hi
  rw [byteAt_memPut, if_neg (by omega)]

theorem rowGet_rowPut (a b : Nat) (f : RowFrame) (s : State) :
    rowGet (rowPut a f s) b = if b = a then { f with data := slice f.data 0 512 } else rowGet s b := by
  by_cases h : b = a
  · subst h
    simp [rowGet_rowPut_same]
  · simp [h, rowGet_rowPut_ne h]

@[simp] theorem rowGet_tileSet (t : Nat) (v : Tile) (s : State) (a : Nat) : rowGet (tileSet t v s) a = rowGet s a := rfl
@[simp] theorem rowGet_objSet (i j v : Nat) (s : State) (a : Nat) : rowGet (objSet i j v s) a = rowGet s a := rfl
@[simp] theorem rowGet_emit (o : Output) (s : State) (a : Nat) : rowGet (emit o s) a = rowGet s a := rfl

/-! ## Port memory -/

theorem lookup_portCells (a : Nat) (bs : Bytes) (x : Nat) :
    (portCells a bs).lookup x =
      if a ≤ x ∧ x < a + bs.length ∧ bs.getD (x - a) 0 ≠ 0 then some (bs.getD (x - a) 0) else none := by
  induction bs generalizing a with
  | nil =>
    rw [if_neg (fun h => by have := h.2.1; simp at this; omega)]
    rfl
  | cons b bs ih =>
    have step : ∀ (h : x ≠ a), (portCells (a + 1) bs).lookup x =
        if a ≤ x ∧ x < a + (b :: bs).length ∧ (b :: bs).getD (x - a) 0 ≠ 0
        then some ((b :: bs).getD (x - a) 0) else none := by
      intro h
      rw [ih]
      by_cases e : a < x
      · have e1 : x - a = (x - (a + 1)) + 1 := by omega
        rw [e1, List.getD_cons_succ]
        by_cases g : x < a + 1 + bs.length
        · simp only [List.length_cons, show a + 1 ≤ x by omega, show a ≤ x by omega, g,
            show x < a + (bs.length + 1) by omega, true_and]
        · rw [if_neg (fun k => g k.2.1), if_neg (fun k => g (by have := k.2.1; simp at this; omega))]
      · rw [if_neg (fun k => e (by omega)), if_neg (fun k => e (by omega))]
    unfold portCells
    by_cases hx : x = a
    · subst hx
      have key : (portCells (x + 1) bs).lookup x = none := by
        rw [ih, if_neg (fun k => by omega)]
      split
      · rename_i hb
        rw [key, if_neg (fun k => k.2.2 (by simp [hb]))]
      · rename_i hb
        rw [lookup_cons_same, if_pos ⟨Nat.le_refl _, by simp, by simpa using hb⟩]
        simp
    · split
      · exact step hx
      · rw [lookup_cons_ne _ _ hx]
        exact step hx

/-- A byte of port memory after bytes were written. -/
theorem portByte_portPut (a : Nat) (bs : Bytes) (s : State) (x : Nat) :
    portByte (portPut a bs s) x = if a ≤ x ∧ x < a + bs.length then bs.getD (x - a) 0 else portByte s x := by
  unfold portByte portPut
  have hb : (s.pmem.filter (·.1 < a)).lookup x = if x < a then s.pmem.lookup x else none :=
    lookup_below (α := Byte) s.pmem a x
  have ha : (s.pmem.filter (a + bs.length ≤ ·.1)).lookup x = if a + bs.length ≤ x then s.pmem.lookup x else none := by
    simpa using lookup_filter (α := Byte) s.pmem (fun y => decide (a + bs.length ≤ y)) x
  simp only
  rw [lookup_append (α := Byte), lookup_append (α := Byte), hb, ha, lookup_portCells]
  by_cases h : a ≤ x ∧ x < a + bs.length
  · have h1 : ¬ x < a := by omega
    have h2 : ¬ a + bs.length ≤ x := by omega
    simp only [h1, h2, h.1, h.2, if_false, true_and, and_self, if_true, Option.none_or, Option.or_none]
    by_cases e : bs.getD (x - a) 0 = 0
    · simp only [e, ne_eq, not_true_eq_false, if_false, Option.getD_none]
    · simp only [e, ne_eq, not_false_eq_true, if_true, Option.getD_some]
  · have h3 : ¬ (a ≤ x ∧ x < a + bs.length ∧ bs.getD (x - a) 0 ≠ 0) := fun k => h ⟨k.1, k.2.1⟩
    simp only [h3, h, if_false, Option.or_none]
    by_cases g : x < a
    · simp only [g, show ¬ a + bs.length ≤ x by omega, if_true, if_false, Option.or_none]
    · simp only [g, show a + bs.length ≤ x by omega, if_true, if_false, Option.none_or]

/-- Bytes written to port memory read back. -/
theorem portGet_portPut (a : Nat) (bs : Bytes) (s : State) : portGet (portPut a bs s) a bs.length = bs := by
  apply List.ext_getElem
  · simp [portGet]
  · intro i h1 h2
    simp only [portGet, List.getElem_map, List.getElem_range]
    rw [portByte_portPut, if_pos (by omega)]
    simp [List.getD_eq_getElem?_getD, h2]

end Sys2Proof.Laws
end

