-- ==== Sys2Proof/Laws/Aside.lean ====
section
/-! SUPPORT. What counters, outputs, faults and hold requests leave alone: everything but object entries, link ports, the
network, the treadle's snapshot, the fault log, the egress gate, counters, pending vectors, outputs and free values. -/

namespace Sys2Proof.Laws
open Sys2Proof.Machine

/-- The part of State that these operations leave alone. -/
structure Rest where
  ident : Ident
  tick : Nat
  boundary : Nat
  cycle0 : Nat
  tp : Nat
  sp : Nat
  job : Bool
  started : Bool
  sealedJob : Bool
  octets : SMap Bytes
  flash : SMap Nat
  flashOct : SMap Bytes
  stores : List Store
  mem : List Host.Cell
  pmem : List Host.Cell
  upsets : SMap (List Nat)
  poison : SMap Bool
  landed : SMap Bool
  tiles : SMap Tile
  regions : SMap Region
  scrubBase : Int
  hold : Hold
  pattern : Option Pattern
  loads : List Load
  security : Security
  fns : List Fn
  can : Can
  masked : BitVec 32
  loadSeq : Option (BitVec 32)
  mgmtDown : Bool
  power : Power
  start : Start
  pending : List Instr

/-- That part of a state. -/
def rest (s : State) : Rest where
  ident := s.ident
  tick := s.tick
  boundary := s.boundary
  cycle0 := s.cycle0
  tp := s.tp
  sp := s.sp
  job := s.job
  started := s.started
  sealedJob := s.sealedJob
  octets := s.octets
  flash := s.flash
  flashOct := s.flashOct
  stores := s.stores
  mem := s.mem
  pmem := s.pmem
  upsets := s.upsets
  poison := s.poison
  landed := s.landed
  tiles := s.tiles
  regions := s.regions
  scrubBase := s.scrubBase
  hold := s.hold
  pattern := s.pattern
  loads := s.loads
  security := s.security
  fns := s.fns
  can := s.can
  masked := s.masked
  loadSeq := s.loadSeq
  mgmtDown := s.mgmtDown
  power := s.power
  start := s.start
  pending := s.pending

/-- State `s` differs from `b` in what these operations may change only. -/
@[reducible] def Aside (b s : State) : Prop := rest s = rest b

theorem Aside.refl (s : State) : Aside s s := rfl
theorem Aside.trans {a b c : State} (h : Aside a b) (k : Aside b c) : Aside a c := Eq.trans k h

theorem aside_foldl {α : Type} {b : State} (f : State → α → State) (l : List α)
    (hf : ∀ s x, Aside b s → Aside b (f s x)) (s : State) (h : Aside b s) : Aside b (l.foldl f s) := by
  induction l generalizing s with
  | nil => exact h
  | cons x xs ih => exact ih (f s x) (hf s x h)

theorem aside_ite {b s t : State} {c : Prop} [Decidable c] (h : Aside b s) (k : Aside b t) :
    Aside b (if c then s else t) := by
  split
  · exact h
  · exact k

theorem Aside.ident {b s : State} (h : Aside b s) : s.ident = b.ident := congrArg Rest.ident h
theorem Aside.tick {b s : State} (h : Aside b s) : s.tick = b.tick := congrArg Rest.tick h
theorem Aside.boundary {b s : State} (h : Aside b s) : s.boundary = b.boundary := congrArg Rest.boundary h
theorem Aside.cycle0 {b s : State} (h : Aside b s) : s.cycle0 = b.cycle0 := congrArg Rest.cycle0 h
theorem Aside.tp {b s : State} (h : Aside b s) : s.tp = b.tp := congrArg Rest.tp h
theorem Aside.sp {b s : State} (h : Aside b s) : s.sp = b.sp := congrArg Rest.sp h
theorem Aside.job {b s : State} (h : Aside b s) : s.job = b.job := congrArg Rest.job h
theorem Aside.started {b s : State} (h : Aside b s) : s.started = b.started := congrArg Rest.started h
theorem Aside.sealedJob {b s : State} (h : Aside b s) : s.sealedJob = b.sealedJob := congrArg Rest.sealedJob h
theorem Aside.octets {b s : State} (h : Aside b s) : s.octets = b.octets := congrArg Rest.octets h
theorem Aside.flash {b s : State} (h : Aside b s) : s.flash = b.flash := congrArg Rest.flash h
theorem Aside.flashOct {b s : State} (h : Aside b s) : s.flashOct = b.flashOct := congrArg Rest.flashOct h
theorem Aside.stores {b s : State} (h : Aside b s) : s.stores = b.stores := congrArg Rest.stores h
theorem Aside.mem {b s : State} (h : Aside b s) : s.mem = b.mem := congrArg Rest.mem h
theorem Aside.pmem {b s : State} (h : Aside b s) : s.pmem = b.pmem := congrArg Rest.pmem h
theorem Aside.upsets {b s : State} (h : Aside b s) : s.upsets = b.upsets := congrArg Rest.upsets h
theorem Aside.poison {b s : State} (h : Aside b s) : s.poison = b.poison := congrArg Rest.poison h
theorem Aside.landed {b s : State} (h : Aside b s) : s.landed = b.landed := congrArg Rest.landed h
theorem Aside.tiles {b s : State} (h : Aside b s) : s.tiles = b.tiles := congrArg Rest.tiles h
theorem Aside.regions {b s : State} (h : Aside b s) : s.regions = b.regions := congrArg Rest.regions h
theorem Aside.scrubBase {b s : State} (h : Aside b s) : s.scrubBase = b.scrubBase := congrArg Rest.scrubBase h
theorem Aside.hold {b s : State} (h : Aside b s) : s.hold = b.hold := congrArg Rest.hold h
theorem Aside.pattern {b s : State} (h : Aside b s) : s.pattern = b.pattern := congrArg Rest.pattern h
theorem Aside.loads {b s : State} (h : Aside b s) : s.loads = b.loads := congrArg Rest.loads h
theorem Aside.security {b s : State} (h : Aside b s) : s.security = b.security := congrArg Rest.security h
theorem Aside.fns {b s : State} (h : Aside b s) : s.fns = b.fns := congrArg Rest.fns h
theorem Aside.can {b s : State} (h : Aside b s) : s.can = b.can := congrArg Rest.can h
theorem Aside.masked {b s : State} (h : Aside b s) : s.masked = b.masked := congrArg Rest.masked h
theorem Aside.loadSeq {b s : State} (h : Aside b s) : s.loadSeq = b.loadSeq := congrArg Rest.loadSeq h
theorem Aside.mgmtDown {b s : State} (h : Aside b s) : s.mgmtDown = b.mgmtDown := congrArg Rest.mgmtDown h
theorem Aside.power {b s : State} (h : Aside b s) : s.power = b.power := congrArg Rest.power h
theorem Aside.start {b s : State} (h : Aside b s) : s.start = b.start := congrArg Rest.start h
theorem Aside.pending {b s : State} (h : Aside b s) : s.pending = b.pending := congrArg Rest.pending h

theorem Aside.tileAt {b s : State} (h : Aside b s) (t : Nat) : Machine.tileAt s t = Machine.tileAt b t := by
  unfold Machine.tileAt
  rw [h.tiles]

theorem Aside.rowGet {b s : State} (h : Aside b s) (a : Nat) : Machine.rowGet s a = Machine.rowGet b a := by
  unfold Machine.rowGet
  rw [h.mem]

theorem aside_objSet {b s : State} (i j v : Nat) (h : Aside b s) : Aside b (objSet i j v s) := h
theorem aside_linkSet {b s : State} (l : Nat) (v : Link) (h : Aside b s) : Aside b (linkSet l v s) := h
theorem aside_emit {b s : State} (o : Output) (h : Aside b s) : Aside b (emit o s) := h

theorem aside_bump {b s : State} (i j n : Nat) (h : Aside b s) : Aside b (bump i j n s) := by
  unfold bump
  exact aside_ite h h

theorem aside_raiseVector {b s : State} (v : Nat) (h : Aside b s) : Aside b (raiseVector v s) := by
  unfold raiseVector
  exact aside_ite h h

theorem aside_countEvent {b s : State} (v c now : Nat) (h : Aside b s) : Aside b (countEvent v c now s) := by
  unfold countEvent
  exact aside_ite h h

theorem aside_countModule {b s : State} (e c : Nat) (h : Aside b s) : Aside b (countModule e c s) := aside_countEvent _ _ _ h
theorem aside_countLink {b s : State} (l e c : Nat) (h : Aside b s) : Aside b (countLink l e c s) := aside_countEvent _ _ _ h
theorem aside_countTile {b s : State} (t e c now : Nat) (h : Aside b s) : Aside b (countTile t e c now s) :=
  aside_countEvent _ _ _ h

theorem aside_toPort {b s : State} (l : Nat) (o : Output) (h : Aside b s) : Aside b (toPort l o s) := by
  unfold toPort
  have h1 : Aside b (emit o (bump (0x4100 + l) 0x11 1 s)) := aside_bump _ _ _ h
  exact aside_ite h1 h1

theorem aside_sendFaults {b s : State} (code : BitVec 16) (origin : Coord) (stamp : Nat) (h : Aside b s) :
    Aside b (sendFaults code origin stamp s) := by
  unfold sendFaults
  exact aside_foldl _ _ (fun s l k => aside_toPort _ _ k) _ h

theorem aside_beginStop {b s : State} (code : BitVec 16) (origin : Coord) (stamp : Nat) (h : Aside b s) :
    Aside b (beginStop code origin stamp s) := by
  unfold beginStop
  have h1 := aside_sendFaults code origin stamp h
  generalize sendFaults code origin stamp s = s1 at h1 ⊢
  exact aside_ite h1 h1

theorem aside_raiseFault {b s : State} (code : Nat) (site : FaultSite) (h : Aside b s) : Aside b (raiseFault code site s) := by
  unfold raiseFault
  refine aside_ite (aside_beginStop _ _ _ ?_) ?_
  · exact h
  · exact h

theorem aside_raiseFaults {b s : State} (fs : List (Nat × FaultSite)) (h : Aside b s) : Aside b (raiseFaults fs s) :=
  aside_foldl _ _ (fun _ _ k => aside_raiseFault _ _ k) _ h

theorem aside_depart {b s : State} (o : Output) (h : Aside b s) : Aside b (depart s o) := by
  unfold depart
  split
  · exact h
  · exact aside_toPort _ _ h
  all_goals exact h

theorem aside_setSpent {b s : State} (d act n : Nat) (h : Aside b s) : Aside b (setSpent d act n s) := h

theorem aside_departAll {b s : State} (d : Nat) (w : WaitB) (h : Aside b s) : Aside b (departAll d w s) := by
  unfold departAll
  exact aside_foldl _ _ (fun _ _ k => aside_depart _ k) _ (aside_setSpent _ _ _ h)

theorem aside_inject {b s : State} (d act n : Nat) (items : List Output) (h : Aside b s) : Aside b (inject d act n items s) := by
  unfold inject
  refine aside_ite h (aside_ite (aside_departAll _ _ h) (aside_countModule _ _ ?_))
  exact aside_bump 0x4000 0x12 1 h

theorem aside_sendHold {b s : State} (d : Nat) (r : HoldReq) (h : Aside b s) : Aside b (sendHold d r s) := by
  unfold sendHold
  exact aside_ite (aside_inject _ _ _ _ h) h

theorem aside_raiseHold {b s : State} (event now d : Nat) (r : HoldReq) (h : Aside b s) :
    Aside b (raiseHold event now d r s) := by
  unfold raiseHold
  exact aside_ite (aside_sendHold _ _ (aside_countEvent _ _ _ h)) h

theorem aside_tileHold {b s : State} (t sp reason now : Nat) (h : Aside b s) : Aside b (tileHold t sp reason now s) :=
  aside_raiseHold _ _ _ _ h
theorem aside_linkHold {b s : State} (l sp reason : Nat) (h : Aside b s) : Aside b (linkHold l sp reason s) :=
  aside_raiseHold _ _ _ _ h
theorem aside_unitHold {b s : State} (event ocls die sp reason count : Nat) (h : Aside b s) :
    Aside b (unitHold event ocls die sp reason count s) := aside_raiseHold _ _ _ _ h

theorem aside_tableWrite {b s : State} (h : Aside b s) : Aside b (tableWrite s) := by
  unfold tableWrite
  split
  · exact h
  · exact h

theorem aside_markRow {b s : State} (a : Nat) (h : Aside b s) : Aside b (markRow a s) := by
  unfold markRow
  split
  · refine aside_ite h (aside_ite (aside_raiseFault _ _ h) (aside_bump _ _ _ (aside_tableWrite ?_)))
    exact h
  · exact h

theorem aside_markFaulted {b s : State} (fs : List (Nat × FaultSite)) (h : Aside b s) : Aside b (markFaulted fs s) :=
  aside_foldl _ _ (fun _ _ k => aside_ite (aside_markRow _ k) k) _ h

end Sys2Proof.Laws
end

