-- ==== Sys2Proof/Laws/Sent.lean ====
section
/-! SUPPORT. What counts, packets and control symbols sent leave alone: everything but object entries, link ports, the
network, counters and outputs. -/

namespace Sys2Proof.Laws
open Sys2Proof.Machine

/-- The part of State that these operations leave alone. -/
structure SentRest where
  ident : Ident
  tick : Nat
  boundary : Nat
  cycle0 : Nat
  tp : Nat
  sp : Nat
  job : Bool
  started : Bool
  sealedJob : Bool
  octets : SMap Bytes
  flash : SMap Nat
  flashOct : SMap Bytes
  stores : List Store
  mem : List Host.Cell
  pmem : List Host.Cell
  upsets : SMap (List Nat)
  poison : SMap Bool
  landed : SMap Bool
  tiles : SMap Tile
  regions : SMap Region
  scrubBase : Int
  hold : Hold
  pattern : Option Pattern
  treadle : Treadle
  loads : List Load
  integrity : Integrity
  security : Security
  fns : List Fn
  can : Can
  ports : Ports
  masked : BitVec 32
  pendVec : BitVec 32
  loadSeq : Option (BitVec 32)
  mgmtDown : Bool
  power : Power
  start : Start
  free : Nat
  pending : List Instr

/-- That part of a state. -/
def sentRest (s : State) : SentRest where
  ident := s.ident
  tick := s.tick
  boundary := s.boundary
  cycle0 := s.cycle0
  tp := s.tp
  sp := s.sp
  job := s.job
  started := s.started
  sealedJob := s.sealedJob
  octets := s.octets
  flash := s.flash
  flashOct := s.flashOct
  stores := s.stores
  mem := s.mem
  pmem := s.pmem
  upsets := s.upsets
  poison := s.poison
  landed := s.landed
  tiles := s.tiles
  regions := s.regions
  scrubBase := s.scrubBase
  hold := s.hold
  pattern := s.pattern
  treadle := s.treadle
  loads := s.loads
  integrity := s.integrity
  security := s.security
  fns := s.fns
  can := s.can
  ports := s.ports
  masked := s.masked
  pendVec := s.pendVec
  loadSeq := s.loadSeq
  mgmtDown := s.mgmtDown
  power := s.power
  start := s.start
  free := s.free
  pending := s.pending

/-- State `s` differs from `b` in what these operations may change only. -/
@[reducible] def Sent (b s : State) : Prop := sentRest s = sentRest b

theorem Sent.refl (s : State) : Sent s s := rfl
theorem Sent.trans {a b c : State} (h : Sent a b) (k : Sent b c) : Sent a c := Eq.trans k h

theorem sent_foldl {α : Type} {b : State} (f : State → α → State) (l : List α)
    (hf : ∀ s x, Sent b s → Sent b (f s x)) (s : State) (h : Sent b s) : Sent b (l.foldl f s) := by
  induction l generalizing s with
  | nil => exact h
  | cons x xs ih => exact ih (f s x) (hf s x h)

theorem sent_ite {b s t : State} {c : Prop} [Decidable c] (h : Sent b s) (k : Sent b t) :
    Sent b (if c then s else t) := by
  split
  · exact h
  · exact k

theorem Sent.ident {b s : State} (h : Sent b s) : s.ident = b.ident := congrArg SentRest.ident h
theorem Sent.tick {b s : State} (h : Sent b s) : s.tick = b.tick := congrArg SentRest.tick h
theorem Sent.boundary {b s : State} (h : Sent b s) : s.boundary = b.boundary := congrArg SentRest.boundary h
theorem Sent.cycle0 {b s : State} (h : Sent b s) : s.cycle0 = b.cycle0 := congrArg SentRest.cycle0 h
theorem Sent.tp {b s : State} (h : Sent b s) : s.tp = b.tp := congrArg SentRest.tp h
theorem Sent.sp {b s : State} (h : Sent b s) : s.sp = b.sp := congrArg SentRest.sp h
theorem Sent.job {b s : State} (h : Sent b s) : s.job = b.job := congrArg SentRest.job h
theorem Sent.started {b s : State} (h : Sent b s) : s.started = b.started := congrArg SentRest.started h
theorem Sent.sealedJob {b s : State} (h : Sent b s) : s.sealedJob = b.sealedJob := congrArg SentRest.sealedJob h
theorem Sent.octets {b s : State} (h : Sent b s) : s.octets = b.octets := congrArg SentRest.octets h
theorem Sent.flash {b s : State} (h : Sent b s) : s.flash = b.flash := congrArg SentRest.flash h
theorem Sent.flashOct {b s : State} (h : Sent b s) : s.flashOct = b.flashOct := congrArg SentRest.flashOct h
theorem Sent.stores {b s : State} (h : Sent b s) : s.stores = b.stores := congrArg SentRest.stores h
theorem Sent.mem {b s : State} (h : Sent b s) : s.mem = b.mem := congrArg SentRest.mem h
theorem Sent.pmem {b s : State} (h : Sent b s) : s.pmem = b.pmem := congrArg SentRest.pmem h
theorem Sent.upsets {b s : State} (h : Sent b s) : s.upsets = b.upsets := congrArg SentRest.upsets h
theorem Sent.poison {b s : State} (h : Sent b s) : s.poison = b.poison := congrArg SentRest.poison h
theorem Sent.landed {b s : State} (h : Sent b s) : s.landed = b.landed := congrArg SentRest.landed h
theorem Sent.tiles {b s : State} (h : Sent b s) : s.tiles = b.tiles := congrArg SentRest.tiles h
theorem Sent.regions {b s : State} (h : Sent b s) : s.regions = b.regions := congrArg SentRest.regions h
theorem Sent.scrubBase {b s : State} (h : Sent b s) : s.scrubBase = b.scrubBase := congrArg SentRest.scrubBase h
theorem Sent.hold {b s : State} (h : Sent b s) : s.hold = b.hold := congrArg SentRest.hold h
theorem Sent.pattern {b s : State} (h : Sent b s) : s.pattern = b.pattern := congrArg SentRest.pattern h
theorem Sent.treadle {b s : State} (h : Sent b s) : s.treadle = b.treadle := congrArg SentRest.treadle h
theorem Sent.loads {b s : State} (h : Sent b s) : s.loads = b.loads := congrArg SentRest.loads h
theorem Sent.integrity {b s : State} (h : Sent b s) : s.integrity = b.integrity := congrArg SentRest.integrity h
theorem Sent.security {b s : State} (h : Sent b s) : s.security = b.security := congrArg SentRest.security h
theorem Sent.fns {b s : State} (h : Sent b s) : s.fns = b.fns := congrArg SentRest.fns h
theorem Sent.can {b s : State} (h : Sent b s) : s.can = b.can := congrArg SentRest.can h
theorem Sent.ports {b s : State} (h : Sent b s) : s.ports = b.ports := congrArg SentRest.ports h
theorem Sent.masked {b s : State} (h : Sent b s) : s.masked = b.masked := congrArg SentRest.masked h
theorem Sent.pendVec {b s : State} (h : Sent b s) : s.pendVec = b.pendVec := congrArg SentRest.pendVec h
theorem Sent.loadSeq {b s : State} (h : Sent b s) : s.loadSeq = b.loadSeq := congrArg SentRest.loadSeq h
theorem Sent.mgmtDown {b s : State} (h : Sent b s) : s.mgmtDown = b.mgmtDown := congrArg SentRest.mgmtDown h
theorem Sent.power {b s : State} (h : Sent b s) : s.power = b.power := congrArg SentRest.power h
theorem Sent.start {b s : State} (h : Sent b s) : s.start = b.start := congrArg SentRest.start h
theorem Sent.free {b s : State} (h : Sent b s) : s.free = b.free := congrArg SentRest.free h
theorem Sent.pending {b s : State} (h : Sent b s) : s.pending = b.pending := congrArg SentRest.pending h

theorem Sent.tileAt {b s : State} (h : Sent b s) (t : Nat) : Machine.tileAt s t = Machine.tileAt b t := by
  unfold Machine.tileAt
  rw [h.tiles]

theorem Sent.rowGet {b s : State} (h : Sent b s) (a : Nat) : Machine.rowGet s a = Machine.rowGet b a := by
  unfold Machine.rowGet
  rw [h.mem]

theorem sent_objSet {b s : State} (i j v : Nat) (h : Sent b s) : Sent b (objSet i j v s) := h
theorem sent_linkSet {b s : State} (l : Nat) (v : Link) (h : Sent b s) : Sent b (linkSet l v s) := h
theorem sent_emit {b s : State} (o : Output) (h : Sent b s) : Sent b (emit o s) := h

theorem sent_bump {b s : State} (i j n : Nat) (h : Sent b s) : Sent b (bump i j n s) := by
  unfold bump
  exact sent_ite h h

theorem sent_countEvent {b s : State} (v c now : Nat) (h : Sent b s) : Sent b (countEvent v c now s) := by
  unfold countEvent
  exact sent_ite h h

theorem sent_countModule {b s : State} (e c : Nat) (h : Sent b s) : Sent b (countModule e c s) := sent_countEvent _ _ _ h
theorem sent_countLink {b s : State} (l e c : Nat) (h : Sent b s) : Sent b (countLink l e c s) := sent_countEvent _ _ _ h
theorem sent_countTile {b s : State} (t e c now : Nat) (h : Sent b s) : Sent b (countTile t e c now s) :=
  sent_countEvent _ _ _ h

theorem sent_toPort {b s : State} (l : Nat) (o : Output) (h : Sent b s) : Sent b (toPort l o s) := by
  unfold toPort
  have h1 : Sent b (emit o (bump (0x4100 + l) 0x11 1 s)) := sent_bump _ _ _ h
  exact sent_ite h1 h1

theorem sent_sendFaults {b s : State} (code : BitVec 16) (origin : Coord) (stamp : Nat) (h : Sent b s) :
    Sent b (sendFaults code origin stamp s) := by
  unfold sendFaults
  exact sent_foldl _ _ (fun s l k => sent_toPort _ _ k) _ h

theorem sent_depart {b s : State} (o : Output) (h : Sent b s) : Sent b (depart s o) := by
  unfold depart
  split
  · exact h
  · exact sent_toPort _ _ h
  all_goals exact h

theorem sent_setSpent {b s : State} (d act n : Nat) (h : Sent b s) : Sent b (setSpent d act n s) := h

theorem sent_departAll {b s : State} (d : Nat) (w : WaitB) (h : Sent b s) : Sent b (departAll d w s) := by
  unfold departAll
  exact sent_foldl _ _ (fun _ _ k => sent_depart _ k) _ (sent_setSpent _ _ _ h)

theorem sent_inject {b s : State} (d act n : Nat) (items : List Output) (h : Sent b s) : Sent b (inject d act n items s) := by
  unfold inject
  refine sent_ite h (sent_ite (sent_departAll _ _ h) (sent_countModule _ _ ?_))
  exact sent_bump 0x4000 0x12 1 h

theorem sent_sendHold {b s : State} (d : Nat) (r : HoldReq) (h : Sent b s) : Sent b (sendHold d r s) := by
  unfold sendHold
  exact sent_ite (sent_inject _ _ _ _ h) h

theorem sent_raiseHold {b s : State} (event now d : Nat) (r : HoldReq) (h : Sent b s) :
    Sent b (raiseHold event now d r s) := by
  unfold raiseHold
  exact sent_ite (sent_sendHold _ _ (sent_countEvent _ _ _ h)) h

theorem sent_tileHold {b s : State} (t sp reason now : Nat) (h : Sent b s) : Sent b (tileHold t sp reason now s) :=
  sent_raiseHold _ _ _ _ h
theorem sent_linkHold {b s : State} (l sp reason : Nat) (h : Sent b s) : Sent b (linkHold l sp reason s) :=
  sent_raiseHold _ _ _ _ h
theorem sent_unitHold {b s : State} (event ocls die sp reason count : Nat) (h : Sent b s) :
    Sent b (unitHold event ocls die sp reason count s) := sent_raiseHold _ _ _ _ h

theorem sent_sendCopies {b s : State} (d : Nat) (cs : List (Nat × Travel)) (k : CwKind) (w : ControlWord) (h : Sent b s) :
    Sent b (sendCopies d cs k w s) := sent_inject _ _ _ _ h

end Sys2Proof.Laws
end

