-- ==== Sys2Proof/Laws/Effects.lean ====
section
/-! SUPPORT. What the effect of a slot command leaves alone: of every tile all but cycle numbers, port claims, slice
accesses and write-back queues, and of memory all rows but those written. -/

namespace Sys2Proof.Laws
open Sys2Proof.Machine

/-- Every tile of `s` has the parts that it has in `b`. -/
@[reducible] def Steadily (b s : State) : Prop := ∀ u, steady (tileAt s u) = steady (tileAt b u)

theorem Steadily.refl (s : State) : Steadily s s := fun _ => rfl
theorem Steadily.trans {a b c : State} (h : Steadily a b) (k : Steadily b c) : Steadily a c := fun u => (k u).trans (h u)
theorem Aside.steadily {b s : State} (h : Aside b s) : Steadily b s := fun u => by rw [h.tileAt]

theorem steadily_foldl {α : Type} {b : State} (f : State → α → State) (l : List α)
    (hf : ∀ s x, Steadily b s → Steadily b (f s x)) (s : State) (h : Steadily b s) : Steadily b (l.foldl f s) := by
  induction l generalizing s with
  | nil => exact h
  | cons x xs ih => exact ih (f s x) (hf s x h)

theorem steadily_ite {b s t : State} {c : Prop} [Decidable c] (h : Steadily b s) (k : Steadily b t) :
    Steadily b (if c then s else t) := by
  split
  · exact h
  · exact k

/-- A tile set to one with the same parts. -/
theorem steadily_tileSet {b s : State} (t : Nat) (v : Tile) (e : steady v = steady (tileAt s t)) (h : Steadily b s) :
    Steadily b (tileSet t v s) := by
  intro u
  rw [tileAt_tileSet]
  split
  · rename_i hu
    rw [e, ← hu]
    exact h u
  · exact h u

theorem steady_writeBack (t : Tile) (l : List (Nat × Bool)) : steady { t with writeBack := l } = steady t := rfl
theorem steady_slices (t : Tile) (l : List Access) : steady { t with slices := l } = steady t := rfl

theorem steady_stopAt (c : Nat) (t : Tile) : steady (t.stopAt c) = steady t := by
  unfold Tile.stopAt
  split
  · rfl
  · rfl

/-- Operations in flight of which only the timing and what they have read change. -/
theorem steady_pipe (t : Tile) (g : InFlight → InFlight)
    (hg : ∀ p, (g p).work = p.work ∧ (g p).done = p.done ∧ (g p).reads.map (·.addr) = p.reads.map (·.addr)) :
    steady { t with pipe := t.pipe.map g } = steady t := by
  simp [steady, List.map_map, Function.comp_def, hg]

/-- Reads of an operation changed one by one, their rows kept. -/
theorem reads_addr (l : List RowRead) (g : RowRead → RowRead) (hg : ∀ r, (g r).addr = r.addr) :
    (l.map g).map (·.addr) = l.map (·.addr) := by
  simp [List.map_map, Function.comp_def, hg]

theorem steady_see (a w : Nat) (f : RowFrame) (t : Tile) : steady (t.see a w f) = steady t := by
  unfold Tile.see
  split
  · rfl
  · refine steady_pipe _ _ fun p => ⟨rfl, rfl, reads_addr _ _ fun r => ?_⟩
    split <;> rfl

theorem steady_seeBeside (s : State) (a w : Nat) (f : RowFrame) (t : Tile) : steady (t.seeBeside s a w f) = steady t := by
  unfold Tile.seeBeside
  split
  · rfl
  · refine steady_pipe _ _ fun p => ⟨rfl, rfl, reads_addr _ _ fun r => ?_⟩
    split
    · split
      · rfl
      · split <;> rfl
    · rfl

theorem steadily_seenBeside {b s : State} (t w a : Nat) (f : RowFrame) (h : Steadily b s) :
    Steadily b (seenBeside t w a f s) := by
  unfold seenBeside
  refine steadily_ite h ?_
  split
  · exact h
  · dsimp only
    refine steadily_ite h ?_
    exact steadily_foldl (b := b) (fun s v => tileSet v ((tileAt s v).seeBeside s a w f) s)
      ((columnsOf _).filter fun v => v != t && (tileAt s v).pipe.any fun p => p.reads.any fun r => r.addr == a)
      (fun s v k => steadily_tileSet _ _ (steady_seeBeside _ _ _ _ _) k) s h

theorem steadily_dropFix {b s : State} (a : Nat) (h : Steadily b s) : Steadily b (dropFix a s) := by
  unfold dropFix
  split
  · exact h
  · dsimp only
    refine steadily_ite (fun u => ?_) h
    rw [(aside_bump _ _ _ (Aside.refl _)).tileAt]
    exact steadily_tileSet _ _ (steady_writeBack _ _) h u

theorem steadily_rowWrite {b s : State} (t w a : Nat) (f : RowFrame) (h : Steadily b s) :
    Steadily b (rowWrite t w a f s) :=
  steadily_dropFix _ (steadily_seenBeside _ _ _ _ (steadily_tileSet _ _ (steady_see _ _ _ _) h))

theorem steadily_slipAccesses {b s : State} (t c : Nat) (h : Steadily b s) : Steadily b (slipAccesses t c s) := by
  unfold slipAccesses
  refine steadily_foldl _ _ (fun s u k => ?_) _ h
  extract_lets col mine
  exact steadily_ite (steadily_tileSet _ _ (steady_slices _ _) k) k

theorem steadily_stopTile {b s : State} (t c : Nat) (h : Steadily b s) : Steadily b (stopTile t c s) := by
  unfold stopTile
  exact steadily_ite h (steadily_slipAccesses _ _ (steadily_tileSet _ _ (steady_stopAt _ _) h))

theorem steadily_refuse {b s : State} (u : Nat) (x : Access) (h : Steadily b s) : Steadily b (refuse u x s) := by
  unfold refuse
  extract_lets t fresh s1 col s2 tile here s3
  have h1 : Steadily b s1 := steadily_stopTile _ _ h
  have h2 : Steadily b s2 := steadily_tileSet _ _ (steady_slices _ _) h1
  have h3 : Steadily b s3 := by
    refine steadily_tileSet _ _ (steady_pipe _ _ fun p => ?_) h2
    split
    · refine ⟨rfl, rfl, reads_addr _ _ fun r => ?_⟩
      split <;> rfl
    · exact ⟨rfl, rfl, rfl⟩
  clear_value s3
  exact steadily_ite (h3.trans (Aside.steadily (aside_countTile _ _ _ _ (aside_countTile _ _ _ _ (aside_bump _ _ _ rfl))))) h3

theorem steadily_arbitrate {b : State} (k : Nat) (us : List Nat) (s : State) (h : Steadily b s) :
    Steadily b (arbitrate k us s) := by
  induction k generalizing us s with
  | zero => exact h
  | succ k ih =>
    unfold arbitrate
    split
    · exact h
    · exact ih _ _ (steadily_refuse _ _ h)

theorem steadily_requestAll {b s : State} (xs : List (Nat × Nat × Nat × Nat)) (h : Steadily b s) :
    Steadily b (requestAll xs s) := by
  unfold requestAll
  refine steadily_ite h (steadily_arbitrate _ _ _ (steadily_foldl _ _ (fun s x k => ?_) _ h))
  unfold requestAccess
  split
  · exact k
  · exact steadily_tileSet _ _ (steady_slices _ _) k

theorem steadily_stallAccesses {b s : State} (t : Nat) (x : Nat × Nat) (h : Steadily b s) :
    Steadily b (stallAccesses t x s) := by
  unfold stallAccesses holdAccesses
  refine steadily_foldl _ _ (fun s u k => ?_) _ h
  extract_lets col mine
  exact steadily_ite (steadily_tileSet _ _ (steady_slices _ _) k) k

theorem steadily_queueFix {b s : State} (a : Nat) (h : Steadily b s) : Steadily b (queueFix a s) := by
  unfold queueFix
  split
  · exact h
  · exact steadily_ite h (steadily_tileSet _ _ (steady_writeBack _ _) h)

/-- The effect of a slot command leaves these parts of every tile alone. -/
theorem steadily_applyFx (t c : Nat) (x : Fx) (s : State) : Steadily s (applyFx t c x s) := by
  unfold applyFx
  extract_lets s1 s2 s3 s4 s5 s6 s7
  have h1 : Steadily s s1 := steadily_foldl _ _ (fun _ _ k => steadily_rowWrite _ _ _ _ k) _ (Steadily.refl s)
  have h2 : Aside s1 s2 := aside_foldl _ _ (fun _ _ k => aside_bump _ _ _ k) _ rfl
  have h3 : Aside s1 s3 := aside_foldl _ _ (fun _ _ k => aside_countTile _ _ _ _ k) _ h2
  have h4 : Aside s1 s4 := h3
  have h5 : Aside s1 s5 := by
    show Aside s1 (match x.expo with
      | none => s4
      | some e => if signed 16 (objGet s4 0x3200 0xA) < e then objSet 0x3200 0xA (unsigned 16 e) s4 else s4)
    split
    · exact h4
    · exact aside_ite h4 h4
  have h6 : Aside s1 s6 := aside_foldl _ _ (fun _ _ k => aside_tileHold _ _ _ _ k) _ h5
  have k6 : Steadily s s6 := h1.trans h6.steadily
  have k7 : Steadily s s7 := steadily_foldl _ _ (fun _ _ k => steadily_queueFix _ k) _ k6
  have k8 := steadily_requestAll x.asks (steadily_foldl (fun s a => stallAccesses t a s) x.stalls
    (fun _ _ k => steadily_stallAccesses _ _ k) s7 k7)
  exact k8.trans (Aside.steadily (aside_markFaulted _ (aside_raiseFaults _ rfl)))

/-! ## Rows -/

theorem rowGet_tiles (f : State → α → State) (hf : ∀ s x b, rowGet (f s x) b = rowGet s b) (l : List α) (s : State) (b : Nat) :
    rowGet (l.foldl f s) b = rowGet s b := by
  induction l generalizing s with
  | nil => rfl
  | cons x xs ih => rw [List.foldl_cons, ih, hf]

theorem rowGet_seenBeside (t w a : Nat) (f : RowFrame) (s : State) (b : Nat) :
    rowGet (seenBeside t w a f s) b = rowGet s b := by
  unfold seenBeside
  split
  · rfl
  · split
    · rfl
    · dsimp only
      split
      · rfl
      · exact rowGet_tiles (fun s v => tileSet v ((tileAt s v).seeBeside s a w f) s)
          (fun s v b => rowGet_tileSet _ _ _ b) _ s b

theorem rowGet_dropFix (a : Nat) (s : State) (b : Nat) : rowGet (dropFix a s) b = rowGet s b := by
  unfold dropFix
  split
  · rfl
  · dsimp only
    split
    · exact ((aside_bump _ _ _ (Aside.refl _)).rowGet b).trans (rowGet_tileSet _ _ _ b)
    · rfl

theorem rowGet_rowWrite (t w a b : Nat) (f : RowFrame) (s : State) :
    rowGet (rowWrite t w a f s) b = if b = a then { f with data := slice f.data 0 512 } else rowGet s b := by
  unfold rowWrite
  rw [rowGet_dropFix, rowGet_seenBeside, rowGet_tileSet, rowGet_rowPut]

/-- A row that none of the writes names. -/
theorem rowGet_writes (t : Nat) (w : α → Nat) (p : α → Nat × RowFrame) (l : List α) (s : State) (b : Nat)
    (h : ∀ x ∈ l, (p x).1 ≠ b) : rowGet (l.foldl (fun s x => rowWrite t (w x) (p x).1 (p x).2 s) s) b = rowGet s b := by
  induction l generalizing s with
  | nil => rfl
  | cons x xs ih =>
    rw [List.foldl_cons, ih _ (fun y hy => h y (List.mem_cons_of_mem _ hy)), rowGet_rowWrite,
      if_neg (fun e => h x List.mem_cons_self e.symm)]

theorem rowGet_stopTile (t c : Nat) (s : State) (b : Nat) : rowGet (stopTile t c s) b = rowGet s b := by
  unfold stopTile
  split
  · rfl
  · unfold slipAccesses
    refine (rowGet_tiles _ (fun s u b => ?_) _ _ _).trans (rowGet_tileSet _ _ _ b)
    dsimp only
    split
    · exact rowGet_tileSet _ _ _ b
    · rfl

theorem rowGet_refuse (u : Nat) (x : Access) (s : State) (b : Nat) : rowGet (refuse u x s) b = rowGet s b := by
  unfold refuse
  extract_lets t fresh s1 col s2 tile here s3
  have h1 : rowGet s1 b = rowGet s b := rowGet_stopTile _ _ _ b
  have h3 : rowGet s3 b = rowGet s b := (rowGet_tileSet _ _ _ b).trans ((rowGet_tileSet _ _ _ b).trans h1)
  clear_value s3
  split
  · exact ((aside_countTile _ _ _ _ (aside_countTile _ _ _ _ (aside_bump _ _ _ (Aside.refl s3)))).rowGet b).trans h3
  · exact h3

theorem rowGet_arbitrate (k : Nat) (us : List Nat) (s : State) (b : Nat) : rowGet (arbitrate k us s) b = rowGet s b := by
  induction k generalizing us s with
  | zero => rfl
  | succ k ih =>
    unfold arbitrate
    split
    · rfl
    · exact (ih _ _).trans (rowGet_refuse _ _ _ b)

theorem rowGet_requestAll (xs : List (Nat × Nat × Nat × Nat)) (s : State) (b : Nat) :
    rowGet (requestAll xs s) b = rowGet s b := by
  unfold requestAll
  split
  · rfl
  · refine (rowGet_arbitrate _ _ _ b).trans (rowGet_tiles _ (fun s x b => ?_) _ _ _)
    unfold requestAccess
    split
    · rfl
    · exact rowGet_tileSet _ _ _ b

theorem rowGet_stallAccesses (t : Nat) (x : Nat × Nat) (s : State) (b : Nat) :
    rowGet (stallAccesses t x s) b = rowGet s b := by
  unfold stallAccesses holdAccesses
  refine rowGet_tiles _ (fun s u b => ?_) _ _ _
  dsimp only
  split
  · exact rowGet_tileSet _ _ _ b
  · rfl

theorem rowGet_queueFix (a : Nat) (s : State) (b : Nat) : rowGet (queueFix a s) b = rowGet s b := by
  unfold queueFix
  split
  · rfl
  · dsimp only
    split
    · rfl
    · rfl

/-- The effect of a slot command writes the rows it lists and no others. -/
theorem rowGet_applyFx (t c : Nat) (x : Fx) (s : State) (b : Nat) :
    rowGet (applyFx t c x s) b = rowGet (x.rows.foldl (fun s r => rowWrite t c r.1 r.2 s) s) b := by
  unfold applyFx
  extract_lets s1 s2 s3 s4 s5 s6 s7
  have h2 : Aside s1 s2 := aside_foldl _ _ (fun _ _ k => aside_bump _ _ _ k) _ rfl
  have h3 : Aside s1 s3 := aside_foldl _ _ (fun _ _ k => aside_countTile _ _ _ _ k) _ h2
  have h4 : Aside s1 s4 := h3
  have h5 : Aside s1 s5 := by
    show Aside s1 (match x.expo with
      | none => s4
      | some e => if signed 16 (objGet s4 0x3200 0xA) < e then objSet 0x3200 0xA (unsigned 16 e) s4 else s4)
    split
    · exact h4
    · exact aside_ite h4 h4
  have h6 : Aside s1 s6 := aside_foldl _ _ (fun _ _ k => aside_tileHold _ _ _ _ k) _ h5
  have k7 : rowGet s7 b = rowGet s6 b := rowGet_tiles _ (fun s x b => rowGet_queueFix x s b) _ _ _
  have k8 : rowGet (requestAll x.asks (x.stalls.foldl (fun s a => stallAccesses t a s) s7)) b = rowGet s7 b :=
    (rowGet_requestAll _ _ b).trans (rowGet_tiles _ (fun s x b => rowGet_stallAccesses _ _ _ b) _ _ _)
  generalize requestAll x.asks (x.stalls.foldl (fun s a => stallAccesses t a s) s7) = s8 at k8 ⊢
  have h9 : Aside s8 (markFaulted x.faults (raiseFaults x.faults s8)) := aside_markFaulted _ (aside_raiseFaults _ rfl)
  rw [h9.rowGet b, k8, k7, h6.rowGet b]

/-- A row that the effect of a slot command does not list reads as before. -/
theorem rowGet_applyFx_ne (t c : Nat) (x : Fx) (s : State) (b : Nat) (h : ∀ r ∈ x.rows, r.1 ≠ b) :
    rowGet (applyFx t c x s) b = rowGet s b := by
  rw [rowGet_applyFx, rowGet_writes t (fun _ => c) (fun r => r) _ _ _ h]

end Sys2Proof.Laws
end

