-- ==== Sys2Proof/Laws/Apart.lean ====
section
/-! SUPPORT. What tile commands leave alone: everything but tiles, rows, and what faults and counters may change. -/

namespace Sys2Proof.Laws
open Sys2Proof.Machine

/-- The part of State that these operations leave alone. -/
structure ApartRest where
  ident : Ident
  tick : Nat
  boundary : Nat
  cycle0 : Nat
  tp : Nat
  sp : Nat
  job : Bool
  started : Bool
  sealedJob : Bool
  octets : SMap Bytes
  flash : SMap Nat
  flashOct : SMap Bytes
  stores : List Store
  pmem : List Host.Cell
  regions : SMap Region
  scrubBase : Int
  hold : Hold
  pattern : Option Pattern
  loads : List Load
  security : Security
  fns : List Fn
  can : Can
  masked : BitVec 32
  loadSeq : Option (BitVec 32)
  mgmtDown : Bool
  power : Power
  start : Start
  pending : List Instr

/-- That part of a state. -/
def apartRest (s : State) : ApartRest where
  ident := s.ident
  tick := s.tick
  boundary := s.boundary
  cycle0 := s.cycle0
  tp := s.tp
  sp := s.sp
  job := s.job
  started := s.started
  sealedJob := s.sealedJob
  octets := s.octets
  flash := s.flash
  flashOct := s.flashOct
  stores := s.stores
  pmem := s.pmem
  regions := s.regions
  scrubBase := s.scrubBase
  hold := s.hold
  pattern := s.pattern
  loads := s.loads
  security := s.security
  fns := s.fns
  can := s.can
  masked := s.masked
  loadSeq := s.loadSeq
  mgmtDown := s.mgmtDown
  power := s.power
  start := s.start
  pending := s.pending

/-- State `s` differs from `b` in what these operations may change only. -/
@[reducible] def Apart (b s : State) : Prop := apartRest s = apartRest b

theorem Apart.refl (s : State) : Apart s s := rfl
theorem Apart.trans {a b c : State} (h : Apart a b) (k : Apart b c) : Apart a c := Eq.trans k h

theorem Apart.after {a b c : State} (h : Apart b c) (k : Apart a b) : Apart a c := Eq.trans h k

theorem apart_foldl {α : Type} {b : State} (f : State → α → State) (l : List α)
    (hf : ∀ s x, Apart b s → Apart b (f s x)) (s : State) (h : Apart b s) : Apart b (l.foldl f s) := by
  induction l generalizing s with
  | nil => exact h
  | cons x xs ih => exact ih (f s x) (hf s x h)

theorem apart_ite {b s t : State} {c : Prop} [Decidable c] (h : Apart b s) (k : Apart b t) :
    Apart b (if c then s else t) := by
  split
  · exact h
  · exact k

theorem Apart.ident {b s : State} (h : Apart b s) : s.ident = b.ident := congrArg ApartRest.ident h
theorem Apart.tick {b s : State} (h : Apart b s) : s.tick = b.tick := congrArg ApartRest.tick h
theorem Apart.boundary {b s : State} (h : Apart b s) : s.boundary = b.boundary := congrArg ApartRest.boundary h
theorem Apart.cycle0 {b s : State} (h : Apart b s) : s.cycle0 = b.cycle0 := congrArg ApartRest.cycle0 h
theorem Apart.tp {b s : State} (h : Apart b s) : s.tp = b.tp := congrArg ApartRest.tp h
theorem Apart.sp {b s : State} (h : Apart b s) : s.sp = b.sp := congrArg ApartRest.sp h
theorem Apart.job {b s : State} (h : Apart b s) : s.job = b.job := congrArg ApartRest.job h
theorem Apart.started {b s : State} (h : Apart b s) : s.started = b.started := congrArg ApartRest.started h
theorem Apart.sealedJob {b s : State} (h : Apart b s) : s.sealedJob = b.sealedJob := congrArg ApartRest.sealedJob h
theorem Apart.octets {b s : State} (h : Apart b s) : s.octets = b.octets := congrArg ApartRest.octets h
theorem Apart.flash {b s : State} (h : Apart b s) : s.flash = b.flash := congrArg ApartRest.flash h
theorem Apart.flashOct {b s : State} (h : Apart b s) : s.flashOct = b.flashOct := congrArg ApartRest.flashOct h
theorem Apart.stores {b s : State} (h : Apart b s) : s.stores = b.stores := congrArg ApartRest.stores h
theorem Apart.pmem {b s : State} (h : Apart b s) : s.pmem = b.pmem := congrArg ApartRest.pmem h
theorem Apart.regions {b s : State} (h : Apart b s) : s.regions = b.regions := congrArg ApartRest.regions h
theorem Apart.scrubBase {b s : State} (h : Apart b s) : s.scrubBase = b.scrubBase := congrArg ApartRest.scrubBase h
theorem Apart.hold {b s : State} (h : Apart b s) : s.hold = b.hold := congrArg ApartRest.hold h
theorem Apart.pattern {b s : State} (h : Apart b s) : s.pattern = b.pattern := congrArg ApartRest.pattern h
theorem Apart.loads {b s : State} (h : Apart b s) : s.loads = b.loads := congrArg ApartRest.loads h
theorem Apart.security {b s : State} (h : Apart b s) : s.security = b.security := congrArg ApartRest.security h
theorem Apart.fns {b s : State} (h : Apart b s) : s.fns = b.fns := congrArg ApartRest.fns h
theorem Apart.can {b s : State} (h : Apart b s) : s.can = b.can := congrArg ApartRest.can h
theorem Apart.masked {b s : State} (h : Apart b s) : s.masked = b.masked := congrArg ApartRest.masked h
theorem Apart.loadSeq {b s : State} (h : Apart b s) : s.loadSeq = b.loadSeq := congrArg ApartRest.loadSeq h
theorem Apart.mgmtDown {b s : State} (h : Apart b s) : s.mgmtDown = b.mgmtDown := congrArg ApartRest.mgmtDown h
theorem Apart.power {b s : State} (h : Apart b s) : s.power = b.power := congrArg ApartRest.power h
theorem Apart.start {b s : State} (h : Apart b s) : s.start = b.start := congrArg ApartRest.start h
theorem Apart.pending {b s : State} (h : Apart b s) : s.pending = b.pending := congrArg ApartRest.pending h

theorem Aside.apart {b s : State} (h : Aside b s) : Apart b s :=
  congrArg (fun r : Rest => ({
    ident := r.ident, tick := r.tick, boundary := r.boundary, cycle0 := r.cycle0, tp := r.tp, sp := r.sp,
    job := r.job, started := r.started, sealedJob := r.sealedJob, octets := r.octets, flash := r.flash, flashOct := r.flashOct,
    stores := r.stores, pmem := r.pmem, regions := r.regions, scrubBase := r.scrubBase, hold := r.hold, pattern := r.pattern,
    loads := r.loads, security := r.security, fns := r.fns, can := r.can, masked := r.masked, loadSeq := r.loadSeq,
    mgmtDown := r.mgmtDown, power := r.power, start := r.start, pending := r.pending } : ApartRest)) h

theorem Apart.onlyTiles {s t : State} (h : Apart s t) : OnlyTiles s t := by
  unfold OnlyTiles
  cases s
  cases t
  have k := ApartRest.mk.inj h
  obtain ⟨rfl, rfl, rfl, rfl, rfl, rfl, rfl, rfl, rfl, rfl, rfl, rfl, rfl, rfl, rfl, rfl, rfl, rfl, rfl, rfl, rfl, rfl, rfl, rfl, rfl, rfl, rfl, rfl⟩ := k
  rfl

theorem Aside.only {s t : State} (h : Aside s t) : OnlyAside s t := by
  unfold OnlyAside
  cases s
  cases t
  have k := Rest.mk.inj h
  obtain ⟨rfl, rfl, rfl, rfl, rfl, rfl, rfl, rfl, rfl, rfl, rfl, rfl, rfl, rfl, rfl, rfl, rfl, rfl, rfl, rfl, rfl, rfl, rfl, rfl, rfl, rfl, rfl, rfl, rfl, rfl, rfl, rfl, rfl⟩ := k
  rfl

theorem Sent.only {s t : State} (h : Sent s t) : OnlySent s t := by
  unfold OnlySent
  cases s
  cases t
  have k := SentRest.mk.inj h
  obtain ⟨rfl, rfl, rfl, rfl, rfl, rfl, rfl, rfl, rfl, rfl, rfl, rfl, rfl, rfl, rfl, rfl, rfl, rfl, rfl, rfl, rfl, rfl, rfl, rfl, rfl, rfl, rfl, rfl, rfl, rfl, rfl, rfl, rfl, rfl, rfl, rfl, rfl, rfl⟩ := k
  rfl

theorem apart_tileSet {b s : State} (t : Nat) (v : Tile) (h : Apart b s) : Apart b (tileSet t v s) := h

theorem apart_seenBeside {b s : State} (t w a : Nat) (f : RowFrame) (h : Apart b s) : Apart b (seenBeside t w a f s) := by
  unfold seenBeside
  refine apart_ite h ?_
  split
  · exact h
  · dsimp only
    exact apart_ite h (apart_foldl (b := b) (fun s v => tileSet v ((tileAt s v).seeBeside s a w f) s)
      ((columnsOf _).filter fun v => v != t && (tileAt s v).pipe.any fun p => p.reads.any fun r => r.addr == a)
      (fun s v k => apart_tileSet _ _ k) s h)

theorem apart_dropFix {b s : State} (a : Nat) (h : Apart b s) : Apart b (dropFix a s) := by
  unfold dropFix
  split
  · exact h
  · exact apart_ite ((Aside.apart (aside_bump _ _ _ (Aside.refl _))).after h) h

theorem apart_rowWrite {b s : State} (t w a : Nat) (f : RowFrame) (h : Apart b s) : Apart b (rowWrite t w a f s) :=
  apart_dropFix _ (apart_seenBeside _ _ _ _ h)

theorem apart_settle {b s : State} (t c : Nat) (h : Apart b s) : Apart b (settle t c s) := by
  unfold settle
  dsimp only
  exact apart_ite (apart_foldl _ _ (fun _ _ k => apart_rowWrite _ _ _ _ k) _ h) h

theorem apart_queueFix {b s : State} (a : Nat) (h : Apart b s) : Apart b (queueFix a s) := by
  unfold queueFix
  split
  · exact h
  · exact apart_ite h h

theorem apart_accesses {b : State} (f : State → Nat → State) (us : List Nat) (s : State)
    (hf : ∀ s u, f s u = s ∨ ∃ v, f s u = tileSet u v s) (h : Apart b s) : Apart b (us.foldl f s) :=
  apart_foldl _ _ (fun s u k => by
    obtain e | ⟨v, e⟩ := hf s u
    · rw [e]
      exact k
    · rw [e]
      exact apart_tileSet _ _ k) _ h

theorem apart_stopTile {b s : State} (t c : Nat) (h : Apart b s) : Apart b (stopTile t c s) := by
  unfold stopTile slipAccesses
  refine apart_ite h (apart_accesses _ _ _ (fun s u => ?_) h)
  dsimp only
  split
  · exact .inr ⟨_, rfl⟩
  · exact .inl rfl

theorem apart_refuse {b s : State} (u : Nat) (x : Access) (h : Apart b s) : Apart b (refuse u x s) := by
  unfold refuse
  extract_lets t fresh s1 col s2 tile here s3
  have h1 : Apart b s1 := apart_stopTile _ _ h
  have h3 : Apart b s3 := apart_tileSet _ _ (apart_tileSet _ _ h1)
  clear_value s3
  exact apart_ite
    ((Aside.apart (aside_countTile _ _ _ _ (aside_countTile _ _ _ _ (aside_bump _ _ _ (Aside.refl _))))).after h3) h3

theorem apart_arbitrate {b : State} (k : Nat) (us : List Nat) (s : State) (h : Apart b s) : Apart b (arbitrate k us s) := by
  induction k generalizing us s with
  | zero => exact h
  | succ k ih =>
    unfold arbitrate
    split
    · exact h
    · exact ih _ _ (apart_refuse _ _ h)

theorem apart_requestAccess {b s : State} (x : Nat × Nat × Nat × Nat) (h : Apart b s) : Apart b (requestAccess x s) := by
  unfold requestAccess
  split
  · exact h
  · exact h

theorem apart_requestAll {b s : State} (xs : List (Nat × Nat × Nat × Nat)) (h : Apart b s) : Apart b (requestAll xs s) := by
  unfold requestAll
  exact apart_ite h (apart_arbitrate _ _ _ (apart_foldl _ _ (fun _ _ k => apart_requestAccess _ k) _ h))

theorem apart_stallAccesses {b s : State} (t : Nat) (x : Nat × Nat) (h : Apart b s) : Apart b (stallAccesses t x s) := by
  unfold stallAccesses holdAccesses
  refine apart_accesses _ _ _ (fun s u => ?_) h
  dsimp only
  split
  · exact .inr ⟨_, rfl⟩
  · exact .inl rfl

theorem apart_applyFx {b s : State} (t c : Nat) (x : Fx) (h : Apart b s) : Apart b (applyFx t c x s) := by
  unfold applyFx
  extract_lets s1 s2 s3 s4 s5 s6 s7
  have h1 : Apart b s1 := apart_foldl _ _ (fun _ _ k => apart_rowWrite _ _ _ _ k) _ h
  have h2 : Aside s1 s2 := aside_foldl _ _ (fun _ _ k => aside_bump _ _ _ k) _ rfl
  have h3 : Aside s1 s3 := aside_foldl _ _ (fun _ _ k => aside_countTile _ _ _ _ k) _ h2
  have h4 : Aside s1 s4 := h3
  have h5 : Aside s1 s5 := by
    unfold s5
    split
    · exact h4
    · exact aside_ite h4 h4
  have h6 : Aside s1 s6 := aside_foldl _ _ (fun _ _ k => aside_tileHold _ _ _ _ k) _ h5
  have h7 : Apart b s7 := apart_foldl _ _ (fun _ _ k => apart_queueFix _ k) _ (h6.apart.after h1)
  have h8 := apart_requestAll x.asks (apart_foldl (fun s a => stallAccesses t a s) x.stalls
    (fun _ _ k => apart_stallAccesses _ _ k) s7 h7)
  exact (aside_markFaulted _ (aside_raiseFaults _ rfl)).apart.after h8

theorem apart_onTile {b s : State} (t c : Nat) (f : State → Tile → Tile × Fx) (h : Apart b s) : Apart b (onTile t c f s) :=
  apart_applyFx _ _ _ h

theorem apart_slotIssue (t : TileIx) (c : Nat) (f : Nat → State → Tile → Tile × Fx) (s : State) :
    Apart s (slotIssue t c f s) := by
  unfold slotIssue
  exact apart_ite (apart_onTile _ _ _ (apart_settle _ _ rfl)) rfl

end Sys2Proof.Laws
end

