-- ==== Sys2Proof/Laws/Kept.lean ====
section
/-! SUPPORT. What every operation on State keeps: grade and stepping, the waiting commands, the canonical form of the
stores, what has been driven out, the count of free values, the numbers of units. -/

namespace Sys2Proof.Laws
open Sys2Proof.Machine

/-- What a state with these parts keeps of state `b`: `d`, `f`, `l`, `r` are its numbers of fault units, functions, load
slots and result destinations. -/
structure KeptBy (b : State) (i : Ident) (q : List Instr) (m p : List Host.Cell) (o : List Output) (n d f l r : Nat) :
    Prop where
  ident   : i = b.ident
  pending : q = b.pending
  mem     : memWf b.mem = true → memWf m = true
  pmem    : portWf b.pmem = true → portWf p = true
  out     : b.out <+: o
  free    : b.free ≤ n
  dies    : b.integrity.dies.length = 4 → d = 4
  fns     : b.fns.length = 38 → f = 38
  loads   : b.loads.length = 16 → l = 16
  dests   : b.ports.dests.length = 8 → r = 8

/-- What a state keeps of state `b`. -/
@[reducible] def Kept (b s : State) : Prop :=
  KeptBy b s.ident s.pending s.mem s.pmem s.out s.free s.integrity.dies.length s.fns.length s.loads.length
    s.ports.dests.length

theorem Kept.refl (s : State) : Kept s s := ⟨rfl, rfl, id, id, List.prefix_rfl, Nat.le_refl _, id, id, id, id⟩

theorem Kept.trans {a b c : State} (h : Kept a b) (k : Kept b c) : Kept a c :=
  ⟨k.ident.trans h.ident, k.pending.trans h.pending, fun x => k.mem (h.mem x), fun x => k.pmem (h.pmem x),
    h.out.trans k.out, Nat.le_trans h.free k.free, fun x => k.dies (h.dies x), fun x => k.fns (h.fns x),
    fun x => k.loads (h.loads x), fun x => k.dests (h.dests x)⟩

theorem Kept.unaltered {s t : State} (h : Kept s t) : Unaltered s t := ⟨h.ident, h.pending, h.out, h.free⟩

theorem Kept.inv {s t : State} (h : Kept s t) (k : Inv s) : Inv t :=
  ⟨h.mem k.rows, h.pmem k.port, h.dies k.dies, h.fns k.fns, h.loads k.loads, h.dests k.dests⟩

/-- Items driven out in addition. -/
theorem KeptBy.emit {b i q m p o n d f l r} (xs : List Output) (h : KeptBy b i q m p o n d f l r) :
    KeptBy b i q m p (o ++ xs) n d f l r :=
  { h with out := h.out.trans (List.prefix_append o xs) }

/-- Free values drawn. -/
theorem KeptBy.draw {b i q m p o n d f l r} (k : Nat) (h : KeptBy b i q m p o n d f l r) :
    KeptBy b i q m p o (n + k) d f l r :=
  { h with free := Nat.le_trans h.free (Nat.le_add_right n k) }

/-- Rows written. -/
theorem KeptBy.store {b i q m p o n m' d f l r} (k : memWf m = true → memWf m' = true) (h : KeptBy b i q m p o n d f l r) :
    KeptBy b i q m' p o n d f l r :=
  { h with mem := fun x => k (h.mem x) }

/-- Port memory written. -/
theorem KeptBy.port {b i q m p o n p' d f l r} (k : portWf p = true → portWf p' = true)
    (h : KeptBy b i q m p o n d f l r) : KeptBy b i q m p' o n d f l r :=
  { h with pmem := fun x => k (h.pmem x) }

/-- A fault unit, a function, a load slot, a result destination written. -/
theorem KeptBy.setDie {b i q m p o n f l r} {ds : List (List FaultRec)} (k : Nat) (x : List FaultRec)
    (h : KeptBy b i q m p o n ds.length f l r) : KeptBy b i q m p o n (ds.set k x).length f l r :=
  { h with dies := fun e => (List.length_set).trans (h.dies e) }

theorem KeptBy.setFn {b i q m p o n d l r} {ds : List Fn} (k : Nat) (x : Fn)
    (h : KeptBy b i q m p o n d ds.length l r) : KeptBy b i q m p o n d (ds.set k x).length l r :=
  { h with fns := fun e => (List.length_set).trans (h.fns e) }

theorem KeptBy.setLoad {b i q m p o n d f r} {ds : List Load} (k : Nat) (x : Load)
    (h : KeptBy b i q m p o n d f ds.length r) : KeptBy b i q m p o n d f (ds.set k x).length r :=
  { h with loads := fun e => (List.length_set).trans (h.loads e) }

theorem KeptBy.setDest {b i q m p o n d f l} {ds : List Dest} (k : Nat) (x : Dest)
    (h : KeptBy b i q m p o n d f l ds.length) : KeptBy b i q m p o n d f l (ds.set k x).length :=
  { h with dests := fun e => (List.length_set).trans (h.dests e) }

/-- All of them written anew. -/
theorem KeptBy.newDies {b i q m p o n d f l r} (x : List FaultRec) (h : KeptBy b i q m p o n d f l r) :
    KeptBy b i q m p o n (List.replicate 4 x).length f l r :=
  { h with dies := fun _ => List.length_replicate }

theorem KeptBy.newFns {b i q m p o n d f l r} (x : Fn) (h : KeptBy b i q m p o n d f l r) :
    KeptBy b i q m p o n d (List.replicate 38 x).length l r :=
  { h with fns := fun _ => List.length_replicate }

theorem KeptBy.newLoads {b i q m p o n d f l r} (x : Load) (h : KeptBy b i q m p o n d f l r) :
    KeptBy b i q m p o n d f (List.replicate 16 x).length r :=
  { h with loads := fun _ => List.length_replicate }

theorem KeptBy.newDests {b i q m p o n d f l r} (x : Dest) (h : KeptBy b i q m p o n d f l r) :
    KeptBy b i q m p o n d f l (List.replicate 8 x).length :=
  { h with dests := fun _ => List.length_replicate }

theorem KeptBy.resetDests {b i q m p o n d f l r} (h : KeptBy b i q m p o n d f l r) :
    KeptBy b i q m p o n d f l Ports.reset.dests.length :=
  { h with dests := fun _ => rfl }

/-- What the state of an answer keeps: in this form a proof works on the answer as a whole. -/
@[reducible] def KeptSnd {α : Type} (b : State) (x : α × State) : Prop := Kept b x.2

/-- The same of an answer of three parts. -/
@[reducible] def KeptThd {α β : Type} (b : State) (x : α × β × State) : Prop := Kept b x.2.2

theorem kept_foldl {α : Type} {b : State} (f : State → α → State) (l : List α)
    (hf : ∀ s x, Kept b s → Kept b (f s x)) (s : State) (h : Kept b s) : Kept b (l.foldl f s) := by
  induction l generalizing s with
  | nil => exact h
  | cons x xs ih => exact ih (f s x) (hf s x h)

theorem kept_foldl_snd {α β : Type} {b : State} (f : β × State → α → β × State) (l : List α)
    (hf : ∀ x y, Kept b x.2 → KeptSnd b (f x y)) (x : β × State) (h : Kept b x.2) : Kept b (l.foldl f x).2 := by
  induction l generalizing x with
  | nil => exact h
  | cons y ys ih => exact ih (f x y) (hf x y h)

theorem kept_foldl_fst {α β : Type} {b : State} (f : State × β → α → State × β) (l : List α)
    (hf : ∀ x y, Kept b x.1 → Kept b (f x y).1) (x : State × β) (h : Kept b x.1) : Kept b (l.foldl f x).1 := by
  induction l generalizing x with
  | nil => exact h
  | cons y ys ih => exact ih (f x y) (hf x y h)

theorem kept_ite {b s t : State} {c : Prop} [Decidable c] (h : Kept b s) (k : Kept b t) : Kept b (if c then s else t) := by
  split
  · exact h
  · exact k

theorem kept_pair {α : Type} {b : State} (x : α) (s : State) (h : Kept b s) : Kept b (x, s).2 := h

/-! ## Canonical forms -/

/-- A list of cells that rises from an address, each cell passing a test. -/
def Rising (ok : Host.Cell → Bool) (lo : Nat) : List Host.Cell → Prop
  | [] => True
  | c :: r => lo ≤ c.1 ∧ ok c = true ∧ Rising ok (c.1 + 1) r

theorem Rising.mono {ok lo lo'} (h : lo' ≤ lo) : ∀ {m}, Rising ok lo m → Rising ok lo' m
  | [], _ => trivial
  | _ :: _, k => ⟨Nat.le_trans h k.1, k.2⟩

theorem Rising.filter {ok} (f : Host.Cell → Bool) : ∀ {lo m}, Rising ok lo m → Rising ok lo (m.filter f)
  | _, [], _ => trivial
  | lo, c :: r, k => by
    have ih := k.2.2.filter f
    by_cases hf : f c = true
    · simp only [List.filter_cons, hf, if_true]
      exact ⟨k.1, k.2.1, ih⟩
    · simp only [List.filter_cons, hf, Bool.false_eq_true, if_false]
      exact ih.mono (by have := k.1; omega)

/-- A rising list below an address, and one from that address on. -/
theorem Rising.append {ok} : ∀ {lo hi m n}, Rising ok lo m → (∀ c ∈ m, c.1 < hi) → lo ≤ hi → Rising ok hi n →
    Rising ok lo (m ++ n)
  | _, _, [], _, _, _, hl, k => k.mono hl
  | _, _, c :: _, _, h, hb, _, k =>
    ⟨h.1, h.2.1, h.2.2.append (fun x hx => hb x (List.mem_cons_of_mem c hx)) (hb c List.mem_cons_self) k⟩

theorem Rising.filter_ge {ok} (a : Nat) : ∀ {lo m}, Rising ok lo m → Rising ok a (m.filter (a ≤ ·.1))
  | _, [], _ => trivial
  | lo, c :: r, k => by
    by_cases hf : a ≤ c.1
    · simp only [List.filter_cons, hf, decide_true, if_true]
      exact ⟨hf, k.2.1, k.2.2.filter _⟩
    · simp only [List.filter_cons, hf, decide_false, Bool.false_eq_true, if_false]
      exact k.2.2.filter_ge a

theorem memWf_iff : ∀ m, memWf m = true ↔ Rising (fun c => c.2 != rowDefault (c.1 % 520)) 0 m
  | [] => by simp [memWf, Rising]
  | [c] => by simp [memWf, Rising]
  | c :: d :: r => by
    have ih := memWf_iff (d :: r)
    simp only [memWf, Rising, Bool.and_eq_true, decide_eq_true_eq] at ih ⊢
    rw [ih]
    constructor
    · rintro ⟨⟨h1, h2⟩, _, h4, h5⟩
      exact ⟨Nat.zero_le _, h1, h2, h4, h5⟩
    · rintro ⟨_, h1, h2, h4, h5⟩
      exact ⟨⟨h1, h2⟩, Nat.zero_le _, h4, h5⟩

theorem portWf_iff : ∀ m, portWf m = true ↔ Rising (fun c => c.2 != 0) 0 m
  | [] => by simp [portWf, Rising]
  | [c] => by simp [portWf, Rising]
  | c :: d :: r => by
    have ih := portWf_iff (d :: r)
    simp only [portWf, Rising, Bool.and_eq_true, decide_eq_true_eq] at ih ⊢
    rw [ih]
    constructor
    · rintro ⟨⟨h1, h2⟩, _, h4, h5⟩
      exact ⟨Nat.zero_le _, h1, h2, h4, h5⟩
    · rintro ⟨_, h1, h2, h4, h5⟩
      exact ⟨⟨h1, h2⟩, Nat.zero_le _, h4, h5⟩

theorem cellsOf_rising : ∀ (bs : Bytes) (a : Nat), Rising (fun c => c.2 != rowDefault (c.1 % 520)) a (cellsOf a bs)
      ∧ ∀ c ∈ cellsOf a bs, c.1 < a + bs.length
  | [], a => by simp [cellsOf, Rising]
  | x :: xs, a => by
    have ih := cellsOf_rising xs (a + 1)
    unfold cellsOf
    split
    · refine ⟨ih.1.mono (by omega), fun c hc => ?_⟩
      have := ih.2 c hc
      simp only [List.length_cons]; omega
    · rename_i hx
      refine ⟨⟨Nat.le_refl _, by simpa using hx, ih.1⟩, fun c hc => ?_⟩
      simp only [List.length_cons]
      rcases List.mem_cons.mp hc with h | h
      · subst h; simp
      · have := ih.2 c h; omega

theorem portCells_rising : ∀ (bs : Bytes) (a : Nat), Rising (fun c => c.2 != 0) a (portCells a bs)
      ∧ ∀ c ∈ portCells a bs, c.1 < a + bs.length
  | [], a => by simp [portCells, Rising]
  | x :: xs, a => by
    have ih := portCells_rising xs (a + 1)
    unfold portCells
    split
    · refine ⟨ih.1.mono (by omega), fun c hc => ?_⟩
      have := ih.2 c hc
      simp only [List.length_cons]; omega
    · rename_i hx
      refine ⟨⟨Nat.le_refl _, by simpa using hx, ih.1⟩, fun c hc => ?_⟩
      simp only [List.length_cons]
      rcases List.mem_cons.mp hc with h | h
      · subst h; simp
      · have := ih.2 c h; omega

/-- A rising list with the part from `a` to `a + n` replaced by a rising list of that part. -/
theorem Rising.replace {ok m k a n} (h : Rising ok 0 m) (hk : Rising ok a k) (hb : ∀ c ∈ k, c.1 < a + n) :
    Rising ok 0 (m.filter (·.1 < a) ++ k ++ m.filter (a + n ≤ ·.1)) := by
  rw [List.append_assoc]
  refine (h.filter _).append (hi := a) (fun c hc => by simpa using (List.mem_filter.mp hc).2) (Nat.zero_le _) ?_
  exact hk.append hb (Nat.le_add_right a n) (h.filter_ge _)

/-- A write of bytes keeps the row store's canonical form. -/
theorem memWf_memPut (m : List Host.Cell) (a : Nat) (bs : Bytes) (h : memWf m = true) : memWf (memPut m a bs) = true := by
  rw [memWf_iff] at h ⊢
  exact h.replace (cellsOf_rising bs a).1 (cellsOf_rising bs a).2

/-- A write of bytes keeps port memory's canonical form. -/
theorem portWf_portPut (a : Nat) (bs : Bytes) (s : State) (h : portWf s.pmem = true) :
    portWf (portPut a bs s).pmem = true := by
  rw [portWf_iff] at h ⊢
  exact h.replace (portCells_rising bs a).1 (portCells_rising bs a).2

theorem memWf_filter (f : Host.Cell → Bool) (m : List Host.Cell) (h : memWf m = true) : memWf (m.filter f) = true := by
  rw [memWf_iff] at h ⊢; exact h.filter f

theorem portWf_filter (f : Host.Cell → Bool) (m : List Host.Cell) (h : portWf m = true) : portWf (m.filter f) = true := by
  rw [portWf_iff] at h ⊢; exact h.filter f

end Sys2Proof.Laws
end

