-- ==== Sys2Proof/Laws/KeptOps.lean ====
section
/-! SUPPORT. What the operations of Machine/Ops.lean on State keep. -/

namespace Sys2Proof.Laws
open Sys2Proof.Machine

theorem kept_objSet {b s : State} (x1 x2 x3 : _) (h : Kept b s) : Kept b (objSet x1 x2 x3 s) := by
  unfold objSet
  repeat' first
    | with_reducible assumption
    | intro _
    | with_reducible apply kept_ite
    | dsimp only
    | with_reducible apply kept_foldl
    | with_reducible apply kept_foldl_snd
    | with_reducible apply kept_foldl_fst
    | with_reducible apply KeptBy.emit
    | with_reducible apply KeptBy.draw
    | with_reducible apply KeptBy.setDie
    | with_reducible apply KeptBy.setFn
    | with_reducible apply KeptBy.setLoad
    | with_reducible apply KeptBy.setDest
    | with_reducible apply KeptBy.newDies
    | with_reducible apply KeptBy.newFns
    | with_reducible apply KeptBy.newLoads
    | with_reducible apply KeptBy.newDests
    | with_reducible apply KeptBy.resetDests
    | split

theorem kept_bump {b s : State} (x1 x2 x3 : _) (h : Kept b s) : Kept b (bump x1 x2 x3 s) := by
  unfold bump
  repeat' first
    | with_reducible assumption
    | intro _
    | with_reducible apply kept_ite
    | dsimp only
    | with_reducible apply kept_objSet
    | with_reducible apply kept_foldl
    | with_reducible apply kept_foldl_snd
    | with_reducible apply kept_foldl_fst
    | with_reducible apply KeptBy.emit
    | with_reducible apply KeptBy.draw
    | with_reducible apply KeptBy.setDie
    | with_reducible apply KeptBy.setFn
    | with_reducible apply KeptBy.setLoad
    | with_reducible apply KeptBy.setDest
    | with_reducible apply KeptBy.newDies
    | with_reducible apply KeptBy.newFns
    | with_reducible apply KeptBy.newLoads
    | with_reducible apply KeptBy.newDests
    | with_reducible apply KeptBy.resetDests
    | split

theorem kept_objMax {b s : State} (x1 x2 x3 : _) (h : Kept b s) : Kept b (objMax x1 x2 x3 s) := by
  unfold objMax
  repeat' first
    | with_reducible assumption
    | intro _
    | with_reducible apply kept_ite
    | dsimp only
    | with_reducible apply kept_objSet
    | with_reducible apply kept_foldl
    | with_reducible apply kept_foldl_snd
    | with_reducible apply kept_foldl_fst
    | with_reducible apply KeptBy.emit
    | with_reducible apply KeptBy.draw
    | with_reducible apply KeptBy.setDie
    | with_reducible apply KeptBy.setFn
    | with_reducible apply KeptBy.setLoad
    | with_reducible apply KeptBy.setDest
    | with_reducible apply KeptBy.newDies
    | with_reducible apply KeptBy.newFns
    | with_reducible apply KeptBy.newLoads
    | with_reducible apply KeptBy.newDests
    | with_reducible apply KeptBy.resetDests
    | split

theorem kept_octSet {b s : State} (x1 x2 x3 : _) (h : Kept b s) : Kept b (octSet x1 x2 x3 s) := by
  unfold octSet
  repeat' first
    | with_reducible assumption
    | intro _
    | with_reducible apply kept_ite
    | dsimp only
    | with_reducible apply kept_foldl
    | with_reducible apply kept_foldl_snd
    | with_reducible apply kept_foldl_fst
    | with_reducible apply KeptBy.emit
    | with_reducible apply KeptBy.draw
    | with_reducible apply KeptBy.setDie
    | with_reducible apply KeptBy.setFn
    | with_reducible apply KeptBy.setLoad
    | with_reducible apply KeptBy.setDest
    | with_reducible apply KeptBy.newDies
    | with_reducible apply KeptBy.newFns
    | with_reducible apply KeptBy.newLoads
    | with_reducible apply KeptBy.newDests
    | with_reducible apply KeptBy.resetDests
    | split

theorem kept_tileSet {b s : State} (x1 x2 : _) (h : Kept b s) : Kept b (tileSet x1 x2 s) := by
  unfold tileSet
  repeat' first
    | with_reducible assumption
    | intro _
    | with_reducible apply kept_ite
    | dsimp only
    | with_reducible apply kept_foldl
    | with_reducible apply kept_foldl_snd
    | with_reducible apply kept_foldl_fst
    | with_reducible apply KeptBy.emit
    | with_reducible apply KeptBy.draw
    | with_reducible apply KeptBy.setDie
    | with_reducible apply KeptBy.setFn
    | with_reducible apply KeptBy.setLoad
    | with_reducible apply KeptBy.setDest
    | with_reducible apply KeptBy.newDies
    | with_reducible apply KeptBy.newFns
    | with_reducible apply KeptBy.newLoads
    | with_reducible apply KeptBy.newDests
    | with_reducible apply KeptBy.resetDests
    | split

theorem kept_linkSet {b s : State} (x1 x2 : _) (h : Kept b s) : Kept b (linkSet x1 x2 s) := by
  unfold linkSet
  repeat' first
    | with_reducible assumption
    | intro _
    | with_reducible apply kept_ite
    | dsimp only
    | with_reducible apply kept_foldl
    | with_reducible apply kept_foldl_snd
    | with_reducible apply kept_foldl_fst
    | with_reducible apply KeptBy.emit
    | with_reducible apply KeptBy.draw
    | with_reducible apply KeptBy.setDie
    | with_reducible apply KeptBy.setFn
    | with_reducible apply KeptBy.setLoad
    | with_reducible apply KeptBy.setDest
    | with_reducible apply KeptBy.newDies
    | with_reducible apply KeptBy.newFns
    | with_reducible apply KeptBy.newLoads
    | with_reducible apply KeptBy.newDests
    | with_reducible apply KeptBy.resetDests
    | split

theorem kept_rowPut {b s : State} (a : Nat) (f : RowFrame) (h : Kept b s) : Kept b (rowPut a f s) :=
  KeptBy.store (memWf_memPut _ _ _) h

theorem kept_landedSet {b s : State} (x1 x2 : _) (h : Kept b s) : Kept b (landedSet x1 x2 s) := by
  unfold landedSet
  repeat' first
    | with_reducible assumption
    | intro _
    | with_reducible apply kept_ite
    | dsimp only
    | with_reducible apply kept_foldl
    | with_reducible apply kept_foldl_snd
    | with_reducible apply kept_foldl_fst
    | with_reducible apply KeptBy.emit
    | with_reducible apply KeptBy.draw
    | with_reducible apply KeptBy.setDie
    | with_reducible apply KeptBy.setFn
    | with_reducible apply KeptBy.setLoad
    | with_reducible apply KeptBy.setDest
    | with_reducible apply KeptBy.newDies
    | with_reducible apply KeptBy.newFns
    | with_reducible apply KeptBy.newLoads
    | with_reducible apply KeptBy.newDests
    | with_reducible apply KeptBy.resetDests
    | split

theorem kept_portPut {b s : State} (a : Nat) (bs : Bytes) (h : Kept b s) : Kept b (portPut a bs s) :=
  KeptBy.port (portWf_portPut a bs s) h

theorem kept_freeNat {b s : State} (h : Kept b s) : Kept b (freeNat s).2 := by
  unfold freeNat
  repeat' first
    | with_reducible assumption
    | intro _
    | with_reducible apply kept_ite
    | dsimp only
    | with_reducible apply kept_foldl
    | with_reducible apply kept_foldl_snd
    | with_reducible apply kept_foldl_fst
    | with_reducible apply KeptBy.emit
    | with_reducible apply KeptBy.draw
    | with_reducible apply KeptBy.setDie
    | with_reducible apply KeptBy.setFn
    | with_reducible apply KeptBy.setLoad
    | with_reducible apply KeptBy.setDest
    | with_reducible apply KeptBy.newDies
    | with_reducible apply KeptBy.newFns
    | with_reducible apply KeptBy.newLoads
    | with_reducible apply KeptBy.newDests
    | with_reducible apply KeptBy.resetDests
    | split

theorem kept_emit {b s : State} (x1 : _) (h : Kept b s) : Kept b (emit x1 s) := by
  unfold emit
  repeat' first
    | with_reducible assumption
    | intro _
    | with_reducible apply kept_ite
    | dsimp only
    | with_reducible apply kept_foldl
    | with_reducible apply kept_foldl_snd
    | with_reducible apply kept_foldl_fst
    | with_reducible apply KeptBy.emit
    | with_reducible apply KeptBy.draw
    | with_reducible apply KeptBy.setDie
    | with_reducible apply KeptBy.setFn
    | with_reducible apply KeptBy.setLoad
    | with_reducible apply KeptBy.setDest
    | with_reducible apply KeptBy.newDies
    | with_reducible apply KeptBy.newFns
    | with_reducible apply KeptBy.newLoads
    | with_reducible apply KeptBy.newDests
    | with_reducible apply KeptBy.resetDests
    | split

theorem kept_emits {b s : State} (x1 : _) (h : Kept b s) : Kept b (emits x1 s) := by
  unfold emits
  repeat' first
    | with_reducible assumption
    | intro _
    | with_reducible apply kept_ite
    | dsimp only
    | with_reducible apply kept_foldl
    | with_reducible apply kept_foldl_snd
    | with_reducible apply kept_foldl_fst
    | with_reducible apply KeptBy.emit
    | with_reducible apply KeptBy.draw
    | with_reducible apply KeptBy.setDie
    | with_reducible apply KeptBy.setFn
    | with_reducible apply KeptBy.setLoad
    | with_reducible apply KeptBy.setDest
    | with_reducible apply KeptBy.newDies
    | with_reducible apply KeptBy.newFns
    | with_reducible apply KeptBy.newLoads
    | with_reducible apply KeptBy.newDests
    | with_reducible apply KeptBy.resetDests
    | split

theorem kept_raiseVector {b s : State} (x1 : _) (h : Kept b s) : Kept b (raiseVector x1 s) := by
  unfold raiseVector
  repeat' first
    | with_reducible assumption
    | intro _
    | with_reducible apply kept_ite
    | dsimp only
    | with_reducible apply kept_emit
    | with_reducible apply kept_foldl
    | with_reducible apply kept_foldl_snd
    | with_reducible apply kept_foldl_fst
    | with_reducible apply KeptBy.emit
    | with_reducible apply KeptBy.draw
    | with_reducible apply KeptBy.setDie
    | with_reducible apply KeptBy.setFn
    | with_reducible apply KeptBy.setLoad
    | with_reducible apply KeptBy.setDest
    | with_reducible apply KeptBy.newDies
    | with_reducible apply KeptBy.newFns
    | with_reducible apply KeptBy.newLoads
    | with_reducible apply KeptBy.newDests
    | with_reducible apply KeptBy.resetDests
    | split

theorem kept_pcieTrain {b s : State} (h : Kept b s) : Kept b (pcieTrain s) := by
  unfold pcieTrain
  repeat' first
    | with_reducible assumption
    | intro _
    | with_reducible apply kept_ite
    | dsimp only
    | with_reducible apply kept_emit
    | with_reducible apply kept_objSet
    | with_reducible apply kept_freeNat
    | with_reducible apply kept_foldl
    | with_reducible apply kept_foldl_snd
    | with_reducible apply kept_foldl_fst
    | with_reducible apply KeptBy.emit
    | with_reducible apply KeptBy.draw
    | with_reducible apply KeptBy.setDie
    | with_reducible apply KeptBy.setFn
    | with_reducible apply KeptBy.setLoad
    | with_reducible apply KeptBy.setDest
    | with_reducible apply KeptBy.newDies
    | with_reducible apply KeptBy.newFns
    | with_reducible apply KeptBy.newLoads
    | with_reducible apply KeptBy.newDests
    | with_reducible apply KeptBy.resetDests
    | split

theorem kept_countEvent {b s : State} (x1 x2 x3 : _) (h : Kept b s) : Kept b (countEvent x1 x2 x3 s) := by
  unfold countEvent
  repeat' first
    | with_reducible assumption
    | intro _
    | with_reducible apply kept_ite
    | dsimp only
    | with_reducible apply kept_foldl
    | with_reducible apply kept_foldl_snd
    | with_reducible apply kept_foldl_fst
    | with_reducible apply KeptBy.emit
    | with_reducible apply KeptBy.draw
    | with_reducible apply KeptBy.setDie
    | with_reducible apply KeptBy.setFn
    | with_reducible apply KeptBy.setLoad
    | with_reducible apply KeptBy.setDest
    | with_reducible apply KeptBy.newDies
    | with_reducible apply KeptBy.newFns
    | with_reducible apply KeptBy.newLoads
    | with_reducible apply KeptBy.newDests
    | with_reducible apply KeptBy.resetDests
    | split

theorem kept_countModule {b s : State} (x1 x2 : _) (h : Kept b s) : Kept b (countModule x1 x2 s) := by
  unfold countModule
  repeat' first
    | with_reducible assumption
    | intro _
    | with_reducible apply kept_ite
    | dsimp only
    | with_reducible apply kept_countEvent
    | with_reducible apply kept_foldl
    | with_reducible apply kept_foldl_snd
    | with_reducible apply kept_foldl_fst
    | with_reducible apply KeptBy.emit
    | with_reducible apply KeptBy.draw
    | with_reducible apply KeptBy.setDie
    | with_reducible apply KeptBy.setFn
    | with_reducible apply KeptBy.setLoad
    | with_reducible apply KeptBy.setDest
    | with_reducible apply KeptBy.newDies
    | with_reducible apply KeptBy.newFns
    | with_reducible apply KeptBy.newLoads
    | with_reducible apply KeptBy.newDests
    | with_reducible apply KeptBy.resetDests
    | split

theorem kept_countLink {b s : State} (x1 x2 x3 : _) (h : Kept b s) : Kept b (countLink x1 x2 x3 s) := by
  unfold countLink
  repeat' first
    | with_reducible assumption
    | intro _
    | with_reducible apply kept_ite
    | dsimp only
    | with_reducible apply kept_countEvent
    | with_reducible apply kept_foldl
    | with_reducible apply kept_foldl_snd
    | with_reducible apply kept_foldl_fst
    | with_reducible apply KeptBy.emit
    | with_reducible apply KeptBy.draw
    | with_reducible apply KeptBy.setDie
    | with_reducible apply KeptBy.setFn
    | with_reducible apply KeptBy.setLoad
    | with_reducible apply KeptBy.setDest
    | with_reducible apply KeptBy.newDies
    | with_reducible apply KeptBy.newFns
    | with_reducible apply KeptBy.newLoads
    | with_reducible apply KeptBy.newDests
    | with_reducible apply KeptBy.resetDests
    | split

theorem kept_countTile {b s : State} (x1 x2 x3 x4 : _) (h : Kept b s) : Kept b (countTile x1 x2 x3 x4 s) := by
  unfold countTile
  repeat' first
    | with_reducible assumption
    | intro _
    | with_reducible apply kept_ite
    | dsimp only
    | with_reducible apply kept_countEvent
    | with_reducible apply kept_foldl
    | with_reducible apply kept_foldl_snd
    | with_reducible apply kept_foldl_fst
    | with_reducible apply KeptBy.emit
    | with_reducible apply KeptBy.draw
    | with_reducible apply KeptBy.setDie
    | with_reducible apply KeptBy.setFn
    | with_reducible apply KeptBy.setLoad
    | with_reducible apply KeptBy.setDest
    | with_reducible apply KeptBy.newDies
    | with_reducible apply KeptBy.newFns
    | with_reducible apply KeptBy.newLoads
    | with_reducible apply KeptBy.newDests
    | with_reducible apply KeptBy.resetDests
    | split

theorem kept_toPort {b s : State} (x1 x2 : _) (h : Kept b s) : Kept b (toPort x1 x2 s) := by
  unfold toPort
  repeat' first
    | with_reducible assumption
    | intro _
    | with_reducible apply kept_ite
    | dsimp only
    | with_reducible apply kept_emit
    | with_reducible apply kept_bump
    | with_reducible apply kept_linkSet
    | with_reducible apply kept_foldl
    | with_reducible apply kept_foldl_snd
    | with_reducible apply kept_foldl_fst
    | with_reducible apply KeptBy.emit
    | with_reducible apply KeptBy.draw
    | with_reducible apply KeptBy.setDie
    | with_reducible apply KeptBy.setFn
    | with_reducible apply KeptBy.setLoad
    | with_reducible apply KeptBy.setDest
    | with_reducible apply KeptBy.newDies
    | with_reducible apply KeptBy.newFns
    | with_reducible apply KeptBy.newLoads
    | with_reducible apply KeptBy.newDests
    | with_reducible apply KeptBy.resetDests
    | split

theorem kept_sendFaults {b s : State} (x1 x2 x3 : _) (h : Kept b s) : Kept b (sendFaults x1 x2 x3 s) := by
  unfold sendFaults
  repeat' first
    | with_reducible assumption
    | intro _
    | with_reducible apply kept_ite
    | dsimp only
    | with_reducible apply kept_toPort
    | with_reducible apply kept_foldl
    | with_reducible apply kept_foldl_snd
    | with_reducible apply kept_foldl_fst
    | with_reducible apply KeptBy.emit
    | with_reducible apply KeptBy.draw
    | with_reducible apply KeptBy.setDie
    | with_reducible apply KeptBy.setFn
    | with_reducible apply KeptBy.setLoad
    | with_reducible apply KeptBy.setDest
    | with_reducible apply KeptBy.newDies
    | with_reducible apply KeptBy.newFns
    | with_reducible apply KeptBy.newLoads
    | with_reducible apply KeptBy.newDests
    | with_reducible apply KeptBy.resetDests
    | split

theorem kept_beginStop {b s : State} (x1 x2 x3 : _) (h : Kept b s) : Kept b (beginStop x1 x2 x3 s) := by
  unfold beginStop
  repeat' first
    | with_reducible assumption
    | intro _
    | with_reducible apply kept_ite
    | dsimp only
    | with_reducible apply kept_sendFaults
    | with_reducible apply kept_objSet
    | with_reducible apply kept_foldl
    | with_reducible apply kept_foldl_snd
    | with_reducible apply kept_foldl_fst
    | with_reducible apply KeptBy.emit
    | with_reducible apply KeptBy.draw
    | with_reducible apply KeptBy.setDie
    | with_reducible apply KeptBy.setFn
    | with_reducible apply KeptBy.setLoad
    | with_reducible apply KeptBy.setDest
    | with_reducible apply KeptBy.newDies
    | with_reducible apply KeptBy.newFns
    | with_reducible apply KeptBy.newLoads
    | with_reducible apply KeptBy.newDests
    | with_reducible apply KeptBy.resetDests
    | split

theorem kept_raiseFault {b s : State} (x1 x2 : _) (h : Kept b s) : Kept b (raiseFault x1 x2 s) := by
  unfold raiseFault
  repeat' first
    | with_reducible assumption
    | intro _
    | with_reducible apply kept_ite
    | dsimp only
    | with_reducible apply kept_beginStop
    | with_reducible apply kept_foldl
    | with_reducible apply kept_foldl_snd
    | with_reducible apply kept_foldl_fst
    | with_reducible apply KeptBy.emit
    | with_reducible apply KeptBy.draw
    | with_reducible apply KeptBy.setDie
    | with_reducible apply KeptBy.setFn
    | with_reducible apply KeptBy.setLoad
    | with_reducible apply KeptBy.setDest
    | with_reducible apply KeptBy.newDies
    | with_reducible apply KeptBy.newFns
    | with_reducible apply KeptBy.newLoads
    | with_reducible apply KeptBy.newDests
    | with_reducible apply KeptBy.resetDests
    | split

theorem kept_raiseFaults {b s : State} (x1 : _) (h : Kept b s) : Kept b (raiseFaults x1 s) := by
  unfold raiseFaults
  repeat' first
    | with_reducible assumption
    | intro _
    | with_reducible apply kept_ite
    | dsimp only
    | with_reducible apply kept_raiseFault
    | with_reducible apply kept_foldl
    | with_reducible apply kept_foldl_snd
    | with_reducible apply kept_foldl_fst
    | with_reducible apply KeptBy.emit
    | with_reducible apply KeptBy.draw
    | with_reducible apply KeptBy.setDie
    | with_reducible apply KeptBy.setFn
    | with_reducible apply KeptBy.setLoad
    | with_reducible apply KeptBy.setDest
    | with_reducible apply KeptBy.newDies
    | with_reducible apply KeptBy.newFns
    | with_reducible apply KeptBy.newLoads
    | with_reducible apply KeptBy.newDests
    | with_reducible apply KeptBy.resetDests
    | split

theorem kept_setSpent {b s : State} (x1 x2 x3 : _) (h : Kept b s) : Kept b (setSpent x1 x2 x3 s) := by
  unfold setSpent
  repeat' first
    | with_reducible assumption
    | intro _
    | with_reducible apply kept_ite
    | dsimp only
    | with_reducible apply kept_foldl
    | with_reducible apply kept_foldl_snd
    | with_reducible apply kept_foldl_fst
    | with_reducible apply KeptBy.emit
    | with_reducible apply KeptBy.draw
    | with_reducible apply KeptBy.setDie
    | with_reducible apply KeptBy.setFn
    | with_reducible apply KeptBy.setLoad
    | with_reducible apply KeptBy.setDest
    | with_reducible apply KeptBy.newDies
    | with_reducible apply KeptBy.newFns
    | with_reducible apply KeptBy.newLoads
    | with_reducible apply KeptBy.newDests
    | with_reducible apply KeptBy.resetDests
    | split

theorem kept_depart {b s : State} (x1 : _) (h : Kept b s) : Kept b (depart s x1) := by
  unfold depart
  repeat' first
    | with_reducible assumption
    | intro _
    | with_reducible apply kept_ite
    | dsimp only
    | with_reducible apply kept_linkSet
    | with_reducible apply kept_toPort
    | with_reducible apply kept_emit
    | with_reducible apply kept_foldl
    | with_reducible apply kept_foldl_snd
    | with_reducible apply kept_foldl_fst
    | with_reducible apply KeptBy.emit
    | with_reducible apply KeptBy.draw
    | with_reducible apply KeptBy.setDie
    | with_reducible apply KeptBy.setFn
    | with_reducible apply KeptBy.setLoad
    | with_reducible apply KeptBy.setDest
    | with_reducible apply KeptBy.newDies
    | with_reducible apply KeptBy.newFns
    | with_reducible apply KeptBy.newLoads
    | with_reducible apply KeptBy.newDests
    | with_reducible apply KeptBy.resetDests
    | split

theorem kept_departAll {b s : State} (x1 x2 : _) (h : Kept b s) : Kept b (departAll x1 x2 s) := by
  unfold departAll
  repeat' first
    | with_reducible assumption
    | intro _
    | with_reducible apply kept_ite
    | dsimp only
    | with_reducible apply kept_depart
    | with_reducible apply kept_setSpent
    | with_reducible apply kept_foldl
    | with_reducible apply kept_foldl_snd
    | with_reducible apply kept_foldl_fst
    | with_reducible apply KeptBy.emit
    | with_reducible apply KeptBy.draw
    | with_reducible apply KeptBy.setDie
    | with_reducible apply KeptBy.setFn
    | with_reducible apply KeptBy.setLoad
    | with_reducible apply KeptBy.setDest
    | with_reducible apply KeptBy.newDies
    | with_reducible apply KeptBy.newFns
    | with_reducible apply KeptBy.newLoads
    | with_reducible apply KeptBy.newDests
    | with_reducible apply KeptBy.resetDests
    | split

theorem kept_inject {b s : State} (x1 x2 x3 x4 : _) (h : Kept b s) : Kept b (inject x1 x2 x3 x4 s) := by
  unfold inject
  repeat' first
    | with_reducible assumption
    | intro _
    | with_reducible apply kept_ite
    | dsimp only
    | with_reducible apply kept_departAll
    | with_reducible apply kept_countModule
    | with_reducible apply kept_bump
    | with_reducible apply kept_foldl
    | with_reducible apply kept_foldl_snd
    | with_reducible apply kept_foldl_fst
    | with_reducible apply KeptBy.emit
    | with_reducible apply KeptBy.draw
    | with_reducible apply KeptBy.setDie
    | with_reducible apply KeptBy.setFn
    | with_reducible apply KeptBy.setLoad
    | with_reducible apply KeptBy.setDest
    | with_reducible apply KeptBy.newDies
    | with_reducible apply KeptBy.newFns
    | with_reducible apply KeptBy.newLoads
    | with_reducible apply KeptBy.newDests
    | with_reducible apply KeptBy.resetDests
    | split

theorem kept_sendHold {b s : State} (x1 x2 : _) (h : Kept b s) : Kept b (sendHold x1 x2 s) := by
  unfold sendHold
  repeat' first
    | with_reducible assumption
    | intro _
    | with_reducible apply kept_ite
    | dsimp only
    | with_reducible apply kept_inject
    | with_reducible apply kept_foldl
    | with_reducible apply kept_foldl_snd
    | with_reducible apply kept_foldl_fst
    | with_reducible apply KeptBy.emit
    | with_reducible apply KeptBy.draw
    | with_reducible apply KeptBy.setDie
    | with_reducible apply KeptBy.setFn
    | with_reducible apply KeptBy.setLoad
    | with_reducible apply KeptBy.setDest
    | with_reducible apply KeptBy.newDies
    | with_reducible apply KeptBy.newFns
    | with_reducible apply KeptBy.newLoads
    | with_reducible apply KeptBy.newDests
    | with_reducible apply KeptBy.resetDests
    | split

theorem kept_raiseHold {b s : State} (x1 x2 x3 x4 : _) (h : Kept b s) : Kept b (raiseHold x1 x2 x3 x4 s) := by
  unfold raiseHold
  repeat' first
    | with_reducible assumption
    | intro _
    | with_reducible apply kept_ite
    | dsimp only
    | with_reducible apply kept_sendHold
    | with_reducible apply kept_countEvent
    | with_reducible apply kept_foldl
    | with_reducible apply kept_foldl_snd
    | with_reducible apply kept_foldl_fst
    | with_reducible apply KeptBy.emit
    | with_reducible apply KeptBy.draw
    | with_reducible apply KeptBy.setDie
    | with_reducible apply KeptBy.setFn
    | with_reducible apply KeptBy.setLoad
    | with_reducible apply KeptBy.setDest
    | with_reducible apply KeptBy.newDies
    | with_reducible apply KeptBy.newFns
    | with_reducible apply KeptBy.newLoads
    | with_reducible apply KeptBy.newDests
    | with_reducible apply KeptBy.resetDests
    | split

theorem kept_tileHold {b s : State} (x1 x2 x3 x4 : _) (h : Kept b s) : Kept b (tileHold x1 x2 x3 x4 s) := by
  unfold tileHold
  repeat' first
    | with_reducible assumption
    | intro _
    | with_reducible apply kept_ite
    | dsimp only
    | with_reducible apply kept_raiseHold
    | with_reducible apply kept_foldl
    | with_reducible apply kept_foldl_snd
    | with_reducible apply kept_foldl_fst
    | with_reducible apply KeptBy.emit
    | with_reducible apply KeptBy.draw
    | with_reducible apply KeptBy.setDie
    | with_reducible apply KeptBy.setFn
    | with_reducible apply KeptBy.setLoad
    | with_reducible apply KeptBy.setDest
    | with_reducible apply KeptBy.newDies
    | with_reducible apply KeptBy.newFns
    | with_reducible apply KeptBy.newLoads
    | with_reducible apply KeptBy.newDests
    | with_reducible apply KeptBy.resetDests
    | split

theorem kept_linkHold {b s : State} (x1 x2 x3 : _) (h : Kept b s) : Kept b (linkHold x1 x2 x3 s) := by
  unfold linkHold
  repeat' first
    | with_reducible assumption
    | intro _
    | with_reducible apply kept_ite
    | dsimp only
    | with_reducible apply kept_raiseHold
    | with_reducible apply kept_foldl
    | with_reducible apply kept_foldl_snd
    | with_reducible apply kept_foldl_fst
    | with_reducible apply KeptBy.emit
    | with_reducible apply KeptBy.draw
    | with_reducible apply KeptBy.setDie
    | with_reducible apply KeptBy.setFn
    | with_reducible apply KeptBy.setLoad
    | with_reducible apply KeptBy.setDest
    | with_reducible apply KeptBy.newDies
    | with_reducible apply KeptBy.newFns
    | with_reducible apply KeptBy.newLoads
    | with_reducible apply KeptBy.newDests
    | with_reducible apply KeptBy.resetDests
    | split

theorem kept_portsHold {b s : State} (x1 x2 : _) (h : Kept b s) : Kept b (portsHold x1 x2 s) := by
  unfold portsHold
  repeat' first
    | with_reducible assumption
    | intro _
    | with_reducible apply kept_ite
    | dsimp only
    | with_reducible apply kept_sendHold
    | with_reducible apply kept_foldl
    | with_reducible apply kept_foldl_snd
    | with_reducible apply kept_foldl_fst
    | with_reducible apply KeptBy.emit
    | with_reducible apply KeptBy.draw
    | with_reducible apply KeptBy.setDie
    | with_reducible apply KeptBy.setFn
    | with_reducible apply KeptBy.setLoad
    | with_reducible apply KeptBy.setDest
    | with_reducible apply KeptBy.newDies
    | with_reducible apply KeptBy.newFns
    | with_reducible apply KeptBy.newLoads
    | with_reducible apply KeptBy.newDests
    | with_reducible apply KeptBy.resetDests
    | split

theorem kept_unitHold {b s : State} (x1 x2 x3 x4 x5 x6 : _) (h : Kept b s) : Kept b (unitHold x1 x2 x3 x4 x5 x6 s) := by
  unfold unitHold
  repeat' first
    | with_reducible assumption
    | intro _
    | with_reducible apply kept_ite
    | dsimp only
    | with_reducible apply kept_raiseHold
    | with_reducible apply kept_foldl
    | with_reducible apply kept_foldl_snd
    | with_reducible apply kept_foldl_fst
    | with_reducible apply KeptBy.emit
    | with_reducible apply KeptBy.draw
    | with_reducible apply KeptBy.setDie
    | with_reducible apply KeptBy.setFn
    | with_reducible apply KeptBy.setLoad
    | with_reducible apply KeptBy.setDest
    | with_reducible apply KeptBy.newDies
    | with_reducible apply KeptBy.newFns
    | with_reducible apply KeptBy.newLoads
    | with_reducible apply KeptBy.newDests
    | with_reducible apply KeptBy.resetDests
    | split

theorem kept_seenBeside {b s : State} (x1 x2 x3 x4 : _) (h : Kept b s) : Kept b (seenBeside x1 x2 x3 x4 s) := by
  unfold seenBeside
  repeat' first
    | with_reducible assumption
    | intro _
    | with_reducible apply kept_ite
    | dsimp only
    | with_reducible apply kept_tileSet
    | with_reducible apply kept_foldl
    | with_reducible apply kept_foldl_snd
    | with_reducible apply kept_foldl_fst
    | with_reducible apply KeptBy.emit
    | with_reducible apply KeptBy.draw
    | with_reducible apply KeptBy.setDie
    | with_reducible apply KeptBy.setFn
    | with_reducible apply KeptBy.setLoad
    | with_reducible apply KeptBy.setDest
    | with_reducible apply KeptBy.newDies
    | with_reducible apply KeptBy.newFns
    | with_reducible apply KeptBy.newLoads
    | with_reducible apply KeptBy.newDests
    | with_reducible apply KeptBy.resetDests
    | split

theorem kept_dropFix {b s : State} (x1 : _) (h : Kept b s) : Kept b (dropFix x1 s) := by
  unfold dropFix
  repeat' first
    | with_reducible assumption
    | intro _
    | with_reducible apply kept_ite
    | dsimp only
    | with_reducible apply kept_bump
    | with_reducible apply kept_tileSet
    | with_reducible apply kept_writeBack
    | with_reducible apply kept_foldl
    | with_reducible apply kept_foldl_snd
    | with_reducible apply kept_foldl_fst
    | with_reducible apply KeptBy.emit
    | with_reducible apply KeptBy.draw
    | with_reducible apply KeptBy.setDie
    | with_reducible apply KeptBy.setFn
    | with_reducible apply KeptBy.setLoad
    | with_reducible apply KeptBy.setDest
    | with_reducible apply KeptBy.newDies
    | with_reducible apply KeptBy.newFns
    | with_reducible apply KeptBy.newLoads
    | with_reducible apply KeptBy.newDests
    | with_reducible apply KeptBy.resetDests
    | split

theorem kept_rowWrite {b s : State} (x1 x2 x3 x4 : _) (h : Kept b s) : Kept b (rowWrite x1 x2 x3 x4 s) := by
  unfold rowWrite
  repeat' first
    | with_reducible assumption
    | intro _
    | with_reducible apply kept_ite
    | dsimp only
    | with_reducible apply kept_rowPut
    | with_reducible apply kept_dropFix
    | with_reducible apply kept_seenBeside
    | with_reducible apply kept_tileSet
    | with_reducible apply kept_foldl
    | with_reducible apply kept_foldl_snd
    | with_reducible apply kept_foldl_fst
    | with_reducible apply KeptBy.emit
    | with_reducible apply KeptBy.draw
    | with_reducible apply KeptBy.setDie
    | with_reducible apply KeptBy.setFn
    | with_reducible apply KeptBy.setLoad
    | with_reducible apply KeptBy.setDest
    | with_reducible apply KeptBy.newDies
    | with_reducible apply KeptBy.newFns
    | with_reducible apply KeptBy.newLoads
    | with_reducible apply KeptBy.newDests
    | with_reducible apply KeptBy.resetDests
    | split

theorem kept_queueFix {b s : State} (x1 : _) (h : Kept b s) : Kept b (queueFix x1 s) := by
  unfold queueFix
  repeat' first
    | with_reducible assumption
    | intro _
    | with_reducible apply kept_ite
    | dsimp only
    | with_reducible apply kept_tileSet
    | with_reducible apply kept_writeBack
    | with_reducible apply kept_foldl
    | with_reducible apply kept_foldl_snd
    | with_reducible apply kept_foldl_fst
    | with_reducible apply KeptBy.emit
    | with_reducible apply KeptBy.draw
    | with_reducible apply KeptBy.setDie
    | with_reducible apply KeptBy.setFn
    | with_reducible apply KeptBy.setLoad
    | with_reducible apply KeptBy.setDest
    | with_reducible apply KeptBy.newDies
    | with_reducible apply KeptBy.newFns
    | with_reducible apply KeptBy.newLoads
    | with_reducible apply KeptBy.newDests
    | with_reducible apply KeptBy.resetDests
    | split

theorem kept_slipAccesses {b s : State} (x1 x2 : _) (h : Kept b s) : Kept b (slipAccesses x1 x2 s) := by
  unfold slipAccesses
  repeat' first
    | with_reducible assumption
    | intro _
    | with_reducible apply kept_ite
    | dsimp only
    | with_reducible apply kept_tileSet
    | with_reducible apply kept_foldl
    | with_reducible apply kept_foldl_snd
    | with_reducible apply kept_foldl_fst
    | with_reducible apply KeptBy.emit
    | with_reducible apply KeptBy.draw
    | with_reducible apply KeptBy.setDie
    | with_reducible apply KeptBy.setFn
    | with_reducible apply KeptBy.setLoad
    | with_reducible apply KeptBy.setDest
    | with_reducible apply KeptBy.newDies
    | with_reducible apply KeptBy.newFns
    | with_reducible apply KeptBy.newLoads
    | with_reducible apply KeptBy.newDests
    | with_reducible apply KeptBy.resetDests
    | split

theorem kept_stopTile {b s : State} (x1 x2 : _) (h : Kept b s) : Kept b (stopTile x1 x2 s) := by
  unfold stopTile
  repeat' first
    | with_reducible assumption
    | intro _
    | with_reducible apply kept_ite
    | dsimp only
    | with_reducible apply kept_slipAccesses
    | with_reducible apply kept_tileSet
    | with_reducible apply kept_foldl
    | with_reducible apply kept_foldl_snd
    | with_reducible apply kept_foldl_fst
    | with_reducible apply KeptBy.emit
    | with_reducible apply KeptBy.draw
    | with_reducible apply KeptBy.setDie
    | with_reducible apply KeptBy.setFn
    | with_reducible apply KeptBy.setLoad
    | with_reducible apply KeptBy.setDest
    | with_reducible apply KeptBy.newDies
    | with_reducible apply KeptBy.newFns
    | with_reducible apply KeptBy.newLoads
    | with_reducible apply KeptBy.newDests
    | with_reducible apply KeptBy.resetDests
    | split

theorem kept_refuse {b s : State} (x1 x2 : _) (h : Kept b s) : Kept b (refuse x1 x2 s) := by
  unfold refuse
  repeat' first
    | with_reducible assumption
    | intro _
    | with_reducible apply kept_ite
    | dsimp only
    | with_reducible apply kept_stopTile
    | with_reducible apply kept_tileSet
    | with_reducible apply kept_countTile
    | with_reducible apply kept_bump
    | with_reducible apply kept_foldl
    | with_reducible apply kept_foldl_snd
    | with_reducible apply kept_foldl_fst
    | with_reducible apply KeptBy.emit
    | with_reducible apply KeptBy.draw
    | with_reducible apply KeptBy.setDie
    | with_reducible apply KeptBy.setFn
    | with_reducible apply KeptBy.setLoad
    | with_reducible apply KeptBy.setDest
    | with_reducible apply KeptBy.newDies
    | with_reducible apply KeptBy.newFns
    | with_reducible apply KeptBy.newLoads
    | with_reducible apply KeptBy.newDests
    | with_reducible apply KeptBy.resetDests
    | split

theorem kept_arbitrate {b s : State} (x1 x2 : _) (h : Kept b s) : Kept b (arbitrate x1 x2 s) := by
  induction x1 generalizing x2 s with
  | zero => exact h
  | succ n ih =>
    unfold arbitrate
    repeat' first
      | with_reducible assumption
        | dsimp only
      | with_reducible apply kept_refuse
      | with_reducible apply ih
      | with_reducible apply kept_foldl
      | with_reducible apply kept_foldl_snd
      | with_reducible apply kept_foldl_fst
      | with_reducible apply KeptBy.emit
      | with_reducible apply KeptBy.draw
      | with_reducible apply KeptBy.setDie
      | with_reducible apply KeptBy.setFn
      | with_reducible apply KeptBy.setLoad
      | with_reducible apply KeptBy.setDest
      | with_reducible apply KeptBy.newDies
      | with_reducible apply KeptBy.newFns
      | with_reducible apply KeptBy.newLoads
      | with_reducible apply KeptBy.newDests
      | with_reducible apply KeptBy.resetDests
      | intro _
      | split

theorem kept_requestAccess {b s : State} (x1 : _) (h : Kept b s) : Kept b (requestAccess x1 s) := by
  unfold requestAccess
  repeat' first
    | with_reducible assumption
    | intro _
    | with_reducible apply kept_ite
    | dsimp only
    | with_reducible apply kept_tileSet
    | with_reducible apply kept_foldl
    | with_reducible apply kept_foldl_snd
    | with_reducible apply kept_foldl_fst
    | with_reducible apply KeptBy.emit
    | with_reducible apply KeptBy.draw
    | with_reducible apply KeptBy.setDie
    | with_reducible apply KeptBy.setFn
    | with_reducible apply KeptBy.setLoad
    | with_reducible apply KeptBy.setDest
    | with_reducible apply KeptBy.newDies
    | with_reducible apply KeptBy.newFns
    | with_reducible apply KeptBy.newLoads
    | with_reducible apply KeptBy.newDests
    | with_reducible apply KeptBy.resetDests
    | split

theorem kept_requestAll {b s : State} (x1 : _) (h : Kept b s) : Kept b (requestAll x1 s) := by
  unfold requestAll
  repeat' first
    | with_reducible assumption
    | intro _
    | with_reducible apply kept_ite
    | dsimp only
    | with_reducible apply kept_requestAccess
    | with_reducible apply kept_arbitrate
    | with_reducible apply kept_foldl
    | with_reducible apply kept_foldl_snd
    | with_reducible apply kept_foldl_fst
    | with_reducible apply KeptBy.emit
    | with_reducible apply KeptBy.draw
    | with_reducible apply KeptBy.setDie
    | with_reducible apply KeptBy.setFn
    | with_reducible apply KeptBy.setLoad
    | with_reducible apply KeptBy.setDest
    | with_reducible apply KeptBy.newDies
    | with_reducible apply KeptBy.newFns
    | with_reducible apply KeptBy.newLoads
    | with_reducible apply KeptBy.newDests
    | with_reducible apply KeptBy.resetDests
    | split

theorem kept_holdAccesses {b s : State} (x1 x2 x3 x4 : _) (h : Kept b s) : Kept b (holdAccesses x1 x2 x3 x4 s) := by
  unfold holdAccesses
  repeat' first
    | with_reducible assumption
    | intro _
    | with_reducible apply kept_ite
    | dsimp only
    | with_reducible apply kept_tileSet
    | with_reducible apply kept_foldl
    | with_reducible apply kept_foldl_snd
    | with_reducible apply kept_foldl_fst
    | with_reducible apply KeptBy.emit
    | with_reducible apply KeptBy.draw
    | with_reducible apply KeptBy.setDie
    | with_reducible apply KeptBy.setFn
    | with_reducible apply KeptBy.setLoad
    | with_reducible apply KeptBy.setDest
    | with_reducible apply KeptBy.newDies
    | with_reducible apply KeptBy.newFns
    | with_reducible apply KeptBy.newLoads
    | with_reducible apply KeptBy.newDests
    | with_reducible apply KeptBy.resetDests
    | split

theorem kept_stallAccesses {b s : State} (x1 x2 : _) (h : Kept b s) : Kept b (stallAccesses x1 x2 s) := by
  unfold stallAccesses
  repeat' first
    | with_reducible assumption
    | intro _
    | with_reducible apply kept_ite
    | dsimp only
    | with_reducible apply kept_holdAccesses
    | with_reducible apply kept_foldl
    | with_reducible apply kept_foldl_snd
    | with_reducible apply kept_foldl_fst
    | with_reducible apply KeptBy.emit
    | with_reducible apply KeptBy.draw
    | with_reducible apply KeptBy.setDie
    | with_reducible apply KeptBy.setFn
    | with_reducible apply KeptBy.setLoad
    | with_reducible apply KeptBy.setDest
    | with_reducible apply KeptBy.newDies
    | with_reducible apply KeptBy.newFns
    | with_reducible apply KeptBy.newLoads
    | with_reducible apply KeptBy.newDests
    | with_reducible apply KeptBy.resetDests
    | split

theorem kept_serveSlice {b s : State} (x1 x2 x3 : _) (h : Kept b s) : Kept b (serveSlice x1 x2 x3 s) := by
  unfold serveSlice
  repeat' first
    | with_reducible assumption
    | intro _
    | with_reducible apply kept_ite
    | dsimp only
    | with_reducible apply kept_requestAccess
    | with_reducible apply kept_foldl
    | with_reducible apply kept_foldl_snd
    | with_reducible apply kept_foldl_fst
    | with_reducible apply KeptBy.emit
    | with_reducible apply KeptBy.draw
    | with_reducible apply KeptBy.setDie
    | with_reducible apply KeptBy.setFn
    | with_reducible apply KeptBy.setLoad
    | with_reducible apply KeptBy.setDest
    | with_reducible apply KeptBy.newDies
    | with_reducible apply KeptBy.newFns
    | with_reducible apply KeptBy.newLoads
    | with_reducible apply KeptBy.newDests
    | with_reducible apply KeptBy.resetDests
    | split

theorem kept_tableWrite {b s : State} (h : Kept b s) : Kept b (tableWrite s) := by
  unfold tableWrite
  repeat' first
    | with_reducible assumption
    | intro _
    | with_reducible apply kept_ite
    | dsimp only
    | with_reducible apply kept_foldl
    | with_reducible apply kept_foldl_snd
    | with_reducible apply kept_foldl_fst
    | with_reducible apply KeptBy.emit
    | with_reducible apply KeptBy.draw
    | with_reducible apply KeptBy.setDie
    | with_reducible apply KeptBy.setFn
    | with_reducible apply KeptBy.setLoad
    | with_reducible apply KeptBy.setDest
    | with_reducible apply KeptBy.newDies
    | with_reducible apply KeptBy.newFns
    | with_reducible apply KeptBy.newLoads
    | with_reducible apply KeptBy.newDests
    | with_reducible apply KeptBy.resetDests
    | split

theorem kept_markRow {b s : State} (x1 : _) (h : Kept b s) : Kept b (markRow x1 s) := by
  unfold markRow
  repeat' first
    | with_reducible assumption
    | intro _
    | with_reducible apply kept_ite
    | dsimp only
    | with_reducible apply kept_raiseFault
    | with_reducible apply kept_bump
    | with_reducible apply kept_tableWrite
    | with_reducible apply kept_foldl
    | with_reducible apply kept_foldl_snd
    | with_reducible apply kept_foldl_fst
    | with_reducible apply KeptBy.emit
    | with_reducible apply KeptBy.draw
    | with_reducible apply KeptBy.setDie
    | with_reducible apply KeptBy.setFn
    | with_reducible apply KeptBy.setLoad
    | with_reducible apply KeptBy.setDest
    | with_reducible apply KeptBy.newDies
    | with_reducible apply KeptBy.newFns
    | with_reducible apply KeptBy.newLoads
    | with_reducible apply KeptBy.newDests
    | with_reducible apply KeptBy.resetDests
    | split

theorem kept_markFaulted {b s : State} (x1 : _) (h : Kept b s) : Kept b (markFaulted x1 s) := by
  unfold markFaulted
  repeat' first
    | with_reducible assumption
    | intro _
    | with_reducible apply kept_ite
    | dsimp only
    | with_reducible apply kept_markRow
    | with_reducible apply kept_foldl
    | with_reducible apply kept_foldl_snd
    | with_reducible apply kept_foldl_fst
    | with_reducible apply KeptBy.emit
    | with_reducible apply KeptBy.draw
    | with_reducible apply KeptBy.setDie
    | with_reducible apply KeptBy.setFn
    | with_reducible apply KeptBy.setLoad
    | with_reducible apply KeptBy.setDest
    | with_reducible apply KeptBy.newDies
    | with_reducible apply KeptBy.newFns
    | with_reducible apply KeptBy.newLoads
    | with_reducible apply KeptBy.newDests
    | with_reducible apply KeptBy.resetDests
    | split

theorem kept_applyFx {b s : State} (x1 x2 x3 : _) (h : Kept b s) : Kept b (applyFx x1 x2 x3 s) := by
  unfold applyFx
  repeat' first
    | with_reducible assumption
    | intro _
    | with_reducible apply kept_ite
    | dsimp only
    | with_reducible apply kept_rowWrite
    | with_reducible apply kept_bump
    | with_reducible apply kept_countTile
    | with_reducible apply kept_objSet
    | with_reducible apply kept_tileHold
    | with_reducible apply kept_queueFix
    | with_reducible apply kept_markFaulted
    | with_reducible apply kept_raiseFaults
    | with_reducible apply kept_requestAll
    | with_reducible apply kept_stallAccesses
    | with_reducible apply kept_foldl
    | with_reducible apply kept_foldl_snd
    | with_reducible apply kept_foldl_fst
    | with_reducible apply KeptBy.emit
    | with_reducible apply KeptBy.draw
    | with_reducible apply KeptBy.setDie
    | with_reducible apply KeptBy.setFn
    | with_reducible apply KeptBy.setLoad
    | with_reducible apply KeptBy.setDest
    | with_reducible apply KeptBy.newDies
    | with_reducible apply KeptBy.newFns
    | with_reducible apply KeptBy.newLoads
    | with_reducible apply KeptBy.newDests
    | with_reducible apply KeptBy.resetDests
    | split

theorem kept_onTile {b s : State} (x1 x2 x3 : _) (h : Kept b s) : Kept b (onTile x1 x2 x3 s) := by
  unfold onTile
  repeat' first
    | with_reducible assumption
    | intro _
    | with_reducible apply kept_ite
    | dsimp only
    | with_reducible apply kept_applyFx
    | with_reducible apply kept_tileSet
    | with_reducible apply kept_foldl
    | with_reducible apply kept_foldl_snd
    | with_reducible apply kept_foldl_fst
    | with_reducible apply KeptBy.emit
    | with_reducible apply KeptBy.draw
    | with_reducible apply KeptBy.setDie
    | with_reducible apply KeptBy.setFn
    | with_reducible apply KeptBy.setLoad
    | with_reducible apply KeptBy.setDest
    | with_reducible apply KeptBy.newDies
    | with_reducible apply KeptBy.newFns
    | with_reducible apply KeptBy.newLoads
    | with_reducible apply KeptBy.newDests
    | with_reducible apply KeptBy.resetDests
    | split

theorem kept_idleTick {b s : State} (h : Kept b s) : Kept b (idleTick s) := by
  unfold idleTick
  repeat' first
    | with_reducible assumption
    | intro _
    | with_reducible apply kept_ite
    | dsimp only
    | with_reducible apply kept_foldl
    | with_reducible apply kept_foldl_snd
    | with_reducible apply kept_foldl_fst
    | with_reducible apply KeptBy.emit
    | with_reducible apply KeptBy.draw
    | with_reducible apply KeptBy.setDie
    | with_reducible apply KeptBy.setFn
    | with_reducible apply KeptBy.setLoad
    | with_reducible apply KeptBy.setDest
    | with_reducible apply KeptBy.newDies
    | with_reducible apply KeptBy.newFns
    | with_reducible apply KeptBy.newLoads
    | with_reducible apply KeptBy.newDests
    | with_reducible apply KeptBy.resetDests
    | split

end Sys2Proof.Laws
end

