-- ==== Sys2Proof/Laws/KeptOperands.lean ====
section
/-! SUPPORT. What the operations of Machine/Operands.lean on State keep. -/

namespace Sys2Proof.Laws
open Sys2Proof.Machine

theorem kept_holdTile {b s : State} (x1 x2 x3 x4 : _) (h : Kept b s) : Kept b (holdTile x1 x2 x3 x4 s) := by
  unfold holdTile
  repeat' first
    | with_reducible assumption
    | intro _
    | with_reducible apply kept_ite
    | dsimp only
    | with_reducible apply kept_holdAccesses
    | with_reducible apply kept_tileSet
    | with_reducible apply kept_raiseFault
    | with_reducible apply kept_arbitrate
    | with_reducible apply kept_foldl
    | with_reducible apply kept_foldl_snd
    | with_reducible apply kept_foldl_fst
    | with_reducible apply KeptBy.emit
    | with_reducible apply KeptBy.draw
    | with_reducible apply KeptBy.setDie
    | with_reducible apply KeptBy.setFn
    | with_reducible apply KeptBy.setLoad
    | with_reducible apply KeptBy.setDest
    | with_reducible apply KeptBy.newDies
    | with_reducible apply KeptBy.newFns
    | with_reducible apply KeptBy.newLoads
    | with_reducible apply KeptBy.newDests
    | with_reducible apply KeptBy.resetDests
    | split

theorem kept_settle {b s : State} (x1 x2 : _) (h : Kept b s) : Kept b (settle x1 x2 s) := by
  unfold settle
  repeat' first
    | with_reducible assumption
    | intro _
    | with_reducible apply kept_ite
    | dsimp only
    | with_reducible apply kept_rowWrite
    | with_reducible apply kept_tileSet
    | with_reducible apply kept_foldl
    | with_reducible apply kept_foldl_snd
    | with_reducible apply kept_foldl_fst
    | with_reducible apply KeptBy.emit
    | with_reducible apply KeptBy.draw
    | with_reducible apply KeptBy.setDie
    | with_reducible apply KeptBy.setFn
    | with_reducible apply KeptBy.setLoad
    | with_reducible apply KeptBy.setDest
    | with_reducible apply KeptBy.newDies
    | with_reducible apply KeptBy.newFns
    | with_reducible apply KeptBy.newLoads
    | with_reducible apply KeptBy.newDests
    | with_reducible apply KeptBy.resetDests
    | split

theorem kept_slotIssue {b s : State} (x1 x2 x3 : _) (h : Kept b s) : Kept b (slotIssue x1 x2 x3 s) := by
  unfold slotIssue
  repeat' first
    | with_reducible assumption
    | intro _
    | with_reducible apply kept_ite
    | dsimp only
    | with_reducible apply kept_onTile
    | with_reducible apply kept_settle
    | with_reducible apply kept_foldl
    | with_reducible apply kept_foldl_snd
    | with_reducible apply kept_foldl_fst
    | with_reducible apply KeptBy.emit
    | with_reducible apply KeptBy.draw
    | with_reducible apply KeptBy.setDie
    | with_reducible apply KeptBy.setFn
    | with_reducible apply KeptBy.setLoad
    | with_reducible apply KeptBy.setDest
    | with_reducible apply KeptBy.newDies
    | with_reducible apply KeptBy.newFns
    | with_reducible apply KeptBy.newLoads
    | with_reducible apply KeptBy.newDests
    | with_reducible apply KeptBy.resetDests
    | split

end Sys2Proof.Laws
end

