-- ==== Sys2Proof/Laws/KeptBroadcast.lean ====
section
/-! SUPPORT. What the operations of Machine/Broadcast.lean on State keep. -/

namespace Sys2Proof.Laws
open Sys2Proof.Machine

theorem kept_sendCopies {b s : State} (x1 x2 x3 x4 : _) (h : Kept b s) : Kept b (sendCopies x1 x2 x3 x4 s) := by
  unfold sendCopies
  repeat' first
    | with_reducible assumption
    | intro _
    | with_reducible apply kept_ite
    | dsimp only
    | with_reducible apply kept_inject
    | with_reducible apply kept_foldl
    | with_reducible apply kept_foldl_snd
    | with_reducible apply kept_foldl_fst
    | with_reducible apply KeptBy.emit
    | with_reducible apply KeptBy.draw
    | with_reducible apply KeptBy.setDie
    | with_reducible apply KeptBy.setFn
    | with_reducible apply KeptBy.setLoad
    | with_reducible apply KeptBy.setDest
    | with_reducible apply KeptBy.newDies
    | with_reducible apply KeptBy.newFns
    | with_reducible apply KeptBy.newLoads
    | with_reducible apply KeptBy.newDests
    | with_reducible apply KeptBy.resetDests
    | split

theorem kept_sendRows {b s : State} (x1 x2 x3 : _) (h : Kept b s) : Kept b (sendRows x1 x2 x3 s) := by
  unfold sendRows
  repeat' first
    | with_reducible assumption
    | intro _
    | with_reducible apply kept_ite
    | dsimp only
    | with_reducible apply kept_inject
    | with_reducible apply kept_foldl
    | with_reducible apply kept_foldl_snd
    | with_reducible apply kept_foldl_fst
    | with_reducible apply KeptBy.emit
    | with_reducible apply KeptBy.draw
    | with_reducible apply KeptBy.setDie
    | with_reducible apply KeptBy.setFn
    | with_reducible apply KeptBy.setLoad
    | with_reducible apply KeptBy.setDest
    | with_reducible apply KeptBy.newDies
    | with_reducible apply KeptBy.newFns
    | with_reducible apply KeptBy.newLoads
    | with_reducible apply KeptBy.newDests
    | with_reducible apply KeptBy.resetDests
    | split

theorem kept_sendNotice {b s : State} (x1 x2 x3 x4 x5 x6 x7 : _) (h : Kept b s) : Kept b (sendNotice x1 x2 x3 x4 x5 x6 x7 s) := by
  unfold sendNotice
  repeat' first
    | with_reducible assumption
    | intro _
    | with_reducible apply kept_ite
    | dsimp only
    | with_reducible apply kept_sendRows
    | with_reducible apply kept_foldl
    | with_reducible apply kept_foldl_snd
    | with_reducible apply kept_foldl_fst
    | with_reducible apply KeptBy.emit
    | with_reducible apply KeptBy.draw
    | with_reducible apply KeptBy.setDie
    | with_reducible apply KeptBy.setFn
    | with_reducible apply KeptBy.setLoad
    | with_reducible apply KeptBy.setDest
    | with_reducible apply KeptBy.newDies
    | with_reducible apply KeptBy.newFns
    | with_reducible apply KeptBy.newLoads
    | with_reducible apply KeptBy.newDests
    | with_reducible apply KeptBy.resetDests
    | split

theorem kept_stopAwaiting {b s : State} (x1 : _) (h : Kept b s) : Kept b (stopAwaiting x1 s) := by
  unfold stopAwaiting
  repeat' first
    | with_reducible assumption
    | intro _
    | with_reducible apply kept_ite
    | dsimp only
    | with_reducible apply kept_foldl
    | with_reducible apply kept_foldl_snd
    | with_reducible apply kept_foldl_fst
    | with_reducible apply KeptBy.emit
    | with_reducible apply KeptBy.draw
    | with_reducible apply KeptBy.setDie
    | with_reducible apply KeptBy.setFn
    | with_reducible apply KeptBy.setLoad
    | with_reducible apply KeptBy.setDest
    | with_reducible apply KeptBy.newDies
    | with_reducible apply KeptBy.newFns
    | with_reducible apply KeptBy.newLoads
    | with_reducible apply KeptBy.newDests
    | with_reducible apply KeptBy.resetDests
    | split

theorem kept_itemLanded {b s : State} (x1 : _) (h : Kept b s) : Kept b (itemLanded x1 s) := by
  unfold itemLanded
  repeat' first
    | with_reducible assumption
    | intro _
    | with_reducible apply kept_ite
    | dsimp only
    | with_reducible apply kept_foldl
    | with_reducible apply kept_foldl_snd
    | with_reducible apply kept_foldl_fst
    | with_reducible apply KeptBy.emit
    | with_reducible apply KeptBy.draw
    | with_reducible apply KeptBy.setDie
    | with_reducible apply KeptBy.setFn
    | with_reducible apply KeptBy.setLoad
    | with_reducible apply KeptBy.setDest
    | with_reducible apply KeptBy.newDies
    | with_reducible apply KeptBy.newFns
    | with_reducible apply KeptBy.newLoads
    | with_reducible apply KeptBy.newDests
    | with_reducible apply KeptBy.resetDests
    | split

theorem kept_takeWord {b s : State} (x1 x2 x3 : _) (h : Kept b s) : Kept b (takeWord x1 x2 x3 s) := by
  unfold takeWord
  repeat' first
    | with_reducible assumption
    | intro _
    | with_reducible apply kept_ite
    | dsimp only
    | with_reducible apply kept_raiseFault
    | with_reducible apply kept_itemLanded
    | with_reducible apply kept_foldl
    | with_reducible apply kept_foldl_snd
    | with_reducible apply kept_foldl_fst
    | with_reducible apply KeptBy.emit
    | with_reducible apply KeptBy.draw
    | with_reducible apply KeptBy.setDie
    | with_reducible apply KeptBy.setFn
    | with_reducible apply KeptBy.setLoad
    | with_reducible apply KeptBy.setDest
    | with_reducible apply KeptBy.newDies
    | with_reducible apply KeptBy.newFns
    | with_reducible apply KeptBy.newLoads
    | with_reducible apply KeptBy.newDests
    | with_reducible apply KeptBy.resetDests
    | split

theorem kept_publishNow {b s : State} (x1 x2 x3 x4 : _) (h : Kept b s) : Kept b (publishNow x1 x2 x3 x4 s) := by
  unfold publishNow
  repeat' first
    | with_reducible assumption
    | intro _
    | with_reducible apply kept_ite
    | dsimp only
    | with_reducible apply kept_takeWord
    | with_reducible apply kept_sendNotice
    | with_reducible apply kept_foldl
    | with_reducible apply kept_foldl_snd
    | with_reducible apply kept_foldl_fst
    | with_reducible apply KeptBy.emit
    | with_reducible apply KeptBy.draw
    | with_reducible apply KeptBy.setDie
    | with_reducible apply KeptBy.setFn
    | with_reducible apply KeptBy.setLoad
    | with_reducible apply KeptBy.setDest
    | with_reducible apply KeptBy.newDies
    | with_reducible apply KeptBy.newFns
    | with_reducible apply KeptBy.newLoads
    | with_reducible apply KeptBy.newDests
    | with_reducible apply KeptBy.resetDests
    | split

end Sys2Proof.Laws
end

