-- ==== Sys2Proof/Laws/KeptShuttle.lean ====
section
/-! SUPPORT. What the operations of Machine/Shuttle.lean on State keep. -/

namespace Sys2Proof.Laws
open Sys2Proof.Machine

theorem kept_transferRow {b s : State} (x1 x2 : _) (h : Kept b s) : Kept b (transferRow x1 x2 s) := by
  unfold transferRow
  repeat' first
    | with_reducible assumption
    | intro _
    | with_reducible apply kept_ite
    | dsimp only
    | with_reducible apply kept_rowWrite
    | with_reducible apply kept_tileSet
    | with_reducible apply kept_foldl
    | with_reducible apply kept_foldl_snd
    | with_reducible apply kept_foldl_fst
    | with_reducible apply KeptBy.emit
    | with_reducible apply KeptBy.draw
    | with_reducible apply KeptBy.setDie
    | with_reducible apply KeptBy.setFn
    | with_reducible apply KeptBy.setLoad
    | with_reducible apply KeptBy.setDest
    | with_reducible apply KeptBy.newDies
    | with_reducible apply KeptBy.newFns
    | with_reducible apply KeptBy.newLoads
    | with_reducible apply KeptBy.newDests
    | with_reducible apply KeptBy.resetDests
    | split

theorem kept_windowBoundary {b s : State} (x1 x2 x3 : _) (h : Kept b s) : Kept b (windowBoundary x1 x2 x3 s) := by
  unfold windowBoundary
  repeat' first
    | with_reducible assumption
    | intro _
    | with_reducible apply kept_ite
    | dsimp only
    | with_reducible apply kept_landedSet
    | with_reducible apply kept_tileSet
    | with_reducible apply kept_raiseFaults
    | with_reducible apply kept_foldl
    | with_reducible apply kept_foldl_snd
    | with_reducible apply kept_foldl_fst
    | with_reducible apply KeptBy.emit
    | with_reducible apply KeptBy.draw
    | with_reducible apply KeptBy.setDie
    | with_reducible apply KeptBy.setFn
    | with_reducible apply KeptBy.setLoad
    | with_reducible apply KeptBy.setDest
    | with_reducible apply KeptBy.newDies
    | with_reducible apply KeptBy.newFns
    | with_reducible apply KeptBy.newLoads
    | with_reducible apply KeptBy.newDests
    | with_reducible apply KeptBy.resetDests
    | split

theorem kept_lateBoundary {b s : State} (ending : Bool) (t : TileIx) (c : Nat) (r : State) (h : Kept b s) : Kept b (lateBoundary ending t c r s) := by
  unfold lateBoundary
  split
  · exact kept_windowBoundary _ _ _ h
  · exact h

end Sys2Proof.Laws
end

