-- ==== Sys2Proof/Laws/KeptVector.lean ====
section
/-! SUPPORT. What the operations of Machine/Vector.lean on State keep. -/

namespace Sys2Proof.Laws
open Sys2Proof.Machine

theorem kept_vectorNext {b s : State} (x1 x2 : _) (h : Kept b s) : Kept b (vectorNext x1 x2 s) := by
  unfold vectorNext
  repeat' first
    | with_reducible assumption
    | intro _
    | with_reducible apply kept_ite
    | dsimp only
    | with_reducible apply kept_rowWrite
    | with_reducible apply kept_tileSet
    | with_reducible apply kept_applyFx
    | with_reducible apply kept_foldl
    | with_reducible apply kept_foldl_snd
    | with_reducible apply kept_foldl_fst
    | with_reducible apply KeptBy.emit
    | with_reducible apply KeptBy.draw
    | with_reducible apply KeptBy.setDie
    | with_reducible apply KeptBy.setFn
    | with_reducible apply KeptBy.setLoad
    | with_reducible apply KeptBy.setDest
    | with_reducible apply KeptBy.newDies
    | with_reducible apply KeptBy.newFns
    | with_reducible apply KeptBy.newLoads
    | with_reducible apply KeptBy.newDests
    | with_reducible apply KeptBy.resetDests
    | split

theorem kept_vSlot {b s : State} (x1 x2 x3 : _) (h : Kept b s) : Kept b (vSlot x1 x2 x3 s) := by
  unfold vSlot
  repeat' first
    | with_reducible assumption
    | intro _
    | with_reducible apply kept_ite
    | dsimp only
    | with_reducible apply kept_slotIssue
    | with_reducible apply kept_foldl
    | with_reducible apply kept_foldl_snd
    | with_reducible apply kept_foldl_fst
    | with_reducible apply KeptBy.emit
    | with_reducible apply KeptBy.draw
    | with_reducible apply KeptBy.setDie
    | with_reducible apply KeptBy.setFn
    | with_reducible apply KeptBy.setLoad
    | with_reducible apply KeptBy.setDest
    | with_reducible apply KeptBy.newDies
    | with_reducible apply KeptBy.newFns
    | with_reducible apply KeptBy.newLoads
    | with_reducible apply KeptBy.newDests
    | with_reducible apply KeptBy.resetDests
    | split

theorem kept_judgeCheck {b s : State} (x1 x2 : _) (h : Kept b s) : Kept b (judgeCheck x1 x2 s) := by
  unfold judgeCheck
  repeat' first
    | with_reducible assumption
    | intro _
    | with_reducible apply kept_ite
    | dsimp only
    | with_reducible apply kept_applyFx
    | with_reducible apply kept_tileSet
    | with_reducible apply kept_foldl
    | with_reducible apply kept_foldl_snd
    | with_reducible apply kept_foldl_fst
    | with_reducible apply KeptBy.emit
    | with_reducible apply KeptBy.draw
    | with_reducible apply KeptBy.setDie
    | with_reducible apply KeptBy.setFn
    | with_reducible apply KeptBy.setLoad
    | with_reducible apply KeptBy.setDest
    | with_reducible apply KeptBy.newDies
    | with_reducible apply KeptBy.newFns
    | with_reducible apply KeptBy.newLoads
    | with_reducible apply KeptBy.newDests
    | with_reducible apply KeptBy.resetDests
    | split

end Sys2Proof.Laws
end

