-- ==== Sys2Proof/Laws/KeptMesh.lean ====
section
/-! SUPPORT. What the operations of Machine/Mesh.lean on State keep. -/

namespace Sys2Proof.Laws
open Sys2Proof.Machine

theorem kept_delayHanded {b s : State} (x1 x2 : _) (h : Kept b s) : Kept b (delayHanded x1 x2 s) := by
  unfold delayHanded
  repeat' first
    | with_reducible assumption
    | intro _
    | with_reducible apply kept_ite
    | dsimp only
    | with_reducible apply kept_linkSet
    | with_reducible apply kept_foldl
    | with_reducible apply kept_foldl_snd
    | with_reducible apply kept_foldl_fst
    | with_reducible apply KeptBy.emit
    | with_reducible apply KeptBy.draw
    | with_reducible apply KeptBy.setDie
    | with_reducible apply KeptBy.setFn
    | with_reducible apply KeptBy.setLoad
    | with_reducible apply KeptBy.setDest
    | with_reducible apply KeptBy.newDies
    | with_reducible apply KeptBy.newFns
    | with_reducible apply KeptBy.newLoads
    | with_reducible apply KeptBy.newDests
    | with_reducible apply KeptBy.resetDests
    | split

theorem kept_waitClash {b s : State} (x1 : _) (h : Kept b s) : Kept b (waitClash x1 s) := by
  unfold waitClash
  repeat' first
    | with_reducible assumption
    | intro _
    | with_reducible apply kept_ite
    | dsimp only
    | with_reducible apply kept_delayHanded
    | with_reducible apply kept_countModule
    | with_reducible apply kept_bump
    | with_reducible apply kept_foldl
    | with_reducible apply kept_foldl_snd
    | with_reducible apply kept_foldl_fst
    | with_reducible apply KeptBy.emit
    | with_reducible apply KeptBy.draw
    | with_reducible apply KeptBy.setDie
    | with_reducible apply KeptBy.setFn
    | with_reducible apply KeptBy.setLoad
    | with_reducible apply KeptBy.setDest
    | with_reducible apply KeptBy.newDies
    | with_reducible apply KeptBy.newFns
    | with_reducible apply KeptBy.newLoads
    | with_reducible apply KeptBy.newDests
    | with_reducible apply KeptBy.resetDests
    | split

theorem kept_settleClashes {b s : State} (x1 : _) (h : Kept b s) : Kept b (settleClashes x1 s) := by
  induction x1 generalizing  s with
  | zero => exact h
  | succ n ih =>
    unfold settleClashes
    repeat' first
      | with_reducible assumption
        | dsimp only
      | with_reducible apply kept_waitClash
      | with_reducible apply ih
      | with_reducible apply kept_foldl
      | with_reducible apply kept_foldl_snd
      | with_reducible apply kept_foldl_fst
      | with_reducible apply KeptBy.emit
      | with_reducible apply KeptBy.draw
      | with_reducible apply KeptBy.setDie
      | with_reducible apply KeptBy.setFn
      | with_reducible apply KeptBy.setLoad
      | with_reducible apply KeptBy.setDest
      | with_reducible apply KeptBy.newDies
      | with_reducible apply KeptBy.newFns
      | with_reducible apply KeptBy.newLoads
      | with_reducible apply KeptBy.newDests
      | with_reducible apply KeptBy.resetDests
      | intro _
      | split

theorem kept_netSend {b s : State} (x1 : _) (h : Kept b s) : Kept b (netSend x1 s) := by
  unfold netSend
  repeat' first
    | with_reducible assumption
    | intro _
    | with_reducible apply kept_ite
    | dsimp only
    | with_reducible apply kept_settleClashes
    | with_reducible apply kept_foldl
    | with_reducible apply kept_foldl_snd
    | with_reducible apply kept_foldl_fst
    | with_reducible apply KeptBy.emit
    | with_reducible apply KeptBy.draw
    | with_reducible apply KeptBy.setDie
    | with_reducible apply KeptBy.setFn
    | with_reducible apply KeptBy.setLoad
    | with_reducible apply KeptBy.setDest
    | with_reducible apply KeptBy.newDies
    | with_reducible apply KeptBy.newFns
    | with_reducible apply KeptBy.newLoads
    | with_reducible apply KeptBy.newDests
    | with_reducible apply KeptBy.resetDests
    | split

theorem kept_netArrive {b s : State} (x1 x2 x3 x4 x5 x6 : _) (h : Kept b s) : Kept b (netArrive x1 x2 x3 x4 x5 x6 s) := by
  unfold netArrive
  repeat' first
    | with_reducible assumption
    | intro _
    | with_reducible apply kept_ite
    | dsimp only
    | with_reducible apply kept_arrive
    | with_reducible apply kept_countTile
    | with_reducible apply kept_bump
    | with_reducible apply kept_foldl
    | with_reducible apply kept_foldl_snd
    | with_reducible apply kept_foldl_fst
    | with_reducible apply KeptBy.emit
    | with_reducible apply KeptBy.draw
    | with_reducible apply KeptBy.setDie
    | with_reducible apply KeptBy.setFn
    | with_reducible apply KeptBy.setLoad
    | with_reducible apply KeptBy.setDest
    | with_reducible apply KeptBy.newDies
    | with_reducible apply KeptBy.newFns
    | with_reducible apply KeptBy.newLoads
    | with_reducible apply KeptBy.newDests
    | with_reducible apply KeptBy.resetDests
    | split

theorem kept_portRows {b s : State} (x1 x2 : _) (h : Kept b s) : Kept b (portRows x1 x2 s) := by
  unfold portRows
  repeat' first
    | with_reducible assumption
    | intro _
    | with_reducible apply kept_ite
    | dsimp only
    | with_reducible apply kept_arrive
    | with_reducible apply kept_foldl
    | with_reducible apply kept_foldl_snd
    | with_reducible apply kept_foldl_fst
    | with_reducible apply KeptBy.emit
    | with_reducible apply KeptBy.draw
    | with_reducible apply KeptBy.setDie
    | with_reducible apply KeptBy.setFn
    | with_reducible apply KeptBy.setLoad
    | with_reducible apply KeptBy.setDest
    | with_reducible apply KeptBy.newDies
    | with_reducible apply KeptBy.newFns
    | with_reducible apply KeptBy.newLoads
    | with_reducible apply KeptBy.newDests
    | with_reducible apply KeptBy.resetDests
    | split

end Sys2Proof.Laws
end

