-- ==== Sys2Proof/Laws/KeptTracer.lean ====
section
/-! SUPPORT. What the operations of Machine/Tracer.lean on State keep. -/

namespace Sys2Proof.Laws
open Sys2Proof.Machine

theorem kept_tracerAccess {b s : State} (x1 : _) (h : Kept b s) : Kept b (tracerAccess x1 s) := by
  unfold tracerAccess
  repeat' first
    | with_reducible assumption
    | intro _
    | with_reducible apply kept_ite
    | dsimp only
    | with_reducible apply kept_setSpent
    | with_reducible apply kept_countModule
    | with_reducible apply kept_bump
    | with_reducible apply kept_foldl
    | with_reducible apply kept_foldl_snd
    | with_reducible apply kept_foldl_fst
    | with_reducible apply KeptBy.emit
    | with_reducible apply KeptBy.draw
    | with_reducible apply KeptBy.setDie
    | with_reducible apply KeptBy.setFn
    | with_reducible apply KeptBy.setLoad
    | with_reducible apply KeptBy.setDest
    | with_reducible apply KeptBy.newDies
    | with_reducible apply KeptBy.newFns
    | with_reducible apply KeptBy.newLoads
    | with_reducible apply KeptBy.newDests
    | with_reducible apply KeptBy.resetDests
    | split

theorem kept_nodeRead {b s : State} (d m : Nat) (h : Kept b s) : Kept b (nodeRead d m s).2 := by
  show KeptSnd b _
  unfold nodeRead
  dsimp only
  exact kept_pair _ _ (kept_bump _ _ _ (kept_backRead _ (kept_tracerAccess _ h)))

theorem kept_nodePut {b s : State} (d m : Nat) (r : Bytes) (h : Kept b s) : Kept b (nodePut d m r s) := by
  unfold nodePut
  exact kept_backPut _ _ (kept_tracerAccess _ h)

theorem kept_readNodes {b s : State} (d : Nat) (l : List Nat) (h : Kept b s) : Kept b (readNodes d l s).2 := by
  induction l generalizing s with
  | nil => exact h
  | cons m l ih =>
    show KeptSnd b _
    unfold readNodes
    dsimp only
    exact kept_pair _ _ (ih (kept_nodeRead _ _ h))

theorem kept_scanTree {b s : State} (d : Nat) (h : Kept b s) : Kept b (scanTree d s).2 := by
  exact kept_readNodes _ _ h

theorem kept_freeNodes {b s : State} (d k m n : Nat) (h : Kept b s) : Kept b (freeNodes d k m n s).2 := by
  induction k generalizing m n s with
  | zero => exact h
  | succ k ih =>
    show KeptSnd b _
    unfold freeNodes
    extract_lets r x
    have hr : Kept b r.2 := kept_nodeRead _ _ h
    have hx : Kept b x.2 := ih _ _ hr
    have hi := ih (m + 1) n hr
    clear_value r x
    split
    · exact kept_pair _ _ h
    · split
      · exact hi
      · exact kept_pair _ _ hx

theorem kept_clearTrees {b s : State} (h : Kept b s) : Kept b (clearTrees s) := by
  unfold clearTrees
  refine kept_objSet _ _ _ (kept_objSet _ _ _ (kept_foldl _ _ (fun s d h => ?_) _ h))
  exact kept_foldl _ _ (fun s m h => kept_backPut _ _ h) _ h

theorem kept_searchKids {b s : State} (d epoch key : Nat) (toks : Bytes) (l : List (Nat × Nat)) (v : Nat) (h : Kept b s) : Kept b (searchKids d epoch key toks l v s).2.2 := by
  induction l generalizing v s with
  | nil => exact h
  | cons y ys ih =>
    obtain ⟨t, m⟩ := y
    show KeptThd b _
    unfold searchKids
    split
    · exact ih _ h
    · split
      · exact h
      · extract_lets r
        have hr : Kept b r.2 := kept_nodeRead _ _ h
        clear_value r
        split
        · exact hr
        · split
          · exact hr
          · exact ih _ hr

theorem kept_searchNode {b s : State} (d epoch key : Nat) (toks : Bytes) (n : Nat) (row : Bytes) (v : Nat) (h : Kept b s) : Kept b (searchNode d epoch key toks n row v s).2.2 := by
  induction n generalizing row v s with
  | zero => exact h
  | succ n ih =>
    show KeptThd b _
    unfold searchNode
    extract_lets x c r
    have hx : Kept b x.2.2 := kept_searchKids _ _ _ _ _ _ h
    have hr : Kept b r.2 := kept_nodeRead _ _ hx
    clear_value r c
    split
    · split
      · exact hx
      · split
        · exact hx
        · split
          · exact ih _ _ hr
          · exact hr
    · exact hx

theorem kept_retire {b s : State} (h : Kept b s) : Kept b (retire s) := by
  unfold retire
  repeat' first
    | with_reducible assumption
    | intro _
    | with_reducible apply kept_ite
    | dsimp only
    | with_reducible apply kept_objSet
    | with_reducible apply kept_foldl
    | with_reducible apply kept_foldl_snd
    | with_reducible apply kept_foldl_fst
    | with_reducible apply KeptBy.emit
    | with_reducible apply KeptBy.draw
    | with_reducible apply KeptBy.setDie
    | with_reducible apply KeptBy.setFn
    | with_reducible apply KeptBy.setLoad
    | with_reducible apply KeptBy.setDest
    | with_reducible apply KeptBy.newDies
    | with_reducible apply KeptBy.newFns
    | with_reducible apply KeptBy.newLoads
    | with_reducible apply KeptBy.newDests
    | with_reducible apply KeptBy.resetDests
    | split

theorem kept_sendBack {b s : State} (x1 x2 x3 x4 x5 x6 x7 : _) (h : Kept b s) : Kept b (sendBack x1 x2 x3 x4 x5 x6 x7 s) := by
  unfold sendBack
  repeat' first
    | with_reducible assumption
    | intro _
    | with_reducible apply kept_ite
    | dsimp only
    | with_reducible apply kept_settleArrived
    | with_reducible apply kept_launchBack
    | with_reducible apply kept_foldl
    | with_reducible apply kept_foldl_snd
    | with_reducible apply kept_foldl_fst
    | with_reducible apply KeptBy.emit
    | with_reducible apply KeptBy.draw
    | with_reducible apply KeptBy.setDie
    | with_reducible apply KeptBy.setFn
    | with_reducible apply KeptBy.setLoad
    | with_reducible apply KeptBy.setDest
    | with_reducible apply KeptBy.newDies
    | with_reducible apply KeptBy.newFns
    | with_reducible apply KeptBy.newLoads
    | with_reducible apply KeptBy.newDests
    | with_reducible apply KeptBy.resetDests
    | split

theorem kept_complete {b s : State} (x1 x2 x3 x4 : _) (h : Kept b s) : Kept b (complete x1 x2 x3 x4 s) := by
  unfold complete
  repeat' first
    | with_reducible assumption
    | intro _
    | with_reducible apply kept_ite
    | dsimp only
    | with_reducible apply kept_portPut
    | with_reducible apply kept_sendBack
    | with_reducible apply kept_retire
    | with_reducible apply kept_raiseVector
    | with_reducible apply kept_countModule
    | with_reducible apply kept_bump
    | with_reducible apply kept_foldl
    | with_reducible apply kept_foldl_snd
    | with_reducible apply kept_foldl_fst
    | with_reducible apply KeptBy.emit
    | with_reducible apply KeptBy.draw
    | with_reducible apply KeptBy.setDie
    | with_reducible apply KeptBy.setFn
    | with_reducible apply KeptBy.setLoad
    | with_reducible apply KeptBy.setDest
    | with_reducible apply KeptBy.newDies
    | with_reducible apply KeptBy.newFns
    | with_reducible apply KeptBy.newLoads
    | with_reducible apply KeptBy.newDests
    | with_reducible apply KeptBy.resetDests
    | split

theorem kept_treeFault {b s : State} (x1 : _) (h : Kept b s) : Kept b (treeFault x1 s) := by
  unfold treeFault
  repeat' first
    | with_reducible assumption
    | intro _
    | with_reducible apply kept_ite
    | dsimp only
    | with_reducible apply kept_raiseFault
    | with_reducible apply kept_foldl
    | with_reducible apply kept_foldl_snd
    | with_reducible apply kept_foldl_fst
    | with_reducible apply KeptBy.emit
    | with_reducible apply KeptBy.draw
    | with_reducible apply KeptBy.setDie
    | with_reducible apply KeptBy.setFn
    | with_reducible apply KeptBy.setLoad
    | with_reducible apply KeptBy.setDest
    | with_reducible apply KeptBy.newDies
    | with_reducible apply KeptBy.newFns
    | with_reducible apply KeptBy.newLoads
    | with_reducible apply KeptBy.newDests
    | with_reducible apply KeptBy.resetDests
    | split

theorem kept_tokensAt {b s : State} (e : Bytes) (i : Nat) (h : Kept b s) : Kept b (tokensAt e i s).2 := by
  unfold tokensAt
  exact kept_pair _ _ (kept_backRead _ h)

theorem kept_pinOne {b s : State} (d m : Nat) (r : Bytes) (h : Kept b s) : Kept b (pinOne d m r s) := by
  unfold pinOne
  exact kept_bump _ _ _ (kept_nodePut _ _ _ (KeptBy.draw _ h))

theorem kept_matchGo {b s : State} (d epoch : Nat) (e : Bytes) (k i m : Nat) (row : Bytes) (v : Nat) (sets : List Nat) (h : Kept b s) : Kept b (matchGo d epoch e k i m row v sets s).2 := by
  induction k generalizing i m row v sets s with
  | zero => exact h
  | succ k ih =>
    show KeptSnd b _
    unfold matchGo
    extract_lets t x
    have ht : Kept b t.2 := kept_tokensAt _ _ h
    have hx : Kept b x.2.2 := kept_searchNode _ _ _ _ _ _ _ ht
    clear_value x
    split
    · exact hx
    · exact hx
    · refine ih _ _ _ _ _ ?_
      exact kept_ite (kept_pinOne _ _ _ hx) (kept_nodePut _ _ _ hx)

theorem kept_matchEntry {b s : State} (d epoch : Nat) (e : Bytes) (h : Kept b s) : Kept b (matchEntry d epoch e s).2 := by
  exact kept_matchGo _ _ _ _ _ _ _ _ _ (kept_nodeRead _ _ h)

theorem kept_roomGo {b s : State} (d n m : Nat) (h : Kept b s) : Kept b (roomGo d n m s).2 := by
  induction n generalizing m s with
  | zero => exact h
  | succ n ih =>
    show KeptSnd b _
    unfold roomGo
    extract_lets r
    have hr : Kept b r.2 := kept_nodeRead _ _ h
    clear_value r
    split
    · exact kept_pair _ _ hr
    · split
      · exact kept_pair _ _ hr
      · exact ih _ hr

theorem kept_addKid {b s : State} (x1 x2 x3 x4 : _) (h : Kept b s) : Kept b (addKid x1 x2 x3 x4 s) := by
  unfold addKid
  repeat' first
    | with_reducible assumption
    | intro _
    | with_reducible apply kept_ite
    | dsimp only
    | with_reducible apply kept_nodeRead
    | with_reducible apply kept_nodePut
    | with_reducible apply kept_foldl
    | with_reducible apply kept_foldl_snd
    | with_reducible apply kept_foldl_fst
    | with_reducible apply KeptBy.emit
    | with_reducible apply KeptBy.draw
    | with_reducible apply KeptBy.setDie
    | with_reducible apply KeptBy.setFn
    | with_reducible apply KeptBy.setLoad
    | with_reducible apply KeptBy.setDest
    | with_reducible apply KeptBy.newDies
    | with_reducible apply KeptBy.newFns
    | with_reducible apply KeptBy.newLoads
    | with_reducible apply KeptBy.newDests
    | with_reducible apply KeptBy.resetDests
    | split

theorem kept_chainTo {b s : State} (x1 x2 x3 : _) (h : Kept b s) : Kept b (chainTo x1 x2 x3 s) := by
  unfold chainTo
  repeat' first
    | with_reducible assumption
    | intro _
    | with_reducible apply kept_ite
    | dsimp only
    | with_reducible apply kept_nodeRead
    | with_reducible apply kept_nodePut
    | with_reducible apply kept_foldl
    | with_reducible apply kept_foldl_snd
    | with_reducible apply kept_foldl_fst
    | with_reducible apply KeptBy.emit
    | with_reducible apply KeptBy.draw
    | with_reducible apply KeptBy.setDie
    | with_reducible apply KeptBy.setFn
    | with_reducible apply KeptBy.setLoad
    | with_reducible apply KeptBy.setDest
    | with_reducible apply KeptBy.newDies
    | with_reducible apply KeptBy.newFns
    | with_reducible apply KeptBy.newLoads
    | with_reducible apply KeptBy.newDests
    | with_reducible apply KeptBy.resetDests
    | split

theorem kept_newNode {b s : State} (d epoch key m page : Nat) (toks : Bytes) (h : Kept b s) : Kept b (newNode d epoch key m page toks s).2 := by
  show KeptSnd b _
  unfold newNode
  extract_lets room free node _x s1
  have hf : Kept b free.2 := kept_freeNodes _ _ _ _ (kept_roomGo _ _ _ h)
  have h1 : Kept b s1 := KeptBy.draw 1 hf
  clear_value s1 node
  split
  · exact kept_bump _ _ _ (kept_addKid _ _ _ _ (kept_nodePut _ _ _ h1))
  · extract_lets s3
    have h3 : Kept b s3 := kept_nodePut _ _ _ (kept_chainTo _ _ _ h1)
    clear_value s3
    exact kept_bump _ _ _ (kept_addKid _ _ _ _ (kept_nodePut _ _ _ h3))
  · exact hf

theorem kept_insertGo {b s : State} (d epoch : Nat) (e : Bytes) (k i m : Nat) (row : Bytes) (v : Nat) (sets : List Nat) (n : Nat) (h : Kept b s) : Kept b (insertGo d epoch e k i m row v sets n s).2 := by
  induction k generalizing i m row v sets n s with
  | zero => exact h
  | succ k ih =>
    show KeptSnd b _
    unfold insertGo
    extract_lets t x y
    have ht : Kept b t.2 := kept_tokensAt _ _ h
    have hx : Kept b x.2.2 := kept_searchNode _ _ _ _ _ _ _ ht
    have hy : Kept b y.2 := kept_newNode _ _ _ _ _ _ hx
    clear_value y x
    split
    · exact hx
    · exact ih _ _ _ _ _ _ hx
    · split
      · exact hy
      · exact ih _ _ _ _ _ _ hy

theorem kept_insertEntry {b s : State} (d epoch : Nat) (e : Bytes) (h : Kept b s) : Kept b (insertEntry d epoch e s).2 := by
  exact kept_insertGo _ _ _ _ _ _ _ _ _ _ (kept_nodeRead _ _ h)

theorem kept_pathUp {b s : State} (d n v m : Nat) (h : Kept b s) : Kept b (pathUp d n v m s).2 := by
  induction n generalizing v m s with
  | zero => exact h
  | succ n ih =>
    show KeptSnd b _
    unfold pathUp
    extract_lets r x
    have hr : Kept b r.2 := kept_nodeRead _ _ h
    have hx : Kept b x.2 := ih _ _ hr
    clear_value x r
    split
    · exact h
    · split
      · exact h
      · split
        · exact hr
        · split
          · exact hr
          · exact hx

theorem kept_entryPath {b s : State} (d : Nat) (e : Bytes) (h : Kept b s) : Kept b (entryPath d e s).2 := by
  exact kept_pathUp _ _ _ _ h

theorem kept_pinEntry {b s : State} (d : Nat) (e : Bytes) (h : Kept b s) : Kept b (pinEntry d e s).2 := by
  show KeptSnd b _
  unfold pinEntry
  extract_lets p
  have hp : Kept b p.2 := kept_entryPath _ _ h
  clear_value p
  split
  · exact hp
  · exact hp
  · exact kept_foldl _ _ (fun s m h => kept_pinOne _ _ _ h) _ hp

theorem kept_unpinOne {b s : State} (d m : Nat) (r : Bytes) (h : Kept b s) : Kept b (unpinOne d m r s) := by
  unfold unpinOne
  extract_lets n s1
  have h1 : Kept b s1 := kept_nodePut _ _ _ h
  clear_value s1
  split
  · exact kept_objSet _ _ _ h1
  · exact h1

theorem kept_unpinEntry {b s : State} (d : Nat) (e : Bytes) (h : Kept b s) : Kept b (unpinEntry d e s).2 := by
  show KeptSnd b _
  unfold unpinEntry
  extract_lets p
  have hp : Kept b p.2 := kept_entryPath _ _ h
  clear_value p
  split
  · exact hp
  · exact hp
  · split
    · exact hp
    · exact kept_foldl _ _ (fun s m h => kept_unpinOne _ _ _ h) _ hp

theorem kept_holderGo {b s : State} (d c n before m : Nat) (h : Kept b s) : Kept b (holderGo d c n before m s).2 := by
  induction n generalizing before m s with
  | zero => exact h
  | succ n ih =>
    show KeptSnd b _
    unfold holderGo
    extract_lets r
    have hr : Kept b r.2 := kept_nodeRead _ _ h
    clear_value r
    split
    · exact hr
    · split
      · exact hr
      · exact ih _ _ hr

theorem kept_dropKid {b s : State} (d c parent : Nat) (h : Kept b s) : Kept b (dropKid d c parent s).2 := by
  show KeptSnd b _
  unfold dropKid
  extract_lets hd
  have hh : Kept b hd.2 := kept_holderGo _ _ _ _ _ h
  clear_value hd
  split
  · exact hh
  · extract_lets l bb b1 s1
    have h1 : Kept b s1 := kept_nodePut _ _ _ (kept_nodePut _ _ _ (kept_nodeRead _ _ hh))
    clear_value s1 b1
    split
    · exact kept_objSet _ _ _ h1
    · exact kept_nodePut _ _ _ hh

theorem kept_evictGo {b s : State} (d epoch k : Nat) (rows : List (Nat × Bytes)) (l : List Nat) (h : Kept b s) : Kept b (evictGo d epoch k rows l s).2 := by
  induction k generalizing rows l s with
  | zero => exact h
  | succ k ih =>
    show KeptSnd b _
    unfold evictGo
    extract_lets best
    clear_value best
    cases best with
    | none => exact h
    | some x => exact ih _ _ (kept_objSet _ _ _ (kept_nodePut _ _ _ (kept_dropKid _ _ _ h)))

theorem kept_evictEntry {b s : State} (d epoch : Nat) (e : Bytes) (h : Kept b s) : Kept b (evictEntry d epoch e s).2 := by
  show KeptSnd b _
  unfold evictEntry
  extract_lets r x
  exact kept_evictGo _ _ _ _ _ (kept_scanTree _ h)

theorem kept_tracerRefuse {b s : State} (x1 x2 x3 : _) (h : Kept b s) : Kept b (tracerRefuse x1 x2 x3 s) := by
  unfold tracerRefuse
  repeat' first
    | with_reducible assumption
    | intro _
    | with_reducible apply kept_ite
    | dsimp only
    | with_reducible apply kept_complete
    | with_reducible apply kept_foldl
    | with_reducible apply kept_foldl_snd
    | with_reducible apply kept_foldl_fst
    | with_reducible apply KeptBy.emit
    | with_reducible apply KeptBy.draw
    | with_reducible apply KeptBy.setDie
    | with_reducible apply KeptBy.setFn
    | with_reducible apply KeptBy.setLoad
    | with_reducible apply KeptBy.setDest
    | with_reducible apply KeptBy.newDies
    | with_reducible apply KeptBy.newFns
    | with_reducible apply KeptBy.newLoads
    | with_reducible apply KeptBy.newDests
    | with_reducible apply KeptBy.resetDests
    | split

theorem kept_tracerAnswer {b : State} (i d epoch : Nat) (e : Bytes) {x : Option Answer × State} (h : Kept b x.2) :
    Kept b (tracerAnswer i d epoch e x) := by
  unfold tracerAnswer
  split
  · exact kept_treeFault _ h
  · exact kept_complete _ _ _ _ h

theorem kept_tracerServe {b s : State} (op i : Nat) (e : Bytes) (act : Nat → Nat → Bytes → State → Option Answer × State)
    (hf : ∀ d p e s, Kept b s → Kept b (act d p e s).2) (h : Kept b s) : Kept b (tracerServe op i e act s) := by
  unfold tracerServe
  split
  · exact kept_tracerRefuse _ _ _ h
  · split
    · exact h
    · split
      · exact kept_tracerRefuse _ _ _ h
      · split
        · exact kept_tracerRefuse _ _ _ h
        · exact kept_tracerAnswer _ _ _ _ (hf _ _ _ _ h)

theorem kept_tracerCommand {b s : State} (x1 x2 x3 : _) (hf : ∀ y0 y1 y2 s, Kept b s → Kept b (x3 y0 y1 y2 s).2) (h : Kept b s) : Kept b (tracerCommand x1 x2 x3 s) := by
  unfold tracerCommand
  repeat' first
    | with_reducible assumption
    | intro _
    | with_reducible apply kept_ite
    | dsimp only
    | with_reducible apply kept_tracerServe
    | with_reducible apply kept_foldl
    | with_reducible apply kept_foldl_snd
    | with_reducible apply kept_foldl_fst
    | with_reducible apply KeptBy.emit
    | with_reducible apply KeptBy.draw
    | with_reducible apply KeptBy.setDie
    | with_reducible apply KeptBy.setFn
    | with_reducible apply KeptBy.setLoad
    | with_reducible apply KeptBy.setDest
    | with_reducible apply KeptBy.newDies
    | with_reducible apply KeptBy.newFns
    | with_reducible apply KeptBy.newLoads
    | with_reducible apply KeptBy.newDests
    | with_reducible apply KeptBy.resetDests
    | with_reducible apply hf
    | split

theorem kept_tracerAbort {b s : State} (h : Kept b s) : Kept b (tracerAbort s) := by
  unfold tracerAbort
  repeat' first
    | with_reducible assumption
    | intro _
    | with_reducible apply kept_ite
    | dsimp only
    | with_reducible apply kept_retire
    | with_reducible apply kept_portPut
    | with_reducible apply kept_foldl
    | with_reducible apply kept_foldl_snd
    | with_reducible apply kept_foldl_fst
    | with_reducible apply KeptBy.emit
    | with_reducible apply KeptBy.draw
    | with_reducible apply KeptBy.setDie
    | with_reducible apply KeptBy.setFn
    | with_reducible apply KeptBy.setLoad
    | with_reducible apply KeptBy.setDest
    | with_reducible apply KeptBy.newDies
    | with_reducible apply KeptBy.newFns
    | with_reducible apply KeptBy.newLoads
    | with_reducible apply KeptBy.newDests
    | with_reducible apply KeptBy.resetDests
    | split

end Sys2Proof.Laws
end

