-- ==== Sys2Proof/Laws/KeptLoader.lean ====
section
/-! SUPPORT. What the operations of Machine/Loader.lean on State keep. -/

namespace Sys2Proof.Laws
open Sys2Proof.Machine

theorem kept_placeSched {b s : State} (x1 x2 x3 x4 x5 : _) (h : Kept b s) : Kept b (placeSched x1 x2 x3 x4 x5 s) := by
  unfold placeSched
  repeat' first
    | with_reducible assumption
    | intro _
    | with_reducible apply kept_ite
    | dsimp only
    | with_reducible apply kept_rowPut
    | with_reducible apply kept_foldl
    | with_reducible apply kept_foldl_snd
    | with_reducible apply kept_foldl_fst
    | with_reducible apply KeptBy.emit
    | with_reducible apply KeptBy.draw
    | with_reducible apply KeptBy.setDie
    | with_reducible apply KeptBy.setFn
    | with_reducible apply KeptBy.setLoad
    | with_reducible apply KeptBy.setDest
    | with_reducible apply KeptBy.newDies
    | with_reducible apply KeptBy.newFns
    | with_reducible apply KeptBy.newLoads
    | with_reducible apply KeptBy.newDests
    | with_reducible apply KeptBy.resetDests
    | split

theorem kept_placeTile {b s : State} (p : Pattern) (t : Nat) (h : Kept b s) : Kept b (placeTile p t s) := by
  unfold placeTile
  refine kept_foldl_snd _ _ (fun acc d k => ?_) (0, s) h
  split
  · exact k
  · exact kept_pair _ _ (kept_placeSched _ _ _ _ _ k)

theorem kept_installPattern {b s : State} (p : Pattern) (h : Kept b s) : Kept b (installPattern p s) := by
  unfold installPattern
  refine kept_foldl _ _ (fun s t k => ?_) _ (kept_objSet _ _ _ (kept_objSet _ _ _ (kept_objSet _ _ _
    (kept_extendReg _ _ (s := { s with pattern := some p }) h))))
  split
  · exact k
  · exact kept_placeTile _ _ k

theorem kept_loadRespond {b s : State} (seq : BitVec 32) (c : Check) (h : Kept b s) : Kept b (loadRespond seq c s) := by
  unfold loadRespond
  exact kept_raiseVector _ (kept_objSet _ _ _ (kept_portPut _ _ (kept_portPut _ _ (kept_portPut _ _
    (s := { s with loadSeq := none }) h))))

theorem kept_loadCommand {b s : State} (x1 : _) (h : Kept b s) : Kept b (loadCommand x1 s) := by
  unfold loadCommand
  repeat' first
    | with_reducible assumption
    | intro _
    | with_reducible apply kept_ite
    | dsimp only
    | with_reducible apply kept_portPut
    | with_reducible apply kept_emits
    | with_reducible apply kept_foldl
    | with_reducible apply kept_foldl_snd
    | with_reducible apply kept_foldl_fst
    | with_reducible apply KeptBy.emit
    | with_reducible apply KeptBy.draw
    | with_reducible apply KeptBy.setDie
    | with_reducible apply KeptBy.setFn
    | with_reducible apply KeptBy.setLoad
    | with_reducible apply KeptBy.setDest
    | with_reducible apply KeptBy.newDies
    | with_reducible apply KeptBy.newFns
    | with_reducible apply KeptBy.newLoads
    | with_reducible apply KeptBy.newDests
    | with_reducible apply KeptBy.resetDests
    | split

theorem kept_loadComplete {b s : State} (x1 x2 x3 : _) (h : Kept b s) : Kept b (loadComplete x1 x2 x3 s) := by
  unfold loadComplete
  repeat' first
    | with_reducible assumption
    | intro _
    | with_reducible apply kept_ite
    | dsimp only
    | with_reducible apply kept_loadRespond
    | with_reducible apply kept_installPattern
    | with_reducible apply kept_foldl
    | with_reducible apply kept_foldl_snd
    | with_reducible apply kept_foldl_fst
    | with_reducible apply KeptBy.emit
    | with_reducible apply KeptBy.draw
    | with_reducible apply KeptBy.setDie
    | with_reducible apply KeptBy.setFn
    | with_reducible apply KeptBy.setLoad
    | with_reducible apply KeptBy.setDest
    | with_reducible apply KeptBy.newDies
    | with_reducible apply KeptBy.newFns
    | with_reducible apply KeptBy.newLoads
    | with_reducible apply KeptBy.newDests
    | with_reducible apply KeptBy.resetDests
    | split

end Sys2Proof.Laws
end

