-- ==== Sys2Proof/Laws/KeptStart.lean ====
section
/-! SUPPORT. What the operations of Machine/Start.lean on State keep. -/

namespace Sys2Proof.Laws
open Sys2Proof.Machine

theorem kept_resetObjects {b s : State} (t : State) (h : Kept b s) : Kept b (resetObjects t s) := by
  unfold resetObjects
  extract_lets r1 r2 r3
  have h1 : Kept b r1 := kept_foldl _ _ (fun r e k => kept_objSet _ _ _ k) _ h
  have h2 : Kept b r2 := kept_foldl _ _ (fun r e k => kept_octSet _ _ _ k) _ h1
  have h3 : Kept b r3 := by
    show Kept b (if _ then _ else _)
    split
    · exact kept_objSet _ _ _ h2
    · exact h2
  exact kept_foldl _ _ (fun r e k => kept_objSet _ _ _ k) _ h3

theorem kept_resetParts {b s : State} (cause first : Nat) (h : Kept b s) : Kept b (resetParts cause first s) := by
  exact ⟨h.ident, h.pending, h.mem, fun _ => rfl, h.out, h.free, fun _ => rfl, fun _ => rfl, fun _ => rfl, fun _ => rfl⟩

theorem kept_resetTo {b s : State} (cause first : Nat) (h : Kept b s) : Kept b (resetTo cause first s) := by
  unfold resetTo
  extract_lets r1 r2 r3
  have h1 : Kept b r1 := kept_resetObjects _ (kept_resetParts _ _ h)
  have h2 : Kept b r2 := by
    show Kept b (if _ then _ else _)
    split
    · exact h1
    · exact kept_objSet _ _ _ (kept_objSet _ _ _ h1)
  have h3 : Kept b r3 := by
    show Kept b (if _ then _ else _)
    split
    · exact kept_octSet _ _ _ (kept_octSet _ _ _ (kept_octSet _ _ _ (kept_objSet _ _ _ (kept_objSet _ _ _ h2))))
    · exact h2
  exact kept_objSet _ _ _ (kept_objSet _ _ _ h3)

theorem kept_writeJournal {b s : State} (h : Kept b s) : Kept b (writeJournal s) := by
  unfold writeJournal
  repeat' first
    | with_reducible assumption
    | intro _
    | with_reducible apply kept_ite
    | dsimp only
    | with_reducible apply kept_foldl
    | with_reducible apply kept_foldl_snd
    | with_reducible apply kept_foldl_fst
    | with_reducible apply KeptBy.emit
    | with_reducible apply KeptBy.draw
    | with_reducible apply KeptBy.setDie
    | with_reducible apply KeptBy.setFn
    | with_reducible apply KeptBy.setLoad
    | with_reducible apply KeptBy.setDest
    | with_reducible apply KeptBy.newDies
    | with_reducible apply KeptBy.newFns
    | with_reducible apply KeptBy.newLoads
    | with_reducible apply KeptBy.newDests
    | with_reducible apply KeptBy.resetDests
    | split

theorem kept_setOutcome {b s : State} (x1 x2 : _) (h : Kept b s) : Kept b (setOutcome x1 x2 s) := by
  unfold setOutcome
  repeat' first
    | with_reducible assumption
    | intro _
    | with_reducible apply kept_ite
    | dsimp only
    | with_reducible apply kept_foldl
    | with_reducible apply kept_foldl_snd
    | with_reducible apply kept_foldl_fst
    | with_reducible apply KeptBy.emit
    | with_reducible apply KeptBy.draw
    | with_reducible apply KeptBy.setDie
    | with_reducible apply KeptBy.setFn
    | with_reducible apply KeptBy.setLoad
    | with_reducible apply KeptBy.setDest
    | with_reducible apply KeptBy.newDies
    | with_reducible apply KeptBy.newFns
    | with_reducible apply KeptBy.newLoads
    | with_reducible apply KeptBy.newDests
    | with_reducible apply KeptBy.resetDests
    | split

theorem kept_interruptStart {b s : State} (h : Kept b s) : Kept b (interruptStart s) := by
  unfold interruptStart
  repeat' first
    | with_reducible assumption
    | intro _
    | with_reducible apply kept_ite
    | dsimp only
    | with_reducible apply kept_writeJournal
    | with_reducible apply kept_setOutcome
    | with_reducible apply kept_foldl
    | with_reducible apply kept_foldl_snd
    | with_reducible apply kept_foldl_fst
    | with_reducible apply KeptBy.emit
    | with_reducible apply KeptBy.draw
    | with_reducible apply KeptBy.setDie
    | with_reducible apply KeptBy.setFn
    | with_reducible apply KeptBy.setLoad
    | with_reducible apply KeptBy.setDest
    | with_reducible apply KeptBy.newDies
    | with_reducible apply KeptBy.newFns
    | with_reducible apply KeptBy.newLoads
    | with_reducible apply KeptBy.newDests
    | with_reducible apply KeptBy.resetDests
    | split

theorem kept_beginStep {b s : State} (x1 : _) (h : Kept b s) : Kept b (beginStep x1 s) := by
  unfold beginStep
  repeat' first
    | with_reducible assumption
    | intro _
    | with_reducible apply kept_ite
    | dsimp only
    | with_reducible apply kept_setOutcome
    | with_reducible apply kept_objSet
    | with_reducible apply kept_writeJournal
    | with_reducible apply kept_foldl
    | with_reducible apply kept_foldl_snd
    | with_reducible apply kept_foldl_fst
    | with_reducible apply KeptBy.emit
    | with_reducible apply KeptBy.draw
    | with_reducible apply KeptBy.setDie
    | with_reducible apply KeptBy.setFn
    | with_reducible apply KeptBy.setLoad
    | with_reducible apply KeptBy.setDest
    | with_reducible apply KeptBy.newDies
    | with_reducible apply KeptBy.newFns
    | with_reducible apply KeptBy.newLoads
    | with_reducible apply KeptBy.newDests
    | with_reducible apply KeptBy.resetDests
    | split

theorem kept_passStep {b s : State} (x1 x2 : _) (h : Kept b s) : Kept b (passStep x1 x2 s) := by
  unfold passStep
  repeat' first
    | with_reducible assumption
    | intro _
    | with_reducible apply kept_ite
    | dsimp only
    | with_reducible apply kept_objSet
    | with_reducible apply kept_setOutcome
    | with_reducible apply kept_writeJournal
    | with_reducible apply kept_foldl
    | with_reducible apply kept_foldl_snd
    | with_reducible apply kept_foldl_fst
    | with_reducible apply KeptBy.emit
    | with_reducible apply KeptBy.draw
    | with_reducible apply KeptBy.setDie
    | with_reducible apply KeptBy.setFn
    | with_reducible apply KeptBy.setLoad
    | with_reducible apply KeptBy.setDest
    | with_reducible apply KeptBy.newDies
    | with_reducible apply KeptBy.newFns
    | with_reducible apply KeptBy.newLoads
    | with_reducible apply KeptBy.newDests
    | with_reducible apply KeptBy.resetDests
    | split

theorem kept_failStep {b s : State} (x1 x2 : _) (h : Kept b s) : Kept b (failStep x1 x2 s) := by
  unfold failStep
  repeat' first
    | with_reducible assumption
    | intro _
    | with_reducible apply kept_ite
    | dsimp only
    | with_reducible apply kept_setOutcome
    | with_reducible apply kept_writeJournal
    | with_reducible apply kept_raiseFault
    | with_reducible apply kept_objSet
    | with_reducible apply kept_foldl
    | with_reducible apply kept_foldl_snd
    | with_reducible apply kept_foldl_fst
    | with_reducible apply KeptBy.emit
    | with_reducible apply KeptBy.draw
    | with_reducible apply KeptBy.setDie
    | with_reducible apply KeptBy.setFn
    | with_reducible apply KeptBy.setLoad
    | with_reducible apply KeptBy.setDest
    | with_reducible apply KeptBy.newDies
    | with_reducible apply KeptBy.newFns
    | with_reducible apply KeptBy.newLoads
    | with_reducible apply KeptBy.newDests
    | with_reducible apply KeptBy.resetDests
    | split

theorem kept_enterRecovery {b s : State} (x1 : _) (h : Kept b s) : Kept b (enterRecovery x1 s) := by
  unfold enterRecovery
  repeat' first
    | with_reducible assumption
    | intro _
    | with_reducible apply kept_ite
    | dsimp only
    | with_reducible apply kept_setOutcome
    | with_reducible apply kept_bumpKept
    | with_reducible apply kept_objSet
    | with_reducible apply kept_writeJournal
    | with_reducible apply kept_pcieTrain
    | with_reducible apply kept_foldl
    | with_reducible apply kept_foldl_snd
    | with_reducible apply kept_foldl_fst
    | with_reducible apply KeptBy.emit
    | with_reducible apply KeptBy.draw
    | with_reducible apply KeptBy.setDie
    | with_reducible apply KeptBy.setFn
    | with_reducible apply KeptBy.setLoad
    | with_reducible apply KeptBy.setDest
    | with_reducible apply KeptBy.newDies
    | with_reducible apply KeptBy.newFns
    | with_reducible apply KeptBy.newLoads
    | with_reducible apply KeptBy.newDests
    | with_reducible apply KeptBy.resetDests
    | split

theorem kept_stepS1 {b s : State} (f : StartFacts) (h : Kept b s) : Kept b (stepS1 f s).2.2 := by
  refine (?_ : KeptThd b (stepS1 f s))
  unfold stepS1
  split
  · exact h
  · extract_lets s1
    have h1 : Kept b s1 := kept_objSet _ _ _ (kept_objSet _ _ _ h)
    clear_value s1
    show Kept b (if _ then _ else _)
    split
    · exact kept_fnEnable _ h1
    · exact h1

theorem kept_stepS2 {b s : State} (f : StartFacts) (h : Kept b s) : Kept b (stepS2 f s).2.2 := by
  refine (?_ : KeptThd b (stepS2 f s))
  unfold stepS2
  split
  · exact h
  · extract_lets ed ml pe pm _x s1 s2
    have h2 : Kept b s2 := kept_octSet _ _ _ (kept_octSet _ _ _ (kept_octSet _ _ _ (s := s1) h))
    clear_value s2
    exact kept_extendReg _ _ h2

theorem kept_takeImage {b s : State} (x1 : _) (h : Kept b s) : Kept b (takeImage x1 s) := by
  unfold takeImage
  repeat' first
    | with_reducible assumption
    | intro _
    | with_reducible apply kept_ite
    | dsimp only
    | with_reducible apply kept_objSet
    | with_reducible apply kept_extendReg
    | with_reducible apply kept_foldl
    | with_reducible apply kept_foldl_snd
    | with_reducible apply kept_foldl_fst
    | with_reducible apply KeptBy.emit
    | with_reducible apply KeptBy.draw
    | with_reducible apply KeptBy.setDie
    | with_reducible apply KeptBy.setFn
    | with_reducible apply KeptBy.setLoad
    | with_reducible apply KeptBy.setDest
    | with_reducible apply KeptBy.newDies
    | with_reducible apply KeptBy.newFns
    | with_reducible apply KeptBy.newLoads
    | with_reducible apply KeptBy.newDests
    | with_reducible apply KeptBy.resetDests
    | split

theorem kept_stepS3 {b s : State} (f : StartFacts) (h : Kept b s) : Kept b (stepS3 f s).2.2 := by
  refine (?_ : KeptThd b (stepS3 f s))
  unfold stepS3
  extract_lets c
  split
  · exact kept_takeImage _ h
  · exact h

theorem kept_stepS4 {b s : State} (f : StartFacts) (h : Kept b s) : Kept b (stepS4 f s).2.2 := by
  refine (?_ : KeptThd b (stepS4 f s))
  unfold stepS4
  extract_lets good _x s1
  split
  · exact h
  · have h1 : Kept b s1 := kept_objSet _ _ _ (s := { s with power := { s.power with rails := true } }) h
    clear_value s1
    show Kept b (if _ then _ else _)
    split
    · exact kept_pcieTrain h1
    · exact h1

theorem kept_stepS5 {b s : State} (f : StartFacts) (h : Kept b s) : Kept b (stepS5 f s).2.2 := by
  refine (?_ : KeptThd b (stepS5 f s))
  unfold stepS5
  extract_lets s1 locks
  have h1 : Kept b s1 := kept_objSet _ _ _ (kept_objSet _ _ _ h)
  clear_value s1
  split
  · exact kept_objSet _ _ _ h1
  · extract_lets s2
    have h2 : Kept b s2 := kept_objSet _ _ _ (kept_objSet _ _ _ h1)
    clear_value s2
    split
    · exact h2
    · exact h2

theorem shiftRows_dies (l : List Nat) (i : Integrity) : (l.foldl shiftRow i).dies = i.dies := by
  induction l generalizing i with
  | nil => rfl
  | cons t l ih => exact ih _

theorem kept_repairTiles {b s : State} (h : Kept b s) : Kept b (repairTiles s) := by
  unfold repairTiles
  split
  · exact h
  · exact kept_tableWrite (s := { s with integrity := { s.integrity.markTiles.foldl shiftRow s.integrity with markTiles := [] } })
      { h with dies := fun e => (congrArg List.length (shiftRows_dies _ _)).trans (h.dies e) }

theorem kept_stepS6 {b s : State} (f : StartFacts) (h : Kept b s) : Kept b (stepS6 f s).2.2 := by
  refine (?_ : KeptThd b (stepS6 f s))
  unfold stepS6
  split
  · exact kept_repairTiles (kept_repairRows (kept_objSet _ _ _ (s := { s with integrity := loadTable _ s.integrity }) h))
  · exact kept_raiseFault _ _ (s := { s with integrity := _, start := _ }) h

theorem kept_clearKept {b s : State} (i j : Nat) (h : Kept b s) : Kept b (clearKept i j s) := by
  exact kept_objSet _ _ _ (s := { s with flash := mdel s.flash (objKey i j) }) h

theorem kept_stepS7 {b s : State} (f : StartFacts) (h : Kept b s) : Kept b (stepS7 f s).2.2 := by
  refine (?_ : KeptThd b (stepS7 f s))
  unfold stepS7
  extract_lets full _x s1 s2 stuck
  have h1 : Kept b s1 := kept_clearKept _ _ (s := { s with
    mem := _, upsets := [], poison := [], landed := [], start := _ }) (KeptBy.store (memWf_filter _ _) h)
  clear_value s1
  have h2 : Kept b s2 := by
    refine kept_foldl _ _ (fun s a k => ?_) _ h1
    show Kept b (if _ then _ else _)
    split
    · exact k
    · exact kept_markRow _ k
  clear_value s2
  split
  · exact h2
  · exact kept_repairRows h2

theorem kept_stepS8 {b s : State} (f : StartFacts) (h : Kept b s) : Kept b (stepS8 f s).2.2 := by
  refine (?_ : KeptThd b (stepS8 f s))
  unfold stepS8
  extract_lets full _x _y s1 s2 _z s3 long
  have h1 : Kept b s1 := kept_clearKept _ _ (s := { s with mem := [], tiles := [], scrubBase := _, net := _, start := _ })
    (KeptBy.store (m' := []) (fun _ => rfl) h)
  have h2 : Kept b s2 := kept_foldl _ _ (fun s t k => kept_markTile _ k) _ h1
  clear_value s2
  split
  · exact h2
  · exact h2

theorem kept_stepS10 {b s : State} (f : StartFacts) (h : Kept b s) : Kept b (stepS10 f s).2.2 := by
  refine (?_ : KeptThd b (stepS10 f s))
  unfold stepS10
  extract_lets marks bad half l use _x s1 total
  split
  · exact h
  · have h1 : Kept b s1 := kept_tableWrite (s := { s with integrity := _ }) h
    clear_value s1
    exact kept_objSet _ _ _ (kept_objSet _ _ _ h1)

theorem kept_stepS11 {b s : State} (x1 : _) (h : Kept b s) : Kept b (stepS11 x1 s) := by
  unfold stepS11
  repeat' first
    | with_reducible assumption
    | intro _
    | with_reducible apply kept_ite
    | dsimp only
    | with_reducible apply kept_trainLanes
    | with_reducible apply kept_fnEnable
    | with_reducible apply kept_foldl
    | with_reducible apply kept_foldl_snd
    | with_reducible apply kept_foldl_fst
    | with_reducible apply KeptBy.emit
    | with_reducible apply KeptBy.draw
    | with_reducible apply KeptBy.setDie
    | with_reducible apply KeptBy.setFn
    | with_reducible apply KeptBy.setLoad
    | with_reducible apply KeptBy.setDest
    | with_reducible apply KeptBy.newDies
    | with_reducible apply KeptBy.newFns
    | with_reducible apply KeptBy.newLoads
    | with_reducible apply KeptBy.newDests
    | with_reducible apply KeptBy.resetDests
    | split

theorem kept_cutTraining {b s : State} (x1 : _) (h : Kept b s) : Kept b (cutTraining s x1) := by
  unfold cutTraining
  repeat' first
    | with_reducible assumption
    | intro _
    | with_reducible apply kept_ite
    | dsimp only
    | with_reducible apply kept_trainEnd
    | with_reducible apply kept_foldl
    | with_reducible apply kept_foldl_snd
    | with_reducible apply kept_foldl_fst
    | with_reducible apply KeptBy.emit
    | with_reducible apply KeptBy.draw
    | with_reducible apply KeptBy.setDie
    | with_reducible apply KeptBy.setFn
    | with_reducible apply KeptBy.setLoad
    | with_reducible apply KeptBy.setDest
    | with_reducible apply KeptBy.newDies
    | with_reducible apply KeptBy.newFns
    | with_reducible apply KeptBy.newLoads
    | with_reducible apply KeptBy.newDests
    | with_reducible apply KeptBy.resetDests
    | split

theorem kept_sendHandshake {b s : State} (x1 : _) (h : Kept b s) : Kept b (sendHandshake x1 s) := by
  unfold sendHandshake
  repeat' first
    | with_reducible assumption
    | intro _
    | with_reducible apply kept_ite
    | dsimp only
    | with_reducible apply kept_toPort
    | with_reducible apply kept_linkSet
    | with_reducible apply kept_foldl
    | with_reducible apply kept_foldl_snd
    | with_reducible apply kept_foldl_fst
    | with_reducible apply KeptBy.emit
    | with_reducible apply KeptBy.draw
    | with_reducible apply KeptBy.setDie
    | with_reducible apply KeptBy.setFn
    | with_reducible apply KeptBy.setLoad
    | with_reducible apply KeptBy.setDest
    | with_reducible apply KeptBy.newDies
    | with_reducible apply KeptBy.newFns
    | with_reducible apply KeptBy.newLoads
    | with_reducible apply KeptBy.newDests
    | with_reducible apply KeptBy.resetDests
    | split

theorem kept_beginS12 {b s : State} (h : Kept b s) : Kept b (beginS12 s) := by
  unfold beginS12
  repeat' first
    | with_reducible assumption
    | intro _
    | with_reducible apply kept_ite
    | dsimp only
    | with_reducible apply kept_sendHandshake
    | with_reducible apply kept_beginStep
    | with_reducible apply kept_foldl
    | with_reducible apply kept_foldl_snd
    | with_reducible apply kept_foldl_fst
    | with_reducible apply KeptBy.emit
    | with_reducible apply KeptBy.draw
    | with_reducible apply KeptBy.setDie
    | with_reducible apply KeptBy.setFn
    | with_reducible apply KeptBy.setLoad
    | with_reducible apply KeptBy.setDest
    | with_reducible apply KeptBy.newDies
    | with_reducible apply KeptBy.newFns
    | with_reducible apply KeptBy.newLoads
    | with_reducible apply KeptBy.newDests
    | with_reducible apply KeptBy.resetDests
    | split

theorem kept_endS11 {b s : State} (h : Kept b s) : Kept b (endS11 s) := by
  unfold endS11
  repeat' first
    | with_reducible assumption
    | intro _
    | with_reducible apply kept_ite
    | dsimp only
    | with_reducible apply kept_cutTraining
    | with_reducible apply kept_beginS12
    | with_reducible apply kept_passStep
    | with_reducible apply kept_foldl
    | with_reducible apply kept_foldl_snd
    | with_reducible apply kept_foldl_fst
    | with_reducible apply KeptBy.emit
    | with_reducible apply KeptBy.draw
    | with_reducible apply KeptBy.setDie
    | with_reducible apply KeptBy.setFn
    | with_reducible apply KeptBy.setLoad
    | with_reducible apply KeptBy.setDest
    | with_reducible apply KeptBy.newDies
    | with_reducible apply KeptBy.newFns
    | with_reducible apply KeptBy.newLoads
    | with_reducible apply KeptBy.newDests
    | with_reducible apply KeptBy.resetDests
    | split

theorem kept_settleS11 {b s : State} (h : Kept b s) : Kept b (settleS11 s) := by
  unfold settleS11
  repeat' first
    | with_reducible assumption
    | intro _
    | with_reducible apply kept_ite
    | dsimp only
    | with_reducible apply kept_endS11
    | with_reducible apply kept_foldl
    | with_reducible apply kept_foldl_snd
    | with_reducible apply kept_foldl_fst
    | with_reducible apply KeptBy.emit
    | with_reducible apply KeptBy.draw
    | with_reducible apply KeptBy.setDie
    | with_reducible apply KeptBy.setFn
    | with_reducible apply KeptBy.setLoad
    | with_reducible apply KeptBy.setDest
    | with_reducible apply KeptBy.newDies
    | with_reducible apply KeptBy.newFns
    | with_reducible apply KeptBy.newLoads
    | with_reducible apply KeptBy.newDests
    | with_reducible apply KeptBy.resetDests
    | split

theorem kept_greet {b s : State} (l : Nat) (r : State) (h : Kept b s) : Kept b (greet l r s) := by
  unfold greet
  split
  · exact kept_sendHandshake _ h
  · exact h

theorem kept_reachReady {b s : State} (h : Kept b s) : Kept b (reachReady s) := by
  unfold reachReady
  repeat' first
    | with_reducible assumption
    | intro _
    | with_reducible apply kept_ite
    | dsimp only
    | with_reducible apply kept_setOutcome
    | with_reducible apply kept_objSet
    | with_reducible apply kept_writeJournal
    | with_reducible apply kept_fnEnable
    | with_reducible apply kept_checkHealth
    | with_reducible apply kept_foldl
    | with_reducible apply kept_foldl_snd
    | with_reducible apply kept_foldl_fst
    | with_reducible apply KeptBy.emit
    | with_reducible apply KeptBy.draw
    | with_reducible apply KeptBy.setDie
    | with_reducible apply KeptBy.setFn
    | with_reducible apply KeptBy.setLoad
    | with_reducible apply KeptBy.setDest
    | with_reducible apply KeptBy.newDies
    | with_reducible apply KeptBy.newFns
    | with_reducible apply KeptBy.newLoads
    | with_reducible apply KeptBy.newDests
    | with_reducible apply KeptBy.resetDests
    | split

theorem kept_moveClock {b s : State} (x1 : _) (h : Kept b s) : Kept b (moveClock x1 s) := by
  unfold moveClock
  repeat' first
    | with_reducible assumption
    | intro _
    | with_reducible apply kept_ite
    | dsimp only
    | with_reducible apply kept_foldl
    | with_reducible apply kept_foldl_snd
    | with_reducible apply kept_foldl_fst
    | with_reducible apply KeptBy.emit
    | with_reducible apply KeptBy.draw
    | with_reducible apply KeptBy.setDie
    | with_reducible apply KeptBy.setFn
    | with_reducible apply KeptBy.setLoad
    | with_reducible apply KeptBy.setDest
    | with_reducible apply KeptBy.newDies
    | with_reducible apply KeptBy.newFns
    | with_reducible apply KeptBy.newLoads
    | with_reducible apply KeptBy.newDests
    | with_reducible apply KeptBy.resetDests
    | split

theorem kept_adopt {b s : State} (x1 x2 : _) (h : Kept b s) : Kept b (adopt x1 x2 s) := by
  unfold adopt
  repeat' first
    | with_reducible assumption
    | intro _
    | with_reducible apply kept_ite
    | dsimp only
    | with_reducible apply kept_reachReady
    | with_reducible apply kept_objSet
    | with_reducible apply kept_moveClock
    | with_reducible apply kept_foldl
    | with_reducible apply kept_foldl_snd
    | with_reducible apply kept_foldl_fst
    | with_reducible apply KeptBy.emit
    | with_reducible apply KeptBy.draw
    | with_reducible apply KeptBy.setDie
    | with_reducible apply KeptBy.setFn
    | with_reducible apply KeptBy.setLoad
    | with_reducible apply KeptBy.setDest
    | with_reducible apply KeptBy.newDies
    | with_reducible apply KeptBy.newFns
    | with_reducible apply KeptBy.newLoads
    | with_reducible apply KeptBy.newDests
    | with_reducible apply KeptBy.resetDests
    | split

theorem kept_takeEchoes {b s : State} (h : Kept b s) : Kept b (takeEchoes s) := by
  unfold takeEchoes
  repeat' first
    | with_reducible assumption
    | intro _
    | with_reducible apply kept_ite
    | dsimp only
    | with_reducible apply kept_adopt
    | with_reducible apply kept_foldl
    | with_reducible apply kept_foldl_snd
    | with_reducible apply kept_foldl_fst
    | with_reducible apply KeptBy.emit
    | with_reducible apply KeptBy.draw
    | with_reducible apply KeptBy.setDie
    | with_reducible apply KeptBy.setFn
    | with_reducible apply KeptBy.setLoad
    | with_reducible apply KeptBy.setDest
    | with_reducible apply KeptBy.newDies
    | with_reducible apply KeptBy.newFns
    | with_reducible apply KeptBy.newLoads
    | with_reducible apply KeptBy.newDests
    | with_reducible apply KeptBy.resetDests
    | split

theorem kept_echoAtS12 {b s : State} (x1 x2 : _) (h : Kept b s) : Kept b (echoAtS12 x1 x2 s) := by
  unfold echoAtS12
  repeat' first
    | with_reducible assumption
    | intro _
    | with_reducible apply kept_ite
    | dsimp only
    | with_reducible apply kept_takeEchoes
    | with_reducible apply kept_foldl
    | with_reducible apply kept_foldl_snd
    | with_reducible apply kept_foldl_fst
    | with_reducible apply KeptBy.emit
    | with_reducible apply KeptBy.draw
    | with_reducible apply KeptBy.setDie
    | with_reducible apply KeptBy.setFn
    | with_reducible apply KeptBy.setLoad
    | with_reducible apply KeptBy.setDest
    | with_reducible apply KeptBy.newDies
    | with_reducible apply KeptBy.newFns
    | with_reducible apply KeptBy.newLoads
    | with_reducible apply KeptBy.newDests
    | with_reducible apply KeptBy.resetDests
    | split

theorem kept_recordTheta {b s : State} (x1 : _) (h : Kept b s) : Kept b (recordTheta x1 s) := by
  unfold recordTheta
  repeat' first
    | with_reducible assumption
    | intro _
    | with_reducible apply kept_ite
    | dsimp only
    | with_reducible apply kept_objSet
    | with_reducible apply kept_foldl
    | with_reducible apply kept_foldl_snd
    | with_reducible apply kept_foldl_fst
    | with_reducible apply KeptBy.emit
    | with_reducible apply KeptBy.draw
    | with_reducible apply KeptBy.setDie
    | with_reducible apply KeptBy.setFn
    | with_reducible apply KeptBy.setLoad
    | with_reducible apply KeptBy.setDest
    | with_reducible apply KeptBy.newDies
    | with_reducible apply KeptBy.newFns
    | with_reducible apply KeptBy.newLoads
    | with_reducible apply KeptBy.newDests
    | with_reducible apply KeptBy.resetDests
    | split

theorem kept_handshake {b s : State} (x1 x2 x3 x4 : _) (h : Kept b s) : Kept b (handshake x1 x2 x3 x4 s) := by
  unfold handshake
  repeat' first
    | with_reducible assumption
    | intro _
    | with_reducible apply kept_ite
    | dsimp only
    | with_reducible apply kept_toPort
    | with_reducible apply kept_linkSet
    | with_reducible apply kept_echoAtS12
    | with_reducible apply kept_recordTheta
    | with_reducible apply kept_foldl
    | with_reducible apply kept_foldl_snd
    | with_reducible apply kept_foldl_fst
    | with_reducible apply KeptBy.emit
    | with_reducible apply KeptBy.draw
    | with_reducible apply KeptBy.setDie
    | with_reducible apply KeptBy.setFn
    | with_reducible apply KeptBy.setLoad
    | with_reducible apply KeptBy.setDest
    | with_reducible apply KeptBy.newDies
    | with_reducible apply KeptBy.newFns
    | with_reducible apply KeptBy.newLoads
    | with_reducible apply KeptBy.newDests
    | with_reducible apply KeptBy.resetDests
    | split

theorem kept_stepEnd {b s : State} (f : StartFacts) (k : Nat) (h : Kept b s) : Kept b (stepEnd f k s).2.2 := by
  refine (?_ : KeptThd b (stepEnd f k s))
  unfold stepEnd
  repeat' split
  · exact h
  · exact kept_stepS1 _ h
  · exact kept_stepS2 _ h
  · exact kept_stepS3 _ h
  · exact kept_stepS4 _ h
  · exact kept_stepS5 _ h
  · exact kept_stepS6 _ h
  · exact kept_stepS7 _ h
  · exact kept_stepS8 _ h

theorem kept_stepFailed {b s : State} (k code : Nat) (h : Kept b s) : Kept b (stepFailed k code s) := by
  unfold stepFailed
  split
  · exact kept_enterRecovery _ h
  · exact kept_failStep _ _ h

theorem kept_runSteps {b s : State} (f : StartFacts) (n k : Nat) (h : Kept b s) : Kept b (runSteps f n k s) := by
  induction n generalizing k s with
  | zero => exact h
  | succ n ih =>
    unfold runSteps
    extract_lets r next
    have hb : Kept b (beginStep k s) := kept_beginStep _ h
    have hr : Kept b r.2.2 := kept_stepEnd _ _ hb
    clear_value r next
    split
    · exact hb
    · split
      · exact kept_stepFailed _ _ hr
      · exact ih _ (kept_objSet _ _ _ (kept_passStep _ _ hr))

theorem kept_runStart {b s : State} (f : StartFacts) (h : Kept b s) : Kept b (runStart f s) := by
  unfold runStart
  split
  · exact h
  · extract_lets _x s1
    have h1 : Kept b s1 := by
      show Kept b (if _ then _ else _)
      split
      · exact h
      · exact kept_bumpKept _ _ (s := { s with start := _ }) h
    clear_value s1
    exact kept_runSteps _ _ _ h1

theorem kept_afterAlignment {b s : State} (f : StartFacts) (h : Kept b s) : Kept b (afterAlignment f s) := by
  unfold afterAlignment
  extract_lets r
  have hr : Kept b r.2.2 := kept_stepS10 _ (kept_beginStep _ (kept_passStep _ _ h))
  clear_value r
  split
  · exact kept_failStep _ _ hr
  · exact kept_settleS11 (kept_stepS11 _ (kept_beginStep _ (kept_passStep _ _ hr)))

theorem kept_failCurrent {b s : State} (h : Kept b s) : Kept b (failCurrent s) := by
  unfold failCurrent
  repeat' first
    | with_reducible assumption
    | intro _
    | with_reducible apply kept_ite
    | dsimp only
    | with_reducible apply kept_enterRecovery
    | with_reducible apply kept_failStep
    | with_reducible apply kept_foldl
    | with_reducible apply kept_foldl_snd
    | with_reducible apply kept_foldl_fst
    | with_reducible apply KeptBy.emit
    | with_reducible apply KeptBy.draw
    | with_reducible apply KeptBy.setDie
    | with_reducible apply KeptBy.setFn
    | with_reducible apply KeptBy.setLoad
    | with_reducible apply KeptBy.setDest
    | with_reducible apply KeptBy.newDies
    | with_reducible apply KeptBy.newFns
    | with_reducible apply KeptBy.newLoads
    | with_reducible apply KeptBy.newDests
    | with_reducible apply KeptBy.resetDests
    | split

theorem kept_requestReset {b s : State} (h : Kept b s) : Kept b (requestReset s) := by
  unfold requestReset
  repeat' first
    | with_reducible assumption
    | intro _
    | with_reducible apply kept_ite
    | dsimp only
    | with_reducible apply kept_resetTo
    | with_reducible apply kept_interruptStart
    | with_reducible apply kept_foldl
    | with_reducible apply kept_foldl_snd
    | with_reducible apply kept_foldl_fst
    | with_reducible apply KeptBy.emit
    | with_reducible apply KeptBy.draw
    | with_reducible apply KeptBy.setDie
    | with_reducible apply KeptBy.setFn
    | with_reducible apply KeptBy.setLoad
    | with_reducible apply KeptBy.setDest
    | with_reducible apply KeptBy.newDies
    | with_reducible apply KeptBy.newFns
    | with_reducible apply KeptBy.newLoads
    | with_reducible apply KeptBy.newDests
    | with_reducible apply KeptBy.resetDests
    | split

end Sys2Proof.Laws
end

