-- ==== Sys2Proof/Laws/Trees.lean ====
section
/-! SUPPORT. The tracer's walks over rows without upsets, poison or wrong proof words: they find the rows as they stand. -/

namespace Sys2Proof.Laws
open Sys2Proof.Machine

/-- `s` has the rows of `b`, none of them upset or poisoned, and the trees of `b`. -/
structure Clean (b s : State) : Prop where
  mem : s.mem = b.mem
  upsets : s.upsets = []
  poison : s.poison = []
  base : objGet s 0x5100 3 = objGet b 0x5100 3

theorem Clean.tileSet {b s : State} (h : Clean b s) (t : Nat) (v : Tile) : Clean b (tileSet t v s) :=
  ⟨h.mem, h.upsets, h.poison, h.base⟩

theorem Clean.countEvent {b s : State} (h : Clean b s) (v c now : Nat) : Clean b (countEvent v c now s) := by
  unfold Machine.countEvent
  dsimp only
  split
  · exact h
  · exact ⟨h.mem, h.upsets, h.poison, h.base⟩

theorem Clean.bump {b s : State} (h : Clean b s) (i j n : Nat) (ne : objKey 0x5100 3 ≠ objKey i j) :
    Clean b (bump i j n s) := by
  refine ⟨?_, ?_, ?_, (objGet_bump_ne n s ne).trans h.base⟩
  all_goals unfold Machine.bump; split
  · exact h.mem
  · exact h.mem
  · exact h.upsets
  · exact h.upsets
  · exact h.poison
  · exact h.poison

theorem Clean.tracerAccess {b s : State} (h : Clean b s) (d : Nat) : Clean b (tracerAccess d s) := by
  unfold Machine.tracerAccess
  split
  · have k := (h.bump 0x4000 0x12 1 (by decide)).countEvent (0xC800 + 0x18) 1 (Machine.bump 0x4000 0x12 1 s).tick
    exact ⟨k.mem, k.upsets, k.poison, k.base⟩
  · exact ⟨h.mem, h.upsets, h.poison, h.base⟩

theorem Clean.rowGet {b s : State} (h : Clean b s) (a : Nat) : Machine.rowGet s a = Machine.rowGet b a := by
  unfold Machine.rowGet
  rw [h.mem]

/-- A row of a clean state is read as it stands. -/
theorem Clean.fetchRow {b s : State} (h : Clean b s) (a : Nat) :
    fetchRow s a = { frame := Machine.rowGet b a, corrected := 0, bad := false } := by
  unfold Machine.fetchRow
  rw [h.upsets, h.poison, h.rowGet]
  rfl

/-- A background read of a sound row of a clean state. -/
theorem Clean.backRow {b s : State} (h : Clean b s) (a : Nat) (ok : proofOk (Machine.rowGet b a) = true) :
    (backRow a s).1 = Machine.rowGet b a ∧ Clean b (backRow a s).2 := by
  unfold Machine.backRow
  split
  · exact ⟨h.rowGet a, h⟩
  · rename_i u _
    dsimp only
    refine ⟨by rw [h.fetchRow a], ?_⟩
    have counts : (upsetCounts s a).any (2 < ·) = false := by
      simp [upsetCounts, h.upsets, mget]
    have none : fetchFx s u a 0 = Fx.none := by
      unfold fetchFx
      rw [h.fetchRow a]
      simp [ok, counts, Fx.none]
    have fx : ∀ c (x : State), Clean b x → Clean b (applyFx u c Fx.none x) := fun c x k =>
      ⟨k.mem, k.upsets, k.poison, k.base⟩
    rw [none]
    refine fx _ _ ?_
    split
    · unfold serveSlice requestAccess
      split
      · exact h
      · exact h.tileSet _ _
    · exact h

/-- A background read of a row that a tile has. -/
theorem backRead_row (a : Nat) (s : State) (inside : ((addrTile a).isNone || spaceRows (addrSpace a) ≤ addrRow a) = false) :
    backRead a s = ((backRow a s).1.data, (backRow a s).2) := by
  unfold backRead
  rw [inside]
  rfl

/-- What a node read does with the row that it gets. -/
theorem Clean.counted {b : State} (x y : Bytes × State) (e : x = y) (h : Clean b y.2) :
    (x.1, Machine.bump 0x5100 0xB 1 x.2).1 = y.1 ∧ Clean b (x.1, Machine.bump 0x5100 0xB 1 x.2).2 := by
  subst e
  exact ⟨rfl, h.bump 0x5100 0xB 1 (by decide)⟩

/-- A sound row of a tile read back and counted. -/
theorem Clean.readRow {b x : State} (a : Nat) (h : Clean b x) (ok : proofOk (Machine.rowGet b a) = true)
    (inside : ((addrTile a).isNone || spaceRows (addrSpace a) ≤ addrRow a) = false) :
    (let r := backRead a x; (r.1, Machine.bump 0x5100 0xB 1 r.2)).1 = (Machine.rowGet b a).data ∧
      Clean b (let r := backRead a x; (r.1, Machine.bump 0x5100 0xB 1 r.2)).2 := by
  have k := h.backRow a ok
  have z := Clean.counted _ _ (backRead_row a x inside) k.2
  rw [← k.1]
  exact z

theorem nodeAddr_base {b s : State} (h : Clean b s) (d m : Nat) : nodeAddr s d m = nodeAddr b d m := by
  unfold nodeAddr
  rw [h.base]

theorem nodeRead_eq {s : State} (d m a : Nat) (e : nodeAddr s d m = a) :
    nodeRead d m s = (let r := backRead a (tracerAccess d s); (r.1, Machine.bump 0x5100 0xB 1 r.2)) := by
  subst e
  rfl

/-- The row of a node that lies in a tile's beam, read by the tracer. -/
theorem Clean.nodeRead {b s : State} (h : Clean b s) (d m : Nat) (ok : proofOk (Machine.rowGet b (nodeAddr b d m)) = true)
    (inside : ((addrTile (nodeAddr b d m)).isNone || spaceRows (addrSpace (nodeAddr b d m)) ≤ addrRow (nodeAddr b d m)) = false) :
    (nodeRead d m s).1 = (Machine.rowGet b (nodeAddr b d m)).data ∧ Clean b (nodeRead d m s).2 := by
  rw [nodeRead_eq d m _ (nodeAddr_base h d m)]
  exact Clean.readRow _ (h.tracerAccess d) ok inside

/-- The rows of sound nodes, read one after another, are the rows as they stand. -/
theorem Clean.readNodes {b : State} (d : Nat) (l : List Nat)
    (ok : ∀ m ∈ l, proofOk (Machine.rowGet b (nodeAddr b d m)) = true)
    (inside : ∀ m ∈ l, ((addrTile (nodeAddr b d m)).isNone ||
      spaceRows (addrSpace (nodeAddr b d m)) ≤ addrRow (nodeAddr b d m)) = false) (s : State) (h : Clean b s) :
    (readNodes d l s).1 = l.map (fun m => (m, (Machine.rowGet b (nodeAddr b d m)).data)) ∧ Clean b (readNodes d l s).2 := by
  induction l generalizing s with
  | nil => exact ⟨rfl, h⟩
  | cons m l ih =>
    have r := h.nodeRead d m (ok m List.mem_cons_self) (inside m List.mem_cons_self)
    have x := ih (fun m h => ok m (List.mem_cons_of_mem _ h)) (fun m h => inside m (List.mem_cons_of_mem _ h)) _ r.2
    unfold Machine.readNodes
    exact ⟨by dsimp only; rw [r.1, x.1]; rfl, x.2⟩

end Sys2Proof.Laws
end

