-- ==== Sys2Proof/WellFormed.lean ====
section
/-! DEFINITION. Well-formed commands: the lengths and ranges that the manual's layouts give the operands that are
lists or numbers. The model gives every command a meaning, well formed or not; a sender of the manual's sends only
well-formed ones. -/

namespace Sys2Proof

/-- A byte string of exactly `n` bytes. -/
def exactly (n : Nat) (b : Bytes) : Bool := b.length == n

/-- A byte string of at most `n` bytes. -/
def atMost (n : Nat) (b : Bytes) : Bool := decide (b.length ≤ n)

/-- A row frame has 512 data bytes (R85). -/
def rowOk (f : RowFrame) : Bool := exactly 512 f.data

/-- A hold request's SP has 32 bits and its count 10 (R222). -/
def holdReqOk (r : HoldReq) : Bool := decide (r.sp < 2 ^ 32) && decide (r.count < 1024)

/-- A frame has 36 codewords (R228). -/
def chkOk : RxCheck → Bool
  | .good n => decide (n ≤ 36)
  | .bad n => decide (1 ≤ n) && decide (n ≤ 36)

/-- A notice header's SP has 64 bits, its other numbers the widths of R285. -/
def noticeOk (h : NoticeHdr) : Bool :=
  chkOk h.rx.chk && decide (h.sp < 2 ^ 64) && decide (h.graphSeq < 2 ^ 32) && decide (h.first < 65536) && decide (h.scanPos < 16)

/-- A packet has no tag or one of 16 bytes, and a source address of its IP version (R411, R412). -/
def packetOk (p : Packet) : Bool :=
  (exactly 0 p.tag || exactly 16 p.tag) && exactly (if p.ip.ipv6 then 16 else 4) p.ip.source

/-- A signed write's envelope: the module id has 16 bytes, the signatures 64 and 3,309 (R374). -/
def envelopeOk (e : Envelope) : Bool := exactly 16 e.moduleId && exactly 64 e.sigEd && exactly 3309 e.sigMl

/-- A write of an entry has at most 65,535 data bytes; one of BAR0 begins in its 64 MiB (R376, R401). -/
def targetOk : WriteTarget → Bool
  | .entry _ _ _ data => atMost 65535 data
  | .bar0 offset _ => decide (offset < 2 ^ 26)

/-- A request's data fit its carrier (R391, R395, R410). -/
def requestOk (n : Nat) (r : Request) : Bool := atMost n r.data

/-- A datagram has no authentication code or one of 32 bytes (R395). -/
def tagOk : Option Bytes → Bool
  | none => true
  | some t => exactly 32 t

/-- The facts of a start cover the 13 rails of R437 and the 4 module clocks of R439. -/
def factsOk (f : StartFacts) : Bool := f.rails.length == 13 && f.plls.length == 4

/-- Whether a command is well formed. -/
def Instr.wf : Instr → Bool
  | .pickBoundary => true
  | .holdRequest r _ => holdReqOk r
  | .hold _ _ => true
  | .release _ _ => true
  | .sendRelease => true
  | .pace _ _ => true
  | .holdLimitExpiry => true
  | .clockStretch _ _ => true
  | .replicaHardThreshold _ => true
  | .paceFloorWrite _ data => atMost 65535 data
  | .beamToLatch _ _ _ => true
  | .weightBlockReady _ _ => true
  | .beamToBobbin _ _ _ => true
  | .bobbinToBeam _ _ _ => true
  | .bobbinToRegs _ _ _ => true
  | .regsToBobbin _ _ _ => true
  | .beamToRegs _ _ _ => true
  | .regsToBeam _ _ _ => true
  | .armWindow _ _ _ => true
  | .closeWindow _ _ _ => true
  | .sendSide _ _ _ => true
  | .sendMesh _ _ _ => true
  | .handSelvedge _ _ _ => true
  | .publishWord _ _ _ => true
  | .loop _ _ _ _ => true
  | .endloop _ _ _ => true
  | .pickwait _ _ => true
  | .select _ _ _ _ => true
  | .endSchedule _ _ => true
  | .stream _ _ _ => true
  | .contribution _ _ => true
  | .drain _ _ _ => true
  | .adown _ _ _ => true
  | .aup _ _ _ => true
  | .aset _ _ _ => true
  | .setbound _ _ _ => true
  | .fadd _ _ _ => true
  | .fsub _ _ _ => true
  | .fmul _ _ _ => true
  | .fma _ _ _ => true
  | .fmax _ _ _ => true
  | .fmin _ _ _ => true
  | .iadd _ _ _ => true
  | .isub _ _ _ => true
  | .imul _ _ _ => true
  | .imax _ _ _ => true
  | .imin _ _ _ => true
  | .and _ _ _ => true
  | .or _ _ _ => true
  | .xor _ _ _ => true
  | .andn _ _ _ => true
  | .shl _ _ _ => true
  | .shr _ _ _ => true
  | .sra _ _ _ => true
  | .cmp _ _ _ => true
  | .sel _ _ _ => true
  | .setflag _ _ _ => true
  | .bchk _ _ _ => true
  | .exp2 _ _ _ => true
  | .log2 _ _ _ => true
  | .rcp _ _ _ => true
  | .rsqrt _ _ _ => true
  | .sigm _ _ _ => true
  | .rsum _ _ _ => true
  | .rmax _ _ _ => true
  | .rmin _ _ _ => true
  | .rdot _ _ _ => true
  | .argmax _ _ _ => true
  | .topk _ _ _ => true
  | .cvt _ _ _ => true
  | .rand _ _ _ => true
  | .gumb _ _ _ => true
  | .ldr _ _ _ => true
  | .str _ _ _ => true
  | .gath _ _ _ => true
  | .scat _ _ _ => true
  | .vectorReadable _ _ => true
  | .shadowSetup _ => true
  | .laneExchange _ _ => true
  | .scrubRead _ _ => true
  | .scrubWriteBack _ _ _ => true
  | .lateScrubPass _ => true
  | .landingWrite _ _ => true
  | .sideLanding _ _ _ _ _ row => rowOk row
  | .meshEjection _ _ _ row _ => rowOk row
  | .classBInjection _ => true
  | .digestRowWrite _ _ _ => true
  | .bridgePortFailure _ _ => true
  | .controlBlock _ b => decide (b.reserved ≤ 8)
  | .scheduledRow _ f chk => rowOk f.row && chkOk chk
  | .scheduledRetrans _ f chk => rowOk f.row && chkOk chk
  | .backgroundWrite _ f chk ref => rowOk f.row && chkOk chk && decide (ref < 2 ^ 16)
  | .backgroundAck p => rowOk p.rx.frame.row && chkOk p.rx.chk && decide (p.acks.length ≤ 16) && p.acks.all fun a => decide (a.ref < 2 ^ 16)
  | .backgroundRetry ref => decide (ref < 2 ^ 16)
  | .retryRequest _ _ => true
  | .retransmission _ => true
  | .selvedgeLateRow _ _ => true
  | .idle _ _ payload _ => atMost 16 payload
  | .timeDelayRequest _ _ _ => true
  | .timeDelayEcho _ _ _ => true
  | .timeHandshake _ _ _ _ _ => true
  | .fault _ _ _ _ => true
  | .coord _ _ _ _ _ _ => true
  | .linkTraining _ lanes => lanes.length == 4
  | .trainingTimeout _ step lane => decide (1 ≤ step) && decide (step ≤ 6) && decide (lane < 4)
  | .blockLockLoss _ _ => true
  | .coordsWrite _ data => atMost 65535 data
  | .startTickWrite _ data => atMost 65535 data
  | .startTick => true
  | .timeRootTimeout => true
  | .alignmentTick _ => true
  | .admissionScan => true
  | .admissionLate => true
  | .recordsMissing => true
  | .graphHeader h graph => noticeOk h && exactly 64 graph
  | .taskRecords h recs => noticeOk h && decide (recs.length ≤ 5) && recs.all (exactly 96)
  | .scanSummary h graphs recNotices floor => noticeOk h && decide (graphs ≤ 16) && decide (recNotices < 2 ^ 32) && decide (floor < 256)
  | .broadcastWord h _ _ _ pubTile => noticeOk h && decide (pubTile < 768)
  | .snapshotCommand h effectSp => noticeOk h && decide (effectSp < 2 ^ 64)
  | .resultRecordWrite graphSeq task => decide (graphSeq < 2 ^ 32) && decide (task < 4096)
  | .consumerIndexWrite _ data => atMost 65535 data
  | .stagingWrite _ p => packetOk p
  | .windowWrite _ p => packetOk p
  | .tracerProducerWrite _ data => atMost 65535 data
  | .matchCmd _ => true
  | .insertCmd _ => true
  | .pinCmd _ => true
  | .unpinCmd _ => true
  | .evictCmd _ => true
  | .loadRecordWrite _ _ data => atMost 65535 data
  | .loadSlotClose _ _ => true
  | .chainEntryWrite _ _ data => atMost 65535 data
  | .chain _ p => rowOk p.frame.row && chkOk p.chk
  | .loadVerification _ => true
  | .plate _ p => packetOk p
  | .safeStop code _ => Machine.isStopping code.toNat
  | .faultRecord _ => true
  | .withdrawResults => true
  | .invalidationRepeat => true
  | .endStoppedJob _ data => atMost 65535 data
  | .selfTestFailure _ => true
  | .mgmtWatchdog => true
  | .recoveryCommand _ => true
  | .attestationRequest _ nonce => exactly 32 nonce
  | .offerRequest _ nonce _ => exactly 32 nonce
  | .accept _ xpub kem confirm => exactly 32 xpub && exactly 1088 kem && exactly 48 confirm
  | .keyBundle _ _ sealed tag => atMost 1712 sealed && exactly 16 tag
  | .offerTimeout => true
  | .clearing => true
  | .ideKm _ _ => true
  | .signedWrite _ e => envelopeOk e
  | .write w => targetOk w
  | .describe _ _ _ => true
  | .storeComplete => true
  | .defaultsAtReset _ data => atMost 65535 data
  | .enableWrite _ _ data => atMost 65535 data
  | .fnStartDone _ => true
  | .fnStartFailed _ => true
  | .fnLost _ => true
  | .fnStopDone _ => true
  | .singleFrame _ r => requestOk 56 r
  | .firstFrame _ r len => requestOk 56 r && decide (56 < len) && decide (len ≤ 65535)
  | .consecutiveFrame _ _ _ data => atMost 62 data
  | .ackFrame _ _ _ => true
  | .abort _ _ _ => true
  | .canTimeout => true
  | .heartbeat => true
  | .busOff => true
  | .canWiring _ => true
  | .mgmtDatagram _ _ r tag => requestOk 65535 r && tagOk tag
  | .perstDeassert => true
  | .pcieReset _ => true
  | .loadCommand _ => true
  | .loadDmaComplete _ _ _ => true
  | .bar2Read offset len => decide (offset + len ≤ 2 ^ 30)
  | .bar2Write offset data => decide (offset + data.length ≤ 2 ^ 30)
  | .msixUnmask _ => true
  | .doeRequest r => requestOk 16376 r
  | .addressResolution _ ipv6 target => exactly (if ipv6 then 16 else 4) target
  | .portLinkChange _ _ => true
  | .acknowledgement _ p => packetOk p
  | .ackSend _ => true
  | .resultPacketSend _ => true
  | .resultResend _ => true
  | .resultDestWrite _ _ data => atMost 65535 data
  | .countingModesWrite _ data => atMost 65535 data
  | .snapshotRequest _ data => atMost 65535 data
  | .snapshotDone => true
  | .selectorWrite _ _ data => atMost 65535 data
  | .selectorOverflow _ => true
  | .sampleRecord _ _ => true
  | .readIndexWrite _ _ data => atMost 65535 data
  | .inputValid => true
  | .inputOutOfRange _ => true
  | .senseOpen => true
  | .railFault _ => true
  | .referenceLoss => true
  | .powerWindow _ => true
  | .powerEmergency _ => true
  | .throttleTemp _ => true
  | .overtemp _ => true
  | .coolantRange _ _ => true
  | .resetNLow => true
  | .resetRequest _ data => atMost 65535 data
  | .start facts => factsOk facts
  | .startTimeout => true
  | .autoRestart => true
  | .transferReadable _ _ => true
  | .drainRow _ _ => true
  | .streamRead _ _ => true
  | .jobEnd => true
  | .pllLoss _ => true
  | .refStateChange _ _ => true
  | .mgmtResetDone => true
  | .coolantSensor _ => true
  | .portMemError offset => decide (offset < 2 ^ 26)

end Sys2Proof
end

