-- ==== Sys2Proof/Tests/Slice0.lean ====
section
/-! SUPPORT. Tests: an ill-formed command for each check of WellFormed, worked examples of the manual, and for every
statement with hypotheses states and operands that meet them, clause by clause. -/

namespace Sys2Proof.Tests

set_option Elab.async false
set_option maxRecDepth 20000

open Sys2Proof Sys2Proof.Machine Sys2Proof.Laws

/-! ## Operands and states -/

def zeroRowFrame : RowFrame := { data := zeros 512, tag := 0, proof := 0x30FCEDC0 }
def tSlot : TSlot := { await := false, column := 0, sbase := 0, soff := 0, dbase := 0, doff := 0, count := 0 }
def sSlotF : SSlot := { await := false, dx := 1, dy := 0, modl := 0, sbase := 0, soff := 0, window := 3, count := 0 }
def formE : FormE :=
  { ty := 2, dst := 1, a := 0, b := 0, c := 0, sat := false, bmode := 0, imm := 0, count := 0 }
def origin : Coord := { x := 0, y := 0, z := 0 }
def cword : ControlWord :=
  { sender := origin, seq := 0, reason := 1, ocls := 0, oidx := 0, arg := 0, pick := 5, stamp := 0 }
def noTravel : Travel := { dir := 7, hops := 0 }
def frame : Frame :=
  { kind := .scheduled, activity := 0, dest := origin, tx := 0, ty := 0, window := 0, woff := 0, gen := 0, landSp := 0
    seq := 1, retry := none, sendSp := 0, row := zeroRowFrame }
def request : Request := { txn := 1, opcode := 0x10, index := 0x1000, sub := 1, status := 0, data := [] }
def transport : Transport :=
  { magic := 0, version := 0, ptype := 1, flags := 0, items := 1, stream := 0, rsvd := 0, seq := 1, target := 0, ref := 0 }
def packet : Packet :=
  { ip := { toPort := true, source := zeros 4, ipv6 := false, checksum := true }, hdr := transport, body := [], tag := [] }
def noticeHdr : NoticeHdr :=
  { rx := { link := 0, seq := 1, chk := .good 0 }, sender := origin, travel := noTravel, seq := 0, sp := 0, graphSeq := 1, first := 0, scanPos := 0 }
def facts : StartFacts :=
  { slotId := 0, s1 := true, s2 := true, image := [], rails := List.replicate 13 true, refA := 1, refB := 1
    plls := List.replicate 4 true, repairA := false, repairB := false, badRows := [], badTiles := [], badRouters := []
    bridgeFull := [], bridgeHalf := [], links := [] }

/-- A module that is up and ready, every path but the datagrams open. -/
def up : State := objSet 0x4200 1 0 (objSet 0x9000 1 5 (objSet 0x2000 0xE 0x1FFF (objSet 0x2200 2 13 (objSet 0x2200 1 1
  { State.reset with power := { Power.reset with input := true, rails := true, perst := true } }))))
/-- A module in a running job of one module. -/
def live : State := objSet 0x4200 0x10 1 (objSet 0x4200 0x11 1 (objSet 0x4200 0x12 1 { up with job := true, started := true }))
/-- The state with a tile put in place. -/
def withTile (v : Tile) (s : State) : State := tileSet 0 v s
/-- A sequencer, a tile and a module at the first bundle of a pick. -/
def running : Sequencer := { Sequencer.reset with running := true }
def runTile : Tile := { Tile.reset with seq := running }
def ready : State := withTile runTile live

theorem inv_of (s : State) (h : memWf s.mem = true ∧ portWf s.pmem = true ∧ s.integrity.dies.length = 4 ∧
    s.fns.length = 38 ∧ s.loads.length = 16 ∧ s.ports.dests.length = 8) : Inv s :=
  ⟨h.1, h.2.1, h.2.2.1, h.2.2.2.1, h.2.2.2.2.1, h.2.2.2.2.2⟩

/-! ## Ill-formed commands -/

def shortRow : RowFrame := { zeroRowFrame with data := zeros 511 }

theorem test_wf_row : (Instr.sideLanding 0 0 .px 0 0 shortRow).wf = false := by decide +kernel
theorem test_wf_holdRequest : (Instr.holdRequest { sp := 0, reason := 1, ocls := 0, oidx := 0, count := 1024 } none).wf = false
    := by decide +kernel
theorem test_wf_frame : (Instr.scheduledRow 0 frame (.good 37)).wf = false ∧ (Instr.scheduledRow 0 frame (.bad 0)).wf = false
    ∧ (Instr.backgroundWrite 0 frame (.good 0) 65536).wf = false ∧ (Instr.backgroundRetry 65536).wf = false := by decide +kernel
theorem test_wf_ack : (Instr.backgroundAck ⟨0, ⟨frame, .good 0⟩,
    [{ tile := 0, window := 0, gen := 0, opened := true, ref := 65536 }]⟩).wf = false ∧
    (Instr.backgroundAck ⟨0, ⟨frame, .good 0⟩, List.replicate 17
      { tile := 0, window := 0, gen := 0, opened := true, ref := 1 }⟩).wf = false ∧
    (Instr.chain 0 ⟨frame, .good 37⟩).wf = false := by decide +kernel
theorem test_wf_codes : (Instr.controlBlock 0 ⟨true, 9⟩).wf = false ∧
    (Instr.safeStop 0xFFFF (tileSite 0 0 0 0)).wf = false := by decide +kernel
theorem test_wf_idle : (Instr.idle 0 none (zeros 17) none).wf = false := by decide +kernel
theorem test_wf_training : (Instr.linkTraining 0 []).wf = false ∧ (Instr.trainingTimeout 0 7 0).wf = false ∧
    (Instr.trainingTimeout 0 0 0).wf = false ∧ (Instr.trainingTimeout 0 1 4).wf = false := by decide +kernel
theorem test_wf_notice : (Instr.graphHeader noticeHdr (zeros 63)).wf = false ∧
    (Instr.graphHeader { noticeHdr with rx := { noticeHdr.rx with chk := .bad 0 } } (zeros 64)).wf = false ∧
    (Instr.graphHeader { noticeHdr with scanPos := 16 } (zeros 64)).wf = false ∧
    (Instr.taskRecords noticeHdr [zeros 95]).wf = false ∧
    (Instr.taskRecords noticeHdr (List.replicate 6 (zeros 96))).wf = false ∧
    (Instr.scanSummary noticeHdr 17 0 0).wf = false ∧ (Instr.scanSummary noticeHdr 0 0 256).wf = false ∧
    (Instr.broadcastWord noticeHdr 0 0 origin 768).wf = false ∧
    (Instr.snapshotCommand noticeHdr (2 ^ 64)).wf = false := by decide +kernel
theorem test_wf_result : (Instr.resultRecordWrite 0 4096).wf = false := by decide +kernel
theorem test_wf_packet : (Instr.stagingWrite 0 { packet with tag := zeros 15 }).wf = false ∧
    (Instr.windowWrite 0 { packet with ip := { packet.ip with source := zeros 16 } }).wf = false := by decide +kernel
theorem test_wf_security : (Instr.attestationRequest .pcie (zeros 31)).wf = false ∧
    (Instr.offerRequest .pcie (zeros 33) 0).wf = false ∧ (Instr.accept .pcie (zeros 31) [] []).wf = false ∧
    (Instr.keyBundle .pcie 0 [] []).wf = false ∧ (Instr.signedWrite .pcie
      { index := 0x6100, sub := 0x14, value := [1], moduleId := [], counter := 1, sigEd := [], sigMl := [] }).wf = false
    := by decide +kernel
theorem test_wf_requests : (Instr.singleFrame 5 { request with data := zeros 57 }).wf = false ∧
    (Instr.firstFrame 5 request 56).wf = false ∧ (Instr.consecutiveFrame 5 1 1 (zeros 63)).wf = false ∧
    (Instr.mgmtDatagram 0 [] request (some [])).wf = false ∧ (Instr.write (.bar0 (2 ^ 26) [])).wf = false := by decide +kernel
theorem test_wf_ports : (Instr.bar2Read (2 ^ 30) 1).wf = false ∧ (Instr.bar2Write (2 ^ 30) [0]).wf = false ∧
    (Instr.addressResolution 0 true (zeros 4)).wf = false ∧ (Instr.portMemError (2 ^ 26)).wf = false := by decide +kernel
theorem test_wf_start : (Instr.start { facts with rails := [] }).wf = false ∧
    (Instr.start { facts with plls := [] }).wf = false := by decide +kernel

/-! ## Worked examples of the manual -/

/-- R1's table and R27's: cycles in a pick. -/
theorem test_cycles_per_pick : Config.cyclesPerPick .A 64 = 136 ∧ Config.cyclesPerPick .B 72 = 135 := by decide +kernel
/-- R13: the dies of the corner tiles. -/
theorem test_dies : dieOf 0 = 0 ∧ dieOf 23 = 1 ∧ dieOf (24 * 31) = 2 ∧ dieOf 767 = 3 := by decide +kernel
/-- R18: links 0 to 8 of C0 lead to −x, −y and the z directions. -/
theorem test_link_directions : (List.range 9).map linkDir = [1, 1, 1, 3, 3, 3, 4, 4, 5] := by decide +kernel
/-- The RTT example beside R250: a round trip of 104 ticks is a delay of 1 pick. -/
theorem test_delay : delayPicks 104 = 1 := by decide +kernel

/-! ## Meeting the hypotheses of the statements -/

theorem witness_StepRunsFrontCommand : ({ State.reset with pending := [.jobEnd] } : State).pending = .jobEnd :: [] := rfl
theorem witness_EmptyQueueAdvancesTime : State.reset.pending = [] := rfl
theorem witness_EveryStepKeepsTheInvariant : Inv State.reset ∧ ∃ t, step State.reset = .next t :=
  ⟨inv_of _ (by decide), _, rfl⟩
theorem witness_EveryCommandKeepsQueueAndOutputs : ∃ t, exec .jobEnd State.reset = .next t := ⟨_, rfl⟩
theorem witness_StoppedTilesIssueNothing : tileCommand (.pickwait 0 5) = some (0, 5) ∧
    stopState (objSet 0x6000 1 1 State.reset) ≠ 0 ∧ slotCommand (.pickwait 0 5) = some (0, 5) ∧
    tileIssues live 0 5 = false ∧ tileIssues ready 0 127 = true ∧ tileIssues ready 0 128 = false ∧
    tileIssues (withTile { runTile with seq := { running with waiting := true } } live) 0 1 = false := by decide +kernel

/-- Nothing waits and nothing is spent: a control word may go. -/
theorem wordClear_of (s : State) (tr : Travel) (h : isSpent s (arrivalDie s tr) 1 = false ∧
    s.net.waiting.getD (3 * arrivalDie s tr) [] = [] ∧ s.net.arrived = []) : wordClear s tr :=
  ⟨h.1, fun x hx => (by rw [h.2.1] at hx; cases hx), by simp [h.2.2]⟩
theorem wordWaits_of (s : State) (tr : Travel) (h : s.job = true ∧ isSpent s (arrivalDie s tr) 1 = true ∧
    s.net.arrived = []) : wordWaits s tr := ⟨h.1, .inl h.2.1, by simp [h.2.2]⟩
theorem mayGo_of (s : State) (d act : Nat) (h : isSpent s d act = false ∧
    s.net.waiting.getD (3 * d + levelOf act) [] = []) : mayGo s d act := .inr ⟨h.1, fun x hx => by rw [h.2] at hx; cases hx⟩
theorem mustWait_of (s : State) (d act : Nat) (h : s.job = true ∧ isSpent s d act = true) : mustWait s d act :=
  ⟨h.1, .inl h.2⟩
/-- An activity of C0 has spent its budget. -/
def spent (act : Nat) (s : State) : State := { s with net := { s.net with spent := [(act, 65536)] } }
theorem witness_PickBoundaryAdvancesCounts : (live.job = true ∧ live.started = true ∧ live.integrity.stopLine = false) ∧
    (let s := { live with integrity := { live.integrity with stopLine := true } }
     s.job = true ∧ s.integrity.stopLine = true) ∧
    (up.integrity.stopLine = false ∧ (up.job = false ∨ up.started = false)) := by decide +kernel
/-- A stop pick one after the SP in force is the smallest that has not begun. -/
theorem witness_HoldWordSetsStopPick : (holdLive live = true ∧
    live.sp < nearest live.sp ({ cword with pick := 1 } : ControlWord).pick.toNat ∧
    seqOk .hold { cword with pick := 1 } live = true ∧ holdLive up = false) ∧ wordClear live noTravel ∧
    wordWaits (spent 1 live) noTravel :=
  ⟨by decide +kernel, wordClear_of _ _ (by decide +kernel), wordWaits_of _ _ (by decide +kernel)⟩
def stopAt5 : State := { live with hold := { live.hold with stop := some 5 } }
theorem witness_ControlWordsAreTakenOrFaults : Inv live ∧ wordClear live noTravel ∧ wordClear stopAt5 noTravel ∧
    wordWaits (spent 1 live) noTravel ∧ (holdLive live = true ∧ nearest live.sp 0 ≤ live.sp ∧
    (live.sp < nearest live.sp 1 ∧ seqOk .hold { cword with seq := 1 } live = false) ∧
    (live.hold.stop ≠ some (nearest live.sp 5)) ∧ seqOk .pace { cword with seq := 1 } live = false ∧
    seqOk .pace cword live = true ∧ live.sp < nearest live.sp cword.pick.toNat ∧
    (holdLive stopAt5 = true ∧ stopAt5.hold.stop = some (nearest stopAt5.sp cword.pick.toNat) ∧
      seqOk .release cword stopAt5 = true ∧ seqOk .release { cword with seq := 1 } stopAt5 = false)) :=
  ⟨inv_of _ (by decide +kernel), wordClear_of _ _ (by decide +kernel), wordClear_of _ _ (by decide +kernel),
    wordWaits_of _ _ (by decide +kernel), by decide +kernel⟩
def holdReq : HoldReq := { sp := 0, reason := 1, ocls := 0, oidx := 0, count := 1 }
theorem witness_HoldRequestIsSentOrQueued : Inv live ∧ (holdLive live = true ∧
    live.sp < holdReq.sp + 1 + horizon live ∧ holdLive up = false ∧
    (let s := { live with sp := 1 + horizon live }
     holdLive s = true ∧ holdReq.sp + 1 + horizon s ≤ s.sp) ∧
    (live.hold.routers.filter (·.2 != holdReq)).lookup 3 = none ∧
    (([(3, { holdReq with sp := 1 }), (4, holdReq)] : SMap HoldReq).filter (·.2 != holdReq)).lookup 3 =
      some { holdReq with sp := 1 }) := ⟨inv_of _ (by decide +kernel), by decide +kernel⟩
def held : State := { live with tp := 5, hold := { live.hold with stop := some 1, held := true, stopTp := 4 } }
theorem witness_HeldModuleReleasesOrTimesOut : Inv held ∧ (holdLive held = true ∧ held.hold.held = true ∧ held.hold.sent = false ∧
      allArrived held = true ∧ held.hold.awaited = [] ∧ held.hold.stop = some 1) ∧ live.hold.held = false ∧
    (let s := { held with tp := 12505 }
     holdLive s = true ∧ s.hold.held = true ∧ objGet s 0x4300 7 < s.tp - s.hold.stopTp) ∧
    held.tp - held.hold.stopTp ≤ objGet held 0x4300 7 := ⟨inv_of _ (by decide +kernel), by decide +kernel⟩

/-- A tile whose sequencer is as given. -/
def seqTile (q : Sequencer) : State := withTile { Tile.reset with seq := q } live
def seqFound (q : Sequencer) (t c : Nat) : Sequencer := (found t c (seqTile q)).2.seq
theorem witness_ControlSlotSteersTheSequencer : tileIssues ready 0 2 = true ∧
    (seqFound { running with loops := [{ depth := 0, body := 1, left := 1 }] } 0 2).loops = [{ depth := 0, body := 1, left := 1 }] ∧
    (seqFound { running with loops := [{ depth := 0, body := 1, left := 0 }] } 0 2).loops = [{ depth := 0, body := 1, left := 0 }] ∧
    (seqFound running 0 2).loops = [] ∧ (seqFound running 0 2).behind = 0 ∧ 0 < (seqFound { running with behind := 1 } 0 2).behind ∧
    (found 0 2 (withTile { runTile with flags := 0x80000000 } live)).2.flags.getLsbD 31 = true ∧
    (found 0 2 ready).2.flags.getLsbD 31 = false ∧
    (seqFound running 0 2).next = none ∧ (seqFound { running with next := some 7 } 0 2).next = some 7 := by decide +kernel
/-- The last row of the bobbin, and one past it. -/
theorem witness_WindowActionsWaitForTheBoundary : Inv ready ∧ tileIssues ready 0 0 = true ∧
    (operandRows (found 0 0 ready).1 0 (found 0 0 ready).2 0 4095 1 [0, 1, 3] 0).toOption = some [rowAddr 0 0 4095] ∧
    (operandRows (found 0 0 ready).1 0 (found 0 0 ready).2 0 4096 1 [0, 1, 3] 0).toOption = none :=
  ⟨inv_of _ (by decide +kernel), by decide +kernel⟩
/-- A module whose base word 12 names beam row 0 of tile 0 and 13 its first register. -/
def based : State := withTile { runTile with
  base := [BitVec.ofNat 32 (rowAddr 0 1 0), BitVec.ofNat 32 (rowAddr 0 3 0), 0, 0] } live
theorem witness_RowTransfersJoinThePipe : Inv based ∧ tileIssues based 0 0 = true ∧
    moveSlot (.beamToBobbin 0 0 { tSlot with sbase := 12, doff := 4095 }) =
      some (0, 0, .beamBobbin, { tSlot with sbase := 12, doff := 4095 }) ∧
    (operandRows (found 0 0 based).1 0 (found 0 0 based).2 12 0 1 [(moveSpaces .beamBobbin).1] 0).toOption = some [rowAddr 0 1 0] ∧
    (operandRows (found 0 0 based).1 0 (found 0 0 based).2 0 4095 1 [(moveSpaces .beamBobbin).2] 0).toOption = some [rowAddr 0 0 4095] ∧
    (operandRows (found 0 0 based).1 0 (found 0 0 based).2 0 4096 1 [(moveSpaces .beamBobbin).2] 0).toOption = none ∧
    (operandRows (found 0 0 based).1 0 (found 0 0 based).2 0 0 1 [(moveSpaces .beamBobbin).1] 0).toOption = none :=
  ⟨inv_of _ (by decide +kernel), by decide +kernel⟩
/-- A tile with one operation in flight. -/
def inFlight (w : Work) (reads : List RowRead) : State :=
  withTile { runTile with pipe := [{ id := 1, work := w, issue := 0, bundle := 0, reads := reads, done := 0 }] } live
def readRow (a : Nat) : RowRead := { addr := a, due := 0, slip := 0, await := false, val := some zeroRowFrame }
theorem witness_TransferredRowBecomesReadable :
    issuing live = true ∧
    (firstReady (moveNext 0 100) (tileAt (inFlight (.move .beamBobbin [rowAddr 0 0 9]) [readRow (rowAddr 0 1 0)]) 0).pipe).isSome = true ∧
    (firstReady (moveNext 0 0) (tileAt (inFlight (.move .beamBobbin [rowAddr 0 0 9]) [readRow (rowAddr 0 1 0)]) 0).pipe).isNone = true ∧
    (firstReady (moveNext 0 100) (tileAt live 0).pipe).isNone = true := by decide +kernel
theorem witness_VectorCommandsJoinThePipe : tileIssues ready 0 0 = true ∧
    vectorSlot (.iadd 0 0 formE) = some (0, 0, .e .iadd formE) ∧ legalV (.e .iadd formE) = true ∧
    legalV (.e .rand { formE with b := 0 }) = true ∧ vFields (.e .iadd formE) = 0 ∧
    0 < vFields (.e .rand formE) := by decide +kernel
def formL : FormL := { reg := 31, first := 31, base := 0, off := 4095, await := false, rows := 0 }
theorem witness_RowMovesOfTheVectorSlotJoinThePipe : Inv ready ∧ tileIssues ready 0 0 = true ∧ legalV (.ldr formL) = true ∧
    (operandRows (found 0 0 ready).1 0 (found 0 0 ready).2 0 4095 1 [0] 0).toOption = some [rowAddr 0 0 4095] ∧
    (operandRows (found 0 0 ready).1 0 (found 0 0 ready).2 0 4096 1 [0] 0).toOption = none :=
  ⟨inv_of _ (by decide +kernel), by decide +kernel⟩
def formG : FormG :=
  { reg := 0, first := 0, tbase := 12, ibase := 0, ioff := 0, iindex := 0, rows := 0, await := false, reach := false }
theorem witness_GatherAndScatterFollowTheirIndexRow : Inv based ∧ tileIssues based 0 0 = true ∧ legalV (.gath formG) = true ∧
    (operandRows (found 0 0 based).1 0 (found 0 0 based).2 0 4096 1 [0] 0).toOption = none ∧
    2 ≤ addrSpace (baseWord (found 0 0 based).1 0 (found 0 0 based).2 13) ∧
    (indexRows (found 0 0 based).1 0 (found 0 0 based).2 formG (List.replicate 512 0xFF)).toOption = none ∧
    (operandRows (found 0 0 based).1 0 (found 0 0 based).2 0 0 1 [0] 0).toOption = some [0] ∧
    addrSpace (baseWord (found 0 0 based).1 0 (found 0 0 based).2 12) < 2 ∧
    (({ formG with await := true } : FormG).await = true ∧
      isLanded (found 0 0 (landedSet 0 false based)).1 0 = false) ∧
    isLanded (found 0 0 based).1 0 = true ∧
    (indexRows (found 0 0 based).1 0 (found 0 0 based).2 formG (readFrame (found 0 0 based).1 0 0 0).data).toOption =
      some [rowAddr 0 1 0] := ⟨inv_of _ (by decide +kernel), by decide +kernel⟩
theorem witness_VectorResultsWriteTheirRows : issuing live = true ∧
    (firstReady (vDue 100) (tileAt (inFlight (.v (.ldr formL) [rowAddr 0 3 1023]) [readRow 4095]) 0).pipe).isSome = true ∧
    (firstReady (vDue 100) (tileAt (inFlight (.v (.e .iadd formE) []) [readRow (rowAddr 0 3 0)]) 0).pipe).isSome = true ∧
    isWhole (.e .iadd formE) = false ∧ (firstReady (vDue 0) (tileAt live 0).pipe).isNone = true := by decide +kernel
theorem witness_ElementwiseLaneResults : (formE.ty.toNat ≤ 3 ∧ 2 ≤ formE.ty.toNat ∧ (2 ^ 16 - 1) < 2 ^ tyWidth formE.ty.toNat) ∧
    (∀ x : BitVec 5, x.toNat ≤ 5 → ({ formE with c := x } : FormE).c = x) := by decide +kernel
/-- A BCHK of elements below a bound: 0 is not below 0, and passes below the largest 16-bit value. -/
def boundForm : FormE := { formE with c := 1, bmode := 1 }
theorem witness_BoundCheckIsJudgedOnItsElements : Inv ready ∧ tileIssues ready 0 0 = true ∧
    legalV (.e .bchk boundForm) = true ∧ (0 : Nat) ∉ (tileAt ready 0).stops ∧
    (tileAt ready 0).pipe = [] ∧ vCycles (.e .bchk boundForm) = 1 ∧
    (let s1 := (found 0 0 ready).1
     let judge := fun (f : FormE) => (vOut (.e .bchk f) (vKept (.e .bchk f) (found 0 0 ready).2.bounds [])
       (readsOf s1 0 false (vReads 0 0 (.e .bchk f))) 0).fail
     judge boundForm = some (0x3008, 0) ∧ judge { boundForm with c := 0 } = none ∧
      (readsFx s1 0 0 false (vReads 0 0 (.e .bchk boundForm))).faults = []) ∧
    (tileAt (inFlight (.v (.ldr formL) [rowAddr 0 3 1023]) [readRow 4095]) 0).pipe ≠ [] :=
  ⟨inv_of _ (by decide +kernel), by decide +kernel⟩
def loadReads : List RowRead := (List.range 18).map fun i => readRow (rowAddr 0 1 i)
def loading : State := inFlight (.load 2 16) loadReads
theorem witness_LatchLoadJoinsAndBlockBecomesReady : Inv based ∧ tileIssues based 0 0 = true ∧ issuing loading = true ∧
    (operandRows (found 0 0 based).1 0 (found 0 0 based).2 0 0 18 [1] 0).toOption = none ∧
    (operandRows (found 0 0 based).1 0 (found 0 0 based).2 12 0 18 [1] 0).toOption =
      some ((List.range 18).map fun i => rowAddr 0 1 i) ∧
    (firstReady (loadDone 16) (tileAt loading 0).pipe).isSome = true ∧
    (firstReady (loadDone 15) (tileAt loading 0).pipe).isNone = true :=
  ⟨inv_of _ (by decide +kernel), by decide +kernel⟩
def block : Latch :=
  { fmt := 2, elems := List.replicate 8192 0, scales := List.replicate 256 0, sums := List.replicate 128 0, loaded := true
    fresh := true }
def streamForm : MStream := { swap := false, acc := false, abase := 0, vidx := 0, sbase := 0, row := 1023, count := 0 }
/-- A tile whose latches both hold a block. -/
def latched : State := withTile { runTile with latch0 := block, latch1 := block } live
/-- A load ready in cycle 16 writes the idle latch from cycle 7 on. -/
theorem witness_StreamTakesTheActiveBlock : Inv latched ∧ Inv ready ∧ (tileIssues latched 0 0 = true ∧
    (bobbinRows (found 0 0 latched).1 0 (found 0 0 latched).2 0 (vectorRows 0 1)).toOption.isSome = true ∧
    (bobbinRows (found 0 0 latched).1 0 (found 0 0 latched).2 4095 (vectorRows 1 1)).toOption.isSome = true ∧
    (bobbinRows (found 0 0 latched).1 0 (found 0 0 latched).2 0 (scaleRowsOf 0 1 (scaleBytes block.fmt))).toOption.isSome = true ∧
    (activeLatch (found 0 0 latched).2).loaded = true ∧ (found 0 0 latched).2.pipe = [] ∧
    (idleLatch (found 0 0 latched).2).fresh = true ∧ tileIssues ready 0 0 = true ∧
    (activeLatch (found 0 0 ready).2).loaded = false ∧ (idleLatch (found 0 0 ready).2).fresh = false ∧
    tileIssues loading 0 8 = true ∧
    ((tileAt loading 0).pipe.map fun p => (p.work, (readData p.reads).isSome, loadSpan p)) =
      [(.load 2 16, true, some (7, 16))] ∧ (found 0 8 loading).2.pipe = (tileAt loading 0).pipe ∧
    (found 0 8 loading).2.arrayBusy ≤ 8 ∧
    (bobbinRows (found 0 8 loading).1 0 (found 0 8 loading).2 0 (vectorRows 0 1)).toOption.isSome = true ∧
    (bobbinRows (found 0 8 loading).1 0 (found 0 8 loading).2 0 (scaleRowsOf 0 1 (scaleBytes 2))).toOption.isSome = true) :=
  ⟨inv_of _ (by decide +kernel), inv_of _ (by decide +kernel), by decide +kernel⟩
/-- An adapter of one slot and rank 1 whose list names slot 0, no adapter, and a slot that does not exist. -/
def adapter : Descriptor :=
  { baseRow := 0, stride := 24, aOff := 0, bOff := 1, slots := 1, rank := 1, fmt := 2, scale := 0, list := 0
    table := [0, 0xFFFF, 1] }
def adapted : State := withTile { runTile with descs := adapter :: List.replicate 3 Descriptor.reset } live
theorem witness_AdapterPassesJoinThePipe : Inv adapted ∧ (tileIssues adapted 0 0 = true ∧
    (let tile := (found 0 0 adapted).2
     slotOf (descAt tile 0) 0 = some 0 ∧ slotOf (descAt tile 0) 1 = some 0xFFFF ∧ slotOf (descAt tile 0) 2 = none ∧
     (bobbinRows (found 0 0 adapted).1 0 tile 0 (vectorRows 0 1)).toOption.isSome = true ∧
     (bobbinRows (found 0 0 adapted).1 0 tile (descAt tile 0).scale (scaleRowsOf 0 1 4)).toOption.isSome = true ∧
     validSlots (descAt tile 0) [0, 1, 2] = [0, 0xFFFF] ∧
     0 + ((descAt tile 0).rank + 1) / 2 ≤ 737280)) := ⟨inv_of _ (by decide +kernel), by decide +kernel⟩
/-- Bobbin row 0 spells a descriptor of one slot and rank 1, code 2. -/
def described : State := rowPut 0 (freshFrame
  (leBytes 4 0 ++ leBytes 4 24 ++ leBytes 4 0 ++ leBytes 4 1 ++ leBytes 2 1 ++ leBytes 1 1 ++ leBytes 1 2 ++ zeros 492) 0) ready
/-- An ASET of cycle 7 sets its descriptor in cycle 12. -/
def asetTile : Tile := { runTile with
  pipe := [{ id := 1, work := .aset 3 (some adapter), issue := 7, bundle := 0, done := 0
             reads := List.replicate 5 (readRow 0) }] }
theorem witness_AsetAndSetboundWriteTheirRegisters : Inv ready ∧ (tileIssues ready 0 0 = true ∧
    (bobbinRows (found 0 0 ready).1 0 (found 0 0 ready).2 0 [(0, 0)]).toOption = some [(0, 0)] ∧
    (bobbinRows (found 0 0 ready).1 0 (found 0 0 ready).2 0 [(4096, 0)]).toOption = none ∧
    descriptorOk (readFrame (found 0 0 ready).1 0 0 0).data = false ∧ tileIssues described 0 0 = true ∧
    descriptorOk (readFrame (found 0 0 described).1 0 0 0).data = true ∧
    (asetTile.pipe.map fun p => (p.work, p.issue + 5)) = [(.aset 3 (some adapter), 12)]) :=
  ⟨inv_of _ (by decide +kernel), by decide +kernel⟩
/-- A STREAM in flight over a zero block, on a row never used, used in the other mode, or overwritten. -/
def streaming (ovr : Bool) (tag : Option Bool) : State :=
  withTile { runTile with
    pipe := [{ id := 1, work := .stream { streamForm with acc := !ovr } block, issue := 0, bundle := 0, done := 0
               reads := [readRow 0, readRow 1] }]
    accs := [(1023, { AccRow.reset with tag := tag })] } live
def hitAcc (s : State) (c : Nat) : Option (Option AccRow) :=
  (firstReady (itemDone c) (tileAt s 0).pipe).bind fun x => x.2.2.2.2.2.map fun k =>
    applyContrib x.2.2.2.2.1 k (accAt (tileAt s 0) x.2.2.2.1)
/-- An AUP in flight whose first row has no valid slot list entry. -/
def aupBad : State := withTile { runTile with
  pipe := [{ id := 1, work := .aup { base := 0, vidx := 0, desc := 0, row := 2, block := 0, count := 0 } adapter []
             issue := 0, bundle := 0, done := 0, reads := [readRow 0] }] } live
theorem witness_ContributionUpdatesItsAccumulatorRow : Inv (streaming true none) ∧ Inv aupBad ∧ (issuing live = true ∧
    (hitAcc (streaming true none) 8).map (·.isSome) = some true ∧ hitAcc (streaming true none) 7 = none ∧
    ((hitAcc (streaming false (some true)) 8).map (·.isSome) = some true ∨
      (hitAcc (streaming false (some false)) 8).map (·.isSome) = some true) ∧
    ((hitAcc (streaming false (some true)) 8).map (·.isSome) = some false ∨
      (hitAcc (streaming false (some false)) 8).map (·.isSome) = some false) ∧
    ((firstReady (itemDone 100) (tileAt aupBad 0).pipe).map fun x => x.2.2.2.2.2.isNone) = some true ∧
    (firstReady (itemDone 100) (tileAt ready 0).pipe).isNone = true) :=
  ⟨inv_of _ (by decide +kernel), inv_of _ (by decide +kernel), by decide +kernel⟩
def drainForm : MDrain := { fmt := 7, round := 0, bound := 0, dbase := 0, doff := 4095, row := 1023, count := 0 }
def draining (r : AccRow) : State :=
  withTile { runTile with
    pipe := [{ id := 1, work := .drain drainForm [] 127, issue := 0, bundle := 0, done := 0
               reads := [{ readRow 4095 with val := none }] }]
    accs := (List.range 1024).map fun i => (i, r) } live
theorem witness_DrainJoinsAndItsRowsFollow : Inv ready ∧ tileIssues ready 0 0 = true ∧
    (operandRows (found 0 0 ready).1 0 (found 0 0 ready).2 0 4095 1 [0] 0).toOption = some [4095] ∧
    (operandRows (found 0 0 ready).1 0 (found 0 0 ready).2 0 4096 1 [0] 0).toOption = none ∧
    (firstReady (drainDue 0) (tileAt (draining AccRow.reset) 0).pipe).isSome = true ∧
    ({ AccRow.reset with tag := some false } : AccRow).tag = some (decide (drainForm.fmt.toNat = 8)) ∧
    drainCheck { AccRow.reset with tag := some false } (objGet live 0x3200 1) 127 = none ∧
    AccRow.reset.tag ≠ some (decide (drainForm.fmt.toNat = 8)) ∧
    (firstReady (drainDue 0) (tileAt ready 0).pipe).isNone = true := ⟨inv_of _ (by decide +kernel), by decide +kernel⟩
theorem witness_LaneSetsAreSetUpOnceAndExchanged : issuing live = true ∧ (tileAt live 0).shReady = false ∧
    (tileAt (withTile { Tile.reset with shReady := true } live) 0).shReady = true ∧
    (tileAt (withTile { Tile.reset with exchange := true } live) 0).exchange = true ∧ (tileAt live 0).exchange = false := by
  decide +kernel
theorem witness_SendsLeaveAtTheirSender : Inv ready ∧ tileIssues ready 0 0 = true ∧ (tileAt ready 0).pipe = [] ∧
    senderOf 0 .side sSlotF = some 0 ∧ senderOf 0 .mesh { sSlotF with dx := 23, dy := 31 } = some 4 ∧
    senderOf 0 .publish sSlotF = some 4 ∧ (tileAt ready 0).senders.getD 4 0 ≤ 0 ∧ foreign (found 0 0 ready).1 0 0 = false ∧
    isLanded (found 0 0 ready).1 4094 = true ∧
    (operandRows (found 0 0 ready).1 0 (found 0 0 ready).2 0 4094 (sendRowsOf .side { sSlotF with count := 1 }) [0, 3] 0).toOption =
      some [4094, 4095] ∧
    (operandRows (found 0 0 ready).1 0 (found 0 0 ready).2 0 4095 (sendRowsOf .publish sSlotF) [0, 3] 0).toOption = some [4095] ∧
    (operandRows (found 0 0 ready).1 0 (found 0 0 ready).2 0 4096 (sendRowsOf .publish sSlotF) [0, 3] 0).toOption = none ∧
    ready.treadle.got = [] := ⟨inv_of _ (by decide +kernel), by decide +kernel⟩
theorem witness_HandOffReachesItsPort : tileIssues ready 0 0 = true ∧ (tileAt ready 0).pipe = [] ∧ ready.net.rows = [] ∧
    (tileAt ready 0).senders.getD 4 0 ≤ 0 ∧ isLanded (found 0 0 ready).1 4094 = true ∧
    (operandRows (found 0 0 ready).1 0 (found 0 0 ready).2 0 4094 2 [0, 3] 0).toOption = some [4094, 4095] ∧
    (linkAt ready (bits (sendEntry ready (dieOf 0) 0) 58 6)).handed = [] := by decide +kernel
/-- A path with no repair on it needs no added hop; one across a failed router needs two of each of its dies. -/
theorem witness_RowsOnTheWireReadBack : zeroRowFrame.data.length = 512 ∧ pathPhys live 0 767 ≤ pathHops 0 767 + 2 * pathDies 0 767 ∧
    (let s := { live with net := { live.net with routers := [1] } }
     pathPhys s 0 2 = pathHops 0 2 + 2 * pathDies 0 2) := by decide +kernel
theorem witness_IllegalSendDestinationsAreFaults : Inv ready ∧ tileIssues ready 0 0 = true ∧ (tileAt ready 0).pipe = [] ∧
    ¬ ((2 : Nat) < 24 ∧ (0 = tileY 0 ∧ (2 = tileX 0 + 1 ∨ 2 + 1 = tileX 0) ∨ 2 = tileX 0 ∧ (0 = tileY 0 + 1 ∨ 0 + 1 = tileY 0))) ∧
    foreign (found 0 0 ready).1 0 1 = true ∧ 24 ≤ (24 : BitVec 5).toNat := ⟨inv_of _ (by decide +kernel), by decide +kernel⟩
def route : Route :=
  { classB := false, kind := 0, dx := 0, dy := 0, sx := 0, sy := 0, window := 0, woff := 7, pad := 0, act := 0, gen := 3 }
/-- Window 0 of tile 0 open in generation 3 over eight rows from bobbin row 16. -/
def openTile : Tile := { Tile.reset with windows := [(0, { gen := 3, opened := true, first := 16, rows := 8 })] }
def opened : State := withTile openTile live
def onWay (inp : LandIn) (due : Nat) : NetRow :=
  { dst := 0, inp := inp, hdr := { window := 0, woff := 7, seq := 0, landSp := 0 }, row := zeroRowFrame, due := due
    src := (0, 0), port := none, flits := [] }
theorem witness_RowsThatArriveAtATile : Inv opened ∧ issuing opened = true ∧ opened.net.rows = [] ∧
    (onWay .mx 9).dst = 0 ∧ (onWay .mx 9).inp = .mx ∧ (onWay .mx 9).hdr.woff = route.woff.toNat ∧
    (onWay .mesh 9).src.1 = 24 * route.sy.toNat + route.sx.toNat ∧
    proofOk zeroRowFrame = true ∧ proofOk { zeroRowFrame with proof := 0 } = false ∧ routeOk route = true ∧
    routeOk { route with kind := 5 } = false ∧ route.kind = 0 ∧
    (({ route with classB := true, kind := 4 } : Route).kind ≠ 0 ∧ routeOk { route with classB := true, kind := 4 } = true) ∧
    ({ route with classB := true } : Route).classB = true ∧ routeOk { route with classB := true } = true :=
  ⟨inv_of _ (by decide +kernel), by decide +kernel⟩
def landRow (o : Nat) : LandRow :=
  { hdr := { window := 0, woff := o, seq := 0, landSp := 0 }, row := zeroRowFrame, back := none, port := none, since := 0 }
def queued2 (q : List LandRow) : State := withTile { openTile with queue := q :: List.replicate 5 [] } live
/-- The same window open on beam rows. -/
def beamTile : Tile :=
  { Tile.reset with windows := [(0, { gen := 3, opened := true, first := rowAddr 0 1 16, rows := 8 })], column := [landRow 7] }
theorem witness_LandingQueueWritesInOrder : Inv opened ∧ issuing opened = true ∧ (tileAt opened 0).column = [] ∧
    (tileAt opened 0).sinking = [] ∧ (tileAt opened 0).queue.length = 6 ∧ (tileAt opened 0).kept = List.replicate 6 [] ∧
    opened.net.rows = [] ∧
    (tileAt opened 0).seq.begun ≠ some 5 ∧ (takeRows 5 2 (tileAt (queued2 [landRow 7]) 0).queue).1 = [landRow 7] ∧
    (takeRows 5 2 (tileAt (queued2 [landRow 0, landRow 7, landRow 1]) 0).queue).1 = [landRow 0, landRow 7] ∧
    (landRow 7).hdr.woff < (windowAt (tileAt opened 0) 0).rows ∧ (windowAt (tileAt opened 0) 0).rows ≤ (landRow 8).hdr.woff ∧
    (windowAt (tileAt opened 0) 0).opened = true ∧ (windowAt (tileAt opened 0) 1).opened = false ∧
    (landRow 7).back = none ∧ proofOk (landRow 7).row = true ∧ proofOk { zeroRowFrame with proof := 0 } = false ∧
    addrSpace ((windowAt (tileAt opened 0) 0).first + 7) ≠ 1 ∧
    (takeRows 5 2 (tileAt opened 0).queue).1 = [] ∧ beamTile.column = [landRow 7] ∧ beamTile.sinking = [] ∧
    addrSpace ((windowAt beamTile 0).first + 7) = 1 ∧ (landRow 7).since ≤ 5 ∧
    sliceFree (withTile beamTile live) (rowAddr 0 1 23) 5 = true := ⟨inv_of _ (by decide +kernel), by decide +kernel⟩
def scrubbing (row : Nat) : State := withTile { Tile.reset with scrubRow := row, writeBack := [(1, true)] } live
/-- A tile whose slice 1 is busy in cycle 18, and one whose write of row 1 of the beam has issued in cycle 10. -/
def clashTile : Tile :=
  { Tile.reset with slices := [{ slice := 1, cycle := 18, rank := 7, op := 0 }], writeBack := [(1, false)] }
def writing : State := withTile { Tile.reset with
  writes := [(18, rowAddr 0 1 1, zeroRowFrame)], claims := [(rowClaim (rowAddr 0 1 1), 18, 1)], writeBack := [(1, false)] } live
theorem witness_ScrubberReadsAndWritesBack : Inv (scrubbing 737279) ∧ (tileAt (scrubbing 737279) 0).scrubRow < 737280 ∧
    backFree (scrubbing 737279) (rowAddr 0 1 737279) 50 = true ∧
    mget [] (scrubbing 737279).upsets (rowAddr 0 1 737279) = [] ∧ mget false (scrubbing 737279).poison (rowAddr 0 1 737279) = false ∧
    proofOk (rowGet (scrubbing 737279) (rowAddr 0 1 737279)) = true ∧
    (fetchRow { scrubbing 5 with upsets := [(rowAddr 0 1 5, [0, 32])] } (rowAddr 0 1 5)).bad = true ∧
    737280 ≤ (tileAt (scrubbing 737280) 0).scrubRow ∧ (tileAt (scrubbing 740351) 0).scrubRow + 1 = 740352 ∧
    (tileAt (scrubbing 0) 0).writeBack.find? (·.1 % 24 == 1) = some (1, true) ∧ scrubSlot Sequencer.reset 18 1 = true ∧
    writeIssued (scrubbing 0) (rowAddr 0 1 1) 18 = false ∧
    sliceFree (scrubbing 0) (rowAddr 0 1 1) 18 = true ∧ (tileAt live 0).writeBack.find? (·.1 % 24 == 1) = none ∧
    sliceFree (withTile clashTile live) (rowAddr 0 1 1) 18 = false ∧ backFree (withTile clashTile live) (rowAddr 0 1 1) 18 = false ∧
    writeIssued writing (rowAddr 0 1 1) 18 = true :=
  ⟨inv_of _ (by decide +kernel), by decide +kernel⟩
/-- Four periods of 1,000 ms are 3,200,000,000 ticks: late then, and not one tick before. -/
theorem witness_LatePassIsCountedOnce : (tileAt live 0).scrubLate = false ∧
    (let s := { live with tick := 4 * passTicks live }
     (tileAt s 0).scrubAt + 4 * passTicks s ≤ scrubTime s) ∧
    (let s := { live with tick := 4 * passTicks live - 1 }
     scrubTime s < (tileAt s 0).scrubAt + 4 * passTicks s) ∧
    (tileAt (withTile { Tile.reset with scrubLate := true } live) 0).scrubLate = true := by decide +kernel
def digest (seen : List Nat) : Digest :=
  { send := true, n := 1, sbase := 0, soff := 0, dbase := 0, doff := 4095, window := 0, first := 0, seen := seen, lastAt := 6
    acc := 5, row := none }
def digesting (seen : List Nat) : State := withTile { Tile.reset with digests := [digest seen] } live
theorem witness_DigestRowIsWrittenWhenComplete : issuing live = true ∧ (tileAt (digesting [0]) 0).pipe = [] ∧
    ((tileAt (digesting [0]) 0).digests.filter (·.send))[0]? = some (digest [0]) ∧ (digest [0]).seen.length = (digest [0]).n ∧
    (digest [0]).lastAt + 4 ≤ (tileAt (digesting [0]) 0).count 10 ∧ ¬ (digest [0]).lastAt + 4 ≤ (tileAt (digesting [0]) 0).count 9 ∧
    ((tileAt (digesting []) 0).digests.filter (·.send))[0]? = some (digest []) ∧ (digest []).seen.length ≠ (digest []).n ∧
    ((tileAt live 0).digests.filter (·.send))[7]? = none := by decide +kernel
/-- A schedule of 1,040 rows whose bundles 0 and 1 end a pick each: the second pick's row 0 is read ahead in the first. -/
def streamed : Pattern :=
  { file := (List.replicate 2 (leBytes 32 (encodeBundle
      { m := none, v := none, t := none, s := none, k := some .pickwait }))).flatten
    latency := 1, numeric := 1, horizon := 2, groups := 1, shape := [1, 1, 1], variants := 0, hash := zeros 32
    scheds := [{ group := 0, length := 2, bundles := 16640, stream := 0, offset := 0, pubs := [] }]
    delays := List.replicate 36 1, bases := [], extents := [], modules := []
    sends := [], forwards := [], map := [], digests := [], steps := [] }
theorem witness_ScheduleRowsAreStreamedIn : issuing live = true ∧ live.pattern = none ∧
    streamAhead live streamed 0 (tileAt live 0).seq = none ∧ (streamAhead ready streamed 0 running).map (·.2) = some [0] ∧
    (∀ k ∈ [15, 127], k % 16 = 15 ∧ k < 128 ∧ pickIndex ready k (tileAt ready 0) = k) ∧
    ([0][15 / 16]? : Option Nat) = some 0 ∧ ([0][127 / 16]? : Option Nat) = none ∧
    pickIndex ready 14 (tileAt ready 0) % 16 ≠ 15 := by decide +kernel
def waitB (act : Nat) : WaitB := { act := act, flits := 9, items := [.classB 0 true frame] }
def netWait : State := { live with net := { live.net with waiting := [[], [], [waitB 6, waitB 7]] ++ List.replicate 9 [] } }
theorem witness_WaitingPacketsAndFailedPorts : Inv live ∧ netWait.net.waiting.getD 2 [] = [waitB 6, waitB 7] ∧
    isSpent netWait 0 6 = false ∧ isSpent (spent 6 netWait) 0 6 = true ∧ isSpent (spent 6 netWait) 0 7 = false ∧
    netWait.net.arrived = [] ∧ live.job = true ∧ up.job = false := ⟨inv_of _ (by decide +kernel), by decide +kernel⟩
def away : Coord := { x := 1, y := 0, z := 0 }
/-- A pattern of one group that forwards slot 1 of link 0 over link 1. -/
def pattern : Pattern :=
  { file := [], latency := 1, numeric := 1, horizon := 2, groups := 1, shape := [1, 1, 1], variants := 0, hash := zeros 32
    scheds := [], delays := List.replicate 36 1, bases := [], extents := [], modules := []
    sends := [], forwards := [[0, 0x8200]], map := [], digests := [], steps := [] }
def forwarding : State := { live with pattern := some pattern }
theorem witness_ScheduledFramesLandForwardOrRetry : Inv live ∧ linkLive live = true ∧ proofOk frame.row = true ∧
    frame.dest = ownCoord live ∧ live.sp < landingSp live { frame with landSp := 1 } ∧ landingSp live frame ≤ live.sp ∧
    frame.tx.toNat < 24 ∧ proofOk { frame.row with proof := 0 } = false ∧ 24 ≤ ({ frame with tx := 24 } : Frame).tx.toNat ∧ ({ frame with dest := away } : Frame).dest ≠ ownCoord live ∧
    (let e := ((pattern.forwards.getD 0 []).getD (positionSlot (frame.seq.toNat % 16)) 0).toNat
     2 ^ 15 ≤ e ∧ bits e 9 6 = 1 ∧ forwarding.sp < nearestSp forwarding.sp frame.sendSp.toNat + assumed forwarding 0 + 1) ∧
    ((pattern.forwards.getD 0 []).getD (positionSlot 0) 0).toNat < 2 ^ 15 ∧
    (let s := { live with links := [(0, { Link.reset with failures := [(1, objGet live 0x4100 0xF)] })] }
     objGet s 0x4100 0xF < mget 0 (linkAt s 0).failures 1 + 1) ∧
    mget 0 (linkAt live 0).failures 1 + 1 ≤ objGet live 0x4100 0xF ∧ linkLive up = false :=
  ⟨inv_of _ (by decide +kernel), by decide +kernel⟩
def backW (n : Nat) : BackWrite :=
  { ref := 9, dest := origin, tile := 0, window := 0, woff := 0, gen := 3, row := zeroRowFrame, die := 0, act := 7, refused := n, retryTp := some 4 }
def backs (n : Nat) : State := { live with net := { live.net with backs := [backW n] } }
def backAck : BackAck := { tile := 0, window := 0, gen := 3, opened := true, ref := 9 }
/-- Every link is up. -/
def linked3 (s : State) : State := (List.range 36).foldl (fun s l => objSet (0x4100 + l) 1 2 s) s
theorem witness_BackgroundWritesLandOrRetry : Inv opened ∧ linkLive opened = true ∧ opened.net.arrived = [] ∧
    mayGo opened 0 6 ∧ mustWait (spent 6 opened) 0 6 ∧ mayGo (backs 0) 0 7 ∧ mayGo live 0 2 ∧
    (proofOk frame.row = true ∧ frame.dest = ownCoord opened ∧
    frame.tx.toNat < 24 ∧ 24 ≤ ({ frame with tx := 24 } : Frame).tx.toNat ∧ { frame with dest := away }.dest ≠ ownCoord opened ∧
    (let s := { live with links := [(0, { Link.reset with failures := [(1, objGet live 0x4100 0xF)] })] }
     objGet s 0x4100 0xF < mget 0 (linkAt s 0).failures 1 + 1) ∧
    mget 0 (linkAt live 0).failures 1 + 1 ≤ objGet live 0x4100 0xF ∧ linkLive up = false ∧
    (backs 0).net.backs.find? (·.ref == backAck.ref) = some (backW 0) ∧ backAck.gen = (backW 0).gen ∧
    ({ backAck with opened := false } : BackAck).opened = false ∧
    objGet live 0x3100 0xF ≤ (backW (objGet live 0x3100 0xF - 1)).refused + 1 ∧
    (backW (objGet live 0x3100 0xF - 2)).refused + 1 < objGet live 0x3100 0xF ∧
    (backW 0).retryTp = some 4 ∧ 4 ≤ ({ backs 0 with tp := 4 } : State).tp ∧ (backs 0).tp < 4 ∧
    (backW 0).window < 256 ∧ (backW 0).die < 4 ∧ (backs 0).net.arrived = []) ∧
    ∃ x, routeLink (linked3 live) away = some x :=
  ⟨inv_of _ (by decide +kernel), by decide +kernel, by decide +kernel, mayGo_of _ _ _ (by decide +kernel),
    mustWait_of _ _ _ (by decide +kernel), mayGo_of _ _ _ (by decide +kernel), mayGo_of _ _ _ (by decide +kernel),
    by decide +kernel, ((List.range 36).find? fun x => linkUp (linked3 live) x && linkDir x == 0).getD 0, by decide +kernel⟩
def sentFrame (seq : Nat) : SentFrame := { tp := 0, seq := seq, frame := frame }
def linked (k : Link) (s : State) : State := linkSet 0 k (objSet 0x4100 1 2 s)
def handedRow : Handed :=
  { slot := 0, sp := 0, tile := 0, issue := 0, woff := 0, ready := some 0, frame := frame, late := true }
/-- Link 0 in the COORD exchange or in the delay measurement. -/
def training (k : Link) : State := objSet 0x4100 6 0x300 (objSet 0x4100 1 1 (linkSet 0 k up))
theorem witness_RetriesAndControlBlocks : Inv (linked Link.reset live) ∧ live.job = true ∧ stopState live = 0 ∧
    ((16 + 4096 - 0 / 16) % 4096 < 17 ∧ 0 % 16 < positions true) ∧ (17 ≤ (17 + 4096 - 0 / 16) % 4096) ∧
    positions true ≤ 15 % 16 ∧
    (let s := linked { Link.reset with resend := [(0, sentFrame 1)] } live
     let k := linkAt (advanceLink 0 s) 0
     k.resend = [(0, sentFrame 1)] ∧ linkUp s 0 = true ∧ k.used.lookup (reserveSlot true) = none ∧
       notBegun s true (reserveSlot true) = true) ∧
    (linkAt (advanceLink 0 (linked Link.reset live)) 0).resend = [] ∧
    (let s := linked { Link.reset with handed := [handedRow] } live
     ((linkAt s 0).handed.filter (·.late))[0]? = some handedRow ∧ handedRow.ready = some 0 ∧
       handedRow ∈ (linkAt (advanceLink 0 s) 0).handed ∧ (freePosition (advanceLink 0 s) 0).isSome = true) ∧
    objGet live 0x4100 0x11 / 2 ^ 48 + 8 < 2 ^ 16 ∧ linkState live 0 ≠ 1 ∧
    (let s := training { Link.reset with step := 5 }
     linkState s 0 = 1 ∧ (linkAt s 0).step = 5 ∧ coordsSet s = true) ∧
    (linkState (training { Link.reset with step := 6 }) 0 = 1) ∧ up.job = false ∧ (let s := { linked Link.reset live with sealedJob := true }
      linkSealed s 0 = true ∧ linkLive s = true ∧ pickTagOk s 0 { tp := 0, rows := [], heads := [] } [] = false) := ⟨inv_of _ (by decide +kernel), by decide +kernel⟩
def goodLane : LaneTrain := { detect := true, lock := true, errors := 22399 }
def badLane : LaneTrain := { goodLane with errors := 22400 }
def coords7 : Link := { Link.reset with step := 5, coords := 7, stepping := some 0 }
theorem witness_LinkTrainingRunsItsSteps : Inv up ∧ (mayTrain (training Link.reset) 0 = true ∧ mayTrain up 0 = false ∧ linkUp up 0 = false ∧
    3 ≤ (([badLane, goodLane, goodLane, goodLane].take 4).filter laneGood).length ∧
    (([badLane, badLane, goodLane, goodLane].take 4).filter laneGood).length < 3 ∧
    linkState (objSet 0x4100 1 5 up) 0 = 5 ∧ linkState up 0 ≠ 5 ∧ linkState up 0 ≠ 1 ∧
    (let s := objSet 0x4100 7 3 (training coords7)
     linkState s 0 = 1 ∧ (linkAt s 0).step = 5 ∧ coordsSet s = true ∧ expectedPeer s (linkDir 0) = peerCoord s 0 ∧
       (3 : BitVec 6).toNat = objGet s 0x4100 7 ∧ (linkAt s 0).stepping = some 0 ∧ 8 ≤ (linkAt s 0).coords + 1) ∧
    coordsSet (objSet 0x4200 1 0xFFFF up) = false ∧
    (let s := training { Link.reset with step := 6, t0 := some 0, trips := List.replicate 63 100 }
     linkState s 0 = 1 ∧ (linkAt s 0).step = 6 ∧ (linkAt s 0).t0 = some 0 ∧
       64 ≤ ((linkAt s 0).trips ++ [100]).length) ∧
    (let s := training { Link.reset with step := 6, t0 := some 0, trips := List.replicate 62 100 }
     ((linkAt s 0).trips ++ [100]).length < 64) ∧
    (fnAt (fnSet 0 { Fn.reset with state := 1 } (training Link.reset)) 0).state = 1 ∧
    linkUp (linked Link.reset live) 0 = true ∧ linkUp (linked Link.reset up) 0 = true) :=
  ⟨inv_of _ (by decide +kernel), by decide +kernel⟩
/-- Whether there is an entry of which `f` holds. -/
def entryHas (i j : Nat) (f : ObjRow → Bool) : Bool := ((entry? i j).map f).getD false
theorem witness_BundlesAndControlWordsDecodeAsEncoded :
    legalBundle { m := none, v := some (.e .iadd formE), t := none, s := none, k := some .pickwait } = true ∧
    (decodeBundle 0).isSome = true ∧ decodeCw (encodeCw .pace cword) = some (.pace, cword) := by decide +kernel
/-- The management port on, an operator key set. -/
def keyed : State := octSet 0x9001 8 (zeros 32) (objSet 0x9001 9 1 (fnSet 37 { Fn.reset with state := 2 } up))
/-- One write for each refusal, at the edges of lengths and ranges. -/
theorem witness_RefusedWritesChangeNothing :
    objectWrite (.write (.entry .pcie 0x4300 2 [2])) = some (.pcie, 0x4300, 2, [2]) ∧ pathOpen State.reset .pcie = false ∧
    pathOpen up .doe = true ∧
    (let s := objSet 0x2200 2 3 up
     pathOpen s .can = true ∧ codeRunning s = false ∧ mgmtCopy 0x43 = false) ∧ mgmtCopy 0x2200 = true ∧
    pathOpen up .pcie = true ∧ codeRunning up = true ∧ (entry? 0x4300 0x70).isNone = true ∧
    pathPrivilege keyed .mgmt < writePrivilege 0x4300 2 ∧ pathOpen keyed .mgmt = true ∧ pathOpen up .can = true ∧ pathBarred .can 0x9000 5 = true ∧
    entryHas 0x4300 1 (fun r => r.acc ≤ 1) = true ∧
    entryHas 0x4300 2 (fun r => 2 ≤ r.acc && r.fixed && r.len != 2) = true ∧ pathPrivilege up .pcie = 1 ∧
    entryHas 0x6000 0x17 (fun r => r.ty == 1 && 2 ≤ r.acc && r.len == 1) = true ∧ 1 < leNat [2] ∧
    utf8Valid [0xFF] = false ∧ entryHas 0x1000 0xB (fun r => r.ty == 10 && 2 ≤ r.acc && !r.fixed) = true ∧
    (entryHas 0x4300 2 (fun r => r.job) = true ∧ live.job = true) ∧
    entryHas 0x3100 6 (fun r => !r.octets && decide (leNat (leBytes 4 9) < r.lo) && r.lo ≤ 10 && !r.job && r.len == 4) = true ∧
    entryHas 0x3100 6 (fun r => decide (r.hi < leNat (leBytes 4 60001))) = true ∧
    ownRefusal up 0x4300 3 [63] ≠ 0 ∧ entryHas 0x4300 3 (fun r => r.lo ≤ 63 && 63 ≤ r.hi) = true := by decide +kernel
def slotState (n : Nat) : State := { up with loads := { Load.reset with state := n } :: List.replicate 15 Load.reset }
def chained : State := objSet 0x5200 8 0xFF240000 up
def record : Bytes := leBytes 1 1 ++ zeros 127
theorem witness_AcceptedWritesTakeEffect : Inv up ∧ pathOpen up .pcie = true ∧ codeRunning up = true ∧ pathPrivilege up .pcie = 1 ∧
    up.job = false ∧ Config.minPace up.ident.grade ≤ 64 ∧ 128 ≤ Config.maxPace ∧
    (live.job = true ∧ live.started = true ∧ isLead live = true ∧ live.hold.floor0 ≤ 64) ∧
    (coordInside up (leNat (leBytes 2 0)) = true ∧ linkUp (linked Link.reset up) 0 = true) ∧
    (startState up = 1 ∧ session up ≠ 5 ∧ up.tick + 800000 ≤ leNat (leBytes 8 800000) ∧ leNat (leBytes 8 799999) < up.tick + 800000) ∧
    (let s := objSet 0x5000 8 7 up
     idxAhead (objGet s 0x5000 9) 7 ≤ idxAhead (objGet s 0x5000 9) (objGet s 0x5000 8) ∧
       ∀ d, d < 8 → destOn (destEntry s d) = true → idxAhead (objGet s 0x5000 9) 7 ≤ idxAhead (objGet s 0x5000 9) (releaseIndex s d)) ∧
    (idxAhead (objGet live 0x5100 7) 1024 ≤ 1024 ∧ live.integrity.stopLine = false) ∧
    ((loadAt up 0).state = 0 ∧ up.integrity.stopLine = false ∧ record.length = 128 ∧ allZero record = false) ∧
    closeRefused up 15 = false ∧
    (bits 0xFF23FFFF 24 8 = 0xFF ∧ bits 0xFF23FFFF 16 8 ≤ 35 ∧ bits 0xFFFF0000 16 8 = 0xFF ∧ openLoad up 0 = none) ∧
    stopState (objSet 0x6000 1 2 live) = 2 ∧ stopState (objSet 0x6000 1 1 live) = 1 ∧
    up.stores.length < 16 ∧ (fnAt up 37).state = 0 ∧ (fnAt (fnSet 37 { Fn.reset with state := 2 } up) 37).state = 2 ∧
    (destFieldsOk ([3, 1] ++ zeros 46) = true ∧ ([3, 1] ++ zeros 46 : Bytes).length = 48) ∧ snapRefused up = false ∧
    (selectorOk (zeros 8 ++ leBytes 8 1) = true ∧ (zeros 8 ++ leBytes 8 1).length = 16 ∧ up.counting.shadows[7]?.isSome = true) ∧
    (let s := objSet 0x7100 2 5 up
     idxAhead (objGet s 0x7100 6) 5 ≤ idxAhead (objGet s 0x7100 6) (objGet s 0x7100 2)) ∧
    entryHas 0x3100 6 (fun r => r.acc == 2 && !r.octets && r.len == 4 && r.lo == 10 && r.hi == 60000 && !r.job) = true ∧
    (definedNum 0x3100 6 10 = 10 ∧ definedNum 0x3100 6 60000 = 60000 ∧ definedNum 0x4200 1 0xF123 = 0x123) ∧
    writePrivilege 0x3100 6 ≤ 1 ∧ ownRefusal up 0x3100 6 (leBytes 4 10) = 0 ∧ pathBarred .pcie 0x3100 6 = false ∧
    pcieUp up = true ∧ (0x100000 ≤ 0x13FFFF ∧ 0x13FFFF < 0x140000) ∧ pcieUp State.reset = false :=
  ⟨inv_of _ (by decide +kernel), by decide +kernel⟩
def store : Store := { key := objKey 0x6000 0x17, num := 1, oct := [1], rcpt := .sender .pcie, resp :=
  { txn := 0, opcode := 0x82, index := 0x6000, sub := 0x17, status := 0, data := [] } }
theorem witness_RequestsOfThePathsAreServed : Inv up ∧ pathOpen State.reset .pcie = false ∧ pathOpen up .pcie = true ∧
    codeRunning up = true ∧ (entry? 0x4300 0x70).isNone = true ∧ (entry? 0x4300 2).isSome = true ∧
    ({ up with stores := [store] } : State).stores = [store] ∧ pathOpen State.reset .doe = false ∧ pathOpen up .doe = true ∧
    entryHas 0x4300 2 (fun r => r.acc != 3) = true ∧ withholding up = false ∧ pathOpen up .mgmt = false ∧
    pathOpen keyed .mgmt = true ∧ codeRunning keyed = true ∧ objGet keyed 0x9001 9 = 1 ∧ objGet up 0x9001 9 ≠ 1 ∧
    objGet keyed 0x9001 0xA < 1 ∧ 0 ≤ objGet keyed 0x9001 0xA := ⟨inv_of _ (by decide +kernel), by decide +kernel⟩
def can (c : Can) : State := { up with can := c }
def answer : Response := { txn := 1, opcode := 0x90, index := 0x1000, sub := 1, status := 0xE, data := [] }
def openCan (next total n : Nat) : State :=
  can { Can.reset with open_ := some { req := { request with data := zeros n }, total := total, next := next } }
theorem witness_CanFdPortCarriesTransactions : canHears up 5 = true ∧ canHears up 6 = false ∧ objGet up 0x9000 7 ≠ 2 ∧
    canTxn up = none ∧ (up.can.last.map (·.txn)) ≠ some request.txn ∧
    (let s := can { Can.reset with last := some answer }
     s.can.open_ = none ∧ s.can.sending = none ∧ s.stores = [] ∧ s.can.last = some answer ∧ answer.txn = request.txn ∧
       answer.data.length ≤ 56) ∧
    (1 < canCount 180 ∧ 56 + 62 ≤ 180 ∧ (zeros 62).length = 62) ∧
    ((openCan 1 180 56).can.open_.isSome = true ∧ 15 < canCount 2000) ∧
    (16 < canCount 2000 ∧ 986 + 62 ≤ 2000 ∧ (openCan 16 2000 986).can.open_.isSome = true) ∧
    (let s := can { Can.reset with sending := some ({ answer with data := zeros 100 }, 1) }
     0 < canCount 100 ∧ canCount 100 ≤ 16 ∧ 1 ≤ canCount 100 ∧ s.can.sending.isSome = true) ∧
    canTxn (openCan 1 180 56) = some 1 ∧ canTxn (openCan 1 180 56) ≠ some 2 ∧
    (pathOpen (openCan 1 180 56) .can = true ∧ (openCan 1 180 56).can.open_.isSome = true) ∧
    objGet (objSet 0x9000 6 1000 up) 0x9000 6 ≠ 0 ∧ objGet (objSet 0x9000 6 0 up) 0x9000 6 = 0 ∧ pathOpen State.reset .can = false ∧
    objGet (objSet 0x9000 7 3 up) 0x9000 7 = 3 ∧ objGet up 0x9000 7 ≠ 3 := by decide +kernel
def fnIn (n : Nat) (r : Bool) : State := fnSet 0 { Fn.reset with state := n, restart := r } up
theorem witness_FunctionsFollowTheirStateMachine : Inv (fnIn 3 true) ∧ (fnAt (fnIn 0 false) 0).state = 0 ∧
    (fnAt (fnIn 1 false) 0).state = 1 ∧ (fnAt (fnIn 2 false) 0).state = 2 ∧
    ((fnAt (fnIn 3 false) 0).state = 3 ∧ (fnAt (fnIn 3 false) 0).restart = false) ∧
    ((fnAt (fnIn 3 true) 0).state = 3 ∧ (fnAt (fnIn 3 true) 0).restart = true) ∧
    pathOpen (fnIn 1 false) .pcie = true ∧ codeRunning (fnIn 1 false) = true ∧ pathPrivilege (fnIn 1 false) .pcie = 1 ∧
    (fnIn 1 false).stores.length < 16 ∧ (fnIn 1 false).job = false := ⟨inv_of _ (by decide +kernel), by decide +kernel⟩
/-- Aperture 0 shows the beam column of tile 0. -/
def windowed : State := portPut 0x100 (leBytes 8 (2 ^ 32 + rowAddr 0 1 0)) up
theorem witness_PciePortResetsAndInterrupts : Inv up ∧ State.reset.power.perst = false ∧ up.power.perst = true ∧ pcieUp up = true ∧
    pcieUp State.reset = false ∧ codeRunning up = true ∧
    (bar2Row windowed (512 * 5) = some (rowAddr 0 1 5) ∧ windowed.job = false ∧ withholding windowed = false ∧
      mget [] windowed.upsets (rowAddr 0 1 5) = [] ∧ mget false windowed.poison (rowAddr 0 1 5) = false ∧
      proofOk (rowGet (rowPut (rowAddr 0 1 5) { data := zeros 512, tag := 0, proof := crc32c (zeros 512) } windowed)
        (rowAddr 0 1 5)) = true) ∧
    bar2Row up 0 = none ∧ withholding (objSet 0x6100 0x11 3 up) = true ∧
    (up.pendVec.getLsbD 31 = false ∧ ({ up with pendVec := 0x80000000 } : State).pendVec.getLsbD 31 = true) :=
  ⟨inv_of _ (by decide +kernel), by decide +kernel⟩
theorem witness_PatternLoadsReplaceThePattern : pcieUp up = true ∧ codeRunning up = true ∧ up.loadSeq = none ∧
    (1 : BitVec 32).toNat ≠ leNat (portGet up 0x20004 4) ∧ (0 : BitVec 32).toNat = leNat (portGet up 0x20004 4) ∧
    pcieUp State.reset = false ∧ ({ up with loadSeq := some 1 } : State).loadSeq ≠ none ∧
    ({ live with loadSeq := some 1 } : State).job = true ∧
    (let s := portPut 0x20010 (leBytes 8 512) { up with loadSeq := some 1 }
     s.job = false ∧ leNat (portGet s 0x20010 8) = 512 ∧ (firstFail [checkReloc s (zeros 512) [],
       checkPattern s (zeros 512) 512 (relBase [])]).isSome = true) ∧
    (let s := objSet 0x2200 1 3 up
     pcieUp s = true ∧ startState s = 3 ∧ (1 : BitVec 32).toNat ≠ leNat (portGet s 0x3C 4) ∧
       (0 : BitVec 32).toNat = leNat (portGet s 0x3C 4) ∧ imageFault s [] ≠ 0) ∧ startState up ≠ 3 := by decide +kernel
/-- A packet of one row, or none, with a good header. -/
def sound (t : BitVec 8) (stream : BitVec 32) (target : BitVec 64) (n : Nat) : Packet :=
  let h := { transport with magic := BitVec.ofNat 32 transportMagic, version := 1, ptype := t, items := BitVec.ofNat 8 n }
  { packet with
    hdr := { h with stream := stream, target := target }, body := (List.replicate n (frameBytes zeroRowFrame)).flatten }
/-- One staging row at the beam's base; a load in progress on chain 0, which port 0 feeds, of eight rows. -/
def staged : State := objSet 0x5100 2 1 up
def chainLoad (n : Nat) : State :=
  octSet 0x5200 0x10 (zeros 12 ++ leBytes 4 8 ++ zeros 112) (objSet 0x5200 8 0x24000000 (slotState n))
def dataPort (x : Dest) : State :=
  octSet 0x8102 1 ([1, 0] ++ zeros 46) { up with
    tick := 4000, ports := { up.ports with egress := true, dests := x :: List.replicate 7 Dest.reset } }
def unackedDest : Dest := { Dest.reset with log := [(0, 0)], unacked := [(1, 1, 1)] }
theorem witness_DataPortsTakePackets : ({ up with integrity := { up.integrity with stopLine := true } } : State).integrity.stopLine = true ∧
    up.integrity.stopLine = false ∧ Machine.packetOk up 1 1 packet = false ∧ portsSealed staged = false ∧
    Machine.packetOk staged 0 1 (sound 1 0 0 1) = true ∧ ({ sound 1 0 0 1 with hdr := { (sound 1 0 0 1).hdr with seq := 2 } } : Packet).hdr.seq.toNat ≠
      nextSeq staged (sound 1 0 0 1).hdr.stream.toNat ∧
    ((sound 1 0 0 1).hdr.flags = 0 ∧ staged.net.arrived = [] ∧ staged.integrity.stopLine = false ∧ staged.job = false) ∧
    (opened.job = true ∧ opened.net.waiting.getD (3 * (0 + 1) + 2) [] = [] ∧ opened.net.arrived = [] ∧
      opened.integrity.stopLine = false ∧ spentBy opened 1 5 + 9 * 0 < objGet opened 0x4000 5 ∧
      spentBy (spent 5 opened) 0 5 = 65536) ∧
    (sound 1 0 0 1).hdr.seq.toNat = nextSeq staged 0 ∧ targetTile (sound 1 0 0 1).hdr.target.toNat = some 0 ∧
    stagingWhy staged 0 (bodyRows 1 (sound 1 0 0 1).body) = 0 ∧ stagingWhy up 0 (bodyRows 1 (sound 1 0 0 1).body) = 4 ∧
    Machine.packetOk opened 1 2 (sound 2 0x3FFF 3 1) = true ∧ windowWhy opened 3 (bodyRows 1 (sound 2 0 3 1).body) = 0 ∧
    windowWhy opened 2 (bodyRows 1 (sound 2 0 2 1).body) = 2 ∧
    Machine.packetOk up 0 3 (sound 3 0 0 1) = true ∧ (List.range 8).all (fun c => chainIn up c != 36) = true ∧
    (List.range 8).find? (fun c => chainIn (chainLoad 1) c == 36) = some 0 ∧ openLoad (chainLoad 1) 0 = some 0 ∧
    coordOf (bits (sound 3 0 0 1).hdr.ref.toNat 52 12) = ownCoord (chainLoad 1) ∧
    ((chainLoad 1).net.arrived = [] ∧ (chainLoad 1).integrity.stopLine = false ∧ portsSealed (chainLoad 1) = false ∧
      (List.range 4).all (fun d => !isSpent (chainLoad 1) d 5) = true ∧ (sound 3 0 0 1).hdr.items = 1) ∧
    Machine.packetOk (chainLoad 1) 0 3 (sound 3 0 0 1) = true ∧
    proofOk (frameOf (slice (sound 3 0 0 1).body 0 520)) = true ∧ recRows (loadRecord (chainLoad 1) 0) = 8 ∧
    Machine.packetOk up 0 6 (sound 6 0xC0000007 0x40000007 0) = true ∧ nextSeq up 0xC0000007 = 1 ∧
    (sound 6 0xC0000007 0x40000007 0).hdr.target.toNat = 0x40000000 + (0xC0000007 - 0xC0000000) ∧
    (let s := { up with integrity := { up.integrity with invalid := [{ dest := 7, seq := 0, bytes := [], sent := 0 }] } }
     up.integrity.invalid = [] ∧ s.integrity.invalid.all (fun i => i.dest == 7 && i.seq == (sound 6 0xC0000007 0x40000007 0).hdr.ref.toNat) = true) ∧
    objGet up 0x8100 1 = flag false ∧ objGet up 0x8100 1 ≠ flag true := by decide +kernel
theorem not_self : ∀ x : BitVec 8, x ≠ ~~~x := by decide +kernel
theorem sha_length (p : ShaParams) (ks v : List (BitVec p.w)) : (shaRounds p ks v).length = 8 := by
  simp [shaRounds]
theorem shaBlock_length (p : ShaParams) (v : List (BitVec p.w)) (b : Bytes) (h : v.length = 8) :
    (shaBlock p v b).length = 8 := by
  simp [shaBlock, sha_length, h]
theorem shaBlocks_length (p : ShaParams) : ∀ (n : Nat) (m : Bytes) (v : List (BitVec p.w)),
    v.length = 8 → (shaBlocks p n m v).length = 8
  | 0, _, _, h => h
  | n + 1, _, v, h => shaBlocks_length p n _ _ (shaBlock_length p v _ h)
theorem sha256_length (m : Bytes) : (sha256 m).length = 32 := by
  have h := shaBlocks_length sha256Params ((shaPad sha256Params m).length / (2 * sha256Params.w)) (shaPad sha256Params m)
    ((shaH.take 8).map fun h => BitVec.ofNat 32 (h / 2 ^ 32)) (by decide)
  simp only [sha256, shaHash]
  generalize shaBlocks sha256Params _ _ _ = l at h
  match l, h with
  | [a, b, c, d, e, f, g, x], _ => rfl
/-- A verifying load of no rows, whose record holds the digest `d`. -/
def verifying (d : Bytes) : State := octSet 0x5200 0x10 (zeros 64 ++ d ++ zeros 32) (slotState 2)
/-- The digest of tiles without rows does not depend on the state. -/
theorem foldl_noRows (base : Nat) (s : State) : ∀ (l : List Nat) (b : Bytes),
    l.foldl (fun (x : Bytes × State) t => let y := tileDigest t base 0 x.2; (x.1 ++ y.1, y.2)) (b, s) =
      (b ++ (l.map fun _ => sha256 []).flatten, s)
  | [], b => by simp
  | _ :: l, b => by
    simp only [List.foldl_cons, List.map_cons, List.flatten_cons]
    rw [show ∀ t, tileDigest t base 0 s = (sha256 [], s) from fun _ => rfl, foldl_noRows base s l]
    simp
theorem moduleDigest_noRows (base : Nat) (s : State) :
    moduleDigest base 0 s = (sha256 ((List.range 768).map fun _ => sha256 []).flatten, s) := by
  unfold moduleDigest
  have h := foldl_noRows base s (List.range 768) []
  rw [List.nil_append] at h
  generalize List.range 768 = l at h ⊢
  generalize (l.map fun _ => sha256 []).flatten = b at h ⊢
  rw [h]
/-- Each outcome of a verification has its state: a digest that agrees, and one that does not. -/
theorem witness_LoadVerification : ∀ base, (∃ d : Bytes, (loadAt (verifying d) 0).state = 2 ∧
      (moduleDigest base (recRows (loadRecord (verifying d) 0)) (verifying d)).1 = recDigest (loadRecord (verifying d) 0)) ∧
    ∃ e : Bytes, (loadAt (verifying e) 0).state = 2 ∧
      (moduleDigest base (recRows (loadRecord (verifying e) 0)) (verifying e)).1 ≠
        recDigest (loadRecord (verifying e) 0) := by
  intro base
  have reads : ∀ d : Bytes, d.length = 32 → recRows (loadRecord (verifying d) 0) = 0 ∧
      recDigest (loadRecord (verifying d) 0) = d := fun d h => by
    have e : loadRecord (verifying d) 0 = zeros 64 ++ d ++ zeros 32 := octGet_octSet_same _ _ _ _
    rw [e]
    constructor
    · simp [recRows, leAt, slice, zeros, leNat]
    · simp [recDigest, slice, zeros, h]
  refine ⟨⟨sha256 ((List.range 768).map fun _ => sha256 []).flatten, rfl, ?_⟩,
    (sha256 ((List.range 768).map fun _ => sha256 []).flatten).map (~~~·), rfl, ?_⟩
  · have r := reads _ (sha256_length ((List.range 768).map fun _ => sha256 []).flatten)
    rw [r.1, r.2, moduleDigest_noRows]
  · have r := reads ((sha256 ((List.range 768).map fun _ => sha256 []).flatten).map (~~~·)) (by
      rw [List.length_map]; exact sha256_length _)
    rw [r.1, r.2, moduleDigest_noRows]
    have len := sha256_length ((List.range 768).map fun _ => sha256 []).flatten
    generalize sha256 ((List.range 768).map fun _ => sha256 []).flatten = l at len
    match l, len with
    | x :: l, _ => intro h; simp only [List.map_cons, List.cons.injEq] at h; exact absurd h.1 (not_self x)
theorem witness_DataPortsSendAndChainsLoadPlates : Inv (chainLoad 1) ∧ (chainLoad 1).net.arrived = [] ∧
    (∀ d, d < 4 → mayGo (chainLoad 1) d 5) ∧ (linkAt up 35).failures = [] ∧ 1 ≤ objGet up (0x4100 + 35) 0xF ∧ mget 0 up.ports.unsent 7 = 0 ∧ up.ports.refusals = [] ∧
    ({ up.ports with egress := false } : Ports).egress = false ∧ (let s := dataPort Dest.reset
      let t := { s with ports := { s.ports with unsent := mset 0 [] 7 1 } }
      t.ports.egress = true ∧ portsSealed t = false ∧ 0 < mget 0 t.ports.unsent 7) ∧
    packetDue (dataPort Dest.reset) 0 = false ∧
    (let s := dataPort unackedDest
     s.ports.egress = true ∧ destOn (destEntry s 0) = true ∧ packetDue s 0 = true ∧ portsSealed s = false ∧
       packetDue { s with tick := 3999 } 0 = false ∧
       (destAt s 0).unacked ≠ [] ∧ s.tick < (destAt s 0).progress + 800 * objGet s 0x8102 9 ∧
       (destAt s 0).progress + 800 * objGet s 0x8102 9 ≤ ({ s with tick := 800 * objGet s 0x8102 9 } : State).tick) ∧
    packetDue (dataPort { Dest.reset with log := List.replicate 64 (0, 4000) }) 0 = true ∧
    packetDue (dataPort { Dest.reset with log := List.replicate 63 (0, 4000) }) 0 = false ∧
    (List.range 8).all (fun c => chainIn up c != 36) = true ∧
    (List.range 8).find? (fun c => chainIn (chainLoad 1) c == (36 : BitVec 8).toNat) = some 0 ∧
    chainOut (chainLoad 1) 0 < 36 ∧ 36 ≤ chainOut (objSet 0x5200 8 0x24FF0000 up) 0 ∧ away ≠ ownCoord (chainLoad 1) ∧
    origin = ownCoord (chainLoad 1) ∧ openLoad (chainLoad 1) 0 = some 0 ∧ proofOk { zeroRowFrame with proof := 0 } = false ∧
    128 * (0 : Nat) + 7 < recRows (loadRecord (chainLoad 1) 0) ∧ recRows (loadRecord (chainLoad 1) 0) ≤ 128 * 0 + 8 ∧
    (loadAt up 0).state ≠ 2 ∧ (loadAt (slotState 2) 0).state = 2 ∧ live.job = true ∧ up.job = false ∧
    recShadow (zeros 128) = false ∧ recShadow (zeros 16 ++ [1] ++ zeros 111) = true ∧ (inForce (slotState 2)).length < 16 :=
  ⟨inv_of _ (by decide +kernel), rfl, fun d hd => mayGo_of _ _ _ (by
    have h : ∀ d, d < 4 → isSpent (chainLoad 1) d 5 = false ∧ (chainLoad 1).net.waiting.getD (3 * d + levelOf 5) [] = [] := by
      decide +kernel
    exact h d hd), by decide +kernel⟩
/-- A ring entry: opcode, start node, tokens, nodes of its path, and byte 10. -/
def ringEntry (op start tokens n rsvd : Nat) : Bytes :=
  leBytes 1 op ++ zeros 3 ++ leBytes 4 start ++ zeros 2 ++ leBytes 1 rsvd ++ zeros 5 ++ leBytes 4 tokens ++ leBytes 4 n ++ zeros 232
/-- A lead module with a tree of 192 nodes, node 191 in use with `pins` pins, and one entry in the ring. -/
def tree (pins : Nat) (e : Bytes) : State :=
  let s := objSet 0x5100 6 1 (objSet 0x5100 4 1 (objSet 0x5100 3 100 (portPut tracerRing e live)))
  rowPut (nodeAddr s 0 191) (freshFrame (zeros 80 ++ leBytes 2 pins ++ leBytes 2 1 ++ zeros 428) 0) s
theorem witness_TracerCommandsCompleteTheirEntries : tracerLive up = false ∧ tracerLive live = true ∧ tracerNext live 0 = none ∧
    (let s := tree 0 (ringEntry 1 191 15 0 0)
     tracerLive s = true ∧ tracerNext s 0 = some 0 ∧ objGet s 0x5100 5 < 65536 ∧ fieldsOk (tracerEntry s 0) = true ∧
       nodeLive s 0 191 = true ∧ tokensOk s (tracerEntry s 0) = false ∧ tokensOk (objSet 0x5100 2 1 s) (tracerEntry s 0) = true ∧
       leAt (tracerEntry s 0) 0 1 = 1 ∧ leAt (tracerEntry s 0) 4 4 = 191 ∧ leAt (tracerEntry s 0) 16 4 < 16 ∧
       nodeKids (nodeGet s 0 191) = 0 ∧ nodeCont (nodeGet s 0 191) = 0 ∧ nodeLive s 0 192 = false ∧
       tracerNext s 1 = none) ∧
    (let s := objSet 0x5100 2 1 (tree 0 (ringEntry 1 191 16 0 0))
     tokensOk s (tracerEntry s 0) = true ∧ 16 ≤ leAt (tracerEntry s 0) 16 4) ∧
    (let s := tree 0 (ringEntry 1 191 15 0 1)
     tracerNext s 0 = some 0 ∧ fieldsOk (tracerEntry s 0) = false) ∧
    (let s := tree 0 (ringEntry 6 191 0 0 0)
     tracerNext s 0 = some 0 ∧ 5 < leAt (tracerEntry s 0) 0 1) ∧
    (let s := tree 65534 (ringEntry 3 191 0 1 0)
     tracerNext s 0 = some 0 ∧ leAt (tracerEntry s 0) 0 1 = 3 ∧ leAt (tracerEntry s 0) 20 4 = 1 ∧
       nodePins (nodeGet s 0 191) = 65534 ∧ nodeLive s 0 191 = true ∧ objGet s 0x5100 3 + 191 / 192 < 737280) ∧
    (let s := tree 0 (ringEntry 4 191 0 1 0)
     tracerNext s 0 = some 0 ∧ leAt (tracerEntry s 0) 0 1 = 4 ∧ leAt (tracerEntry s 0) 20 4 = 1 ∧
       nodePins (nodeGet s 0 191) = 0 ∧ nodePins (nodeGet (tree 1 (ringEntry 4 191 0 1 0)) 0 191) ≠ 0) ∧
    (let s := tree 1 (ringEntry 5 0 0 0 0)
     tracerNext s 0 = some 0 ∧ leAt (tracerEntry s 0) 0 1 = 5 ∧ leAt (tracerEntry s 0) 20 4 = 0 ∧
       leAt (tracerEntry (tree 1 (ringEntry 5 0 0 1 0)) 0) 20 4 ≠ 0) ∧
    (let s := objSet 0x5100 2 1 (tree 0 (ringEntry 2 191 16 0 0))
     tracerNext s 0 = some 0 ∧ tokensOk s (tracerEntry s 0) = true ∧ leAt (tracerEntry s 0) 16 4 / 16 = 1 ∧
       treeNodes s < 2 ^ 32 ∧ nodeKids (nodeGet s 0 191) = 0 ∧ nodeCont (nodeGet s 0 191) = 0 ∧ 0 < treeNodes s ∧
       nodeUsed (nodeGet s 0 0) = false ∧ objGet s 0x5100 3 + objGet s 0x5100 4 ≤ 737280) ∧
    (let s := objSet 0x5100 2 1 (tree 0 (ringEntry 1 191 15 0 0))
     s.net.arrived = [] ∧ ∃ a, (matchEntry 0 (objGet s 0x5100 5) (tracerEntry s 0) s).1 = some a ∧
       a.pages < 2 ^ 32 ∧ a.last < 2 ^ 32 ∧ a.status < 256) := by
  refine ⟨by decide +kernel, by decide +kernel, by decide +kernel, by decide +kernel, by decide +kernel, by decide +kernel,
    by decide +kernel, by decide +kernel, by decide +kernel, by decide +kernel, by decide +kernel, rfl,
    { status := 0x80, pages := 0, last := 191, sets := [] }, by decide +kernel⟩
/-- The tree with node 191 as the one child of the root. -/
def rootRow : RowFrame := freshFrame (putKids [(7, 191)] (nodeBytes [] 0 0 0 1 0 0)) 0
def leafRow : RowFrame := freshFrame (nodeBytes [] 0 0 0 1 0 0) 0
def evictState : State := objSet 0x5100 6 1 (objSet 0x5100 4 1 (objSet 0x5100 3 100 (portPut tracerRing (ringEntry 5 0 0 1 0) live)))
def rootAddr : Nat := nodeAddr evictState 0 0
def leafAddr : Nat := nodeAddr evictState 0 191
def kidTree : State := rowPut leafAddr leafRow (rowPut rootAddr rootRow evictState)
theorem rowGet_live (a : Nat) : rowGet live a = zeroRowFrame := by
  have h : memGet live.mem (520 * a) 520 = (List.range 520).map rowDefault := by
    unfold memGet
    refine List.map_congr_left fun i hi => ?_
    rw [List.mem_range] at hi
    show rowDefault ((520 * a + i) % 520) = rowDefault i
    congr 1
    omega
  unfold rowGet
  rw [h]
  decide +kernel
theorem rowGet_kidTree (a : Nat) : rowGet kidTree a = if a = leafAddr then leafRow else if a = rootAddr then rootRow
    else zeroRowFrame := by
  unfold kidTree
  rw [rowGet_rowPut, rowGet_rowPut, show rowGet evictState a = rowGet live a from rfl, rowGet_live]
  rfl
/-- One node may go: the leaf below the root. -/
theorem witness_EvictOne : tracerLive kidTree = true ∧ tracerNext kidTree 0 = some 0 ∧
    (∃ r, evictable (scanTree 0 kidTree).1 = [(191, r)] ∧ nodeParent r = 0) ∧ 0 < treeNodes kidTree ∧
    (kidList (nodeGet kidTree 0 0)).any (·.2 == 191) = true ∧ nodeExtends (nodeGet kidTree 0 0) = false ∧
    leAt (tracerEntry kidTree 0) 20 4 = 1 ∧ objGet kidTree 0x5100 3 + objGet kidTree 0x5100 4 ≤ 737280 := by
  refine ⟨by decide +kernel, by decide +kernel, ⟨leafRow.data, ?_, by decide +kernel⟩, by decide +kernel, by decide +kernel,
    by decide +kernel, by decide +kernel, by decide +kernel⟩
  have rows := (Clean.readNodes (b := kidTree) 0 (List.range 192) (fun m _ => by
      rw [rowGet_kidTree]
      split
      · decide +kernel
      · split <;> decide +kernel) (by decide +kernel) kidTree ⟨rfl, rfl, rfl, rfl⟩).1
  rw [show (scanTree 0 kidTree).1 = (readNodes 0 (List.range 192) kidTree).1 from rfl, rows]
  simp only [rowGet_kidTree]
  decide +kernel
/-- A barrier of mask 1 in a graph of one task, in the ring slot of the next graph. -/
def barrierRec : Bytes := zeros 2 ++ leBytes 1 16 ++ zeros 3 ++ leBytes 2 1 ++ zeros 88
def graphSlotOf (seq tasks : Nat) : State :=
  portPut (graphSlot 0) (leBytes 4 seq ++ zeros 4 ++ leBytes 2 tasks ++ zeros 54 ++ barrierRec) (objSet 0x5000 5 1 live)
def taskRec : TaskRec := taskRecOf barrierRec
def task (st : TaskState) : Task :=
  { graphSeq := 1, graphId := 0, index := 4095, admSp := 0, scanPos := 0, effect := 0, rec_ := taskRec, state := st
    plates := [], recorded := false }
def tasked (st : TaskState) : State := { live with treadle := { live.treadle with tasks := [task st] }, sp := 5 }
def noticeFrame' : Frame := { frame with kind := .notice, row := { zeroRowFrame with data := [1] ++ zeros 511 } }
/-- A link whose frame of sequence 1 has failed as often as it may. -/
def failing : State := linked { Link.reset with failures := [(1, objGet live 0x4100 0xF)] } live
theorem witness_NoticesOnTheirWay : Inv live ∧ Inv failing ∧ mayGo live 0 2 ∧ mustWait (spent 2 live) 0 2 ∧
    mayGo { live with integrity := { live.integrity with stopLine := true } } 0 2 ∧
    (linkLive up = false ∧ linkLive live = true ∧ holdLive live = true ∧ live.net.arrived = [] ∧
      (spent 2 live).net.arrived = [] ∧ linkLive (spent 2 live) = true) ∧
    (let s := { live with integrity := { live.integrity with stopLine := true } }
     linkLive s = true ∧ holdLive s = false ∧ s.net.arrived = []) ∧
    (linkLive failing = true ∧ noticeHdr.rx.link.val = 0 ∧
      objGet failing 0x4100 0xF < mget 0 (linkAt failing 0).failures noticeHdr.rx.seq.toNat + 1 ∧
      mget 0 (linkAt live 0).failures noticeHdr.rx.seq.toNat + 1 ≤ objGet live 0x4100 0xF) ∧
    ((15, noticeHdr.sp + admitHorizon live) ∉ live.treadle.got ∧
      (15, noticeHdr.sp + admitHorizon live) ∈ [(15, noticeHdr.sp + admitHorizon live)]) :=
  ⟨inv_of _ (by decide +kernel), inv_of _ (by decide +kernel), mayGo_of _ _ _ (by decide +kernel),
    mustWait_of _ _ _ (by decide +kernel), mayGo_of _ _ _ (by decide +kernel), by decide +kernel⟩
theorem witness_NoticesReachTheTreadle : Inv live ∧
    ({ noticeHdr with seq := 1 } : NoticeHdr).seq.toNat ≠ mget 0 live.treadle.seqs (coordNat origin) ∧
    noticeHdr.seq.toNat = mget 0 live.treadle.seqs (coordNat origin) ∧ live.treadle.pending = [] ∧
    (live.started = true ∧ live.hold.held = false ∧ isLead live = true ∧ live.sp % 16 = 0 ∧
      (admissionAt live live.sp).summary = none) ∧ ({ live with sp := 1 } : State).sp % 16 ≠ 0 ∧
    leAt (slotGet (graphSlotOf 0 1) 1 0 64) 0 4 ≠ 1 ∧
    (let s := graphSlotOf 1 1
     let hdr := slotGet s 1 0 64
     let raws := (List.range (leAt hdr 8 2)).map fun i => slotGet s 1 (64 + 96 * i) 96
     objGet s 0x5000 5 = 1 ∧ leAt hdr 0 4 = 1 ∧ leAt hdr 8 2 = 1 ∧ graphRefusal s hdr (raws.map taskRecOf) = none ∧
       (s.treadle.graphs.filter (graphOpen s s.sp)).length < 64 ∧
       owedEntries s + resultDemand (replayOn s) (raws.map taskRecOf) ≤ freeEntries s) ∧
    (let s := graphSlotOf 1 0
     graphRefusal s (slotGet s 1 0 64) [] = some 0x10 ∧ owedEntries s + 1 ≤ freeEntries s) ∧
    (let s := objSet 0x5000 2 (horizon live + 1) { live with net := { live.net with
      waiting := [[], [{ act := 2, flits := 9, items := [.classB 0 true noticeFrame'] }], [], []] } }
     admitHorizon s ≤ s.sp + horizon s + 1 ∧ (s.sp + horizon s + 1 - admitHorizon s) % 16 = 0 ∧
       unsentNotices s (s.sp + horizon s + 1 - admitHorizon s) ≠ [] ∧ s.treadle.lateAt = [] ∧
       Awaited.records (s.sp + 1 - admitHorizon s) ∉ s.hold.awaited) ∧
    (let s := { live with sp := admitHorizon live + 15 }
     admitHorizon s ≤ s.sp + 1 ∧ (s.sp + 1 - admitHorizon s) % 16 = 0 ∧
       admitComplete s (s.sp + 1 - admitHorizon s) = false ∧ Awaited.records (s.sp + 1 - admitHorizon s) ∉ s.hold.awaited) ∧
    (tasked .waiting).treadle.tasks.find? (fun k => k.graphSeq == 1 && k.index == 4095 && !k.recorded) = some (task .waiting) ∧
    issuing (tasked .waiting) = true ∧ recordDue (task .waiting) 5 = none ∧ recordDue (task (.ended 3 5 0)) 5 = some (3, 5, 0) ∧
    recordDue (task (.running 2 5)) 5 = none ∧ recordDue (task (.running 2 4)) 5 = some (2, 4, 0) ∧
    recordDue (task (.skipped 5)) 5 = some (5, 5, 1) ∧ streamCount taskRec = 0 :=
  ⟨inv_of _ (by decide +kernel), by decide +kernel⟩
def faultRec (fl : BitVec 8) : FaultRec :=
  { code := 0x1001, flags := fl, site := unitSite 0 3 0 0, stamp := 0, sp := 0, modl := origin }
def faulted (stop n : Nat) : State :=
  objSet 0x6000 1 stop { live with
    tick := n, integrity := { live.integrity with first := some (faultRec 1), dies := [[], [], [], [faultRec 1]] } }
theorem witness_FaultsAndTheSafeStop : Inv live ∧ isStopping 0x1001 = true ∧ isStopping 0x1031 = false ∧ live.job = true ∧
    live.integrity.stopLine = false ∧ up.job = false ∧ inSlice live origin = true ∧ inSlice live away = false ∧
    live.integrity.dies.getD 3 [] = [] ∧ (faulted 1 15).integrity.dies.getD 3 [] = [faultRec 1] ∧
    (let s := { live with integrity := { live.integrity with dies := [[faultRec 1], [], [], []] } }
     s.integrity.dies.getD 0 [] = faultRec 1 :: [] ∧ s.job = true ∧ (faultRec 1).flags.getLsbD 0 = true ∧
       (faultRec 1).flags.getLsbD 2 = false ∧ s.integrity.first = none) ∧ (faultRec 0).flags.getLsbD 0 = false ∧
    (let remote := { faultRec 5 with code := 0x4015 }
     let s := { live with integrity := { live.integrity with dies := [[remote, faultRec 1], [], [], []] } }
     s.integrity.dies.getD 0 [] = remote :: [faultRec 1] ∧ recStops remote = true ∧ recRemote remote = true ∧
       s.integrity.first = none ∧ s.job = true ∧ localStop (faultRec 1) = true ∧
       (faultRec 1) ∈ (s.integrity.dies.set 0 [faultRec 1]).getD 0 []) ∧
    (recBefore (faultRec 1) { faultRec 1 with stamp := 1 } = true ∧ recRemote (faultRec 1) = false ∧
      recBefore { faultRec 1 with stamp := 1 } (faultRec 1) = false) ∧
    (stopState (faulted 0 16) ≠ 1 ∧ (faulted 1 15).tick < (faultRec 1).stamp + 16 ∧
      (faulted 1 15).integrity.first = some (faultRec 1)) ∧
    (let s := faulted 1 16
     s.integrity.first = some (faultRec 1) ∧ stopState s = 1 ∧ (faultRec 1).stamp + 16 ≤ s.tick ∧ isLead s = true ∧
       s.sealedJob = false ∧ s.integrity.withdrawn = false ∧ s.integrity.endLatched = false ∧
       ({ s with sealedJob := true } : State).sealedJob = true) ∧
    (fnAt up 36).state ≠ 2 ∧ (let s := fnSet 36 { Fn.reset with state := 2 } up
      (fnAt s 36).state = 2 ∧ spareIdle s (.tile 3 15) = true ∧ spareIdle s (.beamRow 767 23) = true ∧
        spareIdle s (.bobbinRow 0 7) = true ∧ spareIdle s (.port 3) = true ∧
        spareIdle { s with integrity := { s.integrity with markTiles := [0] } } (.tile 0 0) = false) ∧
    bitOf (objGet up 0x2202 6) 3 = false ∧ bitOf (objGet (objSet 0x2202 6 15 up) 0x2202 6) 3 = true :=
  ⟨inv_of _ (by decide +kernel), by decide +kernel⟩
/-- A job whose start tick waits, with a horizon that the admission horizon exceeds. -/
def waiting (p : Option Pattern) : State := objSet 0x4200 0xC 0 (objSet 0x4200 0x14 1 { live with started := false, pattern := p })
theorem witness_JobsAndSessionsBeginAndEnd : Inv (waiting none) ∧ Inv (waiting (some pattern)) ∧
    ((waiting none).job = true ∧ (waiting none).started = false ∧ (waiting none).integrity.stopLine = false ∧
      objGet (waiting none) 0x4200 0x14 = 1 ∧ live.started = true) ∧
    startFaults (waiting (some pattern)) = [] ∧
    (startFaults (objSet 0x4200 0x15 4 (objSet 0x5000 2 (horizon live) (waiting (some pattern))))).map (·.1) = [0x4020, 0x6001] ∧
    up.job = false ∧ live.job = true ∧ live.integrity.stopLine = false ∧ live.sealedJob = false ∧
    (let s := objSet 0x6100 0x11 5 { live with sealedJob := true }
     s.sealedJob = true ∧ session s = 5 ∧ stopState s ≠ 1) ∧
    (let s := objSet 0x6100 0x11 4 { faulted 1 16 with sealedJob := true }
     let t := { s with integrity := { s.integrity with withdrawn := true } }
     t.sealedJob = true ∧ stopState t = 1 ∧ t.integrity.first ≠ none ∧ t.integrity.withdrawn = true ∧
       t.integrity.endLatched = false) ∧
    (pathOpen up .pcie = true ∧ codeRunning up = true ∧ pathOpen State.reset .pcie = false) ∧
    (session up = 0 ∧ (3 : BitVec 8).toNat = objGet up 0x6200 1 ∧ (0 : BitVec 8).toNat ≠ objGet up 0x6200 1) ∧
    (∀ k ∈ [1, 2, 3, 4, 5], session (objSet 0x6100 0x11 k up) = k) ∧
    (let s := { objSet 0x6100 0x11 1 up with tick := 48000000000 }
     leAt s.security.offer 64 8 + 48000000000 ≤ s.tick ∧ ({ s with tick := 47999999999 } : State).tick <
       leAt s.security.offer 64 8 + 48000000000) :=
  ⟨inv_of _ (by decide +kernel), inv_of _ (by decide +kernel), by decide +kernel⟩
def atStep (k : Nat) : State := objSet 0x2200 1 0 (objSet 0x2200 2 k { up with start := { up.start with facts := some facts } })
def fresh (k : Nat) : State := objSet 0x2200 1 0 (objSet 0x2200 2 k { up with start := { up.start with first := k } })
theorem witness_ModuleStartAndResets : Inv (fresh 5) ∧ Inv (atStep 9) ∧ up.power.input = true ∧ State.reset.power.input = false ∧
    (startState (fresh 0) = 0 ∧ (fresh 0).start.halted = false ∧ (fresh 0).start.facts = none ∧ (fresh 0).power.input = true) ∧
    startState up ≠ 0 ∧ objGet (fresh 1) 0x2200 2 ≤ 1 ∧ ({ facts with s1 := false } : StartFacts).s1 = false ∧
    (objGet (fresh 5) 0x2200 2 = 5 ∧ (fresh 5).start.first = 5 ∧ facts.refA = 1 ∧ facts.refB = 1 ∧
      (fresh 5).start.failed ≠ some 5 ∧ objGet (fresh 5) 0x2202 4 ≤ 1 ∧ (∀ d, d < 4 → facts.plls.getD d false = true)) ∧
    ((atStep 9).start.facts = some facts ∧ startState (atStep 9) = 0 ∧ objGet (atStep 9) 0x2200 2 = 9 ∧
      objGet (atStep 12) 0x2200 2 ≠ 9 ∧ facts.bridgeFull = [] ∧ (atStep 9).integrity.markPorts = []) ∧
    up.start.facts = none ∧ (∀ k ∈ [1, 2], objGet (objSet 0x4200 0xA k up) 0x4200 0xA = k) ∧ objGet up 0x4200 0xA = 0 ∧
    (startState (atStep 12) = 0 ∧ objGet (atStep 12) 0x2200 2 = 12 ∧ objGet (objSet 0x4200 9 1 (atStep 12)) 0x4200 9 = 1) ∧
    objGet (objSet 0x4200 9 0 (atStep 12)) 0x4200 9 ≠ 1 ∧
    (∀ k ∈ [1, 3, 10], startState (atStep k) = 0 ∧ (atStep k).start.halted = false ∧ objGet (atStep k) 0x2200 2 = k) ∧
    ({ (fresh 9).start with halted := true } : Start).halted = true ∧ (fresh 9).start.halted = false ∧
    objGet up 0x2000 0xE = 8191 ∧ bitOf (objGet up 0x2000 0xE) 12 = true ∧
    (startState (fresh 4) = 0 ∧ objGet (fresh 4) 0x2200 2 = 4 ∧ (fresh 4).start.halted = false) ∧
    (1 < objGet (objSet 0x2202 1 2 up) 0x2202 1 ∧ objGet (objSet 0x2202 1 1 up) 0x2202 1 ≤ 1 ∧ live.job = true ∧ up.job = false) :=
  ⟨inv_of _ (by decide +kernel), inv_of _ (by decide +kernel), by decide +kernel⟩
theorem witness_LinksTrainAndTimesAgree :
    (startState (atStep 11) = 0 ∧ objGet (atStep 11) 0x2200 2 = 11 ∧ (atStep 11).start.halted = false ∧
      (s11Links (atStep 11)).all (linkSettled (atStep 11)) = true) ∧
    (let s := objSet 0x410F 0xE 1 (objSet 0x410F 1 1 (atStep 11))
     15 ∈ s11Links s ∧ linkSettled s 15 = false ∧ objGet s 0x2200 2 = 11) ∧
    (let s := linkSet 15 { Link.reset with t0 := some 100 } (atStep 12)
     (linkAt s 15).t0 = some 100 ∧ s.start.echoes = [] ∧ s.start.halted = false ∧
       (List.range 15).all (fun i => !(linkUp s i && (linkAt s i).t0.isSome)) = true) ∧
    (let s := linkSet 3 { Link.reset with t0 := some 100 } (objSet 0x4103 1 2 (linkSet 15 { Link.reset with t0 := some 100 } (atStep 12)))
     (linkAt s 15).t0 = some 100 ∧ linkUp s 3 = true ∧ (linkAt s 3).t0.isSome = true ∧ objGet s 0x2200 2 = 12) ∧
    (let s := linkSet 15 { Link.reset with t0 := some 100 } (objSet 0x4200 0x14 1 up)
     startState s ≠ 0 ∧ objGet s 0x4200 0x14 = 1 ∧ (linkAt s 15).t0 = some 100) ∧
    ((linkAt up 15).t0 = none ∧ objGet up 0x4200 0x14 ≠ 1) := by decide +kernel
def requesting (r : Nat) : State := { live with hold := { live.hold with throttle := mset 0 [] (coordNat origin) r } }
theorem witness_PowerHeatAndClocks : Inv live ∧ holdLive up = false ∧ (holdLive live = true ∧ live.started = true ∧
      live.hold.held = false ∧ paceFree live = true) ∧
    (ownRequest live = 0 ∧ ownRequest (requesting 128) = 128 ∧ min Config.maxPace (128 + 1) = 128 ∧
      min Config.maxPace (paceNow live + 1) ≠ ownRequest live ∧ ownRequest (requesting 1023) < 1024) ∧
    (mget 0 live.hold.seqs (seqKey (ownCoord live) .pace) = ownSeq live .pace ∧ ownSeq live .pace < 65536 ∧
      horizon live + 1 < 2 ^ 31) ∧ live.power.hot = false ∧ objGet live 0x2000 3 < objGet live 0x2000 3 + 1 ∧
    (objGet live 0x2000 4 < objGet live 0x2000 3 ∧ objGet live 0x2000 3 ≤ objGet live 0x2000 3 + objGet live 0x2000 4) ∧
    .power ∉ live.hold.awaited ∧ .power ∈ ({ live.hold with awaited := [.power] } : Hold).awaited ∧
    0 < objGet live 0x1001 7 ∧ coolantBad live = false ∧ (let s := { live with power := { live.power with coolant := true } }
      coolantBad (objSet 0x2000 9 40 s) = false ∧ coolantBad (objSet 0x2000 9 39 s) = true) ∧
    (bitOf (objGet live 0x2000 0xA) 0 = false ∧ bitOf (objGet (objSet 0x2000 0xA 3 live) 0x2000 0xA) 1 = true) ∧
    State.reset.power.input = false ∧ live.power.input = true ∧ (39999 : BitVec 32).toNat < 40000 ∧
    60000 < (60001 : BitVec 32).toNat ∧ objGet (objSet 0x2202 1 1 up) 0x2202 1 = flag true ∧
    objGet (objSet 0x2202 1 1 up) 0x2202 1 ≠ flag false ∧
    (let s := withTile { Tile.reset with seq := { Tile.reset.seq with stretched := some 8 } } live
     (tileAt s 0).seq.stretched = some 8 ∧ 11 < 8 + 4 ∧ ¬ 12 < 8 + 4) ∧ (tileAt live 0).seq.stretched = none ∧
    ((ClockRegion.network 3, 3) = (.network (3 : DieIx), ((3 : DieIx) : Nat)) ∧
      mget Region.reset live.regions 7 = Region.reset ∧ Region.reset.stretched = none ∧
      (mget Region.reset (mset Region.reset [] 7 { Region.reset with stretched := some 8 }) 7).stretched = some 8) :=
  ⟨inv_of _ (by decide +kernel), by decide +kernel⟩
def shadow (n : Nat) (irq : Option Nat) : Shadow :=
  { sel := leBytes 2 0 ++ leBytes 1 2 ++ zeros 5 ++ leBytes 8 100, count := n, load := false, irqAt := irq }
def counted (h : Shadow) : State :=
  objSet 0x7100 1 1 { live with
    tick := 800, counting := { live.counting with shadows := live.counting.shadows.set 7 h } }
def sampled (w : Nat) : State :=
  objSet 0x7100 3 w { live with counting := { live.counting with samples := [takeSample (64 * 23) live] } }
theorem witness_CountersSnapshotsAndSamples : objGet up 0x7000 4 ≠ 2 ∧ objGet (objSet 0x7000 4 2 up) 0x7000 4 = 2 ∧
    (∀ h, up.counting.shadows[(7 : Fin 8).val]? = some h → h.count < 2 ^ 48) ∧
    (let h := shadow (2 ^ 48) (some 0)
     (counted h).counting.shadows[(7 : Fin 8).val]? = some h ∧ 2 ^ 48 ≤ h.count ∧ h.irqAt = some 0 ∧ 0 + 800 ≤ (counted h).tick ∧
       bitOf (selFlags h.sel) 1 = true ∧ selEvent h.sel < 0xC000 ∧ objGet (counted h) 0x7100 1 = 1) ∧
    (let h := shadow (2 ^ 48) (some 1)
     h.irqAt = some 1 ∧ (counted h).tick < 1 + 800) ∧ bitOf (selFlags (zeros 16)) 1 = false ∧
    up.counting.samples = [] ∧ (sampled 0).counting.samples = takeSample (64 * 23) live :: [] ∧
    (takeSample (64 * 23) live).event / 64 = 23 ∧ dieOf 23 = 1 ∧
    (let s := { objSet 0x7000 4 2 up with counting := { up.counting with left := [0, 0, 0, 1] } }
     objGet s 0x7000 4 = 2 ∧ ∃ n ∈ s.counting.left, n ≠ 0) ∧ (∀ n ∈ (objSet 0x7000 4 2 up).counting.left, n = 0) ∧
    ((sampled 0).net.arrived = [] ∧ isSpent (sampled 0) 1 6 = false ∧ isSpent (spent 6 live) 0 6 = true) ∧
    4096 ≤ idxAhead (objGet (sampled 4096) 0x7100 7) (objGet (sampled 4096) 0x7100 3) ∧
    idxAhead (objGet (sampled 4095) 0x7100 7) (objGet (sampled 4095) 0x7100 3) < 4096 ∧
    (let s := objSet 0x7100 0xA 1 (sampled 0)
     idxAhead (objGet s 0x7100 7) (objGet s 0x7100 3) + 1 = objGet s 0x7100 0xA ∧
       ({ s with masked := 0 } : State).masked.getLsbD 16 = false) := by
  refine ⟨by decide +kernel, by decide +kernel, ?_, by decide +kernel⟩
  intro h e
  have : (up.counting.shadows[(7 : Fin 8).val]?.all fun h => decide (h.count < 2 ^ 48)) = true := by decide +kernel
  rw [e] at this
  simpa using this
/-- A sample of die 1 may go, where its activity has spent its budget it must wait. -/
theorem witness_SamplesGoOrWait : mayGo (sampled 0) 1 6 ∧
    mustWait { sampled 0 with net := { live.net with spent := [(16 + 6, 65536)] } } 1 6 :=
  ⟨mayGo_of _ _ _ (by decide +kernel), mustWait_of _ _ _ (by decide +kernel)⟩

end Sys2Proof.Tests
end

section
/-! SUPPORT. The late scrub pass (R112): what an advanced count of the dictionary leaves alone, the two cases of
LATE_SCRUB_PASS, and the statement assembled from them. -/

namespace Sys2Proof.Machine

open Sys2Proof Sys2Proof.Laws

/-! ## An advanced count changes the dictionary alone -/

theorem bump_only_objs (i j n : Nat) (s : State) : bump i j n s = { s with objs := (bump i j n s).objs } := by
  unfold bump
  split <;> rfl

@[simp] theorem tileAt_bump (i j n : Nat) (s : State) (t : Nat) : tileAt (bump i j n s) t = tileAt s t := by
  rw [bump_only_objs]
  rfl

/-! ## The two cases of a late pass -/

theorem exec_lateScrubPass (t : TileIx) (s : State) : exec (.lateScrubPass t) s = .next (lateScrub t.val s) := rfl

/-- A pass not yet counted that has run for four periods is late. -/
theorem lateScrub_of_late {t : Nat} {s : State} (fresh : (tileAt s t).scrubLate = false)
    (late : (tileAt s t).scrubAt + 4 * passTicks s ≤ scrubTime s) :
    lateScrub t s = bump 0x3100 8 1 (tileSet t { tileAt s t with scrubLate := true } s) := by
  have guard : ¬ ((tileAt s t).scrubLate || decide (scrubTime s < (tileAt s t).scrubAt + 4 * passTicks s)) = true := by
    rw [fresh, Bool.false_or, decide_eq_true_eq]
    exact Nat.not_lt.mpr late
  exact if_neg guard

/-- A pass counted before, or still within its four periods, is left alone. -/
theorem lateScrub_of_not_late {t : Nat} {s : State}
    (h : (tileAt s t).scrubLate = true ∨ scrubTime s < (tileAt s t).scrubAt + 4 * passTicks s) : lateScrub t s = s := by
  have guard : ((tileAt s t).scrubLate || decide (scrubTime s < (tileAt s t).scrubAt + 4 * passTicks s)) = true := by
    rw [Bool.or_eq_true, decide_eq_true_eq]
    exact h
  exact if_pos guard

/-! ## The statement -/

/-- Settles O37: a late pass not yet counted is one tile's mark and one advanced count, of which the laws of `tileSet`
and `bump` say what they leave alone; any other pass is left as it is. -/
theorem latePassIsCountedOnce : Obligations.LatePassIsCountedOnce := by
  unfold Obligations.LatePassIsCountedOnce
  intro t s
  refine ⟨fun fresh late => ?counted, fun h => ?unchanged⟩
  case counted =>
    refine ⟨_, by rw [exec_lateScrubPass, lateScrub_of_late fresh late], ?count, ?mark, ?frame, fun u hu => ?others⟩
    case count => rw [objGet_bump_same, objGet_tileSet]
    case mark => rw [tileAt_bump, tileAt_tileSet_same]
    case frame =>
      rw [bump_only_objs]
      rfl
    case others => rw [tileAt_bump, tileAt_tileSet, if_neg (Fin.val_ne_of_ne hu)]
  case unchanged => rw [exec_lateScrubPass, lateScrub_of_not_late h]

end Sys2Proof.Machine
end

section
/-! SUPPORT. Writes of enable entries while a job is in progress (R378, R387): how the service answers a refused write
and what it leaves alone, the refusal of a link's disable, and a module that clears a sealed job (R372), in which
the statement of the function state machine fails. -/

namespace Sys2Proof.Machine

open Sys2Proof Sys2Proof.Laws

/-! ## A refused write is answered, and only counts -/

theorem aside_countRequest {b s : State} (r : Response) (h : Aside b s) : Aside b (countRequest r s) := by
  unfold countRequest
  exact aside_ite (aside_bump _ _ _ h) (aside_objSet _ _ _ (aside_bump _ _ _ (aside_bump _ _ _ h)))

/-- A response to the sender of a command leaves the stores of flash as they are. -/
theorem stores_reply_sender (p : Path) (r : Response) (s : State) : (reply (.sender p) r s).stores = s.stores :=
  (aside_emit _ (aside_countRequest r (.refl s))).stores

/-- No path but the mailbox refuses a WRITE for its form (R382, R410). -/
theorem malformed_write {p : Path} (hp : p ≠ .doe) (i j : Nat) (d : Bytes) : malformed p (request 2 i j d) = false := by
  cases p with
  | doe => exact absurd rfl hp
  | pcie | can | mgmt | mgmtTagged => rfl

/-- A write on an open path, while the code runs, that a rule refuses: the response carries that rule's status. -/
theorem writeOn_of_refused {p : Path} {s : State} {i j : Nat} {d : Bytes} (opened : pathOpen s p = true)
    (runs : codeRunning s = true) (hp : p ≠ .doe) (hi : i < 65536) (hj : j < 256)
    (refused : writeStatus p (pathPrivilege s p) s i j d ≠ 0) :
    writeOn p i j d s =
      reply (.sender p) (responseTo (request 2 i j d) (writeStatus p (pathPrivilege s p) s i j d) []) s := by
  have index : (request 2 i j d).index.toNat = i := Nat.mod_eq_of_lt hi
  have sub : (request 2 i j d).sub.toNat = j := Nat.mod_eq_of_lt hj
  have served : writeOn p i j d s = serveWrite p (.sender p) (request 2 i j d) s := by
    simp only [writeOn, onPath, opened, if_true, serve, malformed_write hp, runs]
    rfl
  rw [served]
  simp only [serveWrite, index, sub]
  exact if_neg refused

/-! ## The disable of a link (R387) while a job is in progress (R378) -/

/-- The row of the enable entry of a link, 0x41nn:0E. -/
def linkEnableRow : ObjRow := ⟨0x4100, 36, 0xE, 1, 1, 4, 1, 1, 1, true, false, false, true, 0, 0xFF⟩

theorem entry?_linkEnable : ∀ l : Fin 36, entry? (0x4100 + l.val) 0xE = some linkEnableRow := by decide +kernel

theorem pathBarred_linkEnable : ∀ (p : Path) (l : Fin 36), pathBarred p (0x4100 + l.val) 0xE = false := by
  intro p l
  simp [pathBarred]

theorem writePrivilege_linkEnable : ∀ l : Fin 36, writePrivilege (0x4100 + l.val) 0xE = 1 := by decide

/-- A link's own rule refuses 0 while a job is in progress, which it is through the clearing of a sealed one too. -/
theorem ownRefusal_linkDisable {s : State} (job : jobOn s = true) (l : Fin 36) :
    ownRefusal s (0x4100 + l.val) 0xE [0] = 7 := by
  have link : linkIndex (0x4100 + l.val) = true := by revert l; decide
  have range : 0x4100 + l.val ≠ 0x4300 ∧ 0x4100 + l.val ≠ 0x6200 ∧ 0x4100 + l.val ≠ 0x4200 := by omega
  obtain ⟨notPace, notPlate, notStart⟩ := range
  simp only [ownRefusal, notPace, notPlate, notStart, link, job]
  rfl

theorem definedNum_linkDisable : ∀ l : Fin 36, definedNum (0x4100 + l.val) 0xE (leNat [0]) = 0 := by decide

theorem definedValue_linkDisable : ∀ l : Fin 36, definedValue linkEnableRow (0x4100 + l.val) 0xE [0] = [0] := by decide

/-- Operator privilege, length and range are in order, so the refusal is that of the link's own rule (R462). -/
theorem writeStatus_linkDisable {s : State} (p : Path) (job : jobOn s = true) (l : Fin 36) :
    writeStatus p 1 s (0x4100 + l.val) 0xE [0] = 7 := by
  have own : ownRefusal s (0x4100 + l.val) 0xE (definedValue linkEnableRow (0x4100 + l.val) 0xE [0]) = 7 := by
    rw [definedValue_linkDisable, ownRefusal_linkDisable job]
  have privileged : ¬ (1 < writePrivilege (0x4100 + l.val) 0xE || pathBarred p (0x4100 + l.val) 0xE) = true := by
    simp [writePrivilege_linkEnable, pathBarred_linkEnable]
  have writable : ¬ unwritable (1 == 2) linkEnableRow (0x4100 + l.val) 0xE = true := by simp [unwritable, linkEnableRow]
  unfold writeStatus
  rw [entry?_linkEnable]
  dsimp only
  rw [definedNum_linkDisable, if_neg privileged, if_neg writable, if_neg (by decide), if_neg (by decide),
    if_neg (by simp [linkEnableRow]), if_neg (by simp [linkEnableRow]), if_pos (by rw [own]; decide), own]

/-- Written 0 while a job is in progress, a link's enable is refused and nothing is stored. -/
theorem linkDisable_stores_nothing {p : Path} {s : State} {fn : FnIx} (link : fn.val < 36) (opened : pathOpen s p = true)
    (runs : codeRunning s = true) (operator : pathPrivilege s p = 1) (job : jobOn s = true) :
    ∃ s', exec (.enableWrite p fn [0]) s = .next s' ∧ s'.stores = s.stores := by
  have status : writeStatus p (pathPrivilege s p) s (0x4100 + fn.val) 0xE [0] = 7 := by
    rw [operator]
    exact writeStatus_linkDisable p job ⟨fn.val, link⟩
  have notMailbox : p ≠ .doe := fun e => by simp [e, pathPrivilege] at operator
  have write : exec (.enableWrite p fn [0]) s = .next (writeOn p (0x4100 + fn.val) 0xE [0] s) := by
    show Host.Outcome.next (writeOn p (enableEntry fn.val).1 (enableEntry fn.val).2 [0] s) = _
    rw [enableEntry, if_pos link]
  refine ⟨_, write, ?_⟩
  rw [writeOn_of_refused opened runs notMailbox (by omega) (by decide) (by rw [status]; decide)]
  exact stores_reply_sender p _ s

/-! ## A module that clears a sealed job (R372) -/

/-- A ready module in a running sealed job, every function ON. -/
def sealedRun : State := objSet 0x6100 0x11 4 (objSet 0x2200 2 13 (objSet 0x2200 1 1 { State.reset with
  job := true, started := true, sealedJob := true
  fns := List.replicate 38 { Fn.reset with state := 2 }
  power := { Power.reset with input := true, rails := true, perst := true } }))

/-- The same module once its job has ended, before it is cleared: session state 5. -/
def clearingRun : State := objSet 0x6100 0x11 5 (leaveJob sealedRun)

/-- JOB_END leads there: the module of the refutation is one that the model reaches from a running sealed job. -/
theorem exec_jobEnd_sealedRun : exec .jobEnd sealedRun = .next clearingRun := rfl

theorem inv_clearingRun : Inv clearingRun := by
  constructor <;> decide +kernel

theorem clearingRun_between_jobs : clearingRun.job = false ∧ jobOn clearingRun = true := by decide +kernel

theorem clearingRun_serves : pathOpen clearingRun .pcie = true ∧ codeRunning clearingRun = true ∧
    pathPrivilege clearingRun .pcie = 1 ∧ clearingRun.stores.length < 16 := by decide +kernel

theorem clearingRun_link_on : (fnAt clearingRun 0).state = 2 := by decide +kernel

/-! ## The statement -/

/-- Refutes O49: it has a link's enable written 0 accepted wherever `s.job = false`, but a job is in progress until the
module is ready for a new start tick (R378), so while a sealed job that has ended is cleared (session state 5, R372)
the write is refused with status 0x07, and no store waits with a response. -/
theorem not_functionsFollowTheirStateMachine : ¬ Obligations.FunctionsFollowTheirStateMachine := by
  unfold Obligations.FunctionsFollowTheirStateMachine
  intro h
  obtain ⟨opened, runs, operator, room⟩ := clearingRun_serves
  obtain ⟨noJob, job⟩ := clearingRun_between_jobs
  obtain ⟨-, -, -, -, -, -, -, -, -, writes⟩ := h 0 clearingRun inv_clearingRun
  obtain ⟨-, -, whenOn, -⟩ := writes .pcie opened runs operator room
  obtain ⟨-, off⟩ := whenOn clearingRun_link_on
  obtain ⟨s', run, -, -, x, stored, -⟩ := off (.inl noJob)
  obtain ⟨s'', run', kept⟩ := linkDisable_stores_nothing (fn := 0) (by decide) opened runs operator job
  obtain rfl : s' = s'' := Host.Outcome.next.inj (run.symm.trans run')
  simp [kept] at stored

end Sys2Proof.Machine
end

section
/-! SUPPORT. The frame of every command and what follows from it for a step: the commands that wait, the grade, what has
been driven out, the stores' canonical form and the numbers of units. -/

namespace Sys2Proof.Machine

open Sys2Proof Sys2Proof.Laws

/-! ## Every command -/

/-- Every arm of the dispatch calls a meaning that answers a next state. -/
theorem exec_answers (i : Instr) (s : State) : ∃ t, exec i s = .next t := by
  cases i <;> exact ⟨_, rfl⟩

/-- What a command answers keeps what every operation on State keeps: the law of its meaning, command by command. -/
theorem exec_keeps (i : Instr) {s t : State} (e : exec i s = .next t) : Kept s t := by
  cases i with
  | pickBoundary => exact keeps_execPickBoundary e
  | holdRequest _ _ => exact keeps_execHoldRequest _ _ e
  | hold _ _ => exact keeps_execHold _ _ e
  | release _ _ => exact keeps_execRelease _ _ e
  | sendRelease => exact keeps_execSendRelease e
  | pace _ _ => exact keeps_execPace _ _ e
  | holdLimitExpiry => exact keeps_execHoldLimitExpiry e
  | clockStretch _ _ => exact keeps_execClockStretch _ _ e
  | replicaHardThreshold _ => exact keeps_execReplicaHardThreshold _ e
  | paceFloorWrite _ _ => exact keeps_execPaceFloorWrite _ _ e
  | beamToLatch _ _ _ => exact keeps_execBeamToLatch _ _ _ e
  | weightBlockReady _ _ => exact keeps_execWeightBlockReady _ _ e
  | beamToBobbin _ _ _ => exact keeps_execBeamToBobbin _ _ _ e
  | bobbinToBeam _ _ _ => exact keeps_execBobbinToBeam _ _ _ e
  | bobbinToRegs _ _ _ => exact keeps_execBobbinToRegs _ _ _ e
  | regsToBobbin _ _ _ => exact keeps_execRegsToBobbin _ _ _ e
  | beamToRegs _ _ _ => exact keeps_execBeamToRegs _ _ _ e
  | regsToBeam _ _ _ => exact keeps_execRegsToBeam _ _ _ e
  | armWindow _ _ _ => exact keeps_execArmWindow _ _ _ e
  | closeWindow _ _ _ => exact keeps_execCloseWindow _ _ _ e
  | sendSide _ _ _ => exact keeps_execSendSide _ _ _ e
  | sendMesh _ _ _ => exact keeps_execSendMesh _ _ _ e
  | handSelvedge _ _ _ => exact keeps_execHandSelvedge _ _ _ e
  | publishWord _ _ _ => exact keeps_execPublishWord _ _ _ e
  | loop _ _ _ _ => exact keeps_execLoop _ _ _ _ e
  | endloop t c d => exact keeps_execEndloop t c d e
  | pickwait _ _ => exact keeps_execPickwait _ _ e
  | select _ _ _ _ => exact keeps_execSelect _ _ _ _ e
  | endSchedule _ _ => exact keeps_execEndSchedule _ _ e
  | stream _ _ _ => exact keeps_execStream _ _ _ e
  | contribution _ _ => exact keeps_execContribution _ _ e
  | drain _ _ _ => exact keeps_execDrain _ _ _ e
  | adown _ _ _ => exact keeps_execAdown _ _ _ e
  | aup _ _ _ => exact keeps_execAup _ _ _ e
  | aset _ _ _ => exact keeps_execAset _ _ _ e
  | setbound _ _ _ => exact keeps_execSetbound _ _ _ e
  | fadd _ _ _ => exact keeps_execFadd _ _ _ e
  | fsub _ _ _ => exact keeps_execFsub _ _ _ e
  | fmul _ _ _ => exact keeps_execFmul _ _ _ e
  | fma _ _ _ => exact keeps_execFma _ _ _ e
  | fmax _ _ _ => exact keeps_execFmax _ _ _ e
  | fmin _ _ _ => exact keeps_execFmin _ _ _ e
  | iadd _ _ _ => exact keeps_execIadd _ _ _ e
  | isub _ _ _ => exact keeps_execIsub _ _ _ e
  | imul _ _ _ => exact keeps_execImul _ _ _ e
  | imax _ _ _ => exact keeps_execImax _ _ _ e
  | imin _ _ _ => exact keeps_execImin _ _ _ e
  | and _ _ _ => exact keeps_execAnd _ _ _ e
  | or _ _ _ => exact keeps_execOr _ _ _ e
  | xor _ _ _ => exact keeps_execXor _ _ _ e
  | andn _ _ _ => exact keeps_execAndn _ _ _ e
  | shl _ _ _ => exact keeps_execShl _ _ _ e
  | shr _ _ _ => exact keeps_execShr _ _ _ e
  | sra _ _ _ => exact keeps_execSra _ _ _ e
  | cmp _ _ _ => exact keeps_execCmp _ _ _ e
  | sel _ _ _ => exact keeps_execSel _ _ _ e
  | setflag _ _ _ => exact keeps_execSetflag _ _ _ e
  | bchk _ _ _ => exact keeps_execBchk _ _ _ e
  | exp2 _ _ _ => exact keeps_execExp2 _ _ _ e
  | log2 _ _ _ => exact keeps_execLog2 _ _ _ e
  | rcp _ _ _ => exact keeps_execRcp _ _ _ e
  | rsqrt _ _ _ => exact keeps_execRsqrt _ _ _ e
  | sigm _ _ _ => exact keeps_execSigm _ _ _ e
  | rsum _ _ _ => exact keeps_execRsum _ _ _ e
  | rmax _ _ _ => exact keeps_execRmax _ _ _ e
  | rmin _ _ _ => exact keeps_execRmin _ _ _ e
  | rdot _ _ _ => exact keeps_execRdot _ _ _ e
  | argmax _ _ _ => exact keeps_execArgmax _ _ _ e
  | topk _ _ _ => exact keeps_execTopk _ _ _ e
  | cvt _ _ _ => exact keeps_execCvt _ _ _ e
  | rand _ _ _ => exact keeps_execRand _ _ _ e
  | gumb _ _ _ => exact keeps_execGumb _ _ _ e
  | ldr _ _ _ => exact keeps_execLdr _ _ _ e
  | str _ _ _ => exact keeps_execStr _ _ _ e
  | gath _ _ _ => exact keeps_execGath _ _ _ e
  | scat _ _ _ => exact keeps_execScat _ _ _ e
  | vectorReadable _ _ => exact keeps_execVectorReadable _ _ e
  | shadowSetup _ => exact keeps_execShadowSetup _ e
  | laneExchange _ _ => exact keeps_execLaneExchange _ _ e
  | scrubRead _ _ => exact keeps_execScrubRead _ _ e
  | scrubWriteBack _ _ _ => exact keeps_execScrubWriteBack _ _ _ e
  | lateScrubPass _ => exact keeps_execLateScrubPass _ e
  | landingWrite _ _ => exact keeps_execLandingWrite _ _ e
  | sideLanding _ _ _ _ _ _ => exact keeps_execSideLanding _ _ _ _ _ _ e
  | meshEjection _ _ _ _ _ => exact keeps_execMeshEjection _ _ _ _ _ e
  | classBInjection _ => exact keeps_execClassBInjection _ e
  | digestRowWrite _ _ _ => exact keeps_execDigestRowWrite _ _ _ e
  | bridgePortFailure _ _ => exact keeps_execBridgePortFailure _ _ e
  | controlBlock _ _ => exact keeps_execControlBlock _ _ e
  | scheduledRow _ _ _ => exact keeps_execScheduledRow _ _ _ e
  | scheduledRetrans _ _ _ => exact keeps_execScheduledRetrans _ _ _ e
  | backgroundWrite _ _ _ _ => exact keeps_execBackgroundWrite _ _ _ _ e
  | backgroundAck _ => exact keeps_execBackgroundAck _ e
  | backgroundRetry _ => exact keeps_execBackgroundRetry _ e
  | retryRequest _ _ => exact keeps_execRetryRequest _ _ e
  | retransmission _ => exact keeps_execRetransmission _ e
  | selvedgeLateRow _ _ => exact keeps_execSelvedgeLateRow _ _ e
  | idle _ _ _ _ => exact keeps_execIdle _ _ _ _ e
  | timeDelayRequest _ _ _ => exact keeps_execTimeDelayRequest _ _ _ e
  | timeDelayEcho _ _ _ => exact keeps_execTimeDelayEcho _ _ _ e
  | timeHandshake l echo n r v => exact keeps_execTimeHandshake l echo n r v e
  | fault _ _ _ _ => exact keeps_execFault _ _ _ _ e
  | coord _ _ _ _ _ _ => exact keeps_execCoord _ _ _ _ _ _ e
  | linkTraining _ _ => exact keeps_execLinkTraining _ _ e
  | trainingTimeout _ _ _ => exact keeps_execTrainingTimeout _ _ _ e
  | blockLockLoss _ _ => exact keeps_execBlockLockLoss _ _ e
  | coordsWrite _ _ => exact keeps_execCoordsWrite _ _ e
  | startTickWrite _ _ => exact keeps_execStartTickWrite _ _ e
  | startTick => exact keeps_execStartTick e
  | timeRootTimeout => exact keeps_execTimeRootTimeout e
  | alignmentTick _ => exact keeps_execAlignmentTick _ e
  | admissionScan => exact keeps_execAdmissionScan e
  | admissionLate => exact keeps_execAdmissionLate e
  | recordsMissing => exact keeps_execRecordsMissing e
  | graphHeader _ _ => exact keeps_execGraphHeader _ _ e
  | taskRecords _ _ => exact keeps_execTaskRecords _ _ e
  | scanSummary _ _ _ _ => exact keeps_execScanSummary _ _ _ _ e
  | broadcastWord _ _ _ _ _ => exact keeps_execBroadcastWord _ _ _ _ _ e
  | snapshotCommand _ _ => exact keeps_execSnapshotCommand _ _ e
  | resultRecordWrite _ _ => exact keeps_execResultRecordWrite _ _ e
  | consumerIndexWrite _ _ => exact keeps_execConsumerIndexWrite _ _ e
  | stagingWrite _ _ => exact keeps_execStagingWrite _ _ e
  | windowWrite _ _ => exact keeps_execWindowWrite _ _ e
  | tracerProducerWrite _ _ => exact keeps_execTracerProducerWrite _ _ e
  | matchCmd _ => exact keeps_execMatchCmd _ e
  | insertCmd _ => exact keeps_execInsertCmd _ e
  | pinCmd _ => exact keeps_execPinCmd _ e
  | unpinCmd _ => exact keeps_execUnpinCmd _ e
  | evictCmd _ => exact keeps_execEvictCmd _ e
  | loadRecordWrite _ _ _ => exact keeps_execLoadRecordWrite _ _ _ e
  | loadSlotClose _ _ => exact keeps_execLoadSlotClose _ _ e
  | chainEntryWrite _ _ _ => exact keeps_execChainEntryWrite _ _ _ e
  | chain _ _ => exact keeps_execChain _ _ e
  | loadVerification _ => exact keeps_execLoadVerification _ e
  | plate _ _ => exact keeps_execPlate _ _ e
  | safeStop _ _ => exact keeps_execSafeStop _ _ e
  | faultRecord _ => exact keeps_execFaultRecord _ e
  | withdrawResults => exact keeps_execWithdrawResults e
  | invalidationRepeat => exact keeps_execInvalidationRepeat e
  | endStoppedJob _ _ => exact keeps_execEndStoppedJob _ _ e
  | selfTestFailure _ => exact keeps_execSelfTestFailure _ e
  | mgmtWatchdog => exact keeps_execMgmtWatchdog e
  | recoveryCommand _ => exact keeps_execRecoveryCommand _ e
  | attestationRequest _ _ => exact keeps_execAttestationRequest _ _ e
  | offerRequest _ _ _ => exact keeps_execOfferRequest _ _ _ e
  | accept _ _ _ _ => exact keeps_execAccept _ _ _ _ e
  | keyBundle _ _ _ _ => exact keeps_execKeyBundle _ _ _ _ e
  | offerTimeout => exact keeps_execOfferTimeout e
  | clearing => exact keeps_execClearing e
  | ideKm _ _ => exact keeps_execIdeKm _ _ e
  | signedWrite _ _ => exact keeps_execSignedWrite _ _ e
  | write _ => exact keeps_execWrite _ e
  | describe _ _ _ => exact keeps_execDescribe _ _ _ e
  | storeComplete => exact keeps_execStoreComplete e
  | defaultsAtReset _ _ => exact keeps_execDefaultsAtReset _ _ e
  | enableWrite _ _ _ => exact keeps_execEnableWrite _ _ _ e
  | fnStartDone _ => exact keeps_execFnStartDone _ e
  | fnStartFailed _ => exact keeps_execFnStartFailed _ e
  | fnLost _ => exact keeps_execFnLost _ e
  | fnStopDone _ => exact keeps_execFnStopDone _ e
  | singleFrame _ _ => exact keeps_execSingleFrame _ _ e
  | firstFrame _ _ _ => exact keeps_execFirstFrame _ _ _ e
  | consecutiveFrame _ _ _ _ => exact keeps_execConsecutiveFrame _ _ _ _ e
  | ackFrame _ _ _ => exact keeps_execAckFrame _ _ _ e
  | abort node n st => exact keeps_execAbort node n st e
  | canTimeout => exact keeps_execCanTimeout e
  | heartbeat => exact keeps_execHeartbeat e
  | busOff => exact keeps_execBusOff e
  | canWiring _ => exact keeps_execCanWiring _ e
  | mgmtDatagram _ _ _ _ => exact keeps_execMgmtDatagram _ _ _ _ e
  | perstDeassert => exact keeps_execPerstDeassert e
  | pcieReset _ => exact keeps_execPcieReset _ e
  | loadCommand _ => exact keeps_execLoadCommand _ e
  | loadDmaComplete _ _ _ => exact keeps_execLoadDmaComplete _ _ _ e
  | bar2Read _ _ => exact keeps_execBar2Read _ _ e
  | bar2Write _ _ => exact keeps_execBar2Write _ _ e
  | msixUnmask _ => exact keeps_execMsixUnmask _ e
  | doeRequest _ => exact keeps_execDoeRequest _ e
  | addressResolution _ _ _ => exact keeps_execAddressResolution _ _ _ e
  | portLinkChange _ _ => exact keeps_execPortLinkChange _ _ e
  | acknowledgement _ _ => exact keeps_execAcknowledgement _ _ e
  | ackSend _ => exact keeps_execAckSend _ e
  | resultPacketSend _ => exact keeps_execResultPacketSend _ e
  | resultResend _ => exact keeps_execResultResend _ e
  | resultDestWrite _ _ _ => exact keeps_execResultDestWrite _ _ _ e
  | countingModesWrite _ _ => exact keeps_execCountingModesWrite _ _ e
  | snapshotRequest _ _ => exact keeps_execSnapshotRequest _ _ e
  | snapshotDone => exact keeps_execSnapshotDone e
  | selectorWrite _ _ _ => exact keeps_execSelectorWrite _ _ _ e
  | selectorOverflow _ => exact keeps_execSelectorOverflow _ e
  | sampleRecord _ _ => exact keeps_execSampleRecord _ _ e
  | readIndexWrite _ _ _ => exact keeps_execReadIndexWrite _ _ _ e
  | inputValid => exact keeps_execInputValid e
  | inputOutOfRange _ => exact keeps_execInputOutOfRange _ e
  | senseOpen => exact keeps_execSenseOpen e
  | railFault _ => exact keeps_execRailFault _ e
  | referenceLoss => exact keeps_execReferenceLoss e
  | powerWindow _ => exact keeps_execPowerWindow _ e
  | powerEmergency _ => exact keeps_execPowerEmergency _ e
  | throttleTemp _ => exact keeps_execThrottleTemp _ e
  | overtemp _ => exact keeps_execOvertemp _ e
  | coolantRange _ _ => exact keeps_execCoolantRange _ _ e
  | resetNLow => exact keeps_execResetNLow e
  | resetRequest _ _ => exact keeps_execResetRequest _ _ e
  | start _ => exact keeps_execStart _ e
  | startTimeout => exact keeps_execStartTimeout e
  | autoRestart => exact keeps_execAutoRestart e
  | transferReadable _ _ => exact keeps_execTransferReadable _ _ e
  | drainRow _ _ => exact keeps_execDrainRow _ _ e
  | streamRead _ _ => exact keeps_execStreamRead _ _ e
  | jobEnd => exact keeps_execJobEnd e
  | pllLoss _ => exact keeps_execPllLoss _ e
  | refStateChange _ _ => exact keeps_execRefStateChange _ _ e
  | mgmtResetDone => exact keeps_execMgmtResetDone e
  | coolantSensor _ => exact keeps_execCoolantSensor _ e
  | portMemError _ => exact keeps_execPortMemError _ e

/-! ## Every step -/

theorem step_of_pending {s : State} {c : Instr} {q : List Instr} (h : s.pending = c :: q) :
    step s = exec c { s with pending := q } := by
  rw [step, h]

theorem step_of_idle {s : State} (h : s.pending = []) : step s = .next (idleTick s) := by
  rw [step, h]

/-- The queue of waiting commands is no part of the invariant. -/
theorem inv_pending {s : State} (q : List Instr) (h : Inv s) : Inv { s with pending := q } :=
  ⟨h.rows, h.port, h.dies, h.fns, h.loads, h.dests⟩

theorem inv_idleTick {s : State} (h : Inv s) : Inv (idleTick s) :=
  ⟨h.rows, h.port, h.dies, h.fns, h.loads, h.dests⟩

/-- A step keeps the invariant: a command by its frame, an idle step because it only advances the time counter. -/
theorem step_keeps_inv {s t : State} (h : Inv s) (e : step s = .next t) : Inv t := by
  cases q : s.pending with
  | nil =>
    rw [step_of_idle q] at e
    obtain rfl := Host.Outcome.next.inj e
    exact inv_idleTick h
  | cons c q' =>
    rw [step_of_pending q] at e
    exact (exec_keeps c e).inv (inv_pending q' h)

/-! ## After reset -/

/-- A row store that nothing has written reads as rows of zeros with the proof word of zeros. -/
theorem rowGet_unwritten {s : State} (h : s.mem = []) (a : Nat) :
    rowGet s a = { data := zeros 512, tag := 0, proof := 0x30FCEDC0 } := by
  have bytes : memGet s.mem (520 * a) 520 = (List.range 520).map rowDefault := by
    rw [h]
    refine List.map_congr_left fun i hi => ?_
    have offset : (520 * a + i) % 520 = i := by
      rw [List.mem_range] at hi
      omega
    show rowDefault ((520 * a + i) % 520) = rowDefault i
    rw [offset]
  rw [rowGet, bytes]
  decide +kernel

theorem inv_reset : Inv State.reset := ⟨rfl, rfl, rfl, rfl, rfl, rfl⟩

/-! ## The statements -/

/-- Settles O4, by the frame of every command. -/
theorem everyStepKeepsTheInvariant : Obligations.EveryStepKeepsTheInvariant :=
  fun _ _ h e => step_keeps_inv h e

/-- Settles O5, by the frame of every command. -/
theorem everyCommandKeepsQueueAndOutputs : Obligations.EveryCommandKeepsQueueAndOutputs := by
  intro c s
  obtain ⟨t, e⟩ := exec_answers c s
  exact ⟨t, e, (exec_keeps c e).unaltered⟩

/-- Settles O1. -/
theorem stepRunsFrontCommand : Obligations.StepRunsFrontCommand :=
  ⟨fun _ _ _ h => step_of_pending h, fun _ h => step_of_idle h⟩

/-- Settles O3. -/
theorem resetMeetsInvariant : Obligations.ResetMeetsInvariant := inv_reset

/-- Settles O2: every table is empty, so every read is its default. -/
theorem resetLeavesDefaults : Obligations.ResetLeavesDefaults := by
  have state : startState State.reset = 0 := by decide +kernel
  exact ⟨fun _ _ => rfl, fun _ _ => rfl, rowGet_unwritten rfl, fun _ => rfl, fun _ => rfl, fun _ => rfl, rfl, rfl, rfl,
    state, rfl⟩

end Sys2Proof.Machine
end

section
/-! SUPPORT. Tiles that do not issue (R27, R340): every command of a tile in a safe stop, and every slot command of a
cycle in which its tile issues no bundle, leaves the state as it is. -/

namespace Sys2Proof.Machine

open Sys2Proof Sys2Proof.Laws

/-! ## The gates of tile commands -/

theorem slotIssue_of_not_issues {t : TileIx} {c : Nat} {s : State} (f : Nat → State → Tile → Tile × Fx)
    (h : tileIssues s t.val c = false) : slotIssue t c f s = s := by
  simp [slotIssue, h]

theorem sSlot_of_not_issues {t : TileIx} {c : Nat} {s : State} (op : SOp) (f : SSlot)
    (h : tileIssues s t.val c = false) : sSlot op t c f s = s := by
  simp [sSlot, h]

theorem lateBoundary_of_not_issues {t : TileIx} {c : Nat} {s : State} (ending : Bool)
    (h : tileIssues s t.val c = false) (s1 : State) : lateBoundary ending t c s s1 = s1 := by
  simp [lateBoundary, h]

theorem execBchk_of_not_issues {t : TileIx} {c : Nat} {s : State} (f : FormE) (h : tileIssues s t.val c = false) :
    execBchk t c f s = .next s := by
  simp [execBchk, vSlot, slotIssue_of_not_issues _ h, h]

theorem not_issuing {s : State} (h : stopState s ≠ 0) : issuing s = false := by
  simpa [issuing] using h

/-- In a safe stop no tile issues a bundle. -/
theorem not_tileIssues {s : State} (h : stopState s ≠ 0) (t c : Nat) : tileIssues s t c = false := by
  simp [tileIssues, not_issuing h]

/-! ## Slot commands -/

/-- A V-slot command runs its operation in the V slot; with its tile not issuing it changes nothing. -/
theorem exec_vectorSlot {i : Instr} {t : TileIx} {c : Nat} {v : VSlot} (s : State) (h : vectorSlot i = some (t, c, v)) :
    exec i s = .next (vSlot v t c s) := by
  cases i <;> cases h <;> rfl

/-- A row transfer command runs its transfer in the T slot. -/
theorem exec_moveSlot {i : Instr} {t : TileIx} {c : Nat} {op : TOp} {f : TSlot} (s : State)
    (h : moveSlot i = some (t, c, op, f)) : exec i s = .next (slotIssue t c (fun l => transfer op t.val l f) s) := by
  cases i <;> cases h <;> rfl

/-- The slots that `vectorSlot` and `moveSlot` tell apart. -/
theorem slots_cases {i : Instr} {t : TileIx} {c : Nat}
    (h : (match vectorSlot i, moveSlot i with
      | some (t, c, _), _ => some (t, c)
      | none, some (t, c, _, _) => some (t, c)
      | none, none => none) = some (t, c)) :
    (∃ v, vectorSlot i = some (t, c, v)) ∨ ∃ op f, moveSlot i = some (t, c, op, f) := by
  split at h
  case h_1 v e => exact .inl ⟨_, by cases h; exact e⟩
  case h_2 e => exact .inr ⟨_, _, by cases h; exact e⟩
  case h_3 => cases h

theorem slots_still {i : Instr} {t : TileIx} {c : Nat} {s : State}
    (h : (∃ v, vectorSlot i = some (t, c, v)) ∨ ∃ op f, moveSlot i = some (t, c, op, f))
    (still : tileIssues s t.val c = false) : exec i s = .next s := by
  obtain ⟨v, e⟩ | ⟨op, f, e⟩ := h
  · rw [exec_vectorSlot s e, vSlot, slotIssue_of_not_issues _ still]
  · rw [exec_moveSlot s e, slotIssue_of_not_issues _ still]

/-- A slot command of a cycle in which its tile issues no bundle leaves the state as it is. -/
theorem slotCommand_still {i : Instr} {t : TileIx} {c : Nat} {s : State} (h : slotCommand i = some (t, c))
    (still : tileIssues s t.val c = false) : exec i s = .next s := by
  unfold slotCommand at h
  split at h
  case h_3 | h_5 =>
    cases h
    exact congrArg _ ((lateBoundary_of_not_issues _ still _).trans (slotIssue_of_not_issues _ still))
  case h_15 | h_16 | h_17 | h_18 =>
    cases h
    exact congrArg _ (sSlot_of_not_issues _ _ still)
  case h_19 =>
    cases h
    exact execBchk_of_not_issues _ still
  case h_20 => exact slots_still (slots_cases h) still
  all_goals
    cases h
    exact congrArg _ (slotIssue_of_not_issues _ still)

/-! ## All commands of a tile -/

/-- A tile command is a slot command, or one of a row, a result or a landing, which asks whether the module issues. -/
theorem tileCommand_stopped {i : Instr} {t : TileIx} {c : Nat} {s : State} (h : tileCommand i = some (t, c))
    (stop : stopState s ≠ 0) : exec i s = .next s := by
  have still := not_tileIssues stop t.val c
  have idle := not_issuing stop
  have gate : ∀ x : State, (if issuing s = true then x else s) = s := fun x => by simp [idle]
  by_cases slot : slotCommand i = some (t, c)
  · exact slotCommand_still slot still
  · unfold tileCommand at h
    split at h
    case h_7 | h_14 | h_22 | h_23 | h_24 | h_25 | h_26 | h_29 =>
      cases h
      exact congrArg _ (gate _)
    case h_27 | h_28 =>
      cases h
      exact congrArg _ (if_pos (by simp [idle]))
    case h_30 => exact slots_still (slots_cases h) still
    all_goals
      cases h
      exact absurd rfl slot

/-! ## When a tile issues -/

/-- A sequencer issues no bundle of a cycle in which no schedule runs, in which it stands at its wait, or which comes
after the pick's 128 scheduled cycles. -/
theorem not_issues {q : Sequencer} {c : Nat}
    (h : q.running = false ∧ q.waiting = false ∨ q.waiting = true ∧ q.cycle < max c q.cycle ∨
      q.waiting = false ∧ q.pickStart + q.stall + 128 ≤ max c q.cycle) : q.issues c = false := by
  obtain ⟨hr, hw⟩ | ⟨hw, hc⟩ | ⟨hw, hc⟩ := h
  · simp [Sequencer.issues, hr, hw]
  · have late : ¬ c ≤ q.cycle := by omega
    simp [Sequencer.issues, hw, late]
  · have past : ¬ max c q.cycle < q.pickStart + q.stall + 128 := by omega
    simp [Sequencer.issues, hw, past]

/-- Settles O6: each command of a tile asks first whether its tile issues, or whether the module does. -/
theorem stoppedTilesIssueNothing : Obligations.StoppedTilesIssueNothing := by
  refine ⟨fun _ _ _ _ h stop => tileCommand_stopped h stop, fun _ _ _ _ h still => slotCommand_still h still, ?_⟩
  intro t c s q l h
  rw [tileIssues, not_issues h, Bool.and_false]

end Sys2Proof.Machine
end

section
/-! SUPPORT. What packets and faults leave of object entries and of the fault log: an entry that no packet counts reads as
before, and a fault adds one record to its die's fault unit. -/

namespace Sys2Proof.Laws

open Sys2Proof Sys2Proof.Machine

/-! ## Entries that packets leave alone -/

/-- An entry that neither a control symbol sent (0x41nn:11) nor a packet that waits (0x4000:12) counts in. -/
def Uncounted (i j : Nat) : Prop := objKey i j % 256 ≠ 0x11 ∧ objKey i j ≠ objKey 0x4000 0x12

theorem Uncounted.ne_port {i j : Nat} (h : Uncounted i j) (l : Nat) : objKey i j ≠ objKey (0x4100 + l) 0x11 := by
  intro e
  apply h.1
  rw [e, objKey]
  omega

theorem objGet_of_objs {s t : State} (h : t.objs = s.objs) (k : t.ident = s.ident) (i j : Nat) :
    objGet t i j = objGet s i j := by
  rw [objGet, objGet, h, k]

@[simp] theorem objGet_countEvent (v c now i j : Nat) (s : State) : objGet (countEvent v c now s) i j = objGet s i j := by
  unfold countEvent
  dsimp only
  split <;> rfl

@[simp] theorem objGet_countModule (e c i j : Nat) (s : State) : objGet (countModule e c s) i j = objGet s i j :=
  objGet_countEvent ..

theorem objGet_toPort {i j : Nat} (h : Uncounted i j) (l : Nat) (o : Output) (s : State) :
    objGet (toPort l o s) i j = objGet s i j := by
  have counted : objGet (emit o (bump (0x4100 + l) 0x11 1 s)) i j = objGet s i j := objGet_bump_ne _ _ (h.ne_port l)
  unfold toPort
  dsimp only
  split
  · exact counted
  · exact counted

theorem objGet_depart {i j : Nat} (h : Uncounted i j) (o : Output) (s : State) :
    objGet (depart s o) i j = objGet s i j := by
  unfold depart
  split
  case h_2 => exact objGet_toPort h _ _ _
  all_goals rfl

/-- An entry through a fold of operations that leave it alone. -/
theorem objGet_foldl {α : Type} {i j : Nat} (f : State → α → State) (hf : ∀ s x, objGet (f s x) i j = objGet s i j)
    (l : List α) (s : State) : objGet (l.foldl f s) i j = objGet s i j := by
  induction l generalizing s with
  | nil => rfl
  | cons x xs ih => rw [List.foldl_cons, ih, hf]

theorem objGet_departAll {i j : Nat} (h : Uncounted i j) (d : Nat) (w : WaitB) (s : State) :
    objGet (departAll d w s) i j = objGet s i j :=
  objGet_foldl depart (fun _ _ => objGet_depart h _ _) _ _

theorem objGet_inject {i j : Nat} (h : Uncounted i j) (d act n : Nat) (items : List Output) (s : State) :
    objGet (inject d act n items s) i j = objGet s i j := by
  unfold inject
  dsimp only
  split
  · rfl
  · split
    · exact objGet_departAll h _ _ _
    · rw [objGet_countModule, objGet_bump_ne _ _ h.2]
      rfl

theorem objGet_sendFaults {i j : Nat} (h : Uncounted i j) (code : BitVec 16) (origin : Coord) (stamp : Nat) (s : State) :
    objGet (sendFaults code origin stamp s) i j = objGet s i j :=
  objGet_foldl _ (fun _ _ => objGet_toPort h _ _ _) _ _

/-! ## One record for a fault -/

@[simp] theorem integrity_beginStop_dies (code : BitVec 16) (origin : Coord) (stamp : Nat) (s : State) :
    (beginStop code origin stamp s).integrity.dies = s.integrity.dies := by
  have sent : (sendFaults code origin stamp s).integrity = s.integrity :=
    (sent_sendFaults code origin stamp (Sent.refl s)).integrity
  unfold beginStop
  dsimp only
  split <;> simp [objSet, sent]

/-- The fault units after a fault: the record is the last of its die's, the other units are as before. -/
theorem dies_raiseFault (code : Nat) (site : FaultSite) (s : State) :
    (raiseFault code site s).integrity.dies =
      s.integrity.dies.set site.die.val (s.integrity.dies.getD site.die.val [] ++ [makeRecord s code site]) := by
  unfold raiseFault
  dsimp only
  split
  · rw [integrity_beginStop_dies]
  · rfl

/-- With all four fault units there, a fault is recorded as the newest of its die. -/
theorem recorded_raiseFault {s : State} (units : s.integrity.dies.length = 4) (code : Nat) (site : FaultSite) :
    Recorded s (raiseFault code site s) site.die.val code := by
  refine ⟨makeRecord s code site, ?_, rfl⟩
  have room : site.die.val < s.integrity.dies.length := by
    rw [units]
    exact site.die.isLt
  rw [dies_raiseFault, List.getD_eq_getElem?_getD, List.getElem?_set_self room]
  rfl

/-- A record stays what it is however the state is reached, as long as the fault log is the same. -/
theorem Recorded.of_integrity {b s t : State} {d code : Nat} (h : Recorded s t d code) (e : s.integrity.dies = b.integrity.dies) :
    Recorded b t d code := by
  unfold Recorded at h ⊢
  rwa [e] at h

/-! ## Frames with a part replaced -/

theorem Sent.withHold {b s : State} (k : Sent b s) (h : Hold) : Sent { b with hold := h } { s with hold := h } :=
  congrArg (fun r : SentRest => { r with hold := h }) k

theorem Aside.withHold {b s : State} (k : Aside b s) (h : Hold) : Aside { b with hold := h } { s with hold := h } :=
  congrArg (fun r : Rest => { r with hold := h }) k

theorem Sent.holdLive {b s : State} (h : Sent b s) : Machine.holdLive s = Machine.holdLive b := by
  rw [Machine.holdLive, Machine.holdLive, h.job, h.integrity]

theorem Sent.aside {b s : State} (k : Sent b s) : Aside b s :=
  congrArg (fun r : SentRest => ({
    ident := r.ident, tick := r.tick, boundary := r.boundary, cycle0 := r.cycle0, tp := r.tp, sp := r.sp
    job := r.job, started := r.started, sealedJob := r.sealedJob, octets := r.octets, flash := r.flash
    flashOct := r.flashOct, stores := r.stores, mem := r.mem, pmem := r.pmem, upsets := r.upsets, poison := r.poison
    landed := r.landed, tiles := r.tiles, regions := r.regions, scrubBase := r.scrubBase, hold := r.hold
    pattern := r.pattern, loads := r.loads, security := r.security, fns := r.fns, can := r.can, masked := r.masked
    loadSeq := r.loadSeq, mgmtDown := r.mgmtDown, power := r.power, start := r.start, pending := r.pending } : Rest)) k

end Sys2Proof.Laws
end

section
/-! SUPPORT. The hold unit (R33 to R42, R46, R222): control words on their way through the mesh, what the hold unit makes
of a HOLD, a RELEASE, a PACE and a hold request, and the end of a hold. -/

namespace Sys2Proof.Machine

open Sys2Proof Sys2Proof.Laws

/-! ## A control word on its way -/

/-- The items of a control word that enters: the word for the hold unit first, then its relayed copies. -/
def wordItems (k : CwKind) (tr : Travel) (w : ControlWord) (s : State) : List Output :=
  .wordIn k w :: (relayCopies s tr).map fun c => .controlWord c.1 k c.2 w

/-- What the hold unit makes of a word of a kind. -/
def onWord : CwKind → ControlWord → State → State
  | .hold => onHold
  | .release => onRelease
  | .pace => onPace

/-- Copies relayed to links leave what has reached the units of the module as it is. -/
theorem arrived_relay (k : CwKind) (w : ControlWord) (cs : List (Nat × Travel)) (s : State) :
    ((cs.map fun c => (Output.controlWord c.1 k c.2 w)).foldl depart s).net.arrived = s.net.arrived := by
  induction cs generalizing s with
  | nil => rfl
  | cons c cs ih =>
    rw [List.map_cons, List.foldl_cons, ih]
    have port : ∀ o, (toPort c.1 o s).net = s.net := fun o => by
      unfold toPort
      dsimp only
      split <;> (unfold bump; split <;> rfl)
    exact congrArg Net.arrived (port _)

/-- A word whose packet may go has reached the hold unit, behind what had arrived before it. -/
theorem arrived_of_word (d : Nat) (k : CwKind) (tr : Travel) (w : ControlWord) (s : State) :
    (departAll d { act := 1, flits := 1, items := wordItems k tr w s } s).net.arrived
      = s.net.arrived ++ [.wordIn k w] := by
  rw [departAll]
  dsimp only [wordItems]
  rw [List.foldl_cons, arrived_relay]
  rfl

/-- What the hold unit makes of an item that has arrived. -/
def takeArrived (s : State) : Output → State
  | .wordIn k w => onWord k w s
  | _ => s

/-- Whether an item that has arrived is for another unit. -/
def forOthers : Output → Bool
  | .wordIn _ _ => false
  | _ => true

theorem takeWords_eq (s : State) :
    takeWords s = s.net.arrived.foldl takeArrived
      { s with net := { s.net with arrived := s.net.arrived.filter forOthers } } := by
  unfold takeWords
  congr 1
  funext u o
  cases o with
  | wordIn k w => cases k <;> rfl
  | _ => rfl

theorem foldl_takeArrived_of_no_word {xs : List Output} (h : ∀ o ∈ xs, ∀ k w, o ≠ .wordIn k w) (s : State) :
    xs.foldl takeArrived s = s := by
  induction xs with
  | nil => rfl
  | cons o xs ih =>
    have same : takeArrived s o = s := by
      unfold takeArrived
      split
      · exact absurd rfl (h _ List.mem_cons_self _ _)
      · rfl
    rw [List.foldl_cons, same, ih fun o ho => h o (List.mem_cons_of_mem _ ho)]

/-- Where the only word that has arrived is the last item, taking the words is taking that one. -/
theorem takeWords_of_last {k : CwKind} {w : ControlWord} {s : State} {xs : List Output}
    (arrived : s.net.arrived = xs ++ [.wordIn k w]) (none : ∀ o ∈ xs, ∀ k w, o ≠ .wordIn k w) :
    takeWords s = onWord k w { s with net := { s.net with arrived := s.net.arrived.filter forOthers } } := by
  rw [takeWords_eq]
  generalize { s with net := { s.net with arrived := s.net.arrived.filter forOthers } } = u
  rw [arrived, List.foldl_append, foldl_takeArrived_of_no_word none]
  rfl

/-- Outside a job and in a safe stop no word changes anything. -/
theorem onWord_of_not_live {s : State} (h : holdLive s = false) (k : CwKind) (w : ControlWord) : onWord k w s = s := by
  cases k <;> simp [onWord, onHold, onRelease, onPace, h]

/-- Where the hold unit takes no part, words that have arrived are taken away and nothing else happens. -/
theorem sent_takeWords_of_not_live {b s : State} (h : Sent b s) (live : holdLive s = false) : Sent b (takeWords s) := by
  rw [takeWords_eq]
  refine sent_foldl (b := b) _ _ (fun u o k => ?_) _ h
  have still : holdLive u = false := by rw [k.holdLive, ← h.holdLive, live]
  cases o with
  | wordIn kind w => rwa [takeArrived, onWord_of_not_live still]
  | _ => exact k

/-- A control word that enters: it and its relayed copies are one packet of control traffic. -/
theorem enterWord_eq (k : CwKind) (tr : Travel) (w : ControlWord) (s : State) :
    enterWord k tr w s = takeWords (inject (arrivalDie s tr) 1 1 (wordItems k tr w s) s) := rfl

/-- Where control traffic is free the hold unit takes the word at once, in a state in which only what packets count has
changed. -/
theorem enterWord_of_clear {tr : Travel} {s : State} (live : holdLive s = true) (clear : wordClear s tr) (k : CwKind)
    (w : ControlWord) :
    ∃ u, Sent s u ∧ (∀ i j, Uncounted i j → objGet u i j = objGet s i j) ∧ enterWord k tr w s = onWord k w u := by
  obtain ⟨unspent, unqueued, noWord⟩ := clear
  have job : s.job = true := by
    rw [holdLive, Bool.and_eq_true] at live
    exact live.1
  have goes : inject (arrivalDie s tr) 1 1 (wordItems k tr w s) s =
      departAll (arrivalDie s tr) { act := 1, flits := 1, items := wordItems k tr w s } s := by
    have free : ((s.net.waiting.getD (3 * arrivalDie s tr + levelOf 1) []).any fun x => x.act == 1) = false := by
      rw [List.any_eq_false]
      intro x hx
      simpa using unqueued x hx
    simp only [inject, job, unspent, free]
    rfl
  have arrived := arrived_of_word (arrivalDie s tr) k tr w s
  rw [← goes] at arrived
  refine ⟨_, ?_, fun i j h => ?_, (enterWord_eq k tr w s).trans (takeWords_of_last arrived noWord)⟩
  · exact sent_inject (b := s) _ _ _ _ rfl
  · exact objGet_inject h _ _ _ _ s

/-- Where control traffic waits, so does the word, and the hold unit takes nothing. -/
theorem sent_enterWord_of_waits {tr : Travel} {s : State} (waits : wordWaits s tr) (k : CwKind) (w : ControlWord) :
    Sent s (enterWord k tr w s) := by
  obtain ⟨job, busy, noWord⟩ := waits
  have stays : (inject (arrivalDie s tr) 1 1 (wordItems k tr w s) s).net.arrived = s.net.arrived := by
    have blocked : (!isSpent s (arrivalDie s tr) 1 &&
        !((s.net.waiting.getD (3 * arrivalDie s tr + levelOf 1) []).any fun x => x.act == 1)) = false := by
      obtain spent | ⟨x, hx, act⟩ := busy
      · rw [spent]
        rfl
      · have queued : ((s.net.waiting.getD (3 * arrivalDie s tr + levelOf 1) []).any fun x => x.act == 1) = true :=
          List.any_eq_true.mpr ⟨x, hx, by simpa using act⟩
        rw [queued, Bool.not_true, Bool.and_false]
    unfold inject
    dsimp only
    rw [if_neg (by simp [wordItems]), if_neg (by rw [blocked, job]; decide)]
    have counted : ∀ u : State, (countModule 0x18 1 u).net = u.net := fun u => by
      unfold countModule countEvent
      dsimp only
      split <;> rfl
    rw [counted, bump]
    split <;> rfl
  rw [enterWord_eq, takeWords_eq, stays, foldl_takeArrived_of_no_word noWord]
  exact sent_inject (b := s) _ _ _ _ rfl

theorem sent_enterWord_of_not_live {s : State} (h : holdLive s = false) (k : CwKind) (tr : Travel) (w : ControlWord) :
    Sent s (enterWord k tr w s) := by
  have sent := sent_inject (arrivalDie s tr) 1 1 (wordItems k tr w s) (Sent.refl s)
  exact sent_takeWords_of_not_live sent (sent.holdLive.trans h)

end Sys2Proof.Machine
end

section
/-! SUPPORT. What the hold unit makes of the control words of other modules (R34, R38, R40, R42, R46). -/

namespace Sys2Proof.Machine

open Sys2Proof Sys2Proof.Laws

/-! ## What a state with the same hold unit reads -/

theorem sent_admitComplete {b s : State} (h : Sent b s) (a : Nat) :
    admitComplete s a = admitComplete b a := by
  unfold Machine.admitComplete
  rw [h.treadle]

theorem sent_seqOk {b s : State} (h : Sent b s) (k : CwKind) (w : ControlWord) : Machine.seqOk k w s = Machine.seqOk k w b := by
  rw [Machine.seqOk, Machine.seqOk, h.hold]

theorem uncounted_admitHorizon : Uncounted 0x5000 2 := ⟨by decide, by decide⟩

theorem uncounted_horizon : Uncounted 0x4300 2 := ⟨by decide, by decide⟩

/-! ## A HOLD, a RELEASE, a PACE taken -/

/-- The hold unit once it has taken a HOLD. -/
theorem hold_takeHold (w : ControlWord) (st p : Nat) (s : State) :
    (takeHold w st p s).hold = { s.hold with
      stop := some (match s.hold.stop with | none => st | some x => min x st)
      first := holdFirst s.hold st p w
      awaited := s.hold.awaited ++ (if w.reason = 4 ∧ admitComplete s (st - admitHorizon s) = false
        then [.records (st - admitHorizon s)] else [])
      emergency := s.hold.emergency ++ (if w.reason = 5 then [(w.sender, w.arg.toNat)] else []) } := by
  have awaits : ∀ xs : List Awaited, ∀ x, (if (w.reason = 4 && !admitComplete s (st - admitHorizon s)) = true
      then xs ++ [x] else xs) =
      xs ++ (if w.reason = 4 ∧ admitComplete s (st - admitHorizon s) = false then [x] else []) := by
    intro xs x
    split <;> simp_all
  have emergency : ∀ xs : List (Coord × Nat), ∀ x, (if w.reason = 5 then xs ++ [x] else xs) =
      xs ++ (if w.reason = 5 then [x] else []) := by
    intro xs x
    split <;> simp
  unfold takeHold
  rw [awaits, emergency] <;> rfl

/-- A HOLD in time and in sequence. -/
theorem onHold_of_taken {w : ControlWord} {s : State} (live : holdLive s = true) (time : s.sp < nearest s.sp w.pick.toNat)
    (seq : seqOk .hold w s = true) :
    onHold w s = takeHold w (nearest s.sp w.pick.toNat) (nearest s.sp w.stamp.toNat) (seqNext .hold w s) := by
  unfold onHold
  dsimp only
  rw [if_neg (by simp [live]), if_neg (by omega), if_neg (by simp [seq])]

theorem onHold_of_late {w : ControlWord} {s : State} (live : holdLive s = true) (late : nearest s.sp w.pick.toNat ≤ s.sp) :
    onHold w s = holdFault 0x5001 (nearest s.sp w.pick.toNat) s := by
  unfold onHold
  dsimp only
  rw [if_neg (by simp [live]), if_pos late]

theorem onHold_of_misordered {w : ControlWord} {s : State} (live : holdLive s = true)
    (time : s.sp < nearest s.sp w.pick.toNat) (seq : seqOk .hold w s = false) :
    onHold w s = holdFault 0x5003 w.seq.toNat s := by
  unfold onHold
  dsimp only
  rw [if_neg (by simp [live]), if_neg (by omega), if_pos (by simp [seq])]

theorem onRelease_of_taken {w : ControlWord} {s : State} (live : holdLive s = true)
    (stop : s.hold.stop = some (nearest s.sp w.pick.toNat)) (seq : seqOk .release w s = true) :
    onRelease w s = takeRelease (nearest s.tp w.stamp.toNat) (seqNext .release w s) := by
  unfold onRelease
  rw [if_neg (by simp [live]), if_neg (by simp [stop, seq])]

theorem onRelease_of_unknown {w : ControlWord} {s : State} (live : holdLive s = true)
    (wrong : s.hold.stop ≠ some (nearest s.sp w.pick.toNat) ∨ seqOk .release w s = false) :
    onRelease w s = holdFault 0x5003 w.seq.toNat s := by
  unfold onRelease
  rw [if_neg (by simp [live]), if_pos (by simpa using wrong)]

theorem onPace_of_taken {w : ControlWord} {s : State} (live : holdLive s = true) (seq : seqOk .pace w s = true)
    (time : s.sp < nearest s.sp w.pick.toNat) :
    onPace w s = takePace w (nearest s.sp w.pick.toNat) (seqNext .pace w s) := by
  unfold onPace
  dsimp only
  rw [if_neg (by simp [live]), if_neg (by simp [seq]), if_neg (by omega)]

theorem onPace_of_misordered {w : ControlWord} {s : State} (live : holdLive s = true) (seq : seqOk .pace w s = false) :
    onPace w s = holdFault 0x5003 w.seq.toNat s := by
  unfold onPace
  dsimp only
  rw [if_neg (by simp [live]), if_pos (by simp [seq])]

theorem onPace_of_late {w : ControlWord} {s : State} (live : holdLive s = true) (seq : seqOk .pace w s = true)
    (late : nearest s.sp w.pick.toNat ≤ s.sp) : onPace w s = holdFault 0x5005 (nearest s.sp w.pick.toNat) s := by
  unfold onPace
  dsimp only
  rw [if_neg (by simp [live]), if_neg (by simp [seq]), if_pos late]

/-- A fault of the hold unit is recorded at C0, whatever packets were sent before it. -/
theorem holdFault_after_sent {b u : State} (inv : Inv b) (sent : Sent b u) (code detail : Nat) :
    Recorded b (holdFault code detail u) 0 code ∧ OnlyAside b (holdFault code detail u) := by
  have units : u.integrity.dies.length = 4 := by
    rw [sent.integrity]
    exact inv.dies
  refine ⟨Recorded.of_integrity (recorded_raiseFault units code _) (by rw [sent.integrity]), Aside.only ?_⟩
  exact aside_raiseFault _ _ sent.aside

/-! ## The statements -/

/-- Settles O8: the word's packet goes or waits, and a word that arrives in time and in sequence is taken. -/
theorem holdWordSetsStopPick : Obligations.HoldWordSetsStopPick := by
  intro tr w s st
  refine ⟨fun live clear time seq => ?_, fun waits => ⟨_, rfl, (sent_enterWord_of_waits waits .hold w).only⟩,
    fun dead => ⟨_, rfl, (sent_enterWord_of_not_live dead .hold tr w).only⟩⟩
  obtain ⟨u, sent, objs, enter⟩ := enterWord_of_clear live clear .hold w
  have taken : onHold w u = takeHold w st (nearest s.sp w.stamp.toNat) (seqNext .hold w u) := by
    have h := onHold_of_taken (w := w) (s := u) (sent.holdLive.trans live) (sent.sp ▸ time) (by rw [sent_seqOk sent, seq])
    rwa [sent.sp] at h
  refine ⟨_, congrArg Host.Outcome.next (enter.trans taken), (sent.withHold _).only, ?_⟩
  have horizon : admitHorizon (seqNext .hold w u) = admitHorizon s := objs _ _ uncounted_admitHorizon
  have admitted : ∀ a, admitComplete (seqNext .hold w u) a = admitComplete s a := fun a => sent_admitComplete sent a
  rw [hold_takeHold, horizon, admitted]
  simp only [seqNext, sent.hold]
  rfl

/-- Settles O9: the word's packet goes or waits; a word that arrives is taken or is the fault of the first check that it
fails. -/
theorem controlWordsAreTakenOrFaults : Obligations.ControlWordsAreTakenOrFaults := by
  intro tr w s p failed counts
  refine ⟨fun live clear stop seq => ?_, fun live clear seq time => ?_, fun inv live clear => ?_, fun idle i kind => ?_⟩
  case refine_1 =>
    obtain ⟨u, sent, objs, enter⟩ := enterWord_of_clear live clear .release w
    have taken : onRelease w u = takeRelease (nearest s.tp w.stamp.toNat) (seqNext .release w u) := by
      have h := onRelease_of_taken (w := w) (s := u) (sent.holdLive.trans live) (by rw [sent.hold, sent.sp, stop])
        (by rw [sent_seqOk sent, seq])
      rwa [sent.tp] at h
    refine ⟨_, congrArg Host.Outcome.next (enter.trans taken), (sent.withHold _).only, ?_⟩
    have same : horizon (seqNext .release w u) = horizon s := objs _ _ uncounted_horizon
    simp only [takeRelease, same]
    simp only [seqNext, sent.hold]
    rfl
  case refine_2 =>
    obtain ⟨u, sent, -, enter⟩ := enterWord_of_clear live clear .pace w
    have taken : onPace w u = takePace w p (seqNext .pace w u) := by
      have h := onPace_of_taken (w := w) (s := u) (sent.holdLive.trans live) (by rw [sent_seqOk sent, seq]) (sent.sp ▸ time)
      rwa [sent.sp] at h
    refine ⟨_, congrArg Host.Outcome.next (enter.trans taken), (sent.withHold _).only, ?_⟩
    simp only [takePace, seqNext, sent.hold]
    rfl
  case refine_3 =>
    have fails : ∀ (k : CwKind) (code detail : Nat) (i : Instr), exec i s = .next (enterWord k tr w s) →
        (∀ u, Sent s u → onWord k w u = holdFault code detail u) → failed i code := by
      intro k code detail i run fault
      obtain ⟨u, sent, -, enter⟩ := enterWord_of_clear live clear k w
      exact ⟨_, run.trans (congrArg Host.Outcome.next (enter.trans (fault u sent))), holdFault_after_sent inv sent code detail⟩
    refine ⟨fun late => fails .hold _ p _ rfl fun u sent => ?_, fun time seq => fails .hold _ w.seq.toNat _ rfl fun u sent => ?_,
      fun wrong => fails .release _ w.seq.toNat _ rfl fun u sent => ?_, fun seq => fails .pace _ w.seq.toNat _ rfl fun u sent => ?_,
      fun seq late => fails .pace _ p _ rfl fun u sent => ?_⟩
    · have h := onHold_of_late (w := w) (s := u) (sent.holdLive.trans live) (sent.sp ▸ late)
      rwa [sent.sp] at h
    · exact onHold_of_misordered (sent.holdLive.trans live) (sent.sp ▸ time) (by rw [sent_seqOk sent, seq])
    · exact onRelease_of_unknown (sent.holdLive.trans live) (by rwa [sent_seqOk sent, sent.hold, sent.sp])
    · exact onPace_of_misordered (sent.holdLive.trans live) (by rw [sent_seqOk sent, seq])
    · have h := onPace_of_late (w := w) (s := u) (sent.holdLive.trans live) (by rw [sent_seqOk sent, seq]) (sent.sp ▸ late)
      rwa [sent.sp] at h
  case refine_4 =>
    have same : ∀ k, Sent s (enterWord k tr w s) := fun k =>
      idle.elim (fun waits => sent_enterWord_of_waits waits k w) fun dead => sent_enterWord_of_not_live dead k tr w
    obtain rfl | rfl := kind
    · exact ⟨_, rfl, (same .release).only⟩
    · exact ⟨_, rfl, (same .pace).only⟩

end Sys2Proof.Machine
end

section
/-! SUPPORT. Words that the module sends itself (R34, R37, R222): what becomes of a hold request at the hold unit and at a
router output, the RELEASE of a held module, and a hold that lasts too long. -/

namespace Sys2Proof.Machine

open Sys2Proof Sys2Proof.Laws

/-! ## Own words -/

/-- The own sequence of a kind moved on. -/
def countOwn (k : CwKind) (s : State) : State :=
  { s with hold := { s.hold with
    own := mset 0 s.hold.own (seqKey { x := 0, y := 0, z := 0 } k) ((ownSeq s k + 1) % 65536) } }

theorem ownSeq_countOwn (k : CwKind) (s : State) : ownSeq (countOwn k s) k = (ownSeq s k + 1) % 65536 :=
  mget_mset_same _ _ _ _

/-- The word that the module sends. -/
def ownWord (k : CwKind) (reason : BitVec 8) (ocls : BitVec 4) (oidx arg : BitVec 10) (pick stamp : Nat) (s : State) :
    ControlWord :=
  { sender := ownCoord s, seq := BitVec.ofNat 16 (ownSeq s k), reason := reason, ocls := ocls, oidx := oidx, arg := arg
    pick := BitVec.ofNat 32 pick, stamp := BitVec.ofNat 32 stamp }

/-- The state in which the own hold unit takes a word that the module sends: its copies are on their way. -/
def wordSent (k : CwKind) (w : ControlWord) (s : State) : State := sendCopies 0 (originCopies s) k w (countOwn k s)

theorem sent_wordSent (k : CwKind) (w : ControlWord) (s : State) : Sent (countOwn k s) (wordSent k w s) :=
  sent_sendCopies _ _ _ _ rfl

theorem objGet_wordSent {i j : Nat} (h : Uncounted i j) (k : CwKind) (w : ControlWord) (s : State) :
    objGet (wordSent k w s) i j = objGet s i j :=
  objGet_inject h _ _ _ _ _

theorem sendWord_hold (reason : BitVec 8) (ocls : BitVec 4) (oidx arg : BitVec 10) (pick stamp : Nat) (s : State) :
    sendWord .hold reason ocls oidx arg pick stamp s =
      if pick ≤ (wordSent .hold (ownWord .hold reason ocls oidx arg pick stamp s) s).sp
      then holdFault 0x5001 pick (wordSent .hold (ownWord .hold reason ocls oidx arg pick stamp s) s)
      else takeHold (ownWord .hold reason ocls oidx arg pick stamp s) pick stamp
        (wordSent .hold (ownWord .hold reason ocls oidx arg pick stamp s) s) := rfl

theorem sendWord_release (reason : BitVec 8) (ocls : BitVec 4) (oidx arg : BitVec 10) (pick stamp : Nat) (s : State) :
    sendWord .release reason ocls oidx arg pick stamp s =
      takeRelease stamp (wordSent .release (ownWord .release reason ocls oidx arg pick stamp s) s) := rfl

/-! ## Hold requests at the hold unit -/

/-- What the release waits for, a request's items included. -/
theorem mem_awaitItems {xs : List Awaited} {s : State} {x : Awaited} (h : x ∈ s.hold.awaited ∨ x ∈ xs) :
    x ∈ (awaitItems xs s).hold.awaited := by
  show x ∈ s.hold.awaited ++ (xs.filter fun x => !s.hold.awaited.contains x).eraseDups
  rw [List.mem_append, List.mem_eraseDups, List.mem_filter]
  by_cases k : x ∈ s.hold.awaited
  · exact .inl k
  · exact .inr ⟨h.resolve_left k, by simpa using k⟩

/-- The state in which a request at the hold unit becomes a HOLD. -/
def asked (r : HoldReq) (s : State) : State := awaitItems (requestItems s r) (leaveOutput r s)

/-- The HOLD that a request becomes. -/
def requestWord (r : HoldReq) (s : State) : ControlWord :=
  ownWord .hold r.reason r.ocls r.oidx (BitVec.ofNat 10 (reqArg r)) (r.sp + 1 + horizon s) r.sp (asked r s)

/-- A request at the hold unit. -/
theorem exec_holdRequest_unit (r : HoldReq) (s : State) :
    exec (.holdRequest r none) s = .next (if !holdLive s then leaveOutput r s
      else sendWord .hold r.reason r.ocls r.oidx (BitVec.ofNat 10 (reqArg r)) (r.sp + 1 + horizon s) r.sp (asked r s)) := rfl

theorem holdRequest_taken {r : HoldReq} {s : State} (live : holdLive s = true) (time : s.sp < r.sp + 1 + horizon s) :
    exec (.holdRequest r none) s = .next (takeHold (requestWord r s) (r.sp + 1 + horizon s) r.sp
      (wordSent .hold (requestWord r s) (asked r s))) := by
  have sp : (wordSent .hold (requestWord r s) (asked r s)).sp = s.sp := (sent_wordSent _ _ _).sp
  rw [exec_holdRequest_unit, if_neg (by simp [live]), sendWord_hold]
  exact congrArg _ (if_neg (by
    show ¬ _ ≤ (wordSent .hold (requestWord r s) (asked r s)).sp
    omega))

theorem holdRequest_late {r : HoldReq} {s : State} (live : holdLive s = true) (late : r.sp + 1 + horizon s ≤ s.sp) :
    exec (.holdRequest r none) s = .next (holdFault 0x5001 (r.sp + 1 + horizon s)
      (wordSent .hold (requestWord r s) (asked r s))) := by
  have sp : (wordSent .hold (requestWord r s) (asked r s)).sp = s.sp := (sent_wordSent _ _ _).sp
  rw [exec_holdRequest_unit, if_neg (by simp [live]), sendWord_hold]
  exact congrArg _ (if_pos (by
    show _ ≤ (wordSent .hold (requestWord r s) (asked r s)).sp
    omega))

/-! ## Hold requests at a router output -/

theorem lookup_mput_same {α : Type} (m : SMap α) (k : Nat) (v : α) : (mput m k v).lookup k = some v := by
  rw [lookup_mput, if_pos rfl]

theorem lookup_mput_ne {α : Type} (m : SMap α) {j k : Nat} (h : k ≠ j) (v : α) : (mput m j v).lookup k = m.lookup k := by
  rw [lookup_mput, if_neg h]

/-- Of two requests that meet, the smaller goes on, with the sum of the counts up to 1023. -/
theorem combineReq_eq (q r : HoldReq) :
    combineReq q r =
      { (if r.sp < q.sp ∨ r.sp = q.sp ∧ (r.ocls < q.ocls ∨ r.ocls = q.ocls ∧ r.oidx < q.oidx) then r else q) with
        count := min 1023 (q.count + r.count) } := by
  unfold combineReq
  simp only [Bool.or_eq_true, Bool.and_eq_true, decide_eq_true_eq]

theorem exec_holdRequest_router (r : HoldReq) (o : Nat) (s : State) :
    exec (.holdRequest r (some o)) s = .next (queueRequest o r (leaveOutput r s)) := rfl

/-! ## RELEASE and the hold limit -/

theorem tryRelease_of_ready {st : Nat} {s : State} (live : holdLive s = true) (held : s.hold.held = true)
    (unsent : s.hold.sent = false) (arrived : allArrived s = true) (landed : s.hold.awaited = [])
    (stop : s.hold.stop = some st) :
    tryRelease s = takeRelease s.tp (wordSent .release
      (ownWord .release 0 0 0 0 st s.tp { s with hold := { s.hold with sent := true } })
      { s with hold := { s.hold with sent := true } }) := by
  unfold tryRelease
  rw [if_pos (by simp [live, held, unsent, arrived, ownLanded, landed]), stop]
  rfl

theorem tryRelease_of_unready {s : State} (h : allArrived s = false ∨ s.hold.awaited ≠ [] ∨ s.hold.held = false ∨
    s.hold.sent = true ∨ s.hold.stop = none ∨ holdLive s = false) : tryRelease s = s := by
  unfold tryRelease
  split
  case isFalse => rfl
  case isTrue ready =>
    simp only [Bool.and_eq_true, Bool.not_eq_true', ownLanded, List.isEmpty_iff] at ready
    obtain ⟨⟨⟨⟨live, held⟩, unsent⟩, arrived⟩, landed⟩ := ready
    have stop : s.hold.stop = none := by simpa [live, held, unsent, arrived, landed] using h
    rw [stop]

/-! ## The statements -/

/-- Settles O10: at the hold unit the request becomes the module's own HOLD, at a router output it joins the queued one. -/
theorem holdRequestIsSentOrQueued : Obligations.HoldRequestIsSentOrQueued := by
  constructor
  case left =>
    intro r s st
    have sent := sent_wordSent .hold (requestWord r s) (asked r s)
    refine ⟨fun live time => ?taken, fun inv live late => ?late, fun dead => ?dead⟩
    case taken =>
      have base : Sent { s with hold := (countOwn .hold (asked r s)).hold } (countOwn .hold (asked r s)) := rfl
      have hold : ∀ a, admitComplete (wordSent .hold (requestWord r s) (asked r s)) a = admitComplete s a :=
        fun a => sent_admitComplete (sent.trans rfl) a
      have ahead : admitHorizon (wordSent .hold (requestWord r s) (asked r s)) = admitHorizon s :=
        objGet_wordSent uncounted_admitHorizon _ _ _
      refine ⟨_, holdRequest_taken live time, ((base.trans sent).withHold _).only, ?_⟩
      rw [hold_takeHold, hold, ahead, sent.hold]
      refine ⟨rfl, ?own, fun x h => List.mem_append_left _ (mem_awaitItems h), fun admission missing => ?records, ?power,
        rfl, rfl, rfl, rfl, rfl, rfl⟩
      case own =>
        show ownSeq (wordSent .hold (requestWord r s) (asked r s)) .hold = _
        rw [ownSeq, sent.hold]
        exact ownSeq_countOwn .hold (asked r s)
      case records =>
        exact List.mem_append_right _ (by rw [if_pos ⟨admission, missing⟩]; exact List.mem_singleton_self _)
      case power =>
        show s.hold.emergency ++ (if r.reason = 5 then [(ownCoord s, (BitVec.ofNat 10 (reqArg r)).toNat)] else []) = _
        congr 1
        split
        case isTrue power =>
          have arg : reqArg r = r.count := if_pos (by simp [power])
          rw [arg, BitVec.toNat_ofNat]
        case isFalse => rfl
    case late =>
      have base : Sent { s with hold := (countOwn .hold (asked r s)).hold } (countOwn .hold (asked r s)) := rfl
      have units : (wordSent .hold (requestWord r s) (asked r s)).integrity.dies.length = 4 := by
        rw [sent.integrity]
        exact inv.dies
      have fault := aside_raiseFault 0x5001 (unitSite 4 0 0 (st % 2 ^ 18)) (base.trans sent).aside
      refine ⟨_, holdRequest_late live late, Recorded.of_integrity (recorded_raiseFault units _ _) (by rw [sent.integrity]; rfl),
        (fault.withHold _).only, ?_, ?_⟩
      · have same := congrArg Hold.stop fault.hold
        exact same
      · have same := congrArg Hold.held fault.hold
        exact same
    case dead =>
      rw [exec_holdRequest_unit, if_pos (by simp [dead])]
      exact ⟨_, rfl, rfl⟩
  case right =>
    intro r o s routers
    constructor
    case left =>
      intro empty
      have queued : queueRequest o r (leaveOutput r s)
          = { s with hold := { s.hold with routers := mput routers o r } } := by
        unfold queueRequest
        rw [show (leaveOutput r s).hold.routers.lookup o = none from empty]
        rfl
      refine ⟨_, (exec_holdRequest_router r o s).trans (congrArg Host.Outcome.next queued), rfl, lookup_mput_same _ _ _,
        fun k h => lookup_mput_ne _ h _⟩
    case right =>
      intro q found
      have joined : queueRequest o r (leaveOutput r s)
          = bump 0x4000 0x11 1 { s with hold := { s.hold with routers := mput routers o (combineReq q r) } } := by
        unfold queueRequest
        rw [show (leaveOutput r s).hold.routers.lookup o = some q from found]
        rfl
      refine ⟨_, (exec_holdRequest_router r o s).trans (congrArg Host.Outcome.next joined), ?_, objGet_bump_same _ _ _ _,
        fun k h => lookup_mput_ne _ h _, rfl⟩
      rw [← combineReq_eq]
      exact lookup_mput_same _ _ _

/-- Settles O11: a held module's RELEASE goes once both conditions of R37 hold, and a hold too long is a fault of C0. -/
theorem heldModuleReleasesOrTimesOut : Obligations.HeldModuleReleasesOrTimesOut := by
  refine ⟨fun st s live held unsent arrived landed stop => ?_, fun s h => congrArg Host.Outcome.next (tryRelease_of_unready h),
    fun s inv live held long => ?_, fun s short => ?_⟩
  case refine_1 =>
    have sent := sent_wordSent .release
      (ownWord .release 0 0 0 0 st s.tp { s with hold := { s.hold with sent := true } })
      { s with hold := { s.hold with sent := true } }
    have ahead := objGet_wordSent uncounted_horizon .release
      (ownWord .release 0 0 0 0 st s.tp { s with hold := { s.hold with sent := true } })
      { s with hold := { s.hold with sent := true } }
    have base : Sent { s with hold := (countOwn .release { s with hold := { s.hold with sent := true } }).hold }
      (countOwn .release { s with hold := { s.hold with sent := true } }) := rfl
    refine ⟨_, congrArg Host.Outcome.next (tryRelease_of_ready live held unsent arrived landed stop),
      ((base.trans sent).withHold _).only, ?_, ?_⟩
    · simp only [takeRelease, horizon, ahead, sent.hold]
      rfl
    · show ownSeq (wordSent .release _ _) .release = _
      rw [ownSeq, sent.hold]
      exact ownSeq_countOwn .release { s with hold := { s.hold with sent := true } }
  case refine_2 =>
    have expired : (holdLive s && s.hold.held && decide (objGet s 0x4300 7 < s.tp - s.hold.stopTp)) = true := by
      simp [live, held, long]
    exact ⟨_, congrArg Host.Outcome.next (if_pos expired), holdFault_after_sent inv rfl _ _⟩
  case refine_3 =>
    refine congrArg Host.Outcome.next (if_neg ?_)
    rw [Bool.and_eq_true, Bool.and_eq_true, decide_eq_true_eq]
    rintro ⟨⟨live, held⟩, long⟩
    obtain h | h | h := short
    · rw [live] at h
      cases h
    · rw [held] at h
      cases h
    · omega

end Sys2Proof.Machine
end

section
/-! SUPPORT. A pick boundary at which a starting module adopts its neighbour's time (R266): the boundary itself moves with
the time counter. -/

namespace Sys2Proof.Machine

open Sys2Proof Sys2Proof.Laws

/-- A module at S12 of its start, outside a job, with one echo waiting: its neighbour's time is 8 ticks ahead (16 is the
offset doubled). -/
def echoWaits : State := objSet 0x2200 1 0 (objSet 0x2200 2 12 { State.reset with
  power := { Power.reset with input := true, rails := true, perst := true }
  start := { Start.reset with echoes := [(0, 16)] } })

theorem echoWaits_boundary : echoWaits.boundary + paceNow echoWaits = 64 := by decide +kernel

/-- The boundary is placed one pace later, at 64, and moves with the counter by the 8 ticks adopted. -/
theorem boundary_of_echoWaits : (pickBoundary echoWaits).boundary = 72 := by decide +kernel

/-- Refutes O7: it has every boundary placed one pace later, outside a job too, but there a module at S12 judges the
echoes at hand at the boundary (R266) and adopts its neighbour's time, which moves the boundary with the counter. -/
theorem not_pickBoundaryAdvancesCounts : ¬ Obligations.PickBoundaryAdvancesCounts := by
  intro h
  obtain ⟨t, run, boundary, -⟩ := h echoWaits
  obtain rfl : pickBoundary echoWaits = t := Host.Outcome.next.inj run
  rw [boundary_of_echoWaits, echoWaits_boundary] at boundary
  exact absurd boundary (by decide)

end Sys2Proof.Machine
end

section
/-! SUPPORT. Words of fields (R42, R67, R142, R174): a field of a packed word reads as its value, the fields of a word pack
to it again, and with them the slots, bundles and control words. -/

namespace Sys2Proof.Machine

open Sys2Proof Sys2Proof.Laws

/-! ## Fields of a word -/

theorem fieldBits_cons (x : Nat × Nat) (r : List (Nat × Nat)) : fieldBits (x :: r) = x.1 + fieldBits r := rfl

theorem pack_cons (w v : Nat) (r : List (Nat × Nat)) : pack ((w, v) :: r) = v % 2 ^ w * 2 ^ fieldBits r + pack r := rfl

theorem pack_lt (fs : List (Nat × Nat)) : pack fs < 2 ^ fieldBits fs := by
  induction fs with
  | nil => decide
  | cons x r ih =>
    obtain ⟨w, v⟩ := x
    have field : v % 2 ^ w + 1 ≤ 2 ^ w := Nat.mod_lt _ (Nat.two_pow_pos w)
    calc pack ((w, v) :: r) < v % 2 ^ w * 2 ^ fieldBits r + 2 ^ fieldBits r := Nat.add_lt_add_left ih _
      _ = (v % 2 ^ w + 1) * 2 ^ fieldBits r := by rw [Nat.add_mul, Nat.one_mul]
      _ ≤ 2 ^ w * 2 ^ fieldBits r := Nat.mul_le_mul_right _ field
      _ = 2 ^ fieldBits ((w, v) :: r) := by rw [fieldBits_cons, Nat.pow_add]

/-- The first field of a word. -/
theorem bits_pack_head {w v lo : Nat} {r : List (Nat × Nat)} (h : fieldBits r = lo) :
    bits (pack ((w, v) :: r)) lo w = v % 2 ^ w := by
  subst h
  rw [bits, pack_cons, Nat.add_comm, Nat.add_mul_div_right _ _ (Nat.two_pow_pos _), Nat.div_eq_of_lt (pack_lt r), Nat.zero_add,
    Nat.mod_mod]

/-- A part of a word below its first field. -/
theorem bits_pack_tail {w v lo n : Nat} {r : List (Nat × Nat)} (h : lo + n ≤ fieldBits r) :
    bits (pack ((w, v) :: r)) lo n = bits (pack r) lo n := by
  obtain ⟨k, hk⟩ := Nat.exists_eq_add_of_le h
  have shift : v % 2 ^ w * 2 ^ fieldBits r = v % 2 ^ w * 2 ^ k * 2 ^ n * 2 ^ lo := by
    rw [hk, Nat.pow_add, Nat.pow_add]
    ac_rfl
  rw [bits, bits, pack_cons, shift, Nat.add_comm, Nat.add_mul_div_right _ _ (Nat.two_pow_pos _), Nat.add_mul_mod_self_right]

/-- A word is the fields that it is cut into: the first field, cut above the others. -/
theorem pack_bits_cons {x w lo : Nat} {r : List (Nat × Nat)} (h : pack r = x % 2 ^ lo) (k : fieldBits r = lo) :
    pack ((w, bits x lo w) :: r) = x % 2 ^ (w + lo) := by
  rw [pack_cons, k, h, bits, Nat.mod_mod, Nat.add_comm w lo, Nat.pow_add, Nat.mod_mul, Nat.add_comm, Nat.mul_comm]

/-- A field, and a flag, reads as its value where it is the first, and as in the rest of the word where it is not. -/
theorem fld_head {n lo : Nat} {v : BitVec n} {r : List (Nat × Nat)} (h : fieldBits r = lo) :
    fld n (pack ((n, v.toNat) :: r)) lo = v := by
  rw [fld, bits_pack_head h, Nat.mod_eq_of_lt v.isLt, BitVec.ofNat_toNat, BitVec.setWidth_eq]

theorem fld_tail {n w v lo : Nat} {r : List (Nat × Nat)} (h : lo + n ≤ fieldBits r) :
    fld n (pack ((w, v) :: r)) lo = fld n (pack r) lo := by
  rw [fld, bits_pack_tail h, fld]

theorem bitOf_head {lo : Nat} {b : Bool} {r : List (Nat × Nat)} (h : fieldBits r = lo) :
    bitOf (pack ((1, flag b) :: r)) lo = b := by
  rw [bitOf, bits_pack_head h]
  cases b <;> rfl

theorem bitOf_tail {w v lo : Nat} {r : List (Nat × Nat)} (h : lo + 1 ≤ fieldBits r) :
    bitOf (pack ((w, v) :: r)) lo = bitOf (pack r) lo := by
  rw [bitOf, bits_pack_tail h, bitOf]

theorem toNat_fld (n x lo : Nat) : (fld n x lo).toNat = bits x lo n := by
  rw [fld, BitVec.toNat_ofNat, bits, Nat.mod_mod]

/-! ## Slots -/

theorem readM_encodeM (m : MSlot) : readM (encodeM m) = some m := by
  cases m <;>
    simp (disch := simp [fieldBits]) [readM, encodeM, fld_head, fld_tail, bitOf_head, bitOf_tail, bits_pack_head]

theorem find_eCode (op : EOp) : (eOps.find? fun o => eCode o == eCode op) = some op := by
  cases op <;> rfl

theorem readE_pack (op : Nat) (f : FormE) :
    readE (pack [(7, op), (3, f.ty.toNat), (5, f.dst.toNat), (5, f.a.toNat), (5, f.b.toNat), (5, f.c.toNat),
      (1, flag f.sat), (2, f.bmode.toNat), (16, f.imm.toNat), (15, f.count.toNat)]) = f := by
  simp (disch := simp [fieldBits]) [readE, fld_head, fld_tail, bitOf_head, bitOf_tail]

theorem readC_pack (op : Nat) (f : FormC) :
    readC (pack [(7, op), (5, f.sfmt.toNat), (5, f.dfmt.toNat), (5, f.dst.toNat), (5, f.src.toNat),
      (5, f.dscale.toNat), (5, f.sscale.toNat), (2, f.round.toNat), (1, flag f.unsc), (9, 0), (15, f.count.toNat)]) = f := by
  simp (disch := simp [fieldBits]) [readC, fld_head, fld_tail, bitOf_head, bitOf_tail]

theorem readL_formL (op : Nat) (f : FormL) : readL (encodeV.formL op f) = f := by
  simp (disch := simp [fieldBits]) [readL, encodeV.formL, fld_head, fld_tail, bitOf_head, bitOf_tail]

theorem readG_formG (op : Nat) (f : FormG) : readG (encodeV.formG op f) = f := by
  simp (disch := simp [fieldBits]) [readG, encodeV.formG, fld_head, fld_tail, bitOf_head, bitOf_tail]

/-- The opcode of a V-slot operation. -/
def vCode : VSlot → Nat
  | .e op _ => eCode op
  | .cvt _ => 0x30
  | .ldr _ => 0x38
  | .str _ => 0x39
  | .gath _ => 0x3A
  | .scat _ => 0x3B

theorem bits_encodeV (v : VSlot) : bits (encodeV v) 57 7 = vCode v := by
  cases v with
  | e op f =>
    exact (bits_pack_head rfl).trans (Nat.mod_eq_of_lt (by cases op <;> decide))
  | cvt f | ldr f | str f | gath f | scat f => exact bits_pack_head rfl

theorem readV_encodeV (v : VSlot) : readV (encodeV v) = some v := by
  unfold readV
  rw [bits_encodeV]
  cases v with
  | e op f =>
    dsimp only [vCode]
    rw [find_eCode]
    exact congrArg (fun g => some (VSlot.e op g)) (readE_pack _ f)
  | cvt f => exact congrArg (fun g => some (VSlot.cvt g)) (readC_pack _ f)
  | ldr f => exact congrArg (fun g => some (VSlot.ldr g)) (readL_formL _ f)
  | str f => exact congrArg (fun g => some (VSlot.str g)) (readL_formL _ f)
  | gath f => exact congrArg (fun g => some (VSlot.gath g)) (readG_formG _ f)
  | scat f => exact congrArg (fun g => some (VSlot.scat g)) (readG_formG _ f)

theorem find_tCode (op : TOp) : (tOps.find? fun o => tCode o == tCode op % 2 ^ 5) = some op := by
  cases op <;> rfl

theorem readT_encodeT (op : TOp) (f : TSlot) : readT (encodeT op f) = some (op, f) := by
  simp (disch := simp [fieldBits]) only [readT, encodeT, fld_head, fld_tail, bitOf_head, bitOf_tail, bits_pack_head,
    find_tCode, Option.map_some]

theorem find_sCode (op : SOp) : (sOps.find? fun o => sCode o == sCode op % 2 ^ 4) = some op := by
  cases op <;> rfl

theorem readS_encodeS (op : SOp) (f : SSlot) : readS (encodeS op f) = some (op, f) := by
  simp (disch := simp [fieldBits]) only [readS, encodeS, fld_head, fld_tail, bitOf_head, bitOf_tail, bits_pack_head,
    find_sCode, Option.map_some]

theorem readK_encodeK (k : KSlot) : readK (encodeK k) = some k := by
  cases k <;>
    simp (disch := simp [fieldBits]) [readK, encodeK, fld_head, fld_tail, bits_pack_head]

/-- The words of slots are as wide as the slots. -/
theorem encodeM_lt (m : MSlot) : encodeM m < 2 ^ 48 := by
  cases m <;> exact pack_lt _

theorem encodeV_lt (v : VSlot) : encodeV v < 2 ^ 64 := by
  cases v <;> exact pack_lt _

theorem encodeT_lt (o : TOp × TSlot) : encodeT o.1 o.2 < 2 ^ 64 := pack_lt _

theorem encodeS_lt (o : SOp × SSlot) : encodeS o.1 o.2 < 2 ^ 48 := pack_lt _

theorem encodeK_lt (k : KSlot) : encodeK k < 2 ^ 32 := by
  cases k <;> exact pack_lt _

/-! ## Slots judged -/

section
variable {α : Type} {read : Nat → Option α} {enc : α → Nat} {ok : α → Bool}

/-- A slot that may be empty is judged to be what it encodes, where zeros spell no operation. -/
theorem judge_encodeSlot {o : Option α} (zero : read 0 = none) (spells : ∀ a, read (enc a) = some a)
    (legal : (o.map ok).getD true = true) : judge read enc ok (encodeSlot enc o) = some o := by
  cases o with
  | none => rfl
  | some a =>
    have some_bit : enc a ≠ 0 := fun e => by
      have h := spells a
      rw [e, zero] at h
      cases h
    rw [encodeSlot, judge, if_neg some_bit, spells]
    exact if_pos (by simpa using legal)

/-- A word that is judged to be a slot is that slot encoded, and the loader accepts it. -/
theorem encodeSlot_of_judge {x : Nat} {o : Option α} (h : judge read enc ok x = some o) :
    encodeSlot enc o = x ∧ (o.map ok).getD true = true := by
  unfold judge at h
  split at h
  case isTrue zero =>
    cases h
    exact ⟨zero.symm, rfl⟩
  case isFalse =>
    split at h
    case h_1 => cases h
    case h_2 a _ =>
      split at h
      case isTrue same =>
        cases h
        simpa [encodeSlot] using same
      case isFalse => cases h

end

/-! ## Bundles -/

theorem encodeSlot_lt {α : Type} {enc : α → Nat} {n : Nat} (h : ∀ a, enc a < 2 ^ n) (o : Option α) :
    encodeSlot enc o < 2 ^ n := by
  cases o with
  | none => exact Nat.two_pow_pos n
  | some a => exact h a

/-- The slots of a bundle's word. -/
theorem bits_encodeBundle (b : Bundle) :
    bits (encodeBundle b) 208 48 = encodeSlot encodeM b.m ∧ bits (encodeBundle b) 144 64 = encodeSlot encodeV b.v ∧
      bits (encodeBundle b) 80 64 = encodeSlot (fun o => encodeT o.1 o.2) b.t ∧
      bits (encodeBundle b) 32 48 = encodeSlot (fun o => encodeS o.1 o.2) b.s ∧
      bits (encodeBundle b) 0 32 = encodeSlot encodeK b.k := by
  simp (disch := simp [fieldBits]) only [encodeBundle, bits_pack_head, bits_pack_tail]
  exact ⟨Nat.mod_eq_of_lt (encodeSlot_lt encodeM_lt _), Nat.mod_eq_of_lt (encodeSlot_lt encodeV_lt _),
    Nat.mod_eq_of_lt (encodeSlot_lt encodeT_lt _), Nat.mod_eq_of_lt (encodeSlot_lt encodeS_lt _),
    Nat.mod_eq_of_lt (encodeSlot_lt encodeK_lt _)⟩

theorem decodeBundle_encodeBundle {b : Bundle} (legal : legalBundle b = true) :
    decodeBundle (encodeBundle b) = some b := by
  obtain ⟨m, v, t, s, k⟩ := bits_encodeBundle b
  simp only [legalBundle, Bool.and_eq_true] at legal
  obtain ⟨⟨⟨lm, lv⟩, lt⟩, ls⟩ := legal
  have hm : decodeMSlot (encodeSlot encodeM b.m) = some b.m := judge_encodeSlot rfl readM_encodeM lm
  have hv : decodeVSlot (encodeSlot encodeV b.v) = some b.v := judge_encodeSlot rfl readV_encodeV lv
  have ht : decodeTSlot (encodeSlot (fun o => encodeT o.1 o.2) b.t) = some b.t :=
    judge_encodeSlot rfl (fun o => readT_encodeT o.1 o.2) lt
  have hs : decodeSSlot (encodeSlot (fun o => encodeS o.1 o.2) b.s) = some b.s :=
    judge_encodeSlot rfl (fun o => readS_encodeS o.1 o.2) ls
  have hk : decodeKSlot (encodeSlot encodeK b.k) = some b.k :=
    judge_encodeSlot rfl readK_encodeK (by cases b.k <;> rfl)
  rw [decodeBundle, m, v, t, s, k, hm, hv, ht, hs, hk]

theorem encodeBundle_of_decodeBundle {x : Nat} {b : Bundle} (small : x < 2 ^ 256) (h : decodeBundle x = some b) :
    encodeBundle b = x ∧ legalBundle b = true := by
  unfold decodeBundle at h
  split at h
  case h_1 m v t s k hm hv ht hs hk =>
    cases h
    obtain ⟨em, lm⟩ := encodeSlot_of_judge hm
    obtain ⟨ev, lv⟩ := encodeSlot_of_judge hv
    obtain ⟨et, lt⟩ := encodeSlot_of_judge ht
    obtain ⟨es, ls⟩ := encodeSlot_of_judge hs
    obtain ⟨ek, -⟩ := encodeSlot_of_judge hk
    refine ⟨?_, by rw [legalBundle, lm, lv, lt, ls]; rfl⟩
    have whole : pack [(48, bits x 208 48), (64, bits x 144 64), (64, bits x 80 64), (48, bits x 32 48), (32, bits x 0 32)]
        = x % 2 ^ 256 :=
      pack_bits_cons (pack_bits_cons (pack_bits_cons (pack_bits_cons (pack_bits_cons (lo := 0)
        (Nat.mod_one x).symm rfl) rfl) rfl) rfl) rfl
    rw [encodeBundle, em, ev, et, es, ek, whole, Nat.mod_eq_of_lt small]
  case h_2 => cases h

/-! ## Control words -/

theorem kindOf_kindCode (k : CwKind) : kindOf (kindCode k % 2 ^ 4) = some k := by
  cases k <;> rfl

theorem kindCode_of_kindOf {n : Nat} {k : CwKind} (h : kindOf n = some k) : kindCode k = n := by
  unfold kindOf at h
  split at h
  case isTrue e =>
    cases h
    exact e.symm
  case isFalse =>
    split at h
    case isTrue e =>
      cases h
      exact e.symm
    case isFalse =>
      split at h
      case isTrue e =>
        cases h
        exact e.symm
      case isFalse => cases h

theorem decodeCw_encodeCw (k : CwKind) (w : ControlWord) : decodeCw (encodeCw k w) = some (k, w) := by
  simp (disch := simp [fieldBits]) only [decodeCw, encodeCw, fld_head, fld_tail, bits_pack_head, kindOf_kindCode,
    Option.map_some]

theorem encodeCw_of_decodeCw {x : Nat} {k : CwKind} {w : ControlWord} (small : x < 2 ^ 128) (h : decodeCw x = some (k, w)) :
    encodeCw k w = x := by
  unfold decodeCw at h
  obtain ⟨kind, code, e⟩ := Option.map_eq_some_iff.mp h
  cases e
  have whole : pack [(4, bits x 124 4), (4, bits x 120 4), (4, bits x 116 4), (4, bits x 112 4), (16, bits x 96 16),
      (8, bits x 88 8), (4, bits x 84 4), (10, bits x 74 10), (10, bits x 64 10), (32, bits x 32 32), (32, bits x 0 32)]
      = x % 2 ^ 128 :=
    pack_bits_cons (pack_bits_cons (pack_bits_cons (pack_bits_cons (pack_bits_cons (pack_bits_cons (pack_bits_cons
      (pack_bits_cons (pack_bits_cons (pack_bits_cons (pack_bits_cons (lo := 0)
        (Nat.mod_one x).symm rfl) rfl) rfl) rfl) rfl) rfl) rfl) rfl) rfl) rfl) rfl
  rw [encodeCw, kindCode_of_kindOf code]
  simp only [toNat_fld]
  rw [whole, Nat.mod_eq_of_lt small]

/-- Settles O44, by the round trip of each slot, whose reader reads the fields that its writer packs. -/
theorem bundlesAndControlWordsDecodeAsEncoded : Obligations.BundlesAndControlWordsDecodeAsEncoded :=
  ⟨fun _ legal => ⟨pack_lt _, decodeBundle_encodeBundle legal⟩, fun _ _ small h => encodeBundle_of_decodeBundle small h,
    fun k w => ⟨pack_lt _, decodeCw_encodeCw k w⟩, fun _ _ _ small h => encodeCw_of_decodeCw small h⟩

end Sys2Proof.Machine
end

section
/-! SUPPORT. What a slot command leaves: rows readable by its cycle are stored, its bundle counts, its tile and effect are
those of its operation. -/

namespace Sys2Proof.Laws
open Sys2Proof.Machine

/-! ## The fault log -/

/-- The fault log is as it was. -/
@[reducible] def SameLog (b s : State) : Prop := s.integrity = b.integrity

theorem sameLog_foldl {α : Type} {b : State} (f : State → α → State) (l : List α)
    (hf : ∀ s x, SameLog b s → SameLog b (f s x)) (s : State) (h : SameLog b s) : SameLog b (l.foldl f s) := by
  induction l generalizing s with
  | nil => exact h
  | cons x xs ih => exact ih (f s x) (hf s x h)

theorem sameLog_ite {b s t : State} {c : Prop} [Decidable c] (h : SameLog b s) (k : SameLog b t) :
    SameLog b (if c then s else t) := by
  split
  · exact h
  · exact k

theorem Sent.sameLog {b s t : State} (k : Sent s t) (h : SameLog b s) : SameLog b t := k.integrity.trans h

theorem sameLog_rowWrite {b s : State} (t w a : Nat) (f : RowFrame) (h : SameLog b s) : SameLog b (rowWrite t w a f s) := by
  have seen : ∀ s, SameLog b s → SameLog b (seenBeside t w a f s) := by
    intro s h
    unfold seenBeside
    refine sameLog_ite h ?_
    split
    · exact h
    · exact sameLog_ite h (sameLog_foldl (b := b) (fun s v => tileSet v ((tileAt s v).seeBeside s a w f) s) _
        (fun _ _ k => k) s h)
  have dropped : ∀ s, SameLog b s → SameLog b (dropFix a s) := by
    intro s h
    unfold dropFix
    split
    · exact h
    · exact sameLog_ite (Sent.sameLog (sent_bump _ _ _ (Sent.refl _)) h) h
  exact dropped _ (seen _ h)

theorem sameLog_settle (t c : Nat) (s : State) : SameLog s (settle t c s) := by
  unfold settle
  exact sameLog_ite (sameLog_foldl _ _ (fun _ _ k => sameLog_rowWrite _ _ _ _ k) _ rfl) rfl

theorem sameLog_accesses {b : State} (f : State → Nat → State) (us : List Nat) (s : State)
    (hf : ∀ s u, f s u = s ∨ ∃ v, f s u = tileSet u v s) (h : SameLog b s) : SameLog b (us.foldl f s) :=
  sameLog_foldl _ _ (fun s u k => by
    obtain e | ⟨v, e⟩ := hf s u
    · rw [e]
      exact k
    · rw [e]
      exact k) _ h

theorem sameLog_refuse {b s : State} (u : Nat) (x : Access) (h : SameLog b s) : SameLog b (refuse u x s) := by
  unfold refuse
  extract_lets t fresh s1 col s2 tile here s3
  have h1 : SameLog b s1 := by
    unfold s1 stopTile slipAccesses
    refine sameLog_ite h (sameLog_accesses _ _ _ (fun s u => ?_) h)
    dsimp only
    split
    · exact .inr ⟨_, rfl⟩
    · exact .inl rfl
  have h3 : SameLog b s3 := h1
  clear_value s3
  exact sameLog_ite (Sent.sameLog (sent_countTile _ _ _ _ (sent_countTile _ _ _ _ (sent_bump _ _ _ (Sent.refl _)))) h3) h3

theorem sameLog_arbitrate {b : State} (k : Nat) (us : List Nat) (s : State) (h : SameLog b s) :
    SameLog b (arbitrate k us s) := by
  induction k generalizing us s with
  | zero => exact h
  | succ k ih =>
    unfold arbitrate
    split
    · exact h
    · exact ih _ _ (sameLog_refuse _ _ h)

theorem sameLog_requestAll {b s : State} (xs : List (Nat × Nat × Nat × Nat)) (h : SameLog b s) :
    SameLog b (requestAll xs s) := by
  unfold requestAll
  refine sameLog_ite h (sameLog_arbitrate _ _ _ (sameLog_foldl _ _ (fun _ _ k => ?_) _ h))
  unfold requestAccess
  split
  · exact k
  · exact k

theorem sameLog_stallAccesses {b s : State} (t : Nat) (x : Nat × Nat) (h : SameLog b s) :
    SameLog b (stallAccesses t x s) := by
  unfold stallAccesses holdAccesses
  refine sameLog_accesses _ _ _ (fun s u => ?_) h
  dsimp only
  split
  · exact .inr ⟨_, rfl⟩
  · exact .inl rfl

theorem sameLog_queueFix {b s : State} (a : Nat) (h : SameLog b s) : SameLog b (queueFix a s) := by
  unfold queueFix
  split
  · exact h
  · exact sameLog_ite h h

/-- What an effect does to the fault log is what its faults do, and the repairs that they ask for. -/
theorem applyFx_faults (t c : Nat) (x : Fx) (s : State) :
    ∃ u, SameLog s u ∧ applyFx t c x s = markFaulted x.faults (raiseFaults x.faults u) := by
  unfold applyFx
  extract_lets s1 s2 s3 s4 s5 s6 s7
  have h1 : SameLog s s1 := sameLog_foldl _ _ (fun _ _ k => sameLog_rowWrite _ _ _ _ k) _ rfl
  have h2 : Sent s1 s2 := sent_foldl _ _ (fun _ _ k => sent_bump _ _ _ k) _ (Sent.refl _)
  have h3 : Sent s1 s3 := sent_foldl _ _ (fun _ _ k => sent_countTile _ _ _ _ k) _ h2
  have k3 : SameLog s s3 := Sent.sameLog h3 h1
  have h4 : SameLog s s4 := k3
  have h5 : SameLog s s5 := by
    unfold s5
    split
    · exact h4
    · exact sameLog_ite h4 h4
  have h6 : SameLog s s6 := Sent.sameLog (sent_foldl _ _ (fun _ _ k => sent_tileHold _ _ _ _ k) _ (Sent.refl _)) h5
  have h7 : SameLog s s7 := sameLog_foldl _ _ (fun _ _ k => sameLog_queueFix _ k) _ h6
  exact ⟨_, sameLog_requestAll x.asks (sameLog_foldl (fun s a => stallAccesses t a s) x.stalls
    (fun _ _ k => sameLog_stallAccesses _ _ k) s7 h7), rfl⟩

/-! ## Records of faults -/

theorem getD_dies_raiseFault {s : State} (units : s.integrity.dies.length = 4) (code : Nat) (site : FaultSite) (d : Nat) :
    (raiseFault code site s).integrity.dies.getD d [] = s.integrity.dies.getD d [] ++
      if d = site.die.val then [makeRecord s code site] else [] := by
  have room : site.die.val < s.integrity.dies.length := by
    rw [units]
    exact site.die.isLt
  rw [dies_raiseFault]
  split
  case isTrue e => rw [e, List.getD_eq_getElem?_getD, List.getElem?_set_self room, Option.getD_some]
  case isFalse e =>
    rw [List.getD_eq_getElem?_getD, List.getElem?_set_ne (Ne.symm e), ← List.getD_eq_getElem?_getD, List.append_nil]

/-- The records of each die have grown, or are as they were. -/
structure Grown (b s : State) : Prop where
  units : s.integrity.dies.length = 4
  more  : ∀ d, ∃ xs, s.integrity.dies.getD d [] = b.integrity.dies.getD d [] ++ xs

theorem Grown.refl {s : State} (units : s.integrity.dies.length = 4) : Grown s s := ⟨units, fun _ => ⟨[], by simp⟩⟩

theorem Grown.of_integrity {b s t : State} (h : Grown b s) (e : t.integrity.dies = s.integrity.dies) : Grown b t := by
  obtain ⟨units, more⟩ := h
  exact ⟨by rw [e, units], fun d => by rw [e]; exact more d⟩

theorem grown_raiseFault {b s : State} (code : Nat) (site : FaultSite) (h : Grown b s) : Grown b (raiseFault code site s) := by
  refine ⟨by rw [dies_raiseFault, List.length_set, h.units], fun d => ?_⟩
  obtain ⟨xs, e⟩ := h.more d
  exact ⟨_, by rw [getD_dies_raiseFault h.units, e, List.append_assoc]⟩

theorem grown_raiseFaults {b : State} (fs : List (Nat × FaultSite)) (s : State) (h : Grown b s) :
    Grown b (raiseFaults fs s) := by
  induction fs generalizing s with
  | nil => exact h
  | cons x xs ih => exact ih _ (grown_raiseFault _ _ h)

theorem grown_markRow {b s : State} (a : Nat) (h : Grown b s) : Grown b (markRow a s) := by
  unfold markRow
  split
  · split
    · exact h
    · split
      · exact grown_raiseFault _ _ h
      · refine h.of_integrity ?_
        have counted : ∀ u : State, (bump 0x3100 0xC 1 u).integrity = u.integrity := fun u =>
          (sent_bump _ _ _ (Sent.refl u)).integrity
        rw [counted]
        unfold tableWrite
        split <;> rfl
  · exact h

theorem grown_markFaulted {b : State} (fs : List (Nat × FaultSite)) (s : State) (h : Grown b s) :
    Grown b (markFaulted fs s) := by
  unfold markFaulted
  induction fs generalizing s with
  | nil => exact h
  | cons x xs ih =>
    refine ih _ ?_
    dsimp only
    split
    · exact grown_markRow _ h
    · exact h

theorem Raised.of_grown {b s t : State} {d code : Nat} (h : Raised b s d code) (g : Grown s t) : Raised b t d code := by
  obtain ⟨xs, e, r, hr, hc⟩ := h
  obtain ⟨ys, e'⟩ := g.more d
  exact ⟨xs ++ ys, by rw [e', e, List.append_assoc], r, List.mem_append_left _ hr, hc⟩

/-- Each of the faults raised has its record in its die. -/
theorem raised_raiseFaults {fs : List (Nat × FaultSite)} {code : Nat} {site : FaultSite} {b : State} (s : State)
    (g : Grown b s) (h : (code, site) ∈ fs) : Raised b (raiseFaults fs s) site.die.val code := by
  induction fs generalizing s with
  | nil => cases h
  | cons x xs ih =>
    obtain rfl | later := List.mem_cons.mp h
    · obtain ⟨ys, e⟩ := g.more site.die.val
      have here : Raised b (raiseFault code site s) site.die.val code :=
        ⟨ys ++ [makeRecord s code site], by rw [getD_dies_raiseFault g.units, if_pos rfl, e, List.append_assoc],
          makeRecord s code site, by simp, rfl⟩
      exact Raised.of_grown here (grown_raiseFaults xs _ (Grown.refl (grown_raiseFault _ _ g).units))
    · exact ih _ (grown_raiseFault _ _ g) later

theorem raised_applyFx {b s : State} {x : Fx} {code : Nat} {site : FaultSite} (t c : Nat) (g : Grown b s)
    (h : (code, site) ∈ x.faults) : Raised b (applyFx t c x s) site.die.val code := by
  obtain ⟨u, same, e⟩ := applyFx_faults t c x s
  have start : Grown b u := g.of_integrity (by rw [same])
  rw [e]
  exact Raised.of_grown (raised_raiseFaults u start h)
    (grown_markFaulted _ _ (Grown.refl (grown_raiseFaults _ _ start).units))

/-- A fault that asks for no repair is recorded, as the newest of its die. -/
theorem recorded_applyFx {s : State} {x : Fx} {code : Nat} {site : FaultSite} (t c : Nat)
    (units : s.integrity.dies.length = 4) (h : x.faults = [(code, site)])
    (keep : code ≠ 0x2001 ∧ code ≠ 0x2002 ∧ code ≠ 0x2003) : Recorded s (applyFx t c x s) site.die.val code := by
  obtain ⟨u, same, e⟩ := applyFx_faults t c x s
  obtain ⟨k1, k2, k3⟩ := keep
  have unmarked : markFaulted [(code, site)] (raiseFaults [(code, site)] u) = raiseFault code site u := by
    simp [markFaulted, raiseFaults, k1, k2, k3]
  rw [e, h, unmarked]
  exact Recorded.of_integrity (recorded_raiseFault (by rw [same, units]) code site) (by rw [same])

/-! ## Effects that touch no tile and no row -/

/-- An effect that writes no row, queues no write-back, requests no access and stalls no issue. -/
structure QuietFx (x : Fx) : Prop where
  rows   : x.rows = []
  fixes  : x.fixes = []
  asks   : x.asks = []
  stalls : x.stalls = []

theorem aside_applyFx {b s : State} {x : Fx} (t c : Nat) (q : QuietFx x) (h : Aside b s) : Aside b (applyFx t c x s) := by
  obtain ⟨rows, fixes, asks, stalls⟩ := q
  unfold applyFx
  rw [rows, fixes, asks, stalls]
  extract_lets s1 s2 s3 s4 s5 s6 s7
  have h2 : Aside b s2 := aside_foldl _ _ (fun _ _ k => aside_bump _ _ _ k) _ h
  have h3 : Aside b s3 := aside_foldl _ _ (fun _ _ k => aside_countTile _ _ _ _ k) _ h2
  have h4 : Aside b s4 := h3
  have h5 : Aside b s5 := by
    unfold s5
    split
    · exact h4
    · exact aside_ite h4 h4
  have h6 : Aside b s6 := aside_foldl _ _ (fun _ _ k => aside_tileHold _ _ _ _ k) _ h5
  exact aside_markFaulted _ (aside_raiseFaults _ h6)

/-! ## Rows readable by the cycle -/

/-- Rows written one after another change timing only. -/
theorem steadily_writes (t : Nat) (w : Nat × Nat × RowFrame → Nat) (l : List (Nat × Nat × RowFrame)) (s : State) :
    Steadily s (l.foldl (fun s x => rowWrite t (w x) x.2.1 x.2.2 s) s) :=
  steadily_foldl _ _ (fun _ _ k => steadily_rowWrite _ _ _ _ k) _ (Steadily.refl s)

/-- Of the tiles other than `t` settling changes timing only. -/
theorem steady_settle_ne {t u : Nat} (c : Nat) (s : State) (h : u ≠ t) :
    steady (tileAt (settle t c s) u) = steady (tileAt s u) := by
  unfold settle
  dsimp only
  split
  · refine (steadily_writes t (fun x => ((tileAt s t).loadDescs c).cycleOf x.1) _ _ u).trans ?_
    rw [tileAt_tileSet, if_neg h]
  · rw [tileAt_tileSet, if_neg h]

/-- Settling tile `t` stores what it holds back and loads descriptors; the rest of it is as it was, but for timing. -/
theorem steady_settle (t c : Nat) (s : State) : steady (tileAt (settle t c s) t) =
    steady { (tileAt s t).loadDescs c with writes := ((tileAt s t).loadDescs c).writes.filter (c < ·.1) } := by
  unfold settle
  dsimp only
  split
  case isTrue =>
    refine (steadily_writes t (fun x => ((tileAt s t).loadDescs c).cycleOf x.1) _ _ t).trans ?_
    rw [tileAt_tileSet, if_pos rfl]
  case isFalse none =>
    rw [tileAt_tileSet, if_pos rfl]
    have kept : ((tileAt s t).loadDescs c).writes.filter (c < ·.1) = ((tileAt s t).loadDescs c).writes := by
      refine List.filter_eq_self.mpr fun x hx => ?_
      have late : ¬ x.1 ≤ c := fun le => none (List.any_eq_true.mpr ⟨x, hx, decide_eq_true le⟩)
      exact decide_eq_true (by omega)
    rw [kept]

theorem seq_loadDescs (c : Nat) (tile : Tile) : (tile.loadDescs c).seq = tile.seq := by
  unfold Tile.loadDescs
  split <;> rfl

/-- Settling leaves the picks that a tile owes alone. -/
theorem behind_settle (t c : Nat) (s : State) : (tileAt (settle t c s) t).seq.behind = (tileAt s t).seq.behind :=
  (congrArg Steady.behind (steady_settle t c s)).trans (congrArg Sequencer.behind (seq_loadDescs c (tileAt s t)))

theorem behind_advance (c : Nat) (q : Sequencer) : (q.advance c).behind = q.behind := by
  unfold Sequencer.advance
  split <;> rfl

theorem behind_found (t c : Nat) (s : State) : (found t c s).2.seq.behind = (tileAt s t).seq.behind :=
  (behind_advance _ _).trans (behind_settle _ _ s)

/-! ## A slot command -/

/-- On a tile that issues, a slot command sets its tile to what its operation answers and has the effect that this
answers, after the count of the bundle. -/
theorem slotIssue_of_issues {t : TileIx} {c : Nat} {s : State} (f : Nat → State → Tile → Tile × Fx)
    (h : tileIssues s t.val c = true) : ∃ e, slotIssue t c f s =
      applyFx t.val c (Fx.also { Fx.none with events := e }
          (f ((tileAt s t.val).count c) (found t.val c s).1 (found t.val c s).2).2)
        (tileSet t.val (f ((tileAt s t.val).count c) (found t.val c s).1 (found t.val c s).2).1 (found t.val c s).1) := by
  have counted : ∃ e, ((tileAt (found t.val c s).1 t.val).issueAt (found t.val c s).1 t.val c).2 = { Fx.none with events := e } := by
    unfold Tile.issueAt
    dsimp only
    split
    · exact ⟨[], rfl⟩
    · exact ⟨[(0, 1)], rfl⟩
  obtain ⟨e, he⟩ := counted
  refine ⟨e, ?_⟩
  rw [← he, slotIssue, if_pos h]
  rfl

section
variable {t : TileIx} {c : Nat} {s : State} {f : Nat → State → Tile → Tile × Fx} {v : Tile} {x : Fx}

/-- What a slot command leaves alone, where its operation writes no row. -/
theorem slotFrame_slotIssue (h : tileIssues s t.val c = true)
    (rows : (f ((tileAt s t.val).count c) (found t.val c s).1 (found t.val c s).2).2.rows = []) :
    SlotFrame s (slotIssue t c f s) t.val c := by
  refine ⟨(apart_slotIssue t c f s).onlyTiles, ?_⟩
  obtain ⟨e, run⟩ := slotIssue_of_issues f h
  rw [run]
  refine ⟨fun u hu => ?_, fun a => ?_⟩
  · rw [steadily_applyFx, tileAt_tileSet, if_neg hu]
    exact steady_settle_ne _ s hu
  · rw [rowGet_applyFx_ne _ _ _ _ _ (by simp [Fx.also, Fx.none, rows]), rowGet_tileSet]

/-- The tile of a slot command, but for timing. -/
theorem steady_slotIssue (h : tileIssues s t.val c = true) : steady (tileAt (slotIssue t c f s) t.val) =
    steady (f ((tileAt s t.val).count c) (found t.val c s).1 (found t.val c s).2).1 := by
  obtain ⟨e, run⟩ := slotIssue_of_issues f h
  rw [run, steadily_applyFx, tileAt_tileSet, if_pos rfl]

/-- The tile of a slot command whose operation has a quiet effect. -/
theorem tileAt_slotIssue (h : tileIssues s t.val c = true)
    (run : f ((tileAt s t.val).count c) (found t.val c s).1 (found t.val c s).2 = (v, x)) (q : QuietFx x) :
    tileAt (slotIssue t c f s) t.val = v := by
  obtain ⟨e, issue⟩ := slotIssue_of_issues f h
  have quiet : QuietFx (Fx.also { Fx.none with events := e } x) := ⟨q.rows, q.fixes, q.asks, q.stalls⟩
  rw [issue, run, (aside_applyFx _ _ quiet (Aside.refl _)).tileAt, tileAt_tileSet, if_pos rfl]

/-- The landed bits after a slot command whose operation has a quiet effect. -/
theorem landed_slotIssue (h : tileIssues s t.val c = true)
    (run : f ((tileAt s t.val).count c) (found t.val c s).1 (found t.val c s).2 = (v, x)) (q : QuietFx x) :
    (slotIssue t c f s).landed = (found t.val c s).1.landed := by
  obtain ⟨e, issue⟩ := slotIssue_of_issues f h
  have quiet : QuietFx (Fx.also { Fx.none with events := e } x) := ⟨q.rows, q.fixes, q.asks, q.stalls⟩
  rw [issue, run, (aside_applyFx _ _ quiet (Aside.refl _)).landed]
  rfl

theorem units_found (inv : Inv s) : (found t.val c s).1.integrity.dies.length = 4 := by
  rw [found, sameLog_settle]
  exact inv.dies

/-- The one fault of an operation, where it asks for no repair. -/
theorem recorded_slotIssue {code a bundle detail : Nat} (inv : Inv s) (h : tileIssues s t.val c = true)
    (run : f ((tileAt s t.val).count c) (found t.val c s).1 (found t.val c s).2 = (v, x))
    (only : x.faults = [(code, tileSite t.val a bundle detail)]) (keep : code ≠ 0x2001 ∧ code ≠ 0x2002 ∧ code ≠ 0x2003) :
    Recorded s (slotIssue t c f s) (dieOf t.val).val code := by
  obtain ⟨e, issue⟩ := slotIssue_of_issues f h
  rw [issue, run]
  refine Recorded.of_integrity (recorded_applyFx (site := tileSite t.val a bundle detail) _ _ ?_ only keep) ?_
  · exact units_found inv
  · exact congrArg Integrity.dies (sameLog_settle _ _ s)

/-- A fault of an operation among others. -/
theorem raised_slotIssue {code a bundle detail : Nat} (inv : Inv s) (h : tileIssues s t.val c = true)
    (one : (code, tileSite t.val a bundle detail) ∈ (f ((tileAt s t.val).count c) (found t.val c s).1 (found t.val c s).2).2.faults) :
    Raised s (slotIssue t c f s) (dieOf t.val).val code := by
  obtain ⟨e, issue⟩ := slotIssue_of_issues f h
  rw [issue]
  refine raised_applyFx (site := tileSite t.val a bundle detail) _ _ ?_ one
  exact (Grown.refl inv.dies).of_integrity (congrArg Integrity.dies (sameLog_settle _ _ s))

/-- An operation that joins those in flight, nothing else of its tile changed but timing. -/
theorem joined_slotIssue {w : Work} {rows : List Nat} (h : tileIssues s t.val c = true)
    (run : f ((tileAt s t.val).count c) (found t.val c s).1 (found t.val c s).2 = (v, x)) (none : x.rows = [])
    (join : steady v = { steady (found t.val c s).2 with works := (steady (found t.val c s).2).works ++ [(w, 0, rows)] }) :
    Joined s (slotIssue t c f s) t.val c w rows :=
  ⟨(steady_slotIssue h).trans (by rw [run, join]), slotFrame_slotIssue h (by rw [run, none])⟩

end

end Sys2Proof.Laws
end

section
/-! SUPPORT. What the K slot and the T slot do: row transfers, receive windows, loops and schedule picks. -/

namespace Sys2Proof.Machine

open Sys2Proof Sys2Proof.Laws

/-! ## Receive windows -/

theorem windowAct_close (t : Nat) (f : TSlot) (s : State) (tile : Tile) : windowAct false t f s tile =
    ({ tile with acts := tile.acts ++ [{ window := f.doff.toNat % 256, arm := none, bundle := tile.seq.bundle }] },
      Fx.none) := rfl

theorem windowAct_arm_of_ok {t : Nat} {f : TSlot} {s : State} {tile : Tile} {rows : List Nat}
    (h : operandRows s t tile f.sbase.toNat f.soff.toNat (f.count.toNat + 1) [0, 1, 3] 0 = .ok rows) :
    windowAct true t f s tile = ({ tile with acts := tile.acts ++
      [{ window := f.doff.toNat % 256, arm := some (rows.headD 0, f.count.toNat + 1), bundle := tile.seq.bundle }] },
      Fx.none) := by
  simp [windowAct, h]

theorem windowAct_arm_of_error {t : Nat} {f : TSlot} {s : State} {tile : Tile} {a : Nat}
    (h : operandRows s t tile f.sbase.toNat f.soff.toNat (f.count.toNat + 1) [0, 1, 3] 0 = .error a) :
    windowAct true t f s tile = (tile, Fx.fault 0x2004 (tileSite t a tile.seq.bundle (f.doff.toNat % 256))) := by
  simp [windowAct, h]

theorem quiet_none : QuietFx Fx.none := ⟨rfl, rfl, rfl, rfl⟩

theorem quiet_fault (code : Nat) (site : FaultSite) : QuietFx (Fx.fault code site) := ⟨rfl, rfl, rfl, rfl⟩

/-- Settles O13, by the tile and the effect that an arm and a close answer. -/
theorem windowActionsWaitForTheBoundary : Obligations.WindowActionsWaitForTheBoundary := by
  intro t c f s h s1 tile rows
  refine ⟨fun l hl => ?_, fun a inv ha => ?_, ?_⟩
  · have run := windowAct_arm_of_ok hl
    exact ⟨_, rfl, slotFrame_slotIssue h (congrArg (·.2.rows) run), landed_slotIssue h run quiet_none,
      tileAt_slotIssue h run quiet_none⟩
  · have run := windowAct_arm_of_error ha
    exact ⟨_, rfl, slotFrame_slotIssue h (congrArg (·.2.rows) run),
      recorded_slotIssue (code := 0x2004) inv h run rfl (by decide), tileAt_slotIssue h run (quiet_fault _ _)⟩
  · have run := windowAct_close t.val f s1 tile
    exact ⟨_, rfl, slotFrame_slotIssue h (congrArg (·.2.rows) run), landed_slotIssue h run quiet_none,
      tileAt_slotIssue h run quiet_none⟩

/-! ## Row transfers -/

theorem rows_also (x y : Fx) : (x.also y).rows = x.rows ++ y.rows := rfl

theorem rows_fault (code : Nat) (site : FaultSite) : (Fx.fault code site).rows = [] := rfl

/-- The effect of a read writes no row. -/
theorem rows_fetchFx (s : State) (t a bundle : Nat) : (fetchFx s t a bundle).rows = [] := by
  unfold fetchFx
  extract_lets r space site blank fix
  have fixed : fix.rows = [] := by
    unfold fix
    split <;> rfl
  split
  · rw [rows_also, fixed, rows_fault, List.append_nil]
  · split
    · rw [rows_also, fixed, rows_fault, List.append_nil]
    · exact fixed

/-- Nor does the effect of reads. -/
theorem rows_readsFx (s : State) (t bundle : Nat) (await : Bool) (rows : List (Nat × Nat)) :
    (readsFx s t bundle await rows).rows = [] := by
  have each : ∀ x : Fx, x.rows = [] → (rows.foldl (fun x r =>
      if await && !isLanded s r.1 then x else x.also (fetchFx s t r.1 bundle)) x).rows = [] := by
    induction rows with
    | nil => exact fun x h => h
    | cons r rs ih =>
      intro x h
      refine ih _ ?_
      dsimp only
      split
      · exact h
      · rw [rows_also, h, rows_fetchFx, List.append_nil]
  unfold readsFx
  dsimp only
  split
  · exact each _ rfl
  · exact each _ rfl

theorem rows_claimFx (t bundle : Nat) (hit : Option (Nat × Nat)) : (claimFx t bundle hit).rows = [] := by
  cases hit <;> rfl

/-- The reads of an operation are of the rows that it names. -/
theorem addr_readsOf (s : State) (t : Nat) (await : Bool) (rows : List (Nat × Nat)) :
    (readsOf s t await rows).map (·.addr) = rows.map (·.1) := by
  simp [readsOf, Function.comp_def]

/-- An operation joins those in flight: of its tile nothing else changes but timing. -/
theorem steady_join (v tile : Tile) (item : InFlight) (e : steady v = steady tile) :
    steady { v with pipe := v.pipe ++ [item] } =
      { steady tile with works := (steady tile).works ++ [(item.work, item.done, item.reads.map (·.addr))] } := by
  have works : steady { v with pipe := v.pipe ++ [item] } =
      { steady v with works := (steady v).works ++ [(item.work, item.done, item.reads.map (·.addr))] } := by
    simp [steady]
  rw [works, e]

theorem map_fst_mapIdx (g : Nat → Nat) (l : List Nat) : (l.mapIdx fun i a => (a, g i)).map (·.1) = l := by
  refine List.ext_getElem? fun i => ?_
  rw [List.getElem?_map, List.getElem?_mapIdx, Option.map_map]
  exact Option.map_id_apply

theorem transfer_of_ok {op : TOp} {t c : Nat} {f : TSlot} {s : State} {tile : Tile} {src dst : List Nat}
    (hs : operandRows s t tile f.sbase.toNat f.soff.toNat (f.count.toNat + 1) [(moveSpaces op).1] f.column.toNat = .ok src)
    (hd : operandRows s t tile f.dbase.toNat f.doff.toNat (f.count.toNat + 1) [(moveSpaces op).2] f.column.toNat = .ok dst) :
    (transfer op t c f s tile).2.rows = [] ∧ steady (transfer op t c f s tile).1 =
      { steady tile with works := (steady tile).works ++ [(.move op dst, 0, src)] } := by
  unfold transfer
  dsimp only
  rw [hs, hd]
  refine ⟨?_, (steady_join _ tile _ rfl).trans ?_⟩
  · rw [rows_also, rows_readsFx]
    exact rows_claimFx _ _ _
  · rw [addr_readsOf, map_fst_mapIdx]

/-- Where the source rows or the destination rows do not exist, a transfer answers the fault alone. -/
theorem transfer_of_error {op : TOp} {t c : Nat} {f : TSlot} {s : State} {tile : Tile} {a : Nat}
    (h : operandRows s t tile f.sbase.toNat f.soff.toNat (f.count.toNat + 1) [(moveSpaces op).1] f.column.toNat = .error a ∨
      (∃ b, operandRows s t tile f.sbase.toNat f.soff.toNat (f.count.toNat + 1) [(moveSpaces op).1] f.column.toNat = .ok b) ∧
      operandRows s t tile f.dbase.toNat f.doff.toNat (f.count.toNat + 1) [(moveSpaces op).2] f.column.toNat = .error a) :
    transfer op t c f s tile = (tile, Fx.fault 0x2004 (tileSite t a tile.seq.bundle 0)) := by
  unfold transfer
  dsimp only
  obtain e | ⟨⟨b, e⟩, k⟩ := h
  · rw [e]
  · rw [e, k]

/-- Settles O14, by what a transfer answers. -/
theorem rowTransfersJoinThePipe : Obligations.RowTransfersJoinThePipe := by
  intro i t c op f s h hi s1 tile src dst
  refine ⟨fun a b ha hb => ⟨_, exec_moveSlot s hi, ?_⟩, fun a inv he => ⟨_, exec_moveSlot s hi, ?_⟩⟩
  · obtain ⟨rows, join⟩ := transfer_of_ok (c := (tileAt s t).count c) ha hb
    exact joined_slotIssue h rfl rows join
  · have run := transfer_of_error (c := (tileAt s t).count c) he
    exact ⟨slotFrame_slotIssue h (congrArg (·.2.rows) run), recorded_slotIssue (code := 0x2004) inv h run rfl (by decide),
      tileAt_slotIssue h run (quiet_fault _ _)⟩

/-- Settles O15: the row is written to the state with the transfer moved on. -/
theorem transferredRowBecomesReadable : Obligations.TransferredRowBecomesReadable := by
  intro t c s issues due
  refine ⟨fun i p a f w hd => ?_, fun hd => ?_⟩
  · have run : exec (.transferReadable t c) s = .next (rowWrite t.val ((tileAt s t.val).cycleOf w) a f (tileSet t.val
        { tileAt s t.val with pipe := delivered i p.reads.length p (tileAt s t.val).pipe } s)) := by
      refine congrArg Host.Outcome.next ?_
      rw [if_pos issues, transferRow]
      dsimp only
      rw [show firstReady _ _ = _ from hd]
    refine ⟨_, run, (apart_rowWrite _ _ _ _ rfl).onlyTiles, ?_, fun b hb => ?_, ?_, fun u hu => ?_⟩
    · rw [rowGet_rowWrite, if_pos rfl]
    · rw [rowGet_rowWrite, if_neg hb, rowGet_tileSet]
    · rw [steadily_rowWrite _ _ _ _ (Steadily.refl _), tileAt_tileSet, if_pos rfl]
    · rw [steadily_rowWrite _ _ _ _ (Steadily.refl _), tileAt_tileSet, if_neg (Fin.val_ne_of_ne hu)]
  · refine congrArg Host.Outcome.next ?_
    rw [if_pos issues, transferRow]
    rw [show firstReady _ _ = _ from hd]

end Sys2Proof.Machine
end

section
/-! SUPPORT. What the K slot does to the sequencer, and the boundary that comes late to a tile which owes picks. -/

namespace Sys2Proof.Machine

open Sys2Proof Sys2Proof.Laws

/-! ## A boundary of windows -/

theorem steady_unread (rows : List Nat) (now : Nat) (tile : Tile) : steady (tile.unread rows now) = steady tile :=
  steady_pipe _ _ fun _ => ⟨rfl, rfl, reads_addr _ _ fun r => by split <;> rfl⟩

/-- The tile once its waiting arms and closes have taken effect, at the end of its task every window closed. -/
def bounded (ending : Bool) (v : Tile) : Tile :=
  { (if ending then closeWindows (v.acts.foldl applyAct v) else v.acts.foldl applyAct v) with acts := [] }

theorem tiles_foldl_landedSet (rows : List Nat) (s : State) :
    (rows.foldl (fun s a => landedSet a false s) s).tiles = s.tiles ∧
      (rows.foldl (fun s a => landedSet a false s) s).mem = s.mem ∧
      Apart s (rows.foldl (fun s a => landedSet a false s) s) := by
  induction rows generalizing s with
  | nil => exact ⟨rfl, rfl, rfl⟩
  | cons a rs ih => exact ih _

/-- A boundary of windows sets its tile, clears landed bits and may raise faults. -/
theorem windowBoundary_eq (ending : Bool) (t c : Nat) (s : State) :
    ∃ u v, windowBoundary ending t c s = u ∧ steady v = steady (bounded ending (tileAt s t)) ∧
      (∀ w, tileAt u w = tileAt (tileSet t v s) w) ∧ (∀ a, rowGet u a = rowGet s a) ∧ Apart s u := by
  unfold windowBoundary
  extract_lets tile rows tile1 src tile2 s1
  split
  case isTrue none =>
    obtain ⟨empty, open_⟩ : tile.acts = [] ∧ ending = false := by simpa using none
    have same : bounded ending tile = tile := by
      rw [bounded, open_, empty]
      exact congrArg (fun l => { tile with acts := l }) empty.symm
    refine ⟨s, tile, rfl, by rw [same], fun w => ?_, fun _ => rfl, rfl⟩
    rw [tileAt_tileSet]
    split
    case isTrue e => rw [e]
    case isFalse => rfl
  case isFalse =>
    have cleared := tiles_foldl_landedSet rows (tileSet t (tile2.unread rows c) s)
    obtain ⟨tiles, mem, apart⟩ := cleared
    have raised : ∀ fs, Aside s1 (if ending then s1 else raiseFaults fs s1) := fun fs =>
      aside_ite (Aside.refl s1) (aside_raiseFaults fs (Aside.refl s1))
    refine ⟨_, tile2.unread rows c, rfl, steady_unread _ _ _, fun w => ?_, fun a => ?_, ?_⟩
    · rw [(raised _).tileAt, tileAt, tileAt, tiles]
    · rw [(raised _).rowGet, rowGet, rowGet, mem]
      rfl
    · exact (raised _).apart.after apart

theorem apart_of_onlyTiles {s t : State} (h : OnlyTiles s t) : Apart s t := (congrArg apartRest h).trans rfl

/-- Where the tile that owes picks ends its pick, the boundary takes effect on what the command has left. -/
theorem late_slot {t : TileIx} {c : Nat} {s s1 : State} (ending : Bool) (h : tileIssues s t.val c = true)
    (frame : SlotFrame s s1 t.val c) : SlotFrame s (lateBoundary ending t c s s1) t.val c ∧
      steady (tileAt (lateBoundary ending t c s s1) t.val) = steady (if (found t.val c s).2.seq.behind = 0
        then tileAt s1 t.val else bounded ending (tileAt s1 t.val)) := by
  obtain ⟨only, others, rows⟩ := frame
  rw [lateBoundary, h, behind_found]
  by_cases owes : (tileAt s t.val).seq.behind = 0
  · simp only [owes, ne_eq, not_true_eq_false, decide_false, Bool.and_false, Bool.false_eq_true, if_false, if_true]
    exact ⟨⟨only, others, rows⟩, trivial⟩
  · simp only [owes, ne_eq, not_false_eq_true, decide_true, Bool.and_true, if_true, if_false]
    obtain ⟨u, v, run, shape, tiles, mem, apart⟩ := windowBoundary_eq ending t.val c s1
    rw [run]
    refine ⟨⟨?_, fun w hw => ?_, fun a => ?_⟩, ?_⟩
    · exact (apart.after (apart_of_onlyTiles only)).onlyTiles
    · rw [tiles, tileAt_tileSet, if_neg hw, others w hw]
    · rw [mem, rows]
    · rw [tiles, tileAt_tileSet, if_pos rfl, shape]

/-! ## The K slot -/

theorem quiet_claimFx (t bundle : Nat) (hit : Option (Nat × Nat)) : QuietFx (claimFx t bundle hit) := by
  cases hit <;> exact ⟨rfl, rfl, rfl, rfl⟩

/-- A command of the K slot, whose operation changes its tile alone. -/
theorem kSlot {t : TileIx} {c : Nat} {s : State} (f : Tile → Tile) (h : tileIssues s t.val c = true) :
    tileAt (slotIssue t c (fun _ _ tile => (f tile, Fx.none)) s) t.val = f (found t.val c s).2 ∧
      SlotFrame s (slotIssue t c (fun _ _ tile => (f tile, Fx.none)) s) t.val c :=
  ⟨tileAt_slotIssue h rfl quiet_none, slotFrame_slotIssue h rfl⟩

theorem kEndloop_of_left {tile : Tile} {l : LoopFrame} {r : List LoopFrame} (h : tile.seq.loops = l :: r)
    (left : 0 < l.left) : kEndloop tile = { tile with seq := { tile.seq with
      loops := { l with left := l.left - 1 } :: r, bundle := l.body, cycle := tile.seq.cycle + 1 } } := by
  unfold kEndloop
  dsimp only
  rw [h]
  exact if_neg (by omega)

theorem kEndloop_of_last {tile : Tile} {l : LoopFrame} {r : List LoopFrame} (h : tile.seq.loops = l :: r)
    (left : l.left = 0) : kEndloop tile = { tile with seq := { tile.seq with loops := r } } := by
  unfold kEndloop
  dsimp only
  rw [h]
  exact if_pos left

theorem kEndloop_of_none {tile : Tile} (h : tile.seq.loops = []) : kEndloop tile = tile := by
  unfold kEndloop
  dsimp only
  rw [h]

theorem kSelect_of_set {flag len : Nat} {tile : Tile} (h : tile.flags.getLsbD flag = true) : kSelect flag len tile =
    { tile with seq := { tile.seq with arm := some (tile.seq.bundle + (len + 1), len + 1) } } := if_pos h

theorem kSelect_of_clear {flag len : Nat} {tile : Tile} (h : tile.flags.getLsbD flag = false) : kSelect flag len tile =
    { tile with seq := { tile.seq with bundle := tile.seq.bundle + (len + 1) + 1, cycle := tile.seq.cycle + 1 } } :=
  if_neg (by rw [h]; decide)

theorem kPickwait_of_none {tile : Tile} (h : tile.seq.behind = 0) :
    kPickwait tile = { tile with seq := { tile.seq with waiting := true } } := if_pos h

theorem kPickwait_of_behind {tile : Tile} (h : 0 < tile.seq.behind) : kPickwait tile =
    { tile with seq := { tile.seq with
        waiting := false, cycle := tile.seq.cycle + 1, bundle := (bundleOn tile.seq 1).1, arm := (bundleOn tile.seq 1).2
        pickStart := tile.seq.cycle + 1, stall := 0, stretches := 0, behind := tile.seq.behind - 1 } } :=
  if_neg (by omega)

theorem bounded_true (v : Tile) : bounded true v = { closeWindows (v.acts.foldl applyAct v) with acts := [] } := rfl

theorem bounded_false (v : Tile) : bounded false v = { v.acts.foldl applyAct v with acts := [] } := rfl

/-- What a tile claims takes no part in its waiting arms and closes. -/
theorem foldl_applyAct_claims (l : List WinAct) (v : Tile) (k : List (Nat × Nat × Nat)) :
    l.foldl applyAct { v with claims := k } = { l.foldl applyAct v with claims := k } := by
  induction l generalizing v with
  | nil => rfl
  | cons a as ih => exact ih (applyAct v a)

/-- The tile after END, with no next schedule. -/
theorem kEnd_of_none {t : Nat} {tile : Tile} (h : tile.seq.next = none) : kEnd t tile =
    ({ tile with seq := { tile.seq with waiting := true, running := false, behind := 0, next := none } }, Fx.none) := by
  unfold kEnd
  dsimp only
  rw [h]

/-- The tile on which a task begins at END. -/
def begunAt (t k : Nat) (tile : Tile) : Tile :=
  { tile with
    seq := { Sequencer.reset with
      running := true, sched := k, cycle := tile.seq.cycle + 1, pickStart := tile.seq.cycle + 1
      begun := some (tile.seq.cycle + 1), behind := tile.seq.behind - 1 }
    base := tile.shBase, params := tile.shParams, exchange := true, drawWait := none, draws := 0
    bounds := List.replicate 8 127
    writes := tile.writes ++ [(tile.seq.cycle + 1 + 1, rowAddr t 0 4095,
      freshFrame (slice tile.shParams 0 64 ++ zeros 448) 0)] }

theorem kEnd_of_next {t k : Nat} {tile : Tile} (h : tile.seq.next = some k) :
    ∃ l x, kEnd t tile = ({ begunAt t k tile with claims := l }, x) ∧ QuietFx x := by
  unfold kEnd
  dsimp only
  rw [h]
  exact ⟨_, _, rfl, quiet_claimFx _ _ _⟩

/-- END on a tile that issues: the boundary comes to what its operation leaves, where the tile owes picks. -/
theorem end_slot {t : TileIx} {c : Nat} {s : State} {v : Tile} {x : Fx} (h : tileIssues s t.val c = true)
    (run : kEnd t.val (found t.val c s).2 = (v, x)) (q : QuietFx x) (acts : v.acts = (found t.val c s).2.acts) :
    ∃ s', exec (.endSchedule t c) s = .next s' ∧ SlotFrame s s' t.val c ∧
      steady (tileAt s' t.val) = steady (if (found t.val c s).2.seq.behind = 0 then v
        else { closeWindows ((found t.val c s).2.acts.foldl applyAct v) with acts := [] }) := by
  have frame : SlotFrame s (slotIssue t c (fun _ _ tile => kEnd t.val tile) s) t.val c :=
    slotFrame_slotIssue h (by rw [run]; exact q.rows)
  obtain ⟨late, shape⟩ := late_slot true h frame
  refine ⟨_, rfl, late, shape.trans ?_⟩
  rw [tileAt_slotIssue h run q, bounded_true, acts]

/-- PICKWAIT on a tile that issues and owes picks. -/
theorem pickwait_slot {t : TileIx} {c : Nat} {s : State} {v : Tile} (h : tileIssues s t.val c = true)
    (owes : (found t.val c s).2.seq.behind ≠ 0) (run : kPickwait (found t.val c s).2 = v)
    (acts : v.acts = (found t.val c s).2.acts) : ∃ s', exec (.pickwait t c) s = .next s' ∧ SlotFrame s s' t.val c ∧
      steady (tileAt s' t.val) = steady { (found t.val c s).2.acts.foldl applyAct v with acts := [] } := by
  obtain ⟨tile, frame⟩ := kSlot kPickwait h
  obtain ⟨late, shape⟩ := late_slot false h frame
  refine ⟨_, rfl, late, shape.trans ?_⟩
  rw [if_neg owes, tile, run, bounded_false, acts]

/-- Settles O12, by what each command of the K slot does to its tile. -/
theorem controlSlotSteersTheSequencer : Obligations.ControlSlotSteersTheSequencer := by
  intro t c d n flag len s h tile q goes ends idle
  have steers : ∀ {i : Instr} {f : Tile → Tile} {v : Tile},
      exec i s = .next (slotIssue t c (fun _ _ tile => (f tile, Fx.none)) s) → f tile = v → goes i v :=
    fun run e => ⟨_, run, (kSlot _ h).1.trans e, (kSlot _ h).2⟩
  refine ⟨steers rfl rfl, fun l r e left => steers rfl (kEndloop_of_left e left),
    fun l r e left => steers rfl (kEndloop_of_last e left), fun e => steers rfl (kEndloop_of_none e),
    fun e => steers rfl (kSelect_of_set e), fun e => steers rfl (kSelect_of_clear e), fun e => ?_, fun e => ?_,
    fun e => ?_, fun k e => ?_⟩
  · obtain ⟨run, frame⟩ := kSlot kPickwait h
    have waits : lateBoundary false t c s (slotIssue t c (fun _ _ tile => (kPickwait tile, Fx.none)) s) =
        slotIssue t c (fun _ _ tile => (kPickwait tile, Fx.none)) s := by
      have owes : (tileAt s t.val).seq.behind = 0 := (behind_found t.val c s).symm.trans e
      simp [lateBoundary, owes]
    refine ⟨_, congrArg Host.Outcome.next waits, run.trans (kPickwait_of_none e), frame⟩
  · exact pickwait_slot h (Nat.ne_of_gt e) (kPickwait_of_behind e) rfl
  · exact end_slot h (kEnd_of_none e) quiet_none rfl
  · obtain ⟨l, x, run, quiet⟩ := kEnd_of_next (t := t.val) e
    obtain ⟨s', done, frame, shape⟩ := end_slot h run quiet rfl
    refine ⟨s', done, frame, shape.trans ?_⟩
    rw [foldl_applyAct_claims]
    split <;> rfl

end Sys2Proof.Machine
end

section
/-! SUPPORT. What the operations of the V slot leave as they issue, and what their results write. -/

namespace Sys2Proof.Machine

open Sys2Proof Sys2Proof.Laws

/-! ## Draws -/

theorem rows_setup (s : State) (t : Nat) (tile : Tile) : (tile.setup s t).2.rows = [] := by
  unfold Tile.setup
  split <;> rfl

theorem rows_laneFaults (t bundle : Nat) (ls : List Nat) : (laneFaults t bundle ls).rows = [] := by
  have each : ∀ x : Fx, x.rows = [] → (ls.foldl (fun x l => x.also (laneFault t bundle l)) x).rows = [] := by
    induction ls with
    | nil => exact fun x h => h
    | cons l ls ih => exact fun x h => ih _ (by rw [rows_also, h]; rfl)
  exact each _ rfl

/-- A tile that draws: what operations are in flight and what it holds back are as before, and so are its exponent bounds
and its count of operations. -/
structure Drew (tile v : Tile) : Prop where
  pipe : v.pipe = tile.pipe
  bounds : v.bounds = tile.bounds
  accs : v.accs = tile.accs
  ops : v.ops = tile.ops

/-- A tile whose shadow set is set up, or is not yet. -/
theorem setup_of_ready {s : State} {t : Nat} {tile : Tile} (h : tile.shReady = true) : tile.setup s t = (tile, Fx.none) :=
  if_pos h

theorem setup_of_unready {s : State} {t : Nat} {tile : Tile} (h : tile.shReady = false) : tile.setup s t =
    ({ tile with shLanes := seedLanes s t tile.shSeed, shReady := true }, Fx.bump 0x3300 4 1) :=
  if_neg (by rw [h]; decide)

/-- Setting up changes the shadow set alone; the lanes themselves stay folded here. -/
theorem setup_form (s : State) (t : Nat) (tile : Tile) :
    ∃ l b, (tile.setup s t).1 = { tile with shLanes := l, shReady := b } := by
  cases h : tile.shReady with
  | true =>
    rw [setup_of_ready h]
    exact ⟨tile.shLanes, tile.shReady, rfl⟩
  | false =>
    rw [setup_of_unready h]
    exact ⟨_, _, rfl⟩

theorem drew_setup (s : State) (t : Nat) (tile : Tile) : Drew tile (tile.setup s t).1 ∧ (tile.setup s t).1.draws = tile.draws := by
  obtain ⟨l, b, e⟩ := setup_form s t tile
  rw [e]
  exact ⟨⟨rfl, rfl, rfl, rfl⟩, rfl⟩

theorem drawn_zero (s : State) (t c bundle : Nat) (tile : Tile) : tile.drawn s t c 0 bundle = ([], tile, Fx.none) := by
  rw [Tile.drawn, if_pos rfl]

/-- The draw counter advances by one for every four fields. -/
theorem drawn_spec (s : State) (t c n bundle : Nat) (tile : Tile) :
    Drew tile (tile.drawn s t c n bundle).2.1 ∧ (tile.drawn s t c n bundle).2.1.draws = tile.draws + (n + 3) / 4 ∧
      (tile.drawn s t c n bundle).2.2.rows = [] := by
  by_cases none : n = 0
  · rw [none, drawn_zero]
    exact ⟨⟨rfl, rfl, rfl, rfl⟩, rfl, rfl⟩
  · obtain ⟨⟨pipe, bounds, accs, ops⟩, draws⟩ := drew_setup s t tile
    unfold Tile.drawn
    rw [if_neg none]
    dsimp only
    cases tile.exchange with
    | true =>
      simp only [if_true]
      exact ⟨⟨pipe, bounds, accs, ops⟩, congrArg (· + (n + 3) / 4) draws, by rw [rows_also, rows_setup]; rfl⟩
    | false =>
      simp only [Bool.false_eq_true, if_false]
      exact ⟨⟨rfl, rfl, rfl, rfl⟩, trivial, by rw [rows_also, rows_also, rows_laneFaults]; rfl⟩

/-! ## Issue -/

/-- An operation of form E or C joins those in flight. -/
theorem issueE_spec (v : VSlot) (t c : Nat) (s : State) (tile : Tile) :
    (issueE v t c s tile).2.rows = [] ∧ steady (issueE v t c s tile).1 =
      { steady (tile.drawn s t c (vFields v) tile.seq.bundle).2.1 with works := (steady tile).works ++
        [(.v v (vKept v tile.bounds (tile.drawn s t c (vFields v) tile.seq.bundle).1), 0, (vReads t c v).map (·.1))] } := by
  obtain ⟨⟨pipe, -, -, -⟩, -, rows⟩ := drawn_spec s t c (vFields v) tile.seq.bundle tile
  refine ⟨?_, (steady_join _ (tile.drawn s t c (vFields v) tile.seq.bundle).2.1 _ rfl).trans ?_⟩
  · rw [issueE]
    dsimp only
    rw [rows_also, rows_also, rows_readsFx, rows]
    exact rows_claimFx _ _ _
  · rw [addr_readsOf]
    simp only [steady, pipe]

theorem vKept_of_vectorSlot {i : Instr} {t : TileIx} {c : Nat} {v : VSlot} (h : vectorSlot i = some (t, c, v))
    (bounds : List Int) (us : List Nat) : vKept v bounds us = us := by
  cases i <;> cases h <;> rfl

theorem vIssue_of_legal_e {op : EOp} {f : FormE} (h : legalV (.e op f) = true) (t c : Nat) (s : State) (tile : Tile) :
    vIssue (.e op f) t c s tile = issueE (.e op f) t c s tile := if_pos h

theorem vIssue_of_legal_cvt {f : FormC} (h : legalV (.cvt f) = true) (t c : Nat) (s : State) (tile : Tile) :
    vIssue (.cvt f) t c s tile = issueE (.cvt f) t c s tile := if_pos h

/-- Settles O16, by what an operation of form E or C leaves as it issues. -/
theorem vectorCommandsJoinThePipe : Obligations.VectorCommandsJoinThePipe := by
  intro i t c v s h hi legal form s1 tile l drew
  have run : vIssue v t.val l s1 tile = issueE v t.val l s1 tile := by
    obtain ⟨op, f, rfl⟩ | ⟨f, rfl⟩ := form
    · exact vIssue_of_legal_e legal _ _ _ _
    · exact vIssue_of_legal_cvt legal _ _ _ _
  obtain ⟨rows, join⟩ := issueE_spec v t.val l s1 tile
  rw [vKept_of_vectorSlot hi] at join
  have tileEq : steady (tileAt (vSlot v t c s) t.val) = { steady drew.2.1 with
      works := (steady tile).works ++ [(.v v drew.1, 0, (vReads t.val l v).map (·.1))] } :=
    (steady_slotIssue h).trans ((congrArg (fun r : Tile × Fx => steady r.1) run).trans join)
  obtain ⟨-, draws, -⟩ := drawn_spec s1 t.val l (vFields v) tile.seq.bundle tile
  refine ⟨_, exec_vectorSlot s hi, slotFrame_slotIssue h ((congrArg (fun r : Tile × Fx => r.2.rows) run).trans rows), tileEq,
    (congrArg Steady.draws tileEq).trans draws, fun none => ?_⟩
  have still : drew.2.1 = tile := by
    show (tile.drawn s1 t.val l (vFields v) tile.seq.bundle).2.1 = tile
    rw [none, drawn_zero]
  exact ⟨(congrArg Steady.lanes tileEq).trans (congrArg Tile.lanes still),
    (congrArg Steady.shLanes tileEq).trans (congrArg Tile.shLanes still)⟩

/-! ## Row moves -/

/-- The register rows that a row move of the V slot names. -/
def formRegs (t : Nat) (reg first n : Nat) : List Nat := (List.range n).map fun i => rowAddr t 3 (32 * reg + first + i)

theorem issueL_of_ok {t c : Nat} {f : FormL} {s : State} {tile : Tile} {bob : List Nat} (str : Bool)
    (h : operandRows s t tile f.base.toNat f.off.toNat (f.rows.toNat + 1) [0] 0 = .ok bob) :
    (issueL str t c f s tile).2.rows = [] ∧ steady (issueL str t c f s tile).1 = { steady tile with
      works := (steady tile).works ++ [(.v (if str then .str f else .ldr f)
        (if str then bob else formRegs t f.reg.toNat f.first.toNat (f.rows.toNat + 1)), 0,
        if str then formRegs t f.reg.toNat f.first.toNat (f.rows.toNat + 1) else bob)] } := by
  unfold issueL
  dsimp only
  rw [h]
  refine ⟨?_, (steady_join _ tile _ rfl).trans ?_⟩
  · rw [rows_also, rows_readsFx]
    exact rows_claimFx _ _ _
  · rw [addr_readsOf, map_fst_mapIdx]
    rfl

theorem issueL_of_error {t c : Nat} {f : FormL} {s : State} {tile : Tile} {a : Nat} (str : Bool)
    (h : operandRows s t tile f.base.toNat f.off.toNat (f.rows.toNat + 1) [0] 0 = .error a) :
    issueL str t c f s tile = (tile, Fx.fault 0x2004 (tileSite t a tile.seq.bundle 0)) := by
  unfold issueL
  dsimp only
  rw [h]

theorem vIssue_ldr {f : FormL} (h : legalV (.ldr f) = true) (t c : Nat) (s : State) (tile : Tile) :
    vIssue (.ldr f) t c s tile = issueL false t c f s tile := if_pos h

theorem vIssue_str {f : FormL} (h : legalV (.ldr f) = true) (t c : Nat) (s : State) (tile : Tile) :
    vIssue (.str f) t c s tile = issueL true t c f s tile := if_pos h

/-- Settles O17, by what a row move of the V slot leaves as it issues. -/
theorem rowMovesOfTheVectorSlotJoinThePipe : Obligations.RowMovesOfTheVectorSlotJoinThePipe := by
  intro t c f s h legal s1 tile rows regs
  refine ⟨fun bob hb => ?_, fun bob hb => ?_, fun a inv ha i hi => ?_⟩
  · obtain ⟨none, join⟩ := issueL_of_ok (c := (tileAt s t).count c) false hb
    exact ⟨_, rfl, joined_slotIssue h (vIssue_ldr legal _ _ _ _) none join⟩
  · obtain ⟨none, join⟩ := issueL_of_ok (c := (tileAt s t).count c) true hb
    exact ⟨_, rfl, joined_slotIssue h (vIssue_str legal _ _ _ _) none join⟩
  · have fails : ∀ v, (∀ l, vIssue v t.val l s1 tile = (tile, Fx.fault 0x2004 (tileSite t.val a tile.seq.bundle 0))) →
        SlotFrame s (vSlot v t c s) t.val c ∧ Recorded s (vSlot v t c s) (dieOf t).val 0x2004 ∧
          tileAt (vSlot v t c s) t = tile := fun v run =>
      ⟨slotFrame_slotIssue h (congrArg (fun r : Tile × Fx => r.2.rows) (run _)),
        recorded_slotIssue (code := 0x2004) inv h (run _) rfl (by decide), tileAt_slotIssue h (run _) (quiet_fault _ _)⟩
    obtain rfl | rfl := hi
    · exact ⟨_, rfl, fails _ fun l => (vIssue_ldr legal _ _ _ _).trans (issueL_of_error false ha)⟩
    · exact ⟨_, rfl, fails _ fun l => (vIssue_str legal _ _ _ _).trans (issueL_of_error true ha)⟩

end Sys2Proof.Machine
end

section
/-! SUPPORT. Gather and scatter as they issue, and the results of the V slot. -/

namespace Sys2Proof.Machine

open Sys2Proof Sys2Proof.Laws

/-! ## Gather and scatter -/

theorem rows_also_of {x y : Fx} (hx : x.rows = []) (hy : y.rows = []) : (x.also y).rows = [] := by
  rw [rows_also, hx, hy, List.append_nil]

/-- The operation of a GATH or of a SCAT. -/
def moveG (scat : Bool) (f : FormG) : VSlot := if scat then .scat f else .gath f

theorem vIssue_moveG {f : FormG} (scat : Bool) (h : legalV (.gath f) = true) (t c : Nat) (s : State) (tile : Tile) :
    vIssue (moveG scat f) t c s tile = issueG scat t c f s tile := by
  cases scat <;> exact if_pos h

section
variable {t c : Nat} {f : FormG} {s : State} {tile : Tile} {x a : Nat} {rows : List Nat} (scat : Bool)

/-- What a GATH or SCAT answers whose index row or target base does not exist. -/
theorem issueG_of_bad (h : (∃ a, operandRows s t tile f.ibase.toNat f.ioff.toNat 1 [0] 0 = .error a) ∨
      2 ≤ addrSpace (baseWord s t tile f.tbase.toNat)) :
    ∃ a, issueG scat t c f s tile = (tile, Fx.fault 0x2004 (tileSite t a tile.seq.bundle 0)) := by
  unfold issueG
  dsimp only
  cases index : operandRows s t tile f.ibase.toNat f.ioff.toNat 1 [0] 0 with
  | error a => exact ⟨a, rfl⟩
  | ok irows =>
    obtain ⟨a, e⟩ | far := h
    · rw [index] at e
      cases e
    · exact ⟨_, if_pos far⟩

theorem readsOf_single (await : Bool) : readsOf s t await [(x, c)] = [{ addr := x, due := c, slip := 0, await := await
                                                                        val := if await && !isLanded s x then none else some (readFrame s t x c) }] := rfl

/-- One that awaits its index row waits with that row. -/
theorem issueG_of_awaits (index : operandRows s t tile f.ibase.toNat f.ioff.toNat 1 [0] 0 = .ok [x])
    (near : addrSpace (baseWord s t tile f.tbase.toNat) < 2) (await : f.await = true) (far : isLanded s x = false) :
    (issueG scat t c f s tile).2.rows = [] ∧ steady (issueG scat t c f s tile).1 = { steady tile with
      works := (steady tile).works ++ [(.v (moveG scat f) [], 0, [x])] } := by
  unfold issueG
  dsimp only
  rw [index]
  dsimp only
  rw [if_neg (by omega), List.headD_cons, readsOf_single, await, far]
  exact ⟨rows_also_of (rows_readsFx _ _ _ _ _) (rows_claimFx _ _ _), steady_join _ tile _ rfl⟩

theorem indexRows_of_base {v : Tile} (base : v.base = tile.base) (d : Bytes) :
    indexRows s t v f d = indexRows s t tile f d := by
  have word : baseWord s t v f.tbase.toNat = baseWord s t tile f.tbase.toNat := by
    rw [baseWord, baseWord, base]
  unfold indexRows indexRow
  rw [word]

/-- The state of a GATH or SCAT that has read its index row. -/
theorem issueG_of_read (index : operandRows s t tile f.ibase.toNat f.ioff.toNat 1 [0] 0 = .ok [x])
    (near : addrSpace (baseWord s t tile f.tbase.toNat) < 2) (read : f.await = false ∨ isLanded s x = true) :
    ∃ v p fx, steady v = steady tile ∧ v.base = tile.base ∧ p.reads.map (·.addr) = [x] ∧ p.done = 0 ∧ fx.rows = [] ∧
      issueG scat t c f s tile =
        (let e := expandG s t v p scat f (readFrame s t x c).data
         ({ e.1 with pipe := e.1.pipe ++ e.2.1.toList }, Fx.also fx e.2.2)) := by
  have found : (f.await && !isLanded s x) = false := by
    obtain e | e := read <;> simp [e]
  unfold issueG
  dsimp only
  rw [index]
  dsimp only
  rw [if_neg (by omega), List.headD_cons, readsOf_single, found]
  refine ⟨_, _, _, ?_, ?_, ?_, ?_, ?_, rfl⟩
  · rfl
  · rfl
  · rfl
  · rfl
  · exact rows_also_of (rows_readsFx _ _ _ _ _) (rows_claimFx _ _ _)

theorem expandG_of_error {v : Tile} {p : InFlight} {d : Bytes} (h : indexRows s t v f d = .error a) :
    expandG s t v p scat f d = (v, none, Fx.fault 0x2004 (tileSite t a p.bundle 0)) := by
  unfold expandG
  rw [h]

theorem expandG_of_ok {v : Tile} {p : InFlight} {d : Bytes} (h : indexRows s t v f d = .ok rows) :
    ∃ q fx, (expandG s t v p scat f d).2 = (some q, fx) ∧ fx.rows = [] ∧ q.done = p.done ∧
      q.work = .v (moveG scat f) (if scat then rows else formRegs t f.reg.toNat f.first.toNat (f.rows.toNat + 1)) ∧
      q.reads.map (·.addr) = p.reads.map (·.addr) ++
        (if scat then formRegs t f.reg.toNat f.first.toNat (f.rows.toNat + 1) else rows) ∧
      steady (expandG s t v p scat f d).1 = steady v := by
  unfold expandG
  rw [h]
  refine ⟨_, _, rfl, ?_, rfl, ?_, ?_, rfl⟩
  · exact rows_also_of (rows_readsFx _ _ _ _ _) (rows_claimFx _ _ _)
  · cases scat <;> rfl
  · rw [List.map_append, addr_readsOf]
    cases scat <;> exact congrArg _ (map_fst_mapIdx _ _)

/-- An index that names no row. -/
theorem issueG_of_error (index : operandRows s t tile f.ibase.toNat f.ioff.toNat 1 [0] 0 = .ok [x])
    (near : addrSpace (baseWord s t tile f.tbase.toNat) < 2) (read : f.await = false ∨ isLanded s x = true)
    (bad : indexRows s t tile f (readFrame s t x c).data = .error a) :
    (issueG scat t c f s tile).2.rows = [] ∧ steady (issueG scat t c f s tile).1 = steady tile ∧
      ∃ b, (0x2004, tileSite t a b 0) ∈ (issueG scat t c f s tile).2.faults := by
  obtain ⟨v, p, fx, same, base, -, -, rows, run⟩ := issueG_of_read (c := c) scat index near read
  rw [← indexRows_of_base base] at bad
  rw [run, expandG_of_error scat bad]
  refine ⟨?_, ?_, p.bundle, List.mem_append_right _ (List.mem_singleton.mpr rfl)⟩
  · exact rows_also_of rows (rows_fault _ _)
  · refine Eq.trans ?_ same
    exact congrArg (fun l => steady { v with pipe := l }) (List.append_nil _)

/-- Indices that name rows. -/
theorem issueG_of_ok (index : operandRows s t tile f.ibase.toNat f.ioff.toNat 1 [0] 0 = .ok [x])
    (near : addrSpace (baseWord s t tile f.tbase.toNat) < 2) (read : f.await = false ∨ isLanded s x = true)
    (good : indexRows s t tile f (readFrame s t x c).data = .ok rows) :
    (issueG scat t c f s tile).2.rows = [] ∧ steady (issueG scat t c f s tile).1 = { steady tile with
      works := (steady tile).works ++ [(.v (moveG scat f)
        (if scat then rows else formRegs t f.reg.toNat f.first.toNat (f.rows.toNat + 1)), 0,
        x :: if scat then formRegs t f.reg.toNat f.first.toNat (f.rows.toNat + 1) else rows)] } := by
  obtain ⟨v, p, fx, same, base, addr, done, none, run⟩ := issueG_of_read (c := c) scat index near read
  rw [← indexRows_of_base base] at good
  obtain ⟨q, gx, answer, silent, qdone, work, reads, steady_v⟩ := expandG_of_ok (p := p) scat good
  rw [run]
  dsimp only
  rw [answer]
  refine ⟨?_, (steady_join _ tile q (steady_v.trans same)).trans ?_⟩
  · exact rows_also_of none silent
  · rw [work, qdone, done, reads, addr]
    rfl

end

/-- Settles O18, by what a GATH and a SCAT leave as they issue. -/
theorem gatherAndScatterFollowTheirIndexRow : Obligations.GatherAndScatterFollowTheirIndexRow := by
  intro t c f s h legal s1 tile l regs index target fails
  have slot : ∀ i, i = .gath t c f ∨ i = .scat t c f → ∃ scat, exec i s = .next (vSlot (moveG scat f) t c s) := by
    rintro i (rfl | rfl)
    · exact ⟨false, rfl⟩
    · exact ⟨true, rfl⟩
  have run : ∀ scat, vIssue (moveG scat f) t.val l s1 tile = issueG scat t.val l f s1 tile := fun scat =>
    vIssue_moveG scat legal _ _ _ _
  have failing : (∀ scat, (issueG scat t.val l f s1 tile).2.rows = [] ∧
      steady (issueG scat t.val l f s1 tile).1 = steady tile ∧
      ∃ a b, (0x2004, tileSite t a b 0) ∈ (issueG scat t.val l f s1 tile).2.faults) → fails := by
    intro each inv i hi
    obtain ⟨scat, e⟩ := slot i hi
    obtain ⟨rows, same, a, b, fault⟩ := each scat
    rw [← run] at rows same fault
    exact ⟨_, e, slotFrame_slotIssue h rows, raised_slotIssue inv h fault, (steady_slotIssue h).trans same⟩
  have joins : ∀ scat {w reads}, (issueG scat t.val l f s1 tile).2.rows = [] ∧
      steady (issueG scat t.val l f s1 tile).1 = { steady tile with works := (steady tile).works ++ [(w, 0, reads)] } →
      Joined s (vSlot (moveG scat f) t c s) t.val c w reads :=
    fun scat _ _ k => joined_slotIssue h (run scat) k.1 k.2
  refine ⟨fun bad => failing fun scat => ?_, fun x hx near => ⟨fun ⟨await, far⟩ => ?_, ?_⟩⟩
  · obtain ⟨a, e⟩ := issueG_of_bad (c := l) scat bad
    rw [e]
    exact ⟨rfl, rfl, a, tile.seq.bundle, List.mem_singleton.mpr rfl⟩
  · exact ⟨⟨_, rfl, joins false (issueG_of_awaits false hx near await far)⟩,
      ⟨_, rfl, joins true (issueG_of_awaits true hx near await far)⟩⟩
  · intro read named
    refine ⟨fun ⟨a, ha⟩ => failing fun scat => ?_, fun rows good => ?_⟩
    · obtain ⟨rows, same, b, fault⟩ := issueG_of_error scat hx near read ha
      exact ⟨rows, same, a, b, fault⟩
    exact ⟨⟨_, rfl, joins false (issueG_of_ok false hx near read good)⟩,
      ⟨_, rfl, joins true (issueG_of_ok true hx near read good)⟩⟩

end Sys2Proof.Machine
end

section
/-! SUPPORT. What the results of the V slot write: their rows in order, one flag. -/

namespace Sys2Proof.Machine

open Sys2Proof Sys2Proof.Laws

/-! ## Rows written one after another -/

theorem slice_slice (d : Bytes) (n : Nat) : slice (slice d 0 n) 0 n = slice d 0 n := slice_self _ _ (slice_length _ _ _)

/-- Of whole rows written one after another each row holds the last that names it. -/
theorem rowGet_rowWrites (t w : Nat) (l : List (Nat × RowFrame)) (s : State) (a : Nat)
    (whole : ∀ x ∈ l, slice x.2.data 0 512 = x.2.data) :
    rowGet (l.foldl (fun s x => rowWrite t w x.1 x.2 s) s) a =
      ((l.reverse.find? (·.1 == a)).map (·.2)).getD (rowGet s a) := by
  induction l generalizing s with
  | nil => rfl
  | cons x xs ih =>
    have fits := whole x (by simp)
    rw [List.foldl_cons, ih _ fun y hy => whole y (by simp [hy]), rowGet_rowWrite, List.reverse_cons, List.find?_append]
    cases xs.reverse.find? (·.1 == a) with
    | some y => rw [Option.some_or, Option.map_some, Option.getD_some, Option.getD_some]
    | none =>
      rw [List.find?_cons]
      by_cases here : a = x.1
      · rw [if_pos here, here, beq_self_eq_true, fits]
        rfl
      · have other : (x.1 == a) = false := by simpa using Ne.symm here
        rw [if_neg here, other]
        rfl

/-- Frames as a unit writes them are whole. -/
theorem whole_freshFrame (d : Bytes) (tag : BitVec 16) :
    slice (freshFrame d tag).data 0 512 = (freshFrame d tag).data := slice_slice d 512

theorem whole_regFrames (s : State) (t : Nat) (p : Nat × Nat × Nat × List Nat) :
    ∀ x ∈ regFrames s t p, slice x.2.data 0 512 = x.2.data := by
  intro x hx
  unfold regFrames at hx
  extract_lets w es lo old es1 bs hi at hx
  split at hx
  case isTrue => cases hx
  case isFalse =>
    obtain ⟨i, -, rfl⟩ := List.mem_map.mp hx
    exact whole_freshFrame _ _

/-! ## Results -/

/-- The data of the row that delivery `p.done` of a row move has read. -/
def movedData (v : VSlot) (p : InFlight) : Bytes :=
  ((p.reads[if v matches .gath _ | .scat _ then p.done + 1 else p.done]?.bind (·.val)).map (·.data)).getD []

/-- The rows of a result: of an operation of form E or C the elements in their registers, of a row move the row moved. -/
def resultRows (s : State) (t : Nat) (v : VSlot) (us : List Nat) (p : InFlight) : List (Nat × RowFrame) :=
  if (v matches .e _ _) ∨ (v matches .cvt _) then (vOut v us p.reads p.done).puts.flatMap (regFrames s t)
  else [(us.getD p.done 0, freshFrame (movedData v p) 0)]

theorem rows_vDeliver (s : State) (t : Nat) (tile : Tile) (p : InFlight) (v : VSlot) (us : List Nat) :
    (vDeliver s t tile p v us).1 = resultRows s t v us p := by
  cases v <;> rfl

theorem whole_resultRows (s : State) (t : Nat) (v : VSlot) (us : List Nat) (p : InFlight) :
    ∀ x ∈ resultRows s t v us p, slice x.2.data 0 512 = x.2.data := by
  intro x hx
  cases v with
  | e op f | cvt f =>
    obtain ⟨q, -, k⟩ := List.mem_flatMap.mp (show x ∈ (vOut _ us p.reads p.done).puts.flatMap (regFrames s t) from hx)
    exact whole_regFrames s t q x k
  | ldr f | str f | gath f | scat f =>
    obtain rfl := List.mem_singleton.mp (show x ∈ [(us.getD p.done 0, freshFrame (movedData _ p) 0)] from hx)
    exact whole_freshFrame _ _

/-- The effect of a result writes no row beyond these. -/
theorem rows_fx_vDeliver (s : State) (t : Nat) (tile : Tile) (p : InFlight) (v : VSlot) (us : List Nat) :
    (vDeliver s t tile p v us).2.2.rows = [] := by
  cases v with
  | e op f | cvt f =>
    unfold vDeliver
    dsimp only
    split <;> rfl
  | ldr f | str f | gath f | scat f => rfl

/-- Flags with one set or cleared. -/
def withFlag (fl : BitVec 32) : Option (Nat × Bool) → BitVec 32
  | none => fl
  | some (i, b) => if b then fl ||| (1#32 <<< i) else fl &&& ~~~(1#32 <<< i)

theorem tile_vDeliver (s : State) (t : Nat) (tile : Tile) (p : InFlight) (v : VSlot) (us : List Nat) :
    (vDeliver s t tile p v us).2.1 = { tile with flags := withFlag tile.flags (vOut v us p.reads p.done).flag } := by
  cases v with
  | e op f | cvt f =>
    unfold vDeliver
    dsimp only
    split
    case h_1 e =>
      rw [e]
      rfl
    case h_2 i b e =>
      rw [e]
      rfl
  | ldr f | str f | gath f | scat f => rfl

/-- Only a SETFLAG sets or clears a flag. -/
theorem flag_setflag (f : FormE) (us : List Nat) (reads : List RowRead) (j : Nat) : (vOut (.e .setflag f) us reads j).flag =
    some (f.dst.toNat % 16, (wholeOperands .setflag f reads).1.any (· != 0)) := rfl

theorem flag_e {op : EOp} (h : op ≠ .setflag) (f : FormE) (us : List Nat) (reads : List RowRead) (j : Nat) :
    (vOut (.e op f) us reads j).flag = none := by
  cases op
  case setflag => exact absurd rfl h
  all_goals rfl

theorem flag_cvt (f : FormC) (us : List Nat) (reads : List RowRead) (j : Nat) : (vOut (.cvt f) us reads j).flag = none := by
  rw [vOut]
  unfold cvtOut
  dsimp only
  split <;> rfl

theorem getLsbD_oneBit (i n : Nat) (h : n < 32) : (1#32 <<< i).getLsbD n = decide (n = i) := by
  simp only [BitVec.getLsbD_shiftLeft, BitVec.getLsbD_one, h, decide_true, Bool.true_and]
  by_cases e : n = i
  · simp [e]
  · simp only [e, decide_false, Bool.and_eq_false_imp, Bool.not_eq_true', decide_eq_false_iff_not]
    omega

theorem getLsbD_withFlag (fl : BitVec 32) (i n : Nat) (b : Bool) (h : n < 32) :
    (withFlag fl (some (i, b))).getLsbD n = if n = i then b else fl.getLsbD n := by
  cases b with
  | true =>
    rw [withFlag, if_pos rfl, BitVec.getLsbD_or, getLsbD_oneBit i n h]
    by_cases e : n = i <;> simp [e]
  | false =>
    rw [withFlag, if_neg Bool.false_ne_true, BitVec.getLsbD_and, BitVec.getLsbD_not, getLsbD_oneBit i n h]
    by_cases e : n = i <;> simp [e, h]

/-- The tile that a result leaves. -/
def afterResult (tile : Tile) (i : Nat) (p : InFlight) (v : VSlot) (us : List Nat) : Tile :=
  { tile with
    pipe := delivered i (vDeliveries v) p tile.pipe, flags := withFlag tile.flags (vOut v us p.reads p.done).flag }

/-- A result readable by the cycle: its rows are written, then it has its effect, which writes no row. -/
theorem vectorNext_of_due {t c i w : Nat} {s : State} {p : InFlight} {v : VSlot} {us : List Nat}
    (h : firstReady (vDue ((tileAt s t).count c)) (tileAt s t).pipe = some (i, p, v, us, w)) : ∃ x : Fx, x.rows = [] ∧
      vectorNext t c s = applyFx t c x ((resultRows s t v us p).foldl
        (fun u x => rowWrite t ((tileAt s t).cycleOf w) x.1 x.2 u) (tileSet t (afterResult (tileAt s t) i p v us) s)) := by
  have answer : vDeliver s t { tileAt s t with pipe := delivered i (vDeliveries v) p (tileAt s t).pipe } p v us =
      (resultRows s t v us p, afterResult (tileAt s t) i p v us,
        (vDeliver s t { tileAt s t with pipe := delivered i (vDeliveries v) p (tileAt s t).pipe } p v us).2.2) :=
    Prod.ext (rows_vDeliver _ _ _ _ _ _) (Prod.ext (tile_vDeliver _ _ _ _ _ _) rfl)
  refine ⟨_, rows_fx_vDeliver s t { tileAt s t with pipe := delivered i (vDeliveries v) p (tileAt s t).pipe } p v us, ?_⟩
  rw [vectorNext, h]
  dsimp only
  rw [answer]

/-- The flags that a result leaves. -/
theorem getLsbD_flags (fl : BitVec 32) (v : VSlot) (us : List Nat) (p : InFlight) (n : Nat) (h : n < 32) :
    (withFlag fl (vOut v us p.reads p.done).flag).getLsbD n = match v with
      | .e .setflag f => if n = f.dst.toNat % 16 then (wholeOperands .setflag f p.reads).1.any (· != 0) else fl.getLsbD n
      | _ => fl.getLsbD n := by
  cases v with
  | e op f =>
    by_cases set : op = .setflag
    · rw [set, flag_setflag, getLsbD_withFlag _ _ _ _ h]
    · rw [flag_e set]
      cases op
      case setflag => exact absurd rfl set
      all_goals rfl
  | cvt f => rw [flag_cvt, withFlag]
  | ldr f | str f | gath f | scat f => rfl

/-- What a result leaves: its tile but for timing, its rows, the other tiles, all but tiles and rows. -/
theorem vectorNext_frame {t c i w : Nat} {s : State} {p : InFlight} {v : VSlot} {us : List Nat}
    (h : firstReady (vDue ((tileAt s t).count c)) (tileAt s t).pipe = some (i, p, v, us, w)) :
    OnlyTiles s (vectorNext t c s) ∧
      (∀ a, rowGet (vectorNext t c s) a =
        (((resultRows s t v us p).reverse.find? (·.1 == a)).map (·.2)).getD (rowGet s a)) ∧
      ∀ u, steady (tileAt (vectorNext t c s) u) =
        steady (if u = t then afterResult (tileAt s t) i p v us else tileAt s u) := by
  obtain ⟨x, none, run⟩ := vectorNext_of_due h
  rw [run]
  refine ⟨?_, fun a => ?_, fun u => ?_⟩
  · have written := apart_foldl (fun u x => rowWrite t ((tileAt s t).cycleOf w) x.1 x.2 u) (resultRows s t v us p)
      (fun _ x k => apart_rowWrite t ((tileAt s t).cycleOf w) x.1 x.2 k) _
      (apart_tileSet t (afterResult (tileAt s t) i p v us) (Apart.refl s))
    exact (apart_applyFx t c x written).onlyTiles
  · rw [rowGet_applyFx_ne _ _ _ _ _ (by simp [none]), rowGet_rowWrites _ _ _ _ _ (whole_resultRows s t v us p),
      rowGet_tileSet]
  · rw [steadily_applyFx, ← tileAt_tileSet]
    exact steadily_foldl _ _ (fun _ x k => steadily_rowWrite t ((tileAt s t).cycleOf w) x.1 x.2 k) _ (Steadily.refl _) u

/-- Settles O19, by the rows, the tile and the effect of a result. -/
theorem vectorResultsWriteTheirRows : Obligations.VectorResultsWriteTheirRows := by
  intro t c s issues due
  refine ⟨?_, fun hd => ?_⟩
  · intro i p v us w hd tile moved rows
    obtain ⟨only, written, tiles⟩ := vectorNext_frame hd
    have mine := tiles t.val
    rw [if_pos rfl] at mine
    refine ⟨_, congrArg Host.Outcome.next (if_pos issues), only, fun a => ?_, ?_, fun n hn => ?_, fun u hu => ?_⟩
    · rw [written]
      show _ = match ((resultRows s t.val v us p).reverse.find? (·.1 == a)) with | some x => x.2 | none => rowGet s a
      cases (resultRows s t.val v us p).reverse.find? (·.1 == a) <;> rfl
    · have flags := congrArg Steady.flags mine
      exact mine.trans (congrArg (fun fl => { steady tile with flags := fl }) flags.symm)
    · rw [show (tileAt _ t.val).flags = _ from congrArg Steady.flags mine]
      refine (getLsbD_flags _ _ _ _ _ hn).trans ?_
      rfl
    · rw [tiles, if_neg (Fin.val_ne_of_ne hu)]
  · refine congrArg Host.Outcome.next ?_
    rw [if_pos issues, vectorNext]
    rw [show firstReady _ _ = _ from hd]

end Sys2Proof.Machine
end

section
/-! SUPPORT. A tile whose list of stops names one cycle twice: its count of cycles does not advance. -/

namespace Sys2Proof.Machine

open Sys2Proof Sys2Proof.Laws

/-- A tile at its first bundle, with nothing in flight, whose list of stops names cycle 0 twice. -/
def twiceStopped : State := tileSet 0 { Tile.reset with
  seq := { Sequencer.reset with running := true }, stops := [0, 0] } State.reset

/-- A BCHK of one element, that it is 0. -/
def zeroCheck : FormE := { ty := 2, dst := 1, a := 0, b := 0, c := 0, sat := false, bmode := 1, imm := 0, count := 0 }

theorem twiceStopped_issues : tileIssues twiceStopped 0 1 = true := by decide +kernel

theorem legal_zeroCheck : legalV (.e .bchk zeroCheck) = true := by decide +kernel

theorem twiceStopped_atOnce : (tileAt twiceStopped 0).pipe = [] ∧ vCycles (.e .bchk zeroCheck) = 1 := by decide +kernel

theorem twiceStopped_passes :
    (vOut (.e .bchk zeroCheck) (vKept (.e .bchk zeroCheck) (found 0 1 twiceStopped).2.bounds [])
      (readsOf (found 0 1 twiceStopped).1 0 false (vReads 0 0 (.e .bchk zeroCheck))) 0).fail = none ∧
    (readsFx (found 0 1 twiceStopped).1 0 (found 0 1 twiceStopped).2.seq.bundle false
      (vReads 0 0 (.e .bchk zeroCheck))).faults = [] := by decide +kernel

/-- The BCHK is read in cycle 0 of the tile's count, and the count of the next cycle is 0 still: it stays in flight. -/
theorem twiceStopped_keeps : ∃ u, execBchk 0 1 zeroCheck twiceStopped = .next u ∧ (tileAt u 0).pipe.length = 1 := 
  ⟨_, rfl, by decide +kernel⟩

/-- Refutes O21: a tile counts its cycles without those that its list of stops names, and where the list names one
twice the count does not pass the issue cycle of the BCHK in the next cycle, so that the check is not judged at once. -/
theorem not_boundCheckIsJudgedOnItsElements : ¬ Obligations.BoundCheckIsJudgedOnItsElements := by
  intro h
  obtain ⟨-, passes, -⟩ := h 0 1 zeroCheck twiceStopped twiceStopped_issues legal_zeroCheck (by decide +kernel)
  obtain ⟨t, run, ⟨-, empty, -⟩, -⟩ := passes twiceStopped_atOnce twiceStopped_passes.1 twiceStopped_passes.2
  obtain ⟨u, stays, one⟩ := twiceStopped_keeps
  obtain rfl : u = t := Host.Outcome.next.inj (stays.symm.trans run)
  rw [show (tileAt u 0).pipe = [] from empty] at one
  exact absurd one (by decide)

end Sys2Proof.Machine
end

section
/-! SUPPORT. Elements of the integer and logical operations as bit vectors of their width (R174, R177, R178). -/

namespace Sys2Proof.Machine

open Sys2Proof Sys2Proof.Laws

/-- The encoding of a signed number is that of the bit vector that holds it. -/
theorem unsigned_eq_ofInt (w : Nat) (v : Int) : unsigned w v = (BitVec.ofInt w v).toNat := (BitVec.toNat_ofInt v).symm

/-- The value that an element holds is that of its bit vector. -/
theorem signed_eq_toInt {w : Nat} (h : 0 < w) (a : Nat) : signed w a = (BitVec.ofNat w a).toInt := by
  have double : 2 ^ w = 2 * 2 ^ (w - 1) := by rw [← Nat.pow_succ', Nat.succ_eq_add_one, Nat.sub_add_cancel h]
  rw [signed, BitVec.toInt_eq_toNat_cond, BitVec.toNat_ofNat]
  by_cases neg : a % 2 ^ w < 2 ^ (w - 1)
  · rw [if_pos neg, if_pos (by omega)]
  · rw [if_neg neg, if_neg (by omega)]

/-- An element is the encoding of the value that it holds. -/
theorem toNat_ofNat_of_lt {w a : Nat} (h : a < 2 ^ w) : (BitVec.ofNat w a).toNat = a := by
  rw [BitVec.toNat_ofNat, Nat.mod_eq_of_lt h]

theorem unsigned_toInt {w a : Nat} (h : a < 2 ^ w) : unsigned w (BitVec.ofNat w a).toInt = a := by
  rw [unsigned_eq_ofInt, BitVec.ofInt_toInt, toNat_ofNat_of_lt h]

theorem unsigned_max {w a b : Nat} (ha : a < 2 ^ w) (hb : b < 2 ^ w) :
    unsigned w (max (BitVec.ofNat w a).toInt (BitVec.ofNat w b).toInt) =
      if (BitVec.ofNat w a).toInt < (BitVec.ofNat w b).toInt then b else a := by
  by_cases lt : (BitVec.ofNat w a).toInt < (BitVec.ofNat w b).toInt
  · rw [if_pos lt, Int.max_eq_right (Int.le_of_lt lt), unsigned_toInt hb]
  · rw [if_neg lt, Int.max_eq_left (Int.not_lt.mp lt), unsigned_toInt ha]

theorem unsigned_min {w a b : Nat} (ha : a < 2 ^ w) (hb : b < 2 ^ w) :
    unsigned w (min (BitVec.ofNat w a).toInt (BitVec.ofNat w b).toInt) =
      if (BitVec.ofNat w b).toInt < (BitVec.ofNat w a).toInt then b else a := by
  by_cases lt : (BitVec.ofNat w b).toInt < (BitVec.ofNat w a).toInt
  · rw [if_pos lt, Int.min_eq_right (Int.le_of_lt lt), unsigned_toInt hb]
  · rw [if_neg lt, Int.min_eq_left (Int.not_lt.mp lt), unsigned_toInt ha]

/-- A result wrapped, or limited to the signed range. -/
theorem narrow_eq (w : Nat) (sat : Bool) (v : Int) : narrow w sat v =
    (BitVec.ofInt w (if sat then max (-(2 ^ (w - 1) : Int)) (min v (2 ^ (w - 1) - 1)) else v)).toNat := by
  cases sat with
  | true =>
    rw [narrow, if_pos rfl, if_pos rfl, unsigned_eq_ofInt]
    push_cast
    rfl
  | false => rw [narrow, if_neg Bool.false_ne_true, if_neg Bool.false_ne_true, unsigned_eq_ofInt]

/-- An arithmetic shift divides the value, towards minus infinity. -/
theorem sra_eq (w a n : Nat) : unsigned w ((BitVec.ofNat w a).toInt / (2 ^ n : Nat)) =
    ((BitVec.ofNat w a).sshiftRight n).toNat := by
  rw [unsigned_eq_ofInt, ← Int.shiftRight_eq_div_pow, ← BitVec.toInt_sshiftRight, BitVec.ofInt_toInt]

/-- The comparisons of two integers. -/
theorem lane_cmp {f : FormE} {a b c u : Nat} (int : 2 ≤ f.ty.toNat) : lane .cmp f a b c u =
    if cmpI f.c.toNat (signed (tyWidth f.ty.toNat) a) (signed (tyWidth f.ty.toNat) b) then 2 ^ tyWidth f.ty.toNat - 1 else 0 := by
  have not_float : tyFloat f.ty.toNat = false := decide_eq_false (by omega)
  simp only [lane, not_float, Bool.false_eq_true, if_false]

/-- Settles O20, by the bit vectors that the elements are. -/
theorem elementwiseLaneResults : Obligations.ElementwiseLaneResults := by
  intro f a b c u _ int w ha hb i j lim ones
  have room : 0 < w := by
    show 0 < tyWidth f.ty.toNat
    unfold tyWidth
    split
    · decide
    · split <;> decide
  have hi : signed w a = i := signed_eq_toInt room a
  have hj : signed w b = j := signed_eq_toInt room b
  have cmp : ∀ k, f.c = BitVec.ofNat 5 k → k < 32 → lane .cmp f a b c u = ones (cmpI k i j) := by
    intro k e small
    have code : f.c.toNat = k := by rw [e, BitVec.toNat_ofNat, Nat.mod_eq_of_lt small]
    rw [lane_cmp int, code]
    show (if cmpI k (signed w a) (signed w b) = true then _ else _) = _
    rw [hi, hj]
  refine ⟨?_, ?_, ?_, ?_, ?_, ?_, ?_, ?_, ?_, ?_, ?_, ?_, rfl, rfl, fun e => ?_, fun e => ?_, fun e => ?_, fun e => ?_,
    fun e => ?_, fun e => ?_⟩
  · show narrow w f.sat (signed w a + signed w b) = _
    rw [narrow_eq, hi, hj]
  · show narrow w f.sat (signed w a - signed w b) = _
    rw [narrow_eq, hi, hj]
  · show narrow w f.sat (signed w a * signed w b) = _
    rw [narrow_eq, hi, hj]
  · show unsigned w (max (signed w a) (signed w b)) = _
    rw [hi, hj]
    exact unsigned_max ha hb
  · show unsigned w (min (signed w a) (signed w b)) = _
    rw [hi, hj]
    exact unsigned_min ha hb
  · rw [BitVec.toNat_and, toNat_ofNat_of_lt ha, toNat_ofNat_of_lt hb]
    rfl
  · rw [BitVec.toNat_or, toNat_ofNat_of_lt ha, toNat_ofNat_of_lt hb]
    rfl
  · rw [BitVec.toNat_xor, toNat_ofNat_of_lt ha, toNat_ofNat_of_lt hb]
    rfl
  · rw [BitVec.toNat_and, BitVec.toNat_not, toNat_ofNat_of_lt ha, toNat_ofNat_of_lt hb]
    rfl
  · rw [BitVec.toNat_shiftLeft, toNat_ofNat_of_lt ha, Nat.shiftLeft_eq]
    rfl
  · rw [BitVec.toNat_ushiftRight, toNat_ofNat_of_lt ha, Nat.shiftRight_eq_div_pow]
    rfl
  · show unsigned w (signed w a / (2 ^ (b % w) : Nat)) = _
    rw [hi]
    exact sra_eq w a _
  · exact (cmp 0 e (by decide)).trans (congrArg ones (Bool.eq_iff_iff.mpr (by simp [cmpI])))
  · exact (cmp 1 e (by decide)).trans (congrArg ones (Bool.eq_iff_iff.mpr (by simp [cmpI])))
  · exact cmp 2 e (by decide)
  · exact cmp 3 e (by decide)
  · exact cmp 4 e (by decide)
  · exact cmp 5 e (by decide)

end Sys2Proof.Machine
end

section
/-! SUPPORT. What the operations of the M slot leave as they issue, after the stall for a busy array path (R142). -/

namespace Sys2Proof.Machine

open Sys2Proof Sys2Proof.Laws

/-! ## Local stalls -/

theorem steady_hold (me f k : Nat) (held : InFlight → Bool) (tile : Tile) : steady (tile.hold me f k held) = steady tile := by
  unfold Tile.hold
  split
  · rfl
  · refine steady_pipe tile (fun p => if p.vector || held p then p.hold f k else p) fun p => ?_
    split
    · exact ⟨rfl, rfl, reads_addr _ _ fun r => by split <;> rfl⟩
    · exact ⟨rfl, rfl, rfl⟩

theorem steady_stallFor (s : State) (t k event : Nat) (obj : Nat × Nat) (tile : Tile) :
    steady (tile.stallFor s t k event obj).1 = steady tile := by
  unfold Tile.stallFor
  split
  · rfl
  · exact steady_hold _ _ _ _ _

theorem rows_stallFor (s : State) (t k event : Nat) (obj : Nat × Nat) (tile : Tile) :
    (tile.stallFor s t k event obj).2.rows = [] := by
  unfold Tile.stallFor
  split
  · rfl
  · refine rows_also_of ?_ rfl
    unfold Tile.stallIssue
    dsimp only
    split <;> rfl

theorem stallFor_zero (s : State) (t event : Nat) (obj : Nat × Nat) (tile : Tile) :
    tile.stallFor s t 0 event obj = (tile, Fx.none) := if_pos rfl

/-- What an M-slot operation reads of its tile: parts that a stall leaves alone. -/
theorem base_of_steady {v tile : Tile} (h : steady v = steady tile) : v.base = tile.base := congrArg Steady.base h

theorem active1_of_steady {v tile : Tile} (h : steady v = steady tile) : v.active1 = tile.active1 := congrArg Steady.active1 h

theorem activeLatch_of_steady {v tile : Tile} (h : steady v = steady tile) : activeLatch v = activeLatch tile := by
  rw [activeLatch, activeLatch, active1_of_steady h, show v.latch0 = tile.latch0 from congrArg Steady.latch0 h,
    show v.latch1 = tile.latch1 from congrArg Steady.latch1 h]

theorem idleLatch_of_steady {v tile : Tile} (h : steady v = steady tile) : idleLatch v = idleLatch tile := by
  rw [idleLatch, idleLatch, active1_of_steady h, show v.latch0 = tile.latch0 from congrArg Steady.latch0 h,
    show v.latch1 = tile.latch1 from congrArg Steady.latch1 h]

theorem bobbinRows_of_base {v tile : Tile} (h : v.base = tile.base) (s : State) (t base : Nat) (offs : List (Nat × Nat)) :
    bobbinRows s t v base offs = bobbinRows s t tile base offs := by
  unfold bobbinRows baseWord
  rw [h]

theorem rows_ite {c : Prop} [Decidable c] {x y : Fx} (hx : x.rows = []) (hy : y.rows = []) :
    (if c then x else y).rows = [] := by
  split
  · exact hx
  · exact hy

/-! ## Latch loads -/

theorem latchLoad_of_ok {t c : Nat} {f : TSlot} {s : State} {tile : Tile} {src : List Nat}
    (h : operandRows s t tile f.sbase.toNat f.soff.toNat (f.count.toNat + 1) [1] f.column.toNat = .ok src) :
    (latchLoad t c f s tile).2.rows = [] ∧ steady (latchLoad t c f s tile).1 = { steady tile with
      works := (steady tile).works ++ [(.load (f.doff.toNat / 2 ^ 15) (readCycles (f.count.toNat + 1) + 7 +
        (if bookBits (f.doff.toNat / 2 ^ 15) = 0 then 0 else 2) +
        (if readLat t (src.headD 0) = Config.beamRead false then 0 else 4)), 0, src)] } := by
  unfold latchLoad
  dsimp only
  rw [h]
  refine ⟨rows_also_of (rows_readsFx _ _ _ _ _) (rows_also_of (rows_claimFx _ _ _) (rows_ite rfl rfl)),
    (steady_join _ tile _ rfl).trans ?_⟩
  rw [addr_readsOf, map_fst_mapIdx]

theorem latchLoad_of_error {t c a : Nat} {f : TSlot} {s : State} {tile : Tile}
    (h : operandRows s t tile f.sbase.toNat f.soff.toNat (f.count.toNat + 1) [1] f.column.toNat = .error a) :
    latchLoad t c f s tile = (tile, Fx.fault 0x2004 (tileSite t a tile.seq.bundle 0)) := by
  unfold latchLoad
  dsimp only
  rw [h]

/-- The block of a load that is done is loaded and fresh. -/
theorem loaded_of_loadDone {c : Nat} {p : InFlight} {b : Latch} (h : loadDone c p = some b) :
    b.loaded = true ∧ b.fresh = true := by
  have parsed : ∀ code rows, (parseBlock code rows).loaded = true ∧ (parseBlock code rows).fresh = true := by
    intro code rows
    unfold parseBlock
    dsimp only
    split <;> exact ⟨rfl, rfl⟩
  unfold loadDone at h
  split at h
  · split at h
    · obtain ⟨rows, -, rfl⟩ := Option.map_eq_some_iff.mp h
      exact parsed _ _
    · cases h
  · cases h

/-- What is ready is what the first operation in flight that answers says. -/
theorem firstReady_some {α : Type} {g : InFlight → Option α} {l : List InFlight} {i : Nat} {p : InFlight} {x : α}
    (h : firstReady g l = some (i, p, x)) : l[i]? = some p ∧ g p = some x := by
  induction l generalizing i with
  | nil => cases h
  | cons q r ih =>
    rw [firstReady] at h
    split at h
    case h_1 y e =>
      cases h
      exact ⟨rfl, e⟩
    case h_2 =>
      obtain ⟨⟨j, q, z⟩, hy, e⟩ := Option.map_eq_some_iff.mp h
      cases e
      exact ih hy

theorem activeLatch_setIdle (b : Latch) (tile : Tile) : activeLatch (setIdle b tile) = activeLatch tile := by
  unfold setIdle
  split
  case isTrue e => rw [activeLatch, activeLatch, if_pos e, if_pos e]
  case isFalse e => rw [activeLatch, activeLatch, if_neg e, if_neg e]

theorem idleLatch_setIdle (b : Latch) (tile : Tile) : idleLatch (setIdle b tile) = b := by
  unfold setIdle
  split
  case isTrue e => rw [idleLatch, if_pos e]
  case isFalse e => rw [idleLatch, if_neg e]

/-- A tile command with a quiet effect. -/
theorem onTile_of_quiet {t c : Nat} {f : State → Tile → Tile × Fx} {s : State} {v : Tile} {x : Fx}
    (run : f s (tileAt s t) = (v, x)) (q : QuietFx x) :
    Aside (tileSet t v s) (onTile t c f s) ∧ tileAt (onTile t c f s) t = v ∧
      ∀ u, u ≠ t → tileAt (onTile t c f s) u = tileAt s u := by
  have aside : Aside (tileSet t v s) (onTile t c f s) := by
    rw [onTile, run]
    exact aside_applyFx _ _ q (Aside.refl _)
  refine ⟨aside, ?_, fun u hu => ?_⟩
  · rw [aside.tileAt, tileAt_tileSet, if_pos rfl]
  · rw [aside.tileAt, tileAt_tileSet, if_neg hu]

theorem blockReady_of_due {c i : Nat} {tile : Tile} {p : InFlight} {b : Latch}
    (h : firstReady (loadDone c) tile.pipe = some (i, p, b)) :
    ∃ x, blockReady c tile = (setIdle b { tile with pipe := tile.pipe.eraseIdx i }, x) ∧ QuietFx x := by
  unfold blockReady
  rw [h]
  refine ⟨_, rfl, ?_⟩
  split <;> exact ⟨rfl, rfl, rfl, rfl⟩

theorem blockReady_of_none {c : Nat} {tile : Tile} (h : firstReady (loadDone c) tile.pipe = none) :
    blockReady c tile = (tile, Fx.none) := by
  unfold blockReady
  rw [h]

/-- Settles O22, by what a latch load leaves as it issues and what its block's readiness does. -/
theorem latchLoadJoinsAndBlockBecomesReady : Obligations.LatchLoadJoinsAndBlockBecomesReady := by
  intro t c f s s1 tile src code
  refine ⟨fun rows h hr => ?_, fun a inv h ha => ?_, fun issues => ?_⟩
  · obtain ⟨none, join⟩ := latchLoad_of_ok (c := (tileAt s t).count c) hr
    exact ⟨_, rfl, joined_slotIssue h rfl none join⟩
  · have run := latchLoad_of_error (c := (tileAt s t).count c) ha
    exact ⟨_, rfl, slotFrame_slotIssue h (congrArg (fun r : Tile × Fx => r.2.rows) run),
      recorded_slotIssue (code := 0x2004) inv h run rfl (by decide), tileAt_slotIssue h run (quiet_fault _ _)⟩
  · intro due
    have run : exec (.weightBlockReady t c) s = .next (onTile t.val c (fun _ tile => blockReady (tile.count c) tile) s) :=
      congrArg Host.Outcome.next (if_pos issues)
    refine ⟨fun i p b hd => ?_, fun hd => ?_⟩
    · obtain ⟨x, ready, quiet⟩ := blockReady_of_due hd
      obtain ⟨aside, mine, others⟩ := onTile_of_quiet (c := c) (s := s) (t := t.val)
        (f := fun _ tile => blockReady (tile.count c) tile) ready quiet
      obtain ⟨loaded, fresh⟩ := loaded_of_loadDone (firstReady_some hd).2
      refine ⟨_, run, (aside.apart.after (apart_tileSet _ _ (Apart.refl s))).onlyTiles, loaded, fresh, mine, ?_,
        fun u hu => others u (Fin.val_ne_of_ne hu), aside.mem⟩
      exact (congrArg activeLatch mine).trans (activeLatch_setIdle _ _)
    · obtain ⟨aside, mine, others⟩ := onTile_of_quiet (c := c) (s := s) (t := t.val)
        (f := fun _ tile => blockReady (tile.count c) tile) (blockReady_of_none hd) quiet_none
      refine ⟨_, run, aside.mem, fun u => ?_⟩
      by_cases e : u = t.val
      · rw [e]
        exact mine
      · exact others u e

end Sys2Proof.Machine
end

section
/-! SUPPORT. STREAM: the latches that it exchanges, the rows that it reads, its faults (R126 to R128). -/

namespace Sys2Proof.Machine

open Sys2Proof Sys2Proof.Laws

/-- The tile once issue has waited for the array path, and the effect of the wait. -/
def arrayWait (s : State) (t c : Nat) (tile : Tile) : Tile × Fx := tile.stallFor s t (tile.arrayBusy - c) 4 (0x3200, 8)

theorem steady_arrayWait (s : State) (t c : Nat) (tile : Tile) : steady (arrayWait s t c tile).1 = steady tile :=
  steady_stallFor _ _ _ _ _ _

theorem rows_arrayWait (s : State) (t c : Nat) (tile : Tile) : (arrayWait s t c tile).2.rows = [] :=
  rows_stallFor _ _ _ _ _ _

/-- The tile against whose active latch a STREAM streams, with effect and cycle: none on a sequencing error. -/
def streamSwap (t c : Nat) (f : MStream) (s : State) (tile : Tile) : Option (Tile × Fx × Nat) :=
  if f.swap then swapLatches s t (max c tile.arrayBusy) (arrayWait s t c tile).1
  else if (activeLatch (arrayWait s t c tile).1).loaded then some ((arrayWait s t c tile).1, Fx.none, max c tile.arrayBusy)
  else none

/-- The rows of the activation vectors of a STREAM, and of their scales against a block. -/
def streamActs (t : Nat) (f : MStream) (s : State) (tile : Tile) : Except Nat (List (Nat × Nat)) :=
  bobbinRows s t tile f.abase.toNat (vectorRows f.vidx.toNat (f.count.toNat + 1))
def streamScales (t : Nat) (f : MStream) (s : State) (tile : Tile) (block : Latch) : Except Nat (List (Nat × Nat)) :=
  if scaleBytes block.fmt = 0 then .ok [] else
    bobbinRows s t tile f.sbase.toNat (scaleRowsOf f.vidx.toNat (f.count.toNat + 1) (scaleBytes block.fmt))

section
variable {t c n : Nat} {f : MStream} {s : State} {tile v : Tile} {x : Fx}

theorem streamScales_of_base (h : v.base = tile.base) (block : Latch) :
    streamScales t f s v block = streamScales t f s tile block := by
  unfold streamScales
  rw [bobbinRows_of_base h]

theorem streamIssue_of_none (h : streamSwap t c f s tile = none) : streamIssue t c f s tile = ((arrayWait s t c tile).1,
    (arrayWait s t c tile).2.also (Fx.fault 0x3002 (tileSite t 0 tile.seq.bundle f.row.toNat))) := by
  unfold streamIssue
  extract_lets b st c1 sw
  rw [show sw = none from h]
  rfl

/-- A STREAM whose rows exist joins the operations in flight. -/
theorem streamIssue_of_ok {ra rs : List (Nat × Nat)} (h : streamSwap t c f s tile = some (v, x, n)) (quiet : x.rows = [])
    (base : v.base = tile.base) (ha : streamActs t f s tile = .ok ra)
    (hs : streamScales t f s tile (activeLatch v) = .ok rs) :
    (streamIssue t c f s tile).2.rows = [] ∧ steady (streamIssue t c f s tile).1 = { steady v with
      works := (steady v).works ++ [(.stream f (activeLatch v), 0, ra.map (·.1) ++ rs.map (·.1))] } := by
  have hs1 : streamScales t f s v (activeLatch v) = .ok rs := (streamScales_of_base base _).trans hs
  unfold streamScales at hs1
  unfold streamIssue
  extract_lets b st c1 sw
  rw [show sw = some (v, x, n) from h]
  dsimp only
  rw [bobbinRows_of_base base s t f.abase.toNat, show bobbinRows s t tile f.abase.toNat _ = _ from ha, hs1]
  refine ⟨rows_also_of (rows_arrayWait s t c tile) (rows_also_of quiet (rows_also_of (rows_readsFx _ _ _ _ _) (rows_claimFx _ _ _))),
    (steady_join _ v _ rfl).trans ?_⟩
  rw [addr_readsOf, List.map_append, List.map_map, List.map_map]
  rfl

/-- A STREAM with a row that does not exist. -/
theorem streamIssue_of_error (h : streamSwap t c f s tile = some (v, x, n)) (quiet : x.rows = [])
    (base : v.base = tile.base)
    (bad : (∃ a, streamActs t f s tile = .error a) ∨ ∃ a, streamScales t f s tile (activeLatch v) = .error a) :
    (streamIssue t c f s tile).2.rows = [] ∧ (streamIssue t c f s tile).1 = v ∧
      ∃ a, (0x2004, tileSite t a tile.seq.bundle f.row.toNat) ∈ (streamIssue t c f s tile).2.faults := by
  have fails : ∀ a, ((arrayWait s t c tile).2.also (x.also
      (Fx.fault 0x2004 (tileSite t a tile.seq.bundle f.row.toNat)))).rows = [] ∧
      (0x2004, tileSite t a tile.seq.bundle f.row.toNat) ∈ ((arrayWait s t c tile).2.also (x.also
        (Fx.fault 0x2004 (tileSite t a tile.seq.bundle f.row.toNat)))).faults := fun a =>
    ⟨rows_also_of (rows_arrayWait s t c tile) (rows_also_of quiet (rows_fault _ _)),
      List.mem_append_right _ (List.mem_append_right _ (List.mem_singleton.mpr rfl))⟩
  unfold streamIssue
  extract_lets b st c1 sw
  rw [show sw = some (v, x, n) from h]
  dsimp only
  rw [bobbinRows_of_base base s t f.abase.toNat]
  cases acts : streamActs t f s tile with
  | error a =>
    rw [show bobbinRows s t tile f.abase.toNat _ = _ from acts]
    exact ⟨(fails a).1, rfl, a, (fails a).2⟩
  | ok ra =>
    obtain ⟨a, e⟩ | ⟨a, e⟩ := bad
    · rw [acts] at e
      cases e
    · have e1 : streamScales t f s v (activeLatch v) = .error a := (streamScales_of_base base _).trans e
      unfold streamScales at e1
      rw [show bobbinRows s t tile f.abase.toNat _ = _ from acts, e1]
      exact ⟨(fails a).1, rfl, a, (fails a).2⟩

/-! ## The swap -/

theorem streamSwap_of_keep (swap : f.swap = false) (loaded : (activeLatch tile).loaded = true) :
    streamSwap t c f s tile = some ((arrayWait s t c tile).1, Fx.none, max c tile.arrayBusy) := by
  rw [streamSwap, if_neg (by rw [swap]; decide), activeLatch_of_steady (steady_arrayWait s t c tile), if_pos loaded]

theorem streamSwap_of_unloaded (swap : f.swap = false) (empty : (activeLatch tile).loaded = false) :
    streamSwap t c f s tile = none := by
  rw [streamSwap, if_neg (by rw [swap]; decide), activeLatch_of_steady (steady_arrayWait s t c tile),
    if_neg (by rw [empty]; decide)]

/-- The tile with its latches exchanged: the block that was active is no longer fresh. -/
def swapped (tile : Tile) : Tile :=
  setIdle { activeLatch tile with fresh := false } { tile with active1 := !tile.active1 }

theorem activeLatch_swapped (tile : Tile) : activeLatch (swapped tile) = idleLatch tile := by
  rw [swapped, activeLatch_setIdle]
  cases e : tile.active1 <;> simp [activeLatch, idleLatch, e]

theorem idleLatch_swapped (tile : Tile) : idleLatch (swapped tile) = { activeLatch tile with fresh := false } :=
  idleLatch_setIdle _ _

/-- Exchanging the latches changes these alone. -/
theorem steady_swapped (tile : Tile) : steady (swapped tile) = { steady tile with
    latch0 := (swapped tile).latch0, latch1 := (swapped tile).latch1, active1 := !tile.active1 } := by
  unfold swapped setIdle
  split <;> rfl

theorem noLoad_of_works {v tile : Tile} (h : steady v = steady tile) (noLoad : ∀ p ∈ tile.pipe, loadSpan p = none) :
    ∀ p ∈ v.pipe, loadSpan p = none := by
  intro p hp
  have work : ∀ q : InFlight, loadSpan q = none ↔ ∀ code lat, q.work ≠ .load code lat := by
    intro q
    cases e : q.work <;> simp [loadSpan, e]
  have same : (p.work, p.done, p.reads.map (·.addr)) ∈ (steady tile).works := by
    rw [← h]
    exact List.mem_map.mpr ⟨p, hp, rfl⟩
  obtain ⟨q, hq, e⟩ := List.mem_map.mp same
  have kind : q.work = p.work := congrArg (·.1) e
  rw [work, ← kind, ← work]
  exact noLoad q hq

theorem swapWait_of_noLoad {n : Nat} (noLoad : ∀ p ∈ tile.pipe, loadSpan p = none) : swapWait n tile = none := by
  refine List.findSome?_eq_none_iff.mpr fun p hp => ?_
  rw [noLoad p hp]

/-- With no load in flight a swap waits for nothing: it exchanges the latches where the idle one is fresh. -/
theorem streamSwap_of_swap (swap : f.swap = true) (noLoad : ∀ p ∈ tile.pipe, loadSpan p = none) :
    streamSwap t c f s tile = none ∧ (idleLatch tile).fresh = false ∨
      ∃ x, streamSwap t c f s tile = some (swapped (arrayWait s t c tile).1, x, max c tile.arrayBusy) ∧ x.rows = [] ∧
        (idleLatch tile).fresh = true := by
  have same := steady_arrayWait s t c tile
  rw [streamSwap, if_pos swap]
  simp only [swapLatches, swapWait_of_noLoad (noLoad_of_works same noLoad), stallFor_zero, idleLatch_of_steady same]
  cases fresh : (idleLatch tile).fresh with
  | false => exact .inl ⟨rfl, rfl⟩
  | true => exact .inr ⟨_, rfl, rfl, rfl⟩

/-- With one load in flight that writes the idle latch before the swap and is ready later, the swap waits for its block. -/
theorem streamSwap_of_load {r w code lat : Nat} {p : InFlight} {data : List Bytes} (pipe : tile.pipe = [p])
    (work : p.work = .load code lat) (read : readData p.reads = some data) (span : loadSpan p = some (w, r)) (before : w < c)
    (later : c ≤ r) (free : tile.arrayBusy ≤ c) (swap : f.swap = true) :
    ∃ v x k, streamSwap t c f s tile = some (swapped v, x, k) ∧ x.rows = [] ∧
      steady v = steady (setIdle (parseBlock code data) { tile with pipe := [] }) := by
  have wait : arrayWait s t c tile = (tile, Fx.none) := by
    rw [arrayWait, Nat.sub_eq_zero_of_le free, stallFor_zero]
  have waits : swapWait (max c tile.arrayBusy) tile = some r := by
    rw [Nat.max_eq_left free, swapWait, pipe, List.findSome?_cons, span]
    dsimp only
    rw [read, if_pos (by simp [before])]
  have due : firstReady (loadDone r) tile.pipe = some (0, p, parseBlock code data) := by
    have done : loadDone r p = some (parseBlock code data) := by
      unfold loadDone
      rw [work, span]
      dsimp only
      rw [if_pos (Nat.le_refl r), read]
      rfl
    rw [pipe, firstReady, done]
  obtain ⟨x, ready, quiet⟩ := blockReady_of_due due
  rw [pipe, List.eraseIdx_zero, List.tail_cons] at ready
  have same := steady_stallFor s t (r - c) 4 (0x3200, 8) (setIdle (parseBlock code data) { tile with pipe := [] })
  have fresh : (idleLatch ((setIdle (parseBlock code data) { tile with pipe := [] }).stallFor s t (r - c) 4 (0x3200, 8)).1).fresh
      = true := by
    rw [idleLatch_of_steady same, idleLatch_setIdle]
    exact (loaded_of_loadDone (firstReady_some due).2).2
  rw [Nat.max_eq_left free] at waits
  rw [streamSwap, if_pos swap, wait, Nat.max_eq_left free]
  simp only [swapLatches, waits, Nat.max_eq_left later, ready, fresh, if_true]
  exact ⟨_, _, _, rfl, rows_also_of quiet.rows (rows_also_of (rows_stallFor _ _ _ _ _ _) rfl), same⟩

end

/-! ## STREAM on a tile that issues -/

/-- What a STREAM leaves that joins the operations in flight against the active latch of `v`. -/
theorem stream_slot {t : TileIx} {c n : Nat} {f : MStream} {s : State} {v : Tile} {x : Fx} {ra rs : List (Nat × Nat)}
    (h : tileIssues s t.val c = true)
    (swap : streamSwap t ((tileAt s t.val).count c) f (found t.val c s).1 (found t.val c s).2 = some (v, x, n))
    (quiet : x.rows = []) (base : v.base = (found t.val c s).2.base)
    (ha : streamActs t f (found t.val c s).1 (found t.val c s).2 = .ok ra)
    (hs : streamScales t f (found t.val c s).1 (found t.val c s).2 (activeLatch v) = .ok rs) :
    ∃ s', exec (.stream t c f) s = .next s' ∧ SlotFrame s s' t.val c ∧ steady (tileAt s' t.val) = { steady v with
      works := (steady v).works ++ [(.stream f (activeLatch v), 0, ra.map (·.1) ++ rs.map (·.1))] } := by
  obtain ⟨rows, join⟩ := streamIssue_of_ok swap quiet base ha hs
  exact ⟨_, rfl, slotFrame_slotIssue h rows, (steady_slotIssue h).trans join⟩

theorem activeLatch_of_latches {v w : Tile} {l : List (Work × Nat × List Nat)}
    (h : steady v = { steady w with works := l }) : activeLatch v = activeLatch w ∧ idleLatch v = idleLatch w := by
  have a : v.active1 = w.active1 := congrArg Steady.active1 h
  have l0 : v.latch0 = w.latch0 := congrArg Steady.latch0 h
  have l1 : v.latch1 = w.latch1 := congrArg Steady.latch1 h
  rw [activeLatch, idleLatch, a, l0, l1]
  exact ⟨rfl, rfl⟩

/-- Settles O23, by the latches that a STREAM exchanges and the rows that it reads. -/
theorem streamTakesTheActiveBlock : Obligations.StreamTakesTheActiveBlock := by
  refine ⟨?_, ?_⟩
  · intro t c f s h s1 tile n v x block acts scales noLoad
    have same := steady_arrayWait s1 t.val ((tileAt s t.val).count c) tile
    refine ⟨fun ra rs ha hs swap loaded => ?_, fun ra rs ha hs swap none fresh => ?_, fun inv bad => ?_,
      fun inv bad swap loaded => ?_⟩
    · have active : block = activeLatch tile := if_neg (by rw [swap]; decide)
      rw [← activeLatch_of_steady same] at active
      obtain ⟨s', run, frame, join⟩ := stream_slot h (streamSwap_of_keep swap loaded) rfl (base_of_steady same) ha
        (show streamScales t f s1 tile (activeLatch _) = .ok rs by rw [← active]; exact hs)
      rw [same, ← active] at join
      exact ⟨s', run, join, frame⟩
    · have idle : block = idleLatch tile := if_pos swap
      obtain ⟨-, stale⟩ | ⟨y, exchange, quiet, -⟩ := streamSwap_of_swap (t := t.val) (c := (tileAt s t.val).count c) (s := s1) swap none
      · rw [fresh] at stale
        cases stale
      have active := (activeLatch_swapped (arrayWait s1 t.val ((tileAt s t.val).count c) tile).1).trans (idleLatch_of_steady same)
      have shape := steady_swapped (arrayWait s1 t.val ((tileAt s t.val).count c) tile).1
      rw [same, active1_of_steady same] at shape
      have base : (swapped (arrayWait s1 t.val ((tileAt s t.val).count c) tile).1).base = tile.base :=
        congrArg Steady.base shape
      obtain ⟨s', run, frame, join⟩ := stream_slot h exchange quiet base ha
        (show streamScales t f s1 tile (activeLatch _) = .ok rs by rw [active, ← idle]; exact hs)
      obtain ⟨a, i⟩ := activeLatch_of_latches join
      refine ⟨s', run, frame, a.trans active, i.trans ?_, ?_⟩
      · rw [idleLatch_swapped, activeLatch_of_steady same]
      · rw [active, ← idle, shape] at join
        have l0 := congrArg Steady.latch0 join
        have l1 := congrArg Steady.latch1 join
        rw [join]
        exact (congr (congrArg (fun (p q : Latch) => ({ x with
          works := x.works ++ [(Work.stream f block, 0, ra.map Prod.fst ++ rs.map Prod.fst)]
          latch0 := p, latch1 := q, active1 := !tile.active1 } : Steady)) l0) l1).symm
    · have none : streamSwap t.val ((tileAt s t.val).count c) f s1 tile = none := by
        obtain ⟨swap, empty⟩ | ⟨swap, noLoad, stale⟩ := bad
        · exact streamSwap_of_unloaded swap empty
        · obtain ⟨e, -⟩ | ⟨-, -, -, fresh⟩ := streamSwap_of_swap (t := t.val) (c := (tileAt s t.val).count c) (s := s1) swap noLoad
          · exact e
          · rw [fresh] at stale
            cases stale
      have run := streamIssue_of_none none
      refine ⟨_, rfl, slotFrame_slotIssue h ?_,
        raised_slotIssue (a := 0) (bundle := tile.seq.bundle) (detail := f.row.toNat) inv h ?_, (steady_slotIssue h).trans ?_⟩
      · rw [run]
        exact rows_also_of (rows_arrayWait _ _ _ _) (rows_fault _ _)
      · rw [run]
        exact List.mem_append_right _ (List.mem_singleton.mpr rfl)
      · rw [run]
        exact same
    · have active : block = activeLatch tile := if_neg (by rw [swap]; decide)
      rw [← activeLatch_of_steady same] at active
      obtain ⟨rows, tile2, a, fault⟩ := streamIssue_of_error (streamSwap_of_keep swap loaded) rfl (base_of_steady same)
        (bad.imp id fun ⟨a, e⟩ => ⟨a, show streamScales t f s1 tile (activeLatch _) = .error a by rw [← active]; exact e⟩)
      refine ⟨_, rfl, slotFrame_slotIssue h rows, raised_slotIssue inv h fault, (steady_slotIssue h).trans ?_⟩
      exact (congrArg steady tile2).trans same
  · intro t c r w code lat f p data s h s1 tile l n v pipe work read span before later free swap block ra rs ha hs
    obtain ⟨u, y, k, exchange, quiet, same⟩ := streamSwap_of_load (s := s1) (t := t.val) pipe work read span before later free swap
    have active : activeLatch (swapped u) = block := by
      rw [activeLatch_swapped, idleLatch_of_steady same, idleLatch_setIdle]
    have idle : idleLatch (swapped u) = { activeLatch tile with fresh := false } := by
      rw [idleLatch_swapped, activeLatch_of_steady same, activeLatch_setIdle]
      rfl
    have shape := steady_swapped u
    have emptied : (steady u).works = [] ∧ u.base = tile.base := by
      have parts : (steady (setIdle block { tile with pipe := [] })).works = [] ∧
          (steady (setIdle block { tile with pipe := [] })).base = tile.base := by
        unfold setIdle
        split <;> exact ⟨rfl, rfl⟩
      exact ⟨(congrArg Steady.works same).trans parts.1, (congrArg Steady.base same).trans parts.2⟩
    obtain ⟨s', run, frame, join⟩ := stream_slot h exchange quiet ((congrArg Steady.base shape).trans emptied.2) ha
      (show streamScales t f s1 tile (activeLatch _) = .ok rs by rw [active]; exact hs)
    obtain ⟨a, i⟩ := activeLatch_of_latches join
    refine ⟨s', run, frame, a.trans active, i.trans idle, ?_⟩
    rw [join, shape, emptied.1, active]
    rfl

end Sys2Proof.Machine
end

section
/-! SUPPORT. The adapter side pass and its descriptors as they issue (R139 to R141), and contributions (R131, R132). -/

namespace Sys2Proof.Machine

open Sys2Proof Sys2Proof.Laws

/-! ## ADOWN and AUP -/

/-- Beam rows in order from a first one. -/
def beamRun (t first n : Nat) : List Nat := (List.range n).map fun m => rowAddr t 1 (first + m)

theorem map_adapterRows (t first n c : Nat) : (adapterRows t first n c).map (·.1) = beamRun t first n := by
  rw [adapterRows, List.map_map]
  rfl

theorem map_flatMap_adapterRows (t k : Nat) (g h : Nat → Nat) (l : List Nat) :
    (l.flatMap fun i => adapterRows t (g i) k (h i)).map (·.1) = l.flatMap fun i => beamRun t (g i) k := by
  rw [List.map_flatMap]
  simp only [map_adapterRows]

/-- The rows of the A matrix that item `i` of an ADOWN reads begin here. -/
def downFirst (f : MAdown) (d : Descriptor) (slot i : Nat) : Nat :=
  d.baseRow + slot * d.stride + d.aOff + (f.slice.toNat + i) * ((d.rank + 1) / 2)

/-- The rows of the B matrix that an AUP reads for a slot begin here. -/
def upFirst (f : MAup) (d : Descriptor) (slot : Nat) : Nat :=
  d.baseRow + slot * d.stride + d.bOff + f.block.toNat * ((d.rank + 3) / 4)

section
variable {t c : Nat} {s : State} {tile : Tile} {ra rs : List (Nat × Nat)}

theorem adownIssue_of_ok {f : MAdown} {slot : Nat} (hslot : slotOf (descAt tile f.desc.toNat) f.row.toNat = some slot)
    (ha : bobbinRows s t tile f.abase.toNat (vectorRows f.vidx.toNat (f.count.toNat + 1)) = .ok ra)
    (hs : bobbinRows s t tile (descAt tile f.desc.toNat).scale (scaleRowsOf f.vidx.toNat (f.count.toNat + 1) 4) = .ok rs)
    (fits : slot = 0xFFFF ∨
      downFirst f (descAt tile f.desc.toNat) slot f.count.toNat + ((descAt tile f.desc.toNat).rank + 1) / 2 ≤ 737280) :
    (adownIssue t c f s tile).2.rows = [] ∧ steady (adownIssue t c f s tile).1 = { steady tile with
      works := (steady tile).works ++ [(.adown f (descAt tile f.desc.toNat) slot, 0,
        ra.map (·.1) ++ rs.map (·.1) ++ if slot = 0xFFFF then [] else (List.range (f.count.toNat + 1)).flatMap fun i =>
          beamRun t (downFirst f (descAt tile f.desc.toNat) slot i) (((descAt tile f.desc.toNat).rank + 1) / 2))] } := by
  have inside : (slot ≠ 0xFFFF && decide (737280 < downFirst f (descAt tile f.desc.toNat) slot (f.count.toNat + 1 - 1) +
      ((descAt tile f.desc.toNat).rank + 1) / 2)) = false := by
    rw [Nat.add_sub_cancel]
    obtain e | e := fits
    · simp [e]
    · simp [Nat.not_lt.mpr e]
  unfold downFirst at inside
  unfold adownIssue
  extract_lets b st c1 d n v q ar
  rw [hslot]
  dsimp only
  rw [ha, hs]
  dsimp only
  rw [if_neg (by rw [show (_ && _) = false from inside]; decide)]
  refine ⟨rows_also_of (rows_arrayWait s t c tile) (rows_also_of (rows_readsFx _ _ _ _ _) (rows_claimFx _ _ _)),
    (steady_join _ tile _ (steady_arrayWait s t c tile)).trans ?_⟩
  rw [addr_readsOf, List.map_append, List.map_append, List.map_map, List.map_map, apply_ite (List.map _),
    map_flatMap_adapterRows]
  rfl

theorem adownIssue_of_invalid {f : MAdown} (h : slotOf (descAt tile f.desc.toNat) f.row.toNat = none) :
    adownIssue t c f s tile = ((arrayWait s t c tile).1,
      (arrayWait s t c tile).2.also (Fx.fault 0x3006 (tileSite t 0 tile.seq.bundle f.row.toNat))) := by
  unfold adownIssue
  extract_lets b st c1 d n v q ar
  rw [h]
  rfl

/-- The slots that an AUP serves: those of its rows up to the first whose entry is not valid. -/
def upSlots (f : MAup) (d : Descriptor) : List Nat :=
  validSlots d ((List.range (f.count.toNat + 1)).map fun i => f.row.toNat + i)

theorem map_flatten_mapIdx {g : Nat → Nat → List (Nat × Nat)} {k : Nat → List Nat}
    (h : ∀ i x, (g i x).map (·.1) = k x) (l : List Nat) : ((l.mapIdx g).flatten).map (·.1) = l.flatMap k := by
  induction l generalizing g with
  | nil => rfl
  | cons x xs ih =>
    rw [List.mapIdx_cons, List.flatten_cons, List.map_append, h, List.flatMap_cons, ih fun i => h (i + 1)]

theorem aupIssue_of_ok {f : MAup}
    (ha : bobbinRows s t tile f.base.toNat (vectorRows f.vidx.toNat (f.count.toNat + 1)) = .ok ra)
    (fits : ∀ x ∈ upSlots f (descAt tile f.desc.toNat), x = 0xFFFF ∨
      upFirst f (descAt tile f.desc.toNat) x + ((descAt tile f.desc.toNat).rank + 3) / 4 ≤ 737280) :
    (aupIssue t c f s tile).2.rows = [] ∧ steady (aupIssue t c f s tile).1 = { steady tile with
      works := (steady tile).works ++ [(.aup f (descAt tile f.desc.toNat) (upSlots f (descAt tile f.desc.toNat)), 0,
        ra.map (·.1) ++ (upSlots f (descAt tile f.desc.toNat)).flatMap fun x => if x = 0xFFFF then [] else
          beamRun t (upFirst f (descAt tile f.desc.toNat) x) (((descAt tile f.desc.toNat).rank + 3) / 4))] } := by
  have inside : ((upSlots f (descAt tile f.desc.toNat)).find? fun x => x != 0xFFFF && decide (737280 <
      upFirst f (descAt tile f.desc.toNat) x + ((descAt tile f.desc.toNat).rank + 3) / 4)) = none := by
    refine List.find?_eq_none.mpr fun x hx => ?_
    obtain e | e := fits x hx
    · simp [e]
    · simp [Nat.not_lt.mpr e]
  unfold aupIssue
  extract_lets b st c1 d n v q br slots first
  rw [ha]
  dsimp only
  rw [show (slots.find? fun x => x != 0xFFFF && decide (737280 < first x + br)) = none from inside]
  refine ⟨rows_also_of (rows_arrayWait s t c tile) (rows_also_of (rows_readsFx _ _ _ _ _) (rows_claimFx _ _ _)),
    (steady_join _ tile _ (steady_arrayWait s t c tile)).trans ?_⟩
  rw [addr_readsOf, List.map_append, List.map_map, map_flatten_mapIdx (k := fun x => if x = 0xFFFF then [] else
    beamRun t (upFirst f (descAt tile f.desc.toNat) x) (((descAt tile f.desc.toNat).rank + 3) / 4))
    fun i x => by
      split
      · rfl
      · exact map_adapterRows _ _ _ _]
  rfl

end

/-- Settles O24, by what ADOWN and AUP leave as they issue. -/
theorem adapterPassesJoinThePipe : Obligations.AdapterPassesJoinThePipe := by
  intro t c s h s1 tile beam
  refine ⟨?_, ?_, fun f inv none => ?_⟩
  · intro f slot ra rs hslot d ar first ha hs fits
    obtain ⟨rows, join⟩ := adownIssue_of_ok (c := (tileAt s t).count c) hslot ha hs fits
    exact ⟨_, rfl, joined_slotIssue h rfl rows join⟩
  · intro f ra d slots br first ha fits
    obtain ⟨rows, join⟩ := aupIssue_of_ok (c := (tileAt s t).count c) ha fits
    exact ⟨_, rfl, joined_slotIssue h rfl rows join⟩
  · have run := adownIssue_of_invalid (t := t.val) (c := (tileAt s t).count c) (s := s1) none
    refine ⟨_, rfl, slotFrame_slotIssue h ?_,
      raised_slotIssue (a := 0) (bundle := tile.seq.bundle) (detail := f.row.toNat) inv h ?_, (steady_slotIssue h).trans ?_⟩
    · rw [run]
      exact rows_also_of (rows_arrayWait _ _ _ _) (rows_fault _ _)
    · rw [run]
      exact List.mem_append_right _ (List.mem_singleton.mpr rfl)
    · rw [run]
      exact steady_arrayWait _ _ _ _

end Sys2Proof.Machine
end

section
/-! SUPPORT. ASET and SETBOUND (R136, R139), contributions at their accumulator rows (R131, R132). -/

namespace Sys2Proof.Machine

open Sys2Proof Sys2Proof.Laws

/-! ## ASET and SETBOUND -/

section
variable {t c a o : Nat} {f : MAset} {s : State} {tile : Tile}

/-- The cycle in which an ASET reads its row, and the data of the row. -/
def asetData (t c : Nat) (s : State) (tile : Tile) (a : Nat) : Bytes := (readFrame s t a (max c tile.arrayBusy)).data

theorem asetIssue_of_ok (h : bobbinRows s t tile f.base.toNat [(f.off.toNat, 0)] = .ok [(a, o)])
    (good : descriptorOk (asetData t c s tile a) = true) :
    (asetIssue t c f s tile).2.rows = [] ∧ steady (asetIssue t c f s tile).1 = { steady tile with
      works := (steady tile).works ++ [(.aset f.desc.toNat (some (parseDescriptor (asetData t c s tile a) [])), 0,
        a :: (List.range 4).map fun i => rowAddr t 0 ((parseDescriptor (asetData t c s tile a) []).list + i))] } := by
  unfold asetIssue
  extract_lets b st c1
  simp only [h, List.headD_cons, show descriptorOk (readFrame s t a c1).data = true from good, if_true]
  refine ⟨rows_also_of (rows_arrayWait s t c tile) (rows_also_of (rows_readsFx _ _ _ _ _) (rows_claimFx _ _ _)),
    (steady_join _ tile _ (steady_arrayWait s t c tile)).trans ?_⟩
  rw [addr_readsOf, List.map_cons, List.map_map]
  rfl

theorem asetIssue_of_bad (h : bobbinRows s t tile f.base.toNat [(f.off.toNat, 0)] = .ok [(a, o)])
    (bad : descriptorOk (asetData t c s tile a) = false) : asetIssue t c f s tile = ((arrayWait s t c tile).1,
      (arrayWait s t c tile).2.also ((fetchFx s t a tile.seq.bundle).also
        (Fx.fault 0x3006 (tileSite t a tile.seq.bundle 0)))) := by
  unfold asetIssue
  extract_lets b st c1
  simp only [h, List.headD_cons, show descriptorOk (readFrame s t a c1).data = false from bad, Bool.false_eq_true, if_false]
  rfl

theorem asetIssue_of_error (h : bobbinRows s t tile f.base.toNat [(f.off.toNat, 0)] = .error a) :
    asetIssue t c f s tile = ((arrayWait s t c tile).1,
      (arrayWait s t c tile).2.also (Fx.fault 0x2004 (tileSite t a tile.seq.bundle 0))) := by
  unfold asetIssue
  extract_lets b st c1
  rw [h]
  rfl

end

/-- A descriptor whose five rows have been read is in its register, and its ASET has left. -/
theorem loadDescs_of_read {c r : Nat} {d : Descriptor} {tile : Tile} {p : InFlight} (pipe : tile.pipe = [p])
    (work : p.work = .aset r (some d)) (read : p.issue + 5 ≤ c) : tile.loadDescs c =
      { tile with pipe := [], descs := tile.descs.set r { d with table := slotEntries (p.reads.drop 1) } } := by
  have due : p.descRead c = true := by
    rw [InFlight.descRead, work]
    exact decide_eq_true read
  rw [Tile.loadDescs, if_pos (by rw [pipe]; simp [due])]
  simp only [pipe, List.filter_cons, List.filter_nil, due, Bool.not_true, Bool.false_eq_true, if_false, if_true,
    List.foldl_cons, List.foldl_nil, work]

theorem loadDescs_of_unread {c r : Nat} {d : Descriptor} {tile : Tile} {p : InFlight} (pipe : tile.pipe = [p])
    (work : p.work = .aset r (some d)) (unread : c < p.issue + 5) : tile.loadDescs c = tile := by
  have early : p.descRead c = false := by
    rw [InFlight.descRead, work]
    exact decide_eq_false (by omega)
  rw [Tile.loadDescs, if_neg (by rw [pipe]; simp [early])]

/-- Settles O25, by what ASET and SETBOUND leave as they issue and what five cycles do to an ASET. -/
theorem asetAndSetboundWriteTheirRegisters : Obligations.AsetAndSetboundWriteTheirRegisters := by
  refine ⟨?_, fun c r d tile p pipe work => ⟨loadDescs_of_read pipe work, loadDescs_of_unread pipe work⟩⟩
  intro t c f g s h s1 tile l row fails
  have failing : ∀ {code a : Nat} {x : Fx}, x.rows = [] → (code, tileSite t.val a tile.seq.bundle 0) ∈ x.faults →
      asetIssue t.val ((tileAt s t.val).count c) f s1 tile = ((arrayWait s1 t.val ((tileAt s t.val).count c) tile).1,
        (arrayWait s1 t.val ((tileAt s t.val).count c) tile).2.also x) → fails code := by
    intro code a x rows fault run inv
    refine ⟨_, rfl, slotFrame_slotIssue h ?_, raised_slotIssue (a := a) (bundle := tile.seq.bundle) (detail := 0) inv h ?_,
      (steady_slotIssue h).trans ?_⟩
    · rw [run]
      exact rows_also_of (rows_arrayWait _ _ _ _) rows
    · rw [run]
      exact List.mem_append_right _ fault
    · rw [run]
      exact steady_arrayWait _ _ _ _
  refine ⟨?_, fun a ha => ?_, ?_⟩
  · intro a o hr d x
    refine ⟨fun good => ?_, fun bad => ?_⟩
    · obtain ⟨rows, join⟩ := asetIssue_of_ok hr good
      exact ⟨_, rfl, joined_slotIssue h rfl rows join⟩
    · exact failing (rows_also_of (rows_fetchFx _ _ _ _) (rows_fault _ _))
        (List.mem_append_right _ (List.mem_singleton.mpr rfl)) (asetIssue_of_bad hr bad)
  · exact failing (rows_fault _ _) (List.mem_singleton.mpr rfl) (asetIssue_of_error ha)
  · exact ⟨_, rfl, slotFrame_slotIssue h rfl, tileAt_slotIssue h rfl quiet_none⟩

/-! ## Contributions -/

section
variable {t c i n row : Nat} {tile : Tile} {p : InFlight} {ovr : Bool}

theorem contribute_of_none (h : firstReady (itemDone c) tile.pipe = none) : contribute t c tile = (tile, Fx.none) := by
  unfold contribute
  rw [h]

theorem contribute_of_invalid (h : firstReady (itemDone c) tile.pipe = some (i, p, n, row, ovr, none)) :
    contribute t c tile = ({ tile with pipe := tile.pipe.eraseIdx i },
      Fx.fault 0x3006 (tileSite t 0 p.bundle (row % 1024))) := by
  unfold contribute
  rw [h]

theorem contribute_of_item {k : Contribution} (h : firstReady (itemDone c) tile.pipe = some (i, p, n, row, ovr, some k)) :
    contribute t c tile = (match applyContrib ovr k (accAt tile row) with
      | none => ({ tile with pipe := delivered i n p tile.pipe }, Fx.fault 0x3002 (tileSite t 0 p.bundle (row % 1024)))
      | some r => (accSet row r { tile with pipe := delivered i n p tile.pipe }, Fx.none)) := by
  unfold contribute
  rw [h] <;> rfl

end

theorem applyFx_none (t c : Nat) (s : State) : applyFx t c Fx.none s = s := by
  have nothing : s.out ++ [] = s.out := List.append_nil _
  exact congrArg (fun o => { s with out := o }) nothing

/-- A tile command without effect beyond its tile. -/
theorem onTile_of_none {t c : Nat} {f : State → Tile → Tile × Fx} {s : State} {v : Tile}
    (run : f s (tileAt s t) = (v, Fx.none)) : onTile t c f s = tileSet t v s := by
  rw [onTile, run]
  exact applyFx_none _ _ _

theorem accAt_accSet (q row : Nat) (r : AccRow) (tile : Tile) :
    accAt (accSet row r tile) q = if q % 1024 = row % 1024 then r else accAt tile q := mget_mset _ _ _ _ _

/-- Setting a tile to what it is changes no tile. -/
theorem tileAt_tileSet_self (s : State) (t u : Nat) : tileAt (tileSet t (tileAt s t) s) u = tileAt s u := by
  rw [tileAt_tileSet]
  split
  case isTrue e => rw [e]
  case isFalse => rfl

/-- Settles O26, by what a contribution does to its tile. -/
theorem contributionUpdatesItsAccumulatorRow : Obligations.ContributionUpdatesItsAccumulatorRow := by
  intro t c s issues tile due
  have run : exec (.contribution t c) s = .next (onTile t.val c (fun _ tile => contribute t.val (tile.count c) tile) s) :=
    congrArg Host.Outcome.next (if_pos issues)
  have failing : ∀ {v : Tile} {code b w : Nat}, Inv s → code ≠ 0x2001 ∧ code ≠ 0x2002 ∧ code ≠ 0x2003 →
      contribute t.val (tile.count c) tile = (v, Fx.fault code (tileSite t.val 0 b w)) →
      ∃ s', exec (.contribution t c) s = .next s' ∧ Recorded s s' (dieOf t) code ∧ OnlyTiles s s' ∧ s'.mem = s.mem ∧
        tileAt s' t = v ∧ ∀ u, u ≠ t → tileAt s' u = tileAt s u := by
    intro v code b w inv keep answer
    obtain ⟨aside, mine, others⟩ := onTile_of_quiet (c := c) (s := s) (t := t.val)
      (f := fun _ tile => contribute t.val (tile.count c) tile) answer (quiet_fault _ _)
    refine ⟨_, run, ?_, (aside.apart.after (apart_tileSet _ _ (Apart.refl s))).onlyTiles, aside.mem, mine,
      fun u hu => others u (Fin.val_ne_of_ne hu)⟩
    rw [onTile, show contribute _ _ _ = _ from answer]
    exact recorded_applyFx (site := tileSite t.val 0 b w) (s := tileSet t.val v s) _ _ inv.dies rfl keep
  refine ⟨fun i p n row ovr k hd => ⟨fun r hr => ?_, fun inv hr => ?_⟩, fun i p n row ovr inv hd => ?_, fun hd => ?_⟩
  · have answer := contribute_of_item (t := t.val) hd
    rw [hr] at answer
    have set := onTile_of_none (c := c) (f := fun _ tile => contribute t.val (tile.count c) tile) answer
    refine ⟨_, run.trans (congrArg _ set), ?_, fun q hq => ?_, ?_, rfl, fun u hu => ?_⟩
    · rw [tileAt_tileSet, if_pos rfl, accAt_accSet, if_pos rfl]
    · rw [tileAt_tileSet, if_pos rfl, accAt_accSet, if_neg hq]
      rfl
    · rw [tileAt_tileSet, if_pos rfl]
      rfl
    · rw [tileAt_tileSet, if_neg (Fin.val_ne_of_ne hu)]
  · have answer := contribute_of_item (t := t.val) hd
    rw [hr] at answer
    exact failing inv (by decide) answer
  · exact failing inv (by decide) (contribute_of_invalid hd)
  · have set := onTile_of_none (c := c) (f := fun _ tile => contribute t.val (tile.count c) tile) (contribute_of_none hd)
    refine ⟨_, run.trans (congrArg _ set), rfl, fun u => tileAt_tileSet_self s t.val u⟩

end Sys2Proof.Machine
end

section
/-! SUPPORT. The lane sets of the stipple unit (R202), the schedule rows that are streamed in (R72). -/

namespace Sys2Proof.Machine

open Sys2Proof Sys2Proof.Laws

/-- What a tile command leaves: its tile but for timing, the other tiles, all but tiles and rows. -/
theorem onTile_frame {t c : Nat} {f : State → Tile → Tile × Fx} {s : State} {v : Tile} {x : Fx}
    (run : f s (tileAt s t) = (v, x)) : OnlyTiles s (onTile t c f s) ∧
      (∀ u, steady (tileAt (onTile t c f s) u) = steady (if u = t then v else tileAt s u)) ∧
      ∀ b, rowGet (onTile t c f s) b = rowGet (x.rows.foldl (fun s r => rowWrite t c r.1 r.2 s) (tileSet t v s)) b := by
  refine ⟨(apart_onTile t c f (Apart.refl s)).onlyTiles, fun u => ?_, fun b => ?_⟩
  · rw [onTile, run, steadily_applyFx, tileAt_tileSet]
  · rw [onTile, run, rowGet_applyFx]

/-! ## Effects that stall issue -/

/-- A local stall changes tiles alone. -/
theorem stallAccesses_only (t : Nat) (x : Nat × Nat) (s : State) :
    stallAccesses t x s = { s with tiles := (stallAccesses t x s).tiles } := by
  have each : ∀ (f : State → Nat → State) (hf : ∀ s u, f s u = { s with tiles := (f s u).tiles }) (us : List Nat) (s : State),
      us.foldl f s = { s with tiles := (us.foldl f s).tiles } := by
    intro f hf us
    induction us with
    | nil => exact fun _ => rfl
    | cons u us ih =>
      intro s
      rw [List.foldl_cons, ih, hf]
  unfold stallAccesses holdAccesses
  refine each _ (fun s u => ?_) _ _
  dsimp only
  split <;> rfl

theorem stalls_only (t : Nat) (xs : List (Nat × Nat)) (s : State) :
    xs.foldl (fun s a => stallAccesses t a s) s = { s with tiles := (xs.foldl (fun s a => stallAccesses t a s) s).tiles } := by
  induction xs generalizing s with
  | nil => rfl
  | cons x xs ih => rw [List.foldl_cons, ih, stallAccesses_only]

theorem aside_withTiles {b s : State} (k : Aside b s) (m : SMap Tile) : Aside { b with tiles := m } { s with tiles := m } :=
  congrArg (fun r : Rest => { r with tiles := m }) k

/-- An effect without rows, write-backs and accesses changes, beside tiles, only what counters and faults may change. -/
theorem aside_applyFx_stalls {x : Fx} (t c : Nat) (s : State) (rows : x.rows = []) (fixes : x.fixes = []) (asks : x.asks = []) :
    Aside { s with tiles := (applyFx t c x s).tiles } (applyFx t c x s) := by
  unfold applyFx
  rw [rows, fixes, asks]
  extract_lets s1 s2 s3 s4 s5 s6 s7
  have h2 : Aside s s2 := aside_foldl _ _ (fun _ _ k => aside_bump _ _ _ k) _ (Aside.refl s)
  have h3 : Aside s s3 := aside_foldl _ _ (fun _ _ k => aside_countTile _ _ _ _ k) _ h2
  have h4 : Aside s s4 := h3
  have h5 : Aside s s5 := by
    unfold s5
    split
    · exact h4
    · exact aside_ite h4 h4
  have h6 : Aside s s7 := aside_foldl _ _ (fun _ _ k => aside_tileHold _ _ _ _ k) _ h5
  have stalled : requestAll [] (x.stalls.foldl (fun s a => stallAccesses t a s) s7) =
      { s7 with tiles := (requestAll [] (x.stalls.foldl (fun s a => stallAccesses t a s) s7)).tiles } := stalls_only t x.stalls s7
  generalize requestAll [] (x.stalls.foldl (fun s a => stallAccesses t a s) s7) = u at stalled ⊢
  have last : Aside u (markFaulted x.faults (raiseFaults x.faults u)) := aside_markFaulted _ (aside_raiseFaults _ (Aside.refl _))
  refine Aside.trans ?_ last
  rw [last.tiles, stalled]
  exact aside_withTiles h6 _

/-! ## Lane sets -/

theorem laneSwap_of_none {t c : Nat} {s : State} {tile : Tile} (h : tile.exchange = false) :
    laneSwap t c s tile = (tile, Fx.none) := if_pos (by rw [h]; rfl)

/-- The tile with its lane sets exchanged, its shadow set being `l`. -/
def exchanged (tile : Tile) (l : SMap Lane) : Tile :=
  { tile with
    lanes := l, shLanes := tile.lanes, shReady := false, exchange := false, drawWait := none, laneErrs := [] }

/-- The shadow set of a tile, set up if it is not yet. -/
def shadowSet (s : State) (t : Nat) (tile : Tile) : SMap Lane :=
  if tile.shReady then tile.shLanes else seedLanes s t tile.shSeed

theorem shLanes_setup (s : State) (t : Nat) (tile : Tile) : (tile.setup s t).1.shLanes = shadowSet s t tile := by
  unfold shadowSet
  cases h : tile.shReady with
  | true => rw [setup_of_ready h, if_pos rfl]
  | false => rw [setup_of_unready h, if_neg Bool.false_ne_true]

theorem quiet_setup (s : State) (t : Nat) (tile : Tile) : QuietFx (tile.setup s t).2 := by
  cases h : tile.shReady with
  | true =>
    rw [setup_of_ready h]
    exact quiet_none
  | false =>
    rw [setup_of_unready h]
    exact ⟨rfl, rfl, rfl, rfl⟩

theorem quiet_also {x y : Fx} (hx : QuietFx x) (hy : QuietFx y) : QuietFx (x.also y) := by
  obtain ⟨r, f, a, l⟩ := hx
  obtain ⟨r', f', a', l'⟩ := hy
  exact ⟨by simp [Fx.also, r, r'], by simp [Fx.also, f, f'], by simp [Fx.also, a, a'], by simp [Fx.also, l, l']⟩

theorem quiet_laneFaults (t bundle : Nat) (ls : List Nat) : QuietFx (laneFaults t bundle ls) := by
  have each : ∀ x : Fx, QuietFx x → QuietFx (ls.foldl (fun x l => x.also (laneFault t bundle l)) x) := by
    induction ls with
    | nil => exact fun x h => h
    | cons l ls ih => exact fun x h => ih _ (quiet_also h ⟨rfl, rfl, rfl, rfl⟩)
  exact each _ quiet_none

/-- What the exchange of a tile's lane sets leaves of it, and that its effect touches no row. -/
theorem laneSwap_of_exchange {t c : Nat} {s : State} {tile : Tile} (h : tile.exchange = true) :
    steady (laneSwap t c s tile).1 = steady (exchanged tile (shadowSet s t tile)) ∧ (laneSwap t c s tile).2.rows = [] ∧
      (laneSwap t c s tile).2.fixes = [] ∧ (laneSwap t c s tile).2.asks = [] := by
  obtain ⟨l, b, form⟩ := setup_form s t tile
  have shadow := shLanes_setup s t tile
  rw [form] at shadow
  obtain ⟨r1, f1, a1, -⟩ := quiet_setup s t tile
  unfold laneSwap
  rw [if_neg (by rw [h]; decide)]
  extract_lets su k bad src tile1 held clash
  obtain ⟨r2, f2, a2, -⟩ := quiet_laneFaults t tile.seq.bundle bad
  have own : su.1 = { tile with shLanes := l, shReady := b } := form
  refine ⟨(steady_hold _ _ _ _ _).trans ?_, ?_, ?_, ?_⟩
  · show steady { su.1 with lanes := su.1.shLanes, shLanes := su.1.lanes, shReady := false, exchange := false
                            drawWait := none, laneErrs := [] } = _
    rw [own, ← shadow]
    rfl
  · refine rows_also_of r1 (rows_also_of r2 (rows_ite rfl (rows_claimFx _ _ _)))
  · show su.2.fixes ++ ((laneFaults t tile.seq.bundle bad).fixes ++ _) = []
    rw [show su.2.fixes = [] from f1, f2]
    split
    · rfl
    · exact (quiet_claimFx _ _ _).fixes
  · show su.2.asks ++ ((laneFaults t tile.seq.bundle bad).asks ++ _) = []
    rw [show su.2.asks = [] from a1, a2]
    split
    · rfl
    · exact (quiet_claimFx _ _ _).asks

theorem applyFx_bump (t c i j n : Nat) (s : State) : applyFx t c (Fx.bump i j n) s = bump i j n s := by
  have nothing : (bump i j n s).out ++ [] = (bump i j n s).out := List.append_nil _
  exact congrArg (fun o => { bump i j n s with out := o }) nothing

/-- Settles O28, by the set-up and the exchange of a tile's lane sets. -/
theorem laneSetsAreSetUpOnceAndExchanged : Obligations.LaneSetsAreSetUpOnceAndExchanged := by
  intro t c s issues tile
  have setup : exec (.shadowSetup t) s = .next (onTile t.val (tile.cycleOf tile.seq.cycle) (fun s tile => tile.setup s t.val) s) :=
    congrArg Host.Outcome.next (if_pos issues)
  have exchange : exec (.laneExchange t c) s = .next (onTile t.val c (fun s tile => laneSwap t.val (tile.count c) s tile) s) :=
    congrArg Host.Outcome.next (if_pos issues)
  refine ⟨fun unready => ?_, fun ready => ?_, fun due => ?_, fun none => ?_⟩
  · have run : onTile t.val (tile.cycleOf tile.seq.cycle) (fun s tile => tile.setup s t.val) s = bump 0x3300 4 1
        (tileSet t.val { tile with shLanes := seedLanes s t tile.shSeed, shReady := true } s) := by
      rw [onTile, show Tile.setup s t.val (tileAt s t.val) = _ from setup_of_unready unready]
      exact applyFx_bump _ _ _ _ _ _
    have tiles : ∀ u, tileAt (bump 0x3300 4 1 (tileSet t.val { tile with shLanes := seedLanes s t tile.shSeed
                                                                         shReady := true } s)) u =
        if u = t.val then { tile with shLanes := seedLanes s t tile.shSeed, shReady := true } else tileAt s u := fun u => by
      rw [(aside_bump _ _ _ (Aside.refl _)).tileAt, tileAt_tileSet]
    refine ⟨_, setup.trans (congrArg _ run), ?_, ?_, ?_, fun u hu => ?_⟩
    · rw [tiles, if_pos rfl]
    · rw [objGet_bump_same]
      rfl
    · unfold bump
      rfl
    · rw [tiles, if_neg (Fin.val_ne_of_ne hu)]
  · have run := onTile_of_none (c := tile.cycleOf tile.seq.cycle) (f := fun s tile => tile.setup s t.val)
      (setup_of_ready (s := s) (t := t.val) ready)
    exact ⟨_, setup.trans (congrArg _ run), rfl, fun u => tileAt_tileSet_self s t.val u⟩
  · obtain ⟨shape, rows, fixes, asks⟩ := laneSwap_of_exchange (t := t.val) (c := tile.count c) (s := s) due
    obtain ⟨-, tiles, -⟩ := onTile_frame (c := c) (f := fun s tile => laneSwap t.val (tile.count c) s tile) (s := s) (t := t.val)
      (v := (laneSwap t.val (tile.count c) s tile).1) (x := (laneSwap t.val (tile.count c) s tile).2) rfl
    have mine := tiles t.val
    rw [if_pos rfl, shape] at mine
    refine ⟨_, exchange, ?_, congrArg Steady.lanes mine, congrArg Steady.shLanes mine, congrArg Steady.shReady mine,
      congrArg Steady.exchange mine, congrArg Steady.drawWait mine, congrArg Steady.laneErrs mine,
      congrArg Steady.draws mine, fun u hu => ?_⟩
    · exact (aside_applyFx_stalls t.val c (tileSet t.val (laneSwap t.val (tile.count c) s tile).1 s) rows fixes asks).only
    · rw [tiles, if_neg (Fin.val_ne_of_ne hu)]
  · have run := onTile_of_none (c := c) (f := fun s tile => laneSwap t.val (tile.count c) s tile)
      (laneSwap_of_none (s := s) (t := t.val) (c := tile.count c) none)
    exact ⟨_, exchange.trans (congrArg _ run), rfl, fun u => tileAt_tileSet_self s t.val u⟩

/-! ## Schedule rows -/

section
variable {t l : Nat} {s : State} {tile : Tile} {p : Pattern} {d : Schedule} {rows : List Nat}

theorem streamRead_of_pattern (h : s.pattern = none) : streamRead t l s tile = (tile, Fx.none) := by
  unfold streamRead
  rw [h]

theorem streamRead_of_ahead (h : s.pattern = some p) (ahead : streamAhead s p t tile.seq = none) :
    streamRead t l s tile = (tile, Fx.none) := by
  unfold streamRead
  rw [h]
  dsimp only
  rw [ahead]

theorem streamRead_of_idle (h : s.pattern = some p) (ahead : streamAhead s p t tile.seq = some (d, rows))
    (idle : pickIndex s l tile % 16 ≠ 15 ∨ 128 ≤ pickIndex s l tile) : streamRead t l s tile = (tile, Fx.none) := by
  unfold streamRead
  rw [h]
  dsimp only
  rw [ahead]
  exact if_pos (by simpa using idle)

theorem streamRead_of_last (h : s.pattern = some p) (ahead : streamAhead s p t tile.seq = some (d, rows))
    (due : pickIndex s l tile % 16 = 15) (early : pickIndex s l tile < 128) (last : rows[pickIndex s l tile / 16]? = none) :
    steady (streamRead t l s tile).1 = steady tile ∧ (streamRead t l s tile).2.rows = [] := by
  unfold streamRead
  rw [h]
  dsimp only
  rw [ahead]
  dsimp only
  rw [if_neg (by simp [due, early]), last]
  exact ⟨rfl, rows_claimFx _ _ _⟩

/-- The row of its column that a stream read takes. -/
def streamSource (s : State) (t : Nat) (tile : Tile) (d : Schedule) (r : Nat) : Nat :=
  rowAddr t 1 (addrRow (baseWord s t tile 11) + d.stream + r)

theorem streamRead_of_row {r : Nat} (h : s.pattern = some p) (ahead : streamAhead s p t tile.seq = some (d, rows))
    (due : pickIndex s l tile % 16 = 15) (early : pickIndex s l tile < 128) (row : rows[pickIndex s l tile / 16]? = some r) :
    steady (streamRead t l s tile).1 = steady tile ∧ (streamRead t l s tile).2.rows =
      [(rowAddr t 2 (r % 1024), (fetchRow s (streamSource s t tile d r)).frame)] := by
  unfold streamRead
  rw [h]
  dsimp only
  rw [ahead]
  dsimp only
  rw [if_neg (by simp [due, early]), row]
  dsimp only
  rw [rows_also, rows_fetchFx]
  exact ⟨rfl, rfl⟩

end

/-- Settles O29, by what a stream read does to its tile and the store. -/
theorem scheduleRowsAreStreamedIn : Obligations.ScheduleRowsAreStreamedIn := by
  intro t c s issues tile k still
  have run : exec (.streamRead t c) s = .next (onTile t.val c (fun s tile => streamRead t.val (tile.count c) s tile) s) :=
    congrArg Host.Outcome.next (if_pos issues)
  have stays : streamRead t.val (tile.count c) s tile = (tile, Fx.none) → still := fun e =>
    ⟨_, run.trans (congrArg _ (onTile_of_none (f := fun s tile => streamRead t.val (tile.count c) s tile) e)), rfl,
      fun u => tileAt_tileSet_self s t.val u⟩
  obtain ⟨only, tiles, written⟩ := onTile_frame (c := c) (f := fun s tile => streamRead t.val (tile.count c) s tile) (s := s)
    (t := t.val) (v := (streamRead t.val (tile.count c) s tile).1) (x := (streamRead t.val (tile.count c) s tile).2) rfl
  have same : steady (streamRead t.val (tile.count c) s tile).1 = steady tile →
      ∀ u, steady (tileAt (onTile t.val c (fun s tile => streamRead t.val (tile.count c) s tile) s) u) = steady (tileAt s u) := by
    intro e u
    rw [tiles]
    split
    case isTrue here => rw [e, here]
    case isFalse => rfl
  refine ⟨fun none => stays (streamRead_of_pattern none), fun p hp => ⟨fun none => stays (streamRead_of_ahead hp none), ?_⟩⟩
  intro d rows ahead
  refine ⟨fun idle => stays (streamRead_of_idle hp ahead idle), fun due early last => ?_, ?_⟩
  · obtain ⟨shape, none⟩ := streamRead_of_last hp ahead due early last
    refine ⟨_, run, only, fun b => ?_, same shape⟩
    rw [written, none]
    rfl
  · intro r due early row x a
    obtain ⟨shape, one⟩ := streamRead_of_row hp ahead due early row
    refine ⟨_, run, only, ?_, fun b hb => ?_, same shape⟩
    · rw [written, one, List.foldl_cons, List.foldl_nil, rowGet_rowWrite, if_pos rfl]
      rfl
    · rw [written, one, List.foldl_cons, List.foldl_nil, rowGet_rowWrite, if_neg hb]
      rfl

end Sys2Proof.Machine
end

section
/-! SUPPORT. Rows on the wire (R208, R210–R213): what a receiver of two cycles, and of nine flits, reads back, and the
pad that brings a path to the latency of the profile. -/

namespace Sys2Proof.Machine

open Sys2Proof Sys2Proof.Laws

/-! ## Stretches of bytes -/

theorem slice_eq_map (bs : Bytes) (o n : Nat) : slice bs o n = (List.range n).map fun i => bs.getD (o + i) 0 := by
  apply List.ext_getElem
  · simp
  · intro i hi hi'
    have short : i < n := by simpa using hi
    by_cases inside : o + i < bs.length
    · have taken : i < min n (bs.length - o) := by omega
      simp [slice, inside, taken]
    · simp [slice, List.getElem_append, inside]
      omega

theorem slice_add (bs : Bytes) (o m n : Nat) : slice bs o (m + n) = slice bs o m ++ slice bs (o + m) n := by
  simp only [slice_eq_map, List.range_add, List.map_append, List.map_map]
  simp [Function.comp_def, Nat.add_assoc]

/-- Stretches of one length, one after the other. -/
theorem flatMap_slice (bs : Bytes) (k n : Nat) : ((List.range n).flatMap fun i => slice bs (k * i) k) = slice bs 0 (k * n) := by
  induction n with
  | zero => rfl
  | succ n ih => rw [List.range_succ, List.flatMap_append, ih, List.flatMap_singleton, Nat.mul_succ, slice_add, Nat.zero_add]

theorem take_slice (bs : Bytes) (m n : Nat) : (slice bs 0 (m + n)).take m = slice bs 0 m := by
  rw [slice_add]
  exact List.take_left' (slice_length bs 0 m)

/-! ## Side links -/

/-- A row's data as the two halves that the cycles carry. -/
theorem slice_halves {d : Bytes} (h : d.length = 512) : slice d 0 256 ++ slice d 256 256 = d :=
  (slice_add d 0 256 256).symm.trans (slice_self d 512 h)

theorem sideReceive_sideCycles {window woff : Nat} {row : RowFrame} (hw : window < 256) (ho : woff < 128)
    (h : row.data.length = 512) : sideReceive (sideCycles window woff row) = some (window, woff, row) := by
  have proof := row.proof.isLt
  have tag := row.tag.isLt
  have first : (BitVec.ofNat 64 (window % 256 * 2 ^ 56 + woff % 128 * 2 ^ 49 + row.proof.toNat)).toNat =
      window * 2 ^ 56 + woff * 2 ^ 49 + row.proof.toNat := by
    rw [BitVec.toNat_ofNat]
    omega
  have second : (BitVec.ofNat 64 (row.tag.toNat * 2 ^ 48)).toNat = row.tag.toNat * 2 ^ 48 := by
    rw [BitVec.toNat_ofNat]
    omega
  have windowBits : bits (window * 2 ^ 56 + woff * 2 ^ 49 + row.proof.toNat) 56 8 = window := by rw [bits]; omega
  have woffBits : bits (window * 2 ^ 56 + woff * 2 ^ 49 + row.proof.toNat) 49 7 = woff := by rw [bits]; omega
  have proofBits : bits (window * 2 ^ 56 + woff * 2 ^ 49 + row.proof.toNat) 0 32 = row.proof.toNat := by rw [bits]; omega
  have tagBits : bits (row.tag.toNat * 2 ^ 48) 48 16 = row.tag.toNat := by rw [bits]; omega
  simp only [sideReceive, sideCycles, first, second, windowBits, woffBits, proofBits, tagBits, slice_halves h,
    BitVec.ofNat_toNat, BitVec.setWidth_eq]

/-! ## The mesh -/

/-- The fields of a route header, first to last. -/
def routeFields (h : Route) : List (Nat × Nat) :=
  [(1, flag h.classB), (3, h.kind.toNat), (5, h.dx.toNat), (5, h.dy.toNat), (5, h.sx.toNat), (5, h.sy.toNat),
   (8, h.window.toNat), (7, h.woff.toNat), (3, h.pad.toNat), (4, h.act.toNat), (2, 0), (16, h.gen.toNat)]

theorem routeWord_eq_pack (h : Route) : routeWord h = pack (routeFields h) := by
  have top : flag h.classB % 2 ^ 1 * 2 ^ 63 = if h.classB then 2 ^ 63 else 0 := by cases h.classB <;> rfl
  have bottom : fieldBits [] = 0 := rfl
  have rest : pack [] = 0 := rfl
  simp only [routeFields, pack_cons, fieldBits_cons, BitVec.toNat_mod_cancel, routeWord, ← top, bottom, rest, Nat.reduceAdd,
    Nat.pow_zero, Nat.mul_one, Nat.add_zero, Nat.zero_mod, Nat.zero_mul, Nat.zero_add, Nat.add_assoc]

theorem routeWord_lt (h : Route) : routeWord h < 2 ^ 64 := by
  rw [routeWord_eq_pack]
  exact pack_lt _

theorem routeOf_eq_fld (w : Nat) : routeOf w = {
    classB := bitOf w 63, kind := fld 3 w 60, dx := fld 5 w 55, dy := fld 5 w 50, sx := fld 5 w 45, sy := fld 5 w 40
    window := fld 8 w 32, woff := fld 7 w 25, pad := fld 3 w 22, act := fld 4 w 18, gen := fld 16 w 0 } := rfl

theorem routeOf_routeWord (h : Route) : routeOf (routeWord h) = h := by
  rw [routeWord_eq_pack, routeOf_eq_fld, routeFields]
  simp (disch := simp [fieldBits]) [fld_head, fld_tail, bitOf_head]

theorem crc16Bit_lt (c : Nat) (b : Bool) : crc16Bit c b < 65536 := by
  have word : c * 2 % 65536 < 2 ^ 16 := Nat.mod_lt _ (by decide)
  unfold crc16Bit
  extract_lets x
  split
  · exact Nat.xor_lt_two_pow word (by decide)
  · exact word

/-- A fold whose every step keeps a bound stays in it. -/
theorem foldl_lt {α : Type} {n : Nat} (f : Nat → α → Nat) (keeps : ∀ c a, c < n → f c a < n) (l : List α) (c : Nat)
    (h : c < n) : l.foldl f c < n := by
  induction l generalizing c with
  | nil => exact h
  | cons a l ih => exact ih _ (keeps c a h)

theorem crc16_lt (bs : Bytes) : crc16 bs < 65536 :=
  foldl_lt _ (fun c b h => foldl_lt _ (fun c i _ => crc16Bit_lt c _) _ c h) bs _ (by decide)

/-- The lane of a flit gives back its upper bits and its check. -/
theorem lane_flit (p : Bytes) {upper : Nat} (h : upper < 2 ^ 64) :
    bits (flit p upper).2.toNat 16 64 = upper ∧ bits (flit p upper).2.toNat 0 16 = crc16 (p ++ beBytes 8 upper) := by
  have crc := crc16_lt (p ++ beBytes 8 upper)
  rw [flit, BitVec.toNat_ofNat, bits, bits]
  omega

theorem flitOk_flit (p : Bytes) {upper : Nat} (h : upper < 2 ^ 64) : flitOk (flit p upper) = true := by
  obtain ⟨body, check⟩ := lane_flit p h
  rw [flitOk, body, check]
  exact beq_self_eq_true _

theorem laneUpper_lt (h : Route) {i : Nat} (hi : i < 9) : laneUpper h i < 2 ^ 64 := by
  unfold laneUpper
  split
  · exact routeWord_lt h
  · omega

theorem flitOk_rowFlits {h : Route} {row : RowFrame} {f : Bytes × BitVec 80} (mem : f ∈ rowFlits h row) : flitOk f = true := by
  obtain ⟨i, hi, rfl⟩ := List.mem_map.mp mem
  exact flitOk_flit _ (laneUpper_lt h (List.mem_range.mp hi))

theorem frameBytes_length (row : RowFrame) : (frameBytes row).length = 520 := by
  simp [frameBytes, zeros]

theorem flitsRow_rowFlits (h : Route) {row : RowFrame} (data : row.data.length = 512) : flitsRow (rowFlits h row) = (h, row) := by
  have head : (rowFlits h row).headD ([], 0) = flit (slice (frameBytes row) 0 64) (routeWord h) := rfl
  have payload : (rowFlits h row).flatMap (·.1) = slice (frameBytes row) 0 576 :=
    (List.flatMap_map ..).trans (flatMap_slice (frameBytes row) 64 9)
  have body : ((rowFlits h row).flatMap (·.1)).take 520 = frameBytes row := by
    rw [payload, take_slice _ 520 56, slice_self _ _ (frameBytes_length row)]
  rw [flitsRow, head, body, (lane_flit _ (routeWord_lt h)).1, routeOf_routeWord, frameOf_frameBytes, slice_self _ _ data]

/-! ## The pad -/

theorem flight_pad {s : State} {a b : Nat} (h : pathPhys s a b ≤ pathHops a b + 2 * pathDies a b) :
    flightLat s a b + Config.meshHop * padHops s a b = meshLat (profile s) a b := by
  simp only [flightLat, meshLat, padHops, Config.meshHop, Config.meshPadHops]
  omega

/-- Settles O32: the sideband and the route header are words of fields, the data halves and flit payloads stretches of one
row frame. -/
theorem rowsOnTheWireReadBack : Obligations.RowsOnTheWireReadBack :=
  ⟨fun _ _ _ hw ho data => sideReceive_sideCycles hw ho data,
   fun h _ data => ⟨flitsRow_rowFlits h data, by simp [rowFlits], fun _ mem => flitOk_rowFlits mem⟩,
   fun _ _ _ h => flight_pad h⟩

end Sys2Proof.Machine
end

section
/-! SUPPORT. What counting, faults and the effect of a slot command leave of the class S traffic: the rows on the network,
the rows listed at link ports, the words that are to come into force. -/

namespace Sys2Proof.Laws
open Sys2Proof.Machine

/-- The class S traffic of a state, and what its times depend on. -/
structure Calm where
  rows    : List NetRow
  routers : List Nat
  shifts  : SMap Nat
  handed  : Nat → List Handed
  pending : List PendingWord
  got     : List (Nat × Nat)
  ahead   : Nat

def calm (s : State) : Calm where
  rows    := s.net.rows
  routers := s.net.routers
  shifts  := s.integrity.shifts
  handed  := fun l => (linkAt s l).handed
  pending := s.treadle.pending
  got     := s.treadle.got
  ahead   := admitHorizon s

/-- The class S traffic of `s` is that of `b`. -/
@[reducible] def SameCalm (b s : State) : Prop := calm s = calm b

theorem sameCalm_foldl {α : Type} {b : State} (f : State → α → State) (l : List α)
    (hf : ∀ s x, x ∈ l → SameCalm b s → SameCalm b (f s x)) (s : State) (h : SameCalm b s) : SameCalm b (l.foldl f s) := by
  induction l generalizing s with
  | nil => exact h
  | cons x xs ih =>
    exact ih (fun s y hy => hf s y (List.mem_cons_of_mem _ hy)) _ (hf s x List.mem_cons_self h)

theorem sameCalm_ite {b s t : State} {c : Prop} [Decidable c] (h : SameCalm b s) (k : SameCalm b t) :
    SameCalm b (if c then s else t) := by
  split
  · exact h
  · exact k

theorem sameCalm_objSet {b s : State} {i j : Nat} (v : Nat) (ne : objKey 0x5000 2 ≠ objKey i j) (h : SameCalm b s) :
    SameCalm b (objSet i j v s) := by
  have ahead : admitHorizon (objSet i j v s) = admitHorizon s := objGet_objSet_ne _ _ ne
  exact (congrArg (fun n => { calm s with ahead := n }) ahead).trans h

theorem sameCalm_bump {b s : State} {i j : Nat} (n : Nat) (ne : objKey 0x5000 2 ≠ objKey i j) (h : SameCalm b s) :
    SameCalm b (bump i j n s) := by
  unfold bump
  exact sameCalm_ite h (sameCalm_objSet _ ne h)

theorem sameCalm_countEvent {b s : State} (v c now : Nat) (h : SameCalm b s) : SameCalm b (countEvent v c now s) := by
  unfold countEvent
  exact sameCalm_ite h h

/-- A link port set, its list of rows as it was. -/
theorem sameCalm_linkSet {b s : State} {l : Nat} {v : Link} (e : v.handed = (linkAt s l).handed) (h : SameCalm b s) :
    SameCalm b (linkSet l v s) := by
  have handed : (fun k => (linkAt (linkSet l v s) k).handed) = fun k => (linkAt s k).handed := by
    funext k
    rw [linkAt_linkSet]
    split
    case isTrue here => rw [e, here]
    case isFalse => rfl
  exact (congrArg (fun f => { calm s with handed := f }) handed).trans h

theorem key_horizon_ne_port (l : Nat) : objKey 0x5000 2 ≠ objKey (0x4100 + l) 0x11 := by
  unfold objKey
  omega

theorem sameCalm_toPort {b s : State} (l : Nat) (o : Output) (h : SameCalm b s) : SameCalm b (toPort l o s) := by
  unfold toPort
  have counted : SameCalm b (emit o (bump (0x4100 + l) 0x11 1 s)) := sameCalm_bump 1 (key_horizon_ne_port l) h
  exact sameCalm_ite (sameCalm_linkSet rfl counted) counted

theorem sameCalm_beginStop {b s : State} (code : BitVec 16) (origin : Coord) (stamp : Nat) (h : SameCalm b s) :
    SameCalm b (beginStop code origin stamp s) := by
  unfold beginStop
  have sent : SameCalm b (sendFaults code origin stamp s) :=
    sameCalm_foldl _ _ (fun _ _ _ k => sameCalm_toPort _ _ k) _ h
  generalize sendFaults code origin stamp s = s1 at sent ⊢
  exact sameCalm_ite (sameCalm_objSet 0 (by decide) sent) sent

theorem sameCalm_raiseFault {b s : State} (code : Nat) (site : FaultSite) (h : SameCalm b s) :
    SameCalm b (raiseFault code site s) := by
  unfold raiseFault
  exact sameCalm_ite (sameCalm_beginStop _ _ _ h) h

theorem sameCalm_raiseFaults {b s : State} (fs : List (Nat × FaultSite)) (h : SameCalm b s) : SameCalm b (raiseFaults fs s) :=
  sameCalm_foldl _ _ (fun _ _ _ k => sameCalm_raiseFault _ _ k) _ h

theorem sameCalm_markFaulted {b s : State} (fs : List (Nat × FaultSite)) (h : SameCalm b s) :
    SameCalm b (markFaulted fs s) := by
  have table : ∀ s : State, SameCalm b s → SameCalm b (tableWrite s) := by
    intro s h
    unfold tableWrite
    split
    · exact h
    · exact h
  refine sameCalm_foldl _ _ (fun s x _ k => sameCalm_ite ?_ k) _ h
  unfold markRow
  split
  · refine sameCalm_ite k (sameCalm_ite (sameCalm_raiseFault _ _ k) (sameCalm_bump 1 (by decide) (table _ ?_)))
    exact k
  · exact k

theorem sameCalm_depart {b s : State} (o : Output) (h : SameCalm b s) : SameCalm b (depart s o) := by
  unfold depart
  split
  · exact sameCalm_linkSet rfl h
  · exact sameCalm_toPort _ _ h
  all_goals exact h

theorem sameCalm_inject {b s : State} (d act n : Nat) (items : List Output) (h : SameCalm b s) :
    SameCalm b (inject d act n items s) := by
  have gone : SameCalm b (departAll d { act := act, flits := n, items := items } s) :=
    sameCalm_foldl depart _ (fun _ _ _ k => sameCalm_depart _ k) _ h
  unfold inject
  refine sameCalm_ite h (sameCalm_ite gone (sameCalm_countEvent _ _ _ (sameCalm_bump 1 (by decide) ?_)))
  exact h

theorem sameCalm_tileHold {b s : State} (t sp reason now : Nat) (h : SameCalm b s) : SameCalm b (tileHold t sp reason now s) := by
  have counted := sameCalm_countEvent (64 * t + (if reason = 3 then 0x31 else 0x30)) 1 now h
  unfold tileHold raiseHold sendHold
  exact sameCalm_ite (sameCalm_ite (sameCalm_inject _ _ _ _ counted) counted) h

/-! ## Slot commands -/

theorem sameCalm_rowWrite {b s : State} (t w a : Nat) (f : RowFrame) (h : SameCalm b s) : SameCalm b (rowWrite t w a f s) := by
  have seen : ∀ s, SameCalm b s → SameCalm b (seenBeside t w a f s) := by
    intro s h
    unfold seenBeside
    refine sameCalm_ite h ?_
    split
    · exact h
    · exact sameCalm_ite h (sameCalm_foldl (b := b) (fun s v => tileSet v ((tileAt s v).seeBeside s a w f) s) _
        (fun _ _ _ k => k) s h)
  have dropped : ∀ s, SameCalm b s → SameCalm b (dropFix a s) := by
    intro s h
    unfold dropFix
    split
    · exact h
    · exact sameCalm_ite (sameCalm_bump 1 (by decide) h) h
  exact dropped _ (seen _ h)

theorem sameCalm_settle {b s : State} (t c : Nat) (h : SameCalm b s) : SameCalm b (settle t c s) := by
  unfold settle
  exact sameCalm_ite (sameCalm_foldl _ _ (fun _ _ _ k => sameCalm_rowWrite _ _ _ _ k) _ h) h

theorem sameCalm_applyFx {b s : State} {x : Fx} (t c : Nat) (q : QuietFx x)
    (counts : ∀ n ∈ x.bumps, objKey 0x5000 2 ≠ objKey n.1.1 n.1.2) (h : SameCalm b s) : SameCalm b (applyFx t c x s) := by
  obtain ⟨rows, fixes, asks, stalls⟩ := q
  unfold applyFx
  rw [rows, fixes, asks, stalls]
  extract_lets s1 s2 s3 s4 s5 s6 s7
  have h2 : SameCalm b s2 := sameCalm_foldl _ _ (fun _ _ m k => sameCalm_bump _ (counts _ m) k) _ h
  have h3 : SameCalm b s3 := sameCalm_foldl _ _ (fun _ _ _ k => sameCalm_countEvent _ _ _ k) _ h2
  have h4 : SameCalm b s4 := h3
  have h5 : SameCalm b s5 := by
    unfold s5
    split
    · exact h4
    · exact sameCalm_ite (sameCalm_objSet _ (by decide) h4) h4
  have h6 : SameCalm b s6 := sameCalm_foldl _ _ (fun _ _ _ k => sameCalm_tileHold _ _ _ _ k) _ h5
  exact sameCalm_markFaulted _ (sameCalm_raiseFaults _ h6)

/-- The class S traffic after a slot command whose operation has a quiet effect. -/
theorem sameCalm_slotIssue {t : TileIx} {c : Nat} {s : State} {f : Nat → State → Tile → Tile × Fx} {v : Tile} {x : Fx}
    (h : tileIssues s t.val c = true)
    (run : f ((tileAt s t.val).count c) (found t.val c s).1 (found t.val c s).2 = (v, x)) (q : QuietFx x)
    (counts : ∀ n ∈ x.bumps, objKey 0x5000 2 ≠ objKey n.1.1 n.1.2) : SameCalm s (slotIssue t c f s) := by
  obtain ⟨e, issue⟩ := slotIssue_of_issues f h
  have quiet : QuietFx (Fx.also { Fx.none with events := e } x) := ⟨q.rows, q.fixes, q.asks, q.stalls⟩
  rw [issue, run]
  refine sameCalm_applyFx t.val c quiet counts ?_
  exact sameCalm_settle t.val _ rfl

/-! ## The timing of a settled tile -/

/-- Where a tile stands still, and until when its senders are busy: what storing rows leaves alone. -/
def clocks (t : Tile) : List Nat × List Nat := (t.stops, t.senders)

/-- Every tile of `s` stands still and has its senders busy as in `b`. -/
@[reducible] def SameClocks (b s : State) : Prop := ∀ u, clocks (tileAt s u) = clocks (tileAt b u)

theorem sameClocks_foldl {α : Type} {b : State} (f : State → α → State) (l : List α)
    (hf : ∀ s x, SameClocks b s → SameClocks b (f s x)) (s : State) (h : SameClocks b s) : SameClocks b (l.foldl f s) := by
  induction l generalizing s with
  | nil => exact h
  | cons x xs ih => exact ih _ (hf s x h)

theorem sameClocks_ite {b s t : State} {c : Prop} [Decidable c] (h : SameClocks b s) (k : SameClocks b t) :
    SameClocks b (if c then s else t) := by
  split
  · exact h
  · exact k

theorem sameClocks_tileSet {b s : State} (t : Nat) (v : Tile) (e : clocks v = clocks (tileAt s t)) (h : SameClocks b s) :
    SameClocks b (tileSet t v s) := by
  intro u
  rw [tileAt_tileSet]
  split
  case isTrue here => rw [e, ← here, h u]
  case isFalse => exact h u

theorem clocks_see (a w : Nat) (f : RowFrame) (t : Tile) : clocks (t.see a w f) = clocks t := by
  unfold Tile.see
  split <;> rfl

theorem clocks_seeBeside (s : State) (a w : Nat) (f : RowFrame) (t : Tile) : clocks (t.seeBeside s a w f) = clocks t := by
  unfold Tile.seeBeside
  split <;> rfl

theorem sameClocks_rowWrite {b s : State} (t w a : Nat) (f : RowFrame) (h : SameClocks b s) :
    SameClocks b (rowWrite t w a f s) := by
  have seen : ∀ s, SameClocks b s → SameClocks b (seenBeside t w a f s) := by
    intro s h
    unfold seenBeside
    refine sameClocks_ite h ?_
    split
    · exact h
    · refine sameClocks_ite h ?_
      exact sameClocks_foldl (b := b) (fun s v => tileSet v ((tileAt s v).seeBeside s a w f) s) _
        (fun s v k => sameClocks_tileSet _ _ (clocks_seeBeside _ _ _ _ _) k) s h
  have dropped : ∀ s, SameClocks b s → SameClocks b (dropFix a s) := by
    intro s h
    unfold dropFix
    split
    · exact h
    · refine sameClocks_ite (fun u => ?_) h
      rw [(aside_bump _ _ _ (Aside.refl _)).tileAt]
      refine sameClocks_tileSet _ _ ?_ h u
      rfl
  exact dropped _ (seen _ (sameClocks_tileSet _ _ (clocks_see _ _ _ _) h))

theorem clocks_loadDescs (c : Nat) (t : Tile) : clocks (t.loadDescs c) = clocks t := by
  unfold Tile.loadDescs
  split <;> rfl

theorem sameClocks_settle (t c : Nat) (s : State) : SameClocks s (settle t c s) := by
  have loaded := clocks_loadDescs c (tileAt s t)
  unfold settle
  exact sameClocks_ite
    (sameClocks_foldl _ _ (fun _ _ k => sameClocks_rowWrite _ _ _ _ k) _ (sameClocks_tileSet _ _ loaded fun _ => rfl))
    (sameClocks_tileSet _ _ loaded fun _ => rfl)

theorem clocks_found (t c : Nat) (s : State) : clocks (found t c s).2 = clocks (tileAt s t) := sameClocks_settle t _ s t

/-- A tile with nothing in flight is found with nothing in flight. -/
theorem pipe_found {t : Nat} {s : State} (c : Nat) (h : (tileAt s t).pipe = []) : (found t c s).2.pipe = [] := by
  have works : (steady (tileAt (found t c s).1 t)).works = [] := by
    rw [found, steady_settle]
    have still : (tileAt s t).loadDescs ((tileAt s t).count c) = tileAt s t := by
      unfold Tile.loadDescs
      rw [h]
      rfl
    rw [still, steady, h]
    rfl
  exact List.map_eq_nil_iff.mp works

end Sys2Proof.Laws
end

section
/-! SUPPORT. Sends of the S slot (R209): a send that issues on a tile with nothing in flight, the row of it that leaves at
once. -/

namespace Sys2Proof.Machine

open Sys2Proof Sys2Proof.Laws

/-! ## Sends that leave nothing in flight -/

theorem flushSends_of_empty {t : Nat} {s : State} (c : Nat) (h : (tileAt s t).pipe = []) : flushSends t c s = s := by
  rw [flushSends, h]
  rfl

theorem noteHandOff_of_empty {t : Nat} {s : State} (op : SOp) (c : Nat) (f : SSlot) (h : (tileAt s t).pipe = []) :
    noteHandOff op t c f s = s := by
  unfold noteHandOff
  rw [h]
  cases op <;> rfl

section
variable {t : TileIx} {c : Nat} {s : State} {op : SOp} {f : SSlot}

theorem sSlot_of_issues (h : tileIssues s t.val c = true) (empty : (tileAt s t.val).pipe = []) :
    sSlot op t c f s = flushSends t.val ((tileAt s t.val).count c) (noteHandOff op t.val ((tileAt s t.val).count c) f
      (slotIssue t c (fun l => sendIssue op t.val l f) s)) := by
  rw [sSlot, if_pos h, flushSends_of_empty _ empty]

/-- A send that is a fault at issue, on a tile with nothing in flight: the fault is its whole effect. -/
theorem sSlot_of_fault {code a detail : Nat} (inv : Inv s) (h : tileIssues s t.val c = true)
    (empty : (tileAt s t.val).pipe = [])
    (run : sendIssue op t.val ((tileAt s t.val).count c) f (found t.val c s).1 (found t.val c s).2 =
      ((found t.val c s).2, Fx.fault code (tileSite t.val a (found t.val c s).2.seq.bundle detail)))
    (keep : code ≠ 0x2001 ∧ code ≠ 0x2002 ∧ code ≠ 0x2003) :
    Recorded s (sSlot op t c f s) (dieOf t.val).val code ∧ SlotFrame s (sSlot op t c f s) t.val c ∧
      (tileAt (sSlot op t c f s) t.val).pipe = [] ∧ SameCalm s (sSlot op t c f s) := by
  have tile := tileAt_slotIssue (f := fun l => sendIssue op t.val l f) h run (quiet_fault _ _)
  have still : (tileAt (slotIssue t c (fun l => sendIssue op t.val l f) s) t.val).pipe = [] := by
    rw [tile, pipe_found c empty]
  rw [sSlot_of_issues h empty, noteHandOff_of_empty _ _ _ still, flushSends_of_empty _ still]
  exact ⟨recorded_slotIssue (code := code) inv h run rfl keep, slotFrame_slotIssue h (congrArg (·.2.rows) run), still,
    sameCalm_slotIssue h run (quiet_fault _ _) (by simp [Fx.fault, Fx.none])⟩

end

theorem sendIssue_of_illegal {op : SOp} {t c : Nat} {f : SSlot} {s : State} {tile : Tile}
    (h : senderOf t op f = none ∨ (op == .side || op == .mesh) = true ∧ foreign s t f.modl.toNat = true) :
    sendIssue op t c f s tile = (tile, Fx.fault 0x4003 (tileSite t 0 tile.seq.bundle 0)) := by
  unfold sendIssue
  dsimp only
  obtain e | ⟨e, k⟩ := h
  · rw [e]
  · rw [e, k]
    cases senderOf t op f <;> rfl

theorem senderOf_side_none {t : Nat} {f : SSlot}
    (h : ¬ (f.dx.toNat < 24 ∧ (f.dy.toNat = tileY t ∧ (f.dx.toNat = tileX t + 1 ∨ f.dx.toNat + 1 = tileX t) ∨
      f.dx.toNat = tileX t ∧ (f.dy.toNat = tileY t + 1 ∨ f.dy.toNat + 1 = tileY t)))) : senderOf t .side f = none := by
  unfold senderOf
  dsimp only
  by_cases far : 24 ≤ f.dx.toNat
  · exact if_pos far
  · have near : f.dx.toNat < 24 := by omega
    have off : ¬ (f.dy.toNat = tileY t ∧ (f.dx.toNat = tileX t + 1 ∨ f.dx.toNat + 1 = tileX t) ∨
      f.dx.toNat = tileX t ∧ (f.dy.toNat = tileY t + 1 ∨ f.dy.toNat + 1 = tileY t)) := fun k => h ⟨near, k⟩
    simp only [Bool.and_eq_true, decide_eq_true_eq]
    rw [if_neg far, if_neg (by omega), if_neg (by omega), if_neg (by omega), if_neg (by omega)]

/-- Settles O33: no sender, or a foreign module, is the fault alone. -/
theorem illegalSendDestinationsAreFaults : Obligations.IllegalSendDestinationsAreFaults := by
  intro t c f s inv h empty s1 neighbour fails
  have all : ∀ (i : Instr) (op : SOp), exec i s = .next (sSlot op t c f s) →
      (senderOf t.val op f = none ∨ (op == .side || op == .mesh) = true ∧ foreign s1 t.val f.modl.toNat = true) →
      fails i := by
    intro i op run illegal
    obtain ⟨rec, ⟨only, others, rows⟩, pipe, same⟩ :=
      sSlot_of_fault inv h empty (sendIssue_of_illegal (c := (tileAt s t.val).count c) illegal) (by decide)
    exact ⟨_, run, rec, only, rows, pipe, congrArg Calm.rows same⟩
  refine ⟨fun hn => all _ .side rfl ?_, fun hn => all _ .mesh rfl ?_⟩
  · obtain off | away := hn
    · exact .inl (senderOf_side_none off)
    · exact .inr ⟨rfl, away⟩
  · obtain off | away := hn
    · exact .inl (if_pos off)
    · exact .inr ⟨rfl, away⟩

end Sys2Proof.Machine
end

section
/-! SUPPORT. Sends of the S slot that issue: the send that joins those in flight, and its first row on the way. -/

namespace Sys2Proof.Machine

open Sys2Proof Sys2Proof.Laws

/-! ## The rows that a send reads -/

theorem addrSpace_rowAddr {t space row : Nat} (hs : space < 4) (hr : row < 2 ^ 20) : addrSpace (rowAddr t space row) = space := by
  rw [addrSpace, rowAddr, bits]
  omega

/-- The rows of an operand lie in one of the spaces that it may lie in. -/
theorem space_of_operandRows {s : State} {t : Nat} {tile : Tile} {base off n col : Nat} {spaces rows : List Nat}
    (h : operandRows s t tile base off n spaces col = .ok rows) (four : ∀ k ∈ spaces, k < 4) :
    ∀ a ∈ rows, addrSpace a ∈ spaces := by
  unfold operandRows at h
  extract_lets w space row at h
  split at h
  case h_1 => cases h
  case h_2 u _ =>
    split at h
    case isFalse => cases h
    case isTrue inside =>
      cases h
      intro a ha
      obtain ⟨i, hi, rfl⟩ := List.mem_map.mp ha
      obtain ⟨named, room⟩ := Bool.and_eq_true_iff.mp inside
      have named := List.contains_iff_mem.mp named
      have short := List.mem_range.mp hi
      have room := of_decide_eq_true room
      have bound : spaceRows space < 2 ^ 20 := by
        unfold spaceRows
        split
        · decide
        · split <;> decide
      rw [addrSpace_rowAddr (four _ named) (by omega)]
      exact named

/-- An effect that touches no tile and no row, and counts in entries other than the admission horizon. -/
structure CalmFx (x : Fx) : Prop where
  quiet  : QuietFx x
  counts : ∀ n ∈ x.bumps, objKey 0x5000 2 ≠ objKey n.1.1 n.1.2

theorem calm_none : CalmFx Fx.none := ⟨quiet_none, fun _ h => absurd h List.not_mem_nil⟩

theorem calm_also {x y : Fx} (hx : CalmFx x) (hy : CalmFx y) : CalmFx (x.also y) :=
  ⟨quiet_also hx.quiet hy.quiet, fun n h => (List.mem_append.mp h).elim (hx.counts n) (hy.counts n)⟩

theorem calm_fault (code : Nat) (site : FaultSite) : CalmFx (Fx.fault code site) :=
  ⟨quiet_fault _ _, fun _ h => absurd h List.not_mem_nil⟩

theorem calm_claimFx (t bundle : Nat) (hit : Option (Nat × Nat)) : CalmFx (claimFx t bundle hit) := by
  cases hit with
  | none => exact calm_none
  | some x => exact calm_fault _ _

/-- The read of a row that is not a beam row asks for no write-back. -/
theorem calm_fetchFx {s : State} {t a bundle : Nat} (h : addrSpace a ≠ 1) : CalmFx (fetchFx s t a bundle) := by
  unfold fetchFx
  extract_lets r space site blank fix
  have fixed : CalmFx fix := by
    unfold fix
    split
    · exact ⟨⟨rfl, rfl, rfl, rfl⟩, fun _ m => absurd m List.not_mem_nil⟩
    · refine ⟨⟨rfl, rfl, rfl, rfl⟩, fun n m => ?_⟩
      rw [List.mem_singleton.mp m]
      split <;> decide
  split
  · exact calm_also fixed (calm_fault _ _)
  · split
    · exact calm_also fixed (calm_fault _ _)
    · exact fixed

theorem calm_readsFx {s : State} {t bundle : Nat} {await : Bool} {rows : List (Nat × Nat)}
    (h : ∀ r ∈ rows, addrSpace r.1 ≠ 1) : CalmFx (readsFx s t bundle await rows) := by
  have each : ∀ x : Fx, CalmFx x → CalmFx (rows.foldl (fun x r =>
      if await && !isLanded s r.1 then x else x.also (fetchFx s t r.1 bundle)) x) := by
    induction rows with
    | nil => exact fun x k => k
    | cons r rs ih =>
      intro x k
      refine ih (fun q hq => h q (List.mem_cons_of_mem _ hq)) _ ?_
      dsimp only
      split
      · exact k
      · exact calm_also k (calm_fetchFx (h r List.mem_cons_self))
  have all := each _ calm_none
  unfold readsFx
  extract_lets x
  split
  · exact ⟨⟨all.quiet.rows, all.quiet.fixes, all.quiet.asks, all.quiet.stalls⟩, all.counts⟩
  · exact all

/-! ## The send in flight -/

/-- The reads of a send that issues in cycle `c`: one row after another, as its sender is free. -/
def sendReads (op : SOp) (c : Nat) (rows : List Nat) : List (Nat × Nat) := rows.mapIdx fun i a => (a, c + rowBusy op * i)

/-- A send that issues in cycle `c`. -/
def sendItem (op : SOp) (f : SSlot) (t c : Nat) (s : State) (tile : Tile) (rows : List Nat) : InFlight where
  id := tile.ops
  work := .send op f
  issue := c
  bundle := tile.seq.bundle
  reads := readsOf s t f.await (sendReads op c rows)
  done := 0

theorem send_here {op : SOp} {t : Nat} {f : SSlot} {s : State}
    (own : (op == .side || op == .mesh) = true → foreign s t f.modl.toNat = false) :
    ((op == .side || op == .mesh) && foreign s t f.modl.toNat) = false := by
  cases k : (op == .side || op == .mesh) with
  | true => exact own k
  | false => rfl

/-- A send with a free sender joins those in flight, and keeps its sender busy for its rows. -/
theorem sendIssue_of_ok {op : SOp} {t c q : Nat} {f : SSlot} {s : State} {tile : Tile} {rows : List Nat}
    (sender : senderOf t op f = some q) (own : (op == .side || op == .mesh) = true → foreign s t f.modl.toNat = false)
    (free : tile.senders.getD q 0 ≤ c)
    (ok : operandRows s t tile f.sbase.toNat f.soff.toNat (sendRowsOf op f) [0, 3] 0 = .ok rows) :
    ∃ claims x, CalmFx x ∧ sendIssue op t c f s tile = ({ tile with
      claims := claims, pipe := tile.pipe ++ [sendItem op f t c s tile rows], ops := tile.ops + 1
      senders := tile.senders.set q (c + rowBusy op * sendRowsOf op f) }, x) := by
  have near : ∀ r ∈ sendReads op c rows, addrSpace r.1 ≠ 1 := by
    intro r hr
    obtain ⟨i, hi, rfl⟩ := List.mem_mapIdx.mp hr
    have k := space_of_operandRows ok (by decide) _ (List.getElem_mem hi)
    intro e
    rw [e] at k
    revert k
    decide
  have now : max c (tile.senders.getD q 0) = c := Nat.max_eq_left free
  have early : tile.senders.getD q 0 - c = 0 := Nat.sub_eq_zero_of_le free
  unfold sendIssue
  rw [sender, send_here own]
  dsimp only
  rw [early, stallFor_zero, now]
  dsimp only
  rw [ok]
  exact ⟨_, _, calm_also calm_none (calm_also (calm_readsFx near) (calm_claimFx _ _ _)), rfl⟩

/-- A send whose rows do not exist. -/
theorem sendIssue_of_error {op : SOp} {t c q a : Nat} {f : SSlot} {s : State} {tile : Tile}
    (sender : senderOf t op f = some q) (own : (op == .side || op == .mesh) = true → foreign s t f.modl.toNat = false)
    (free : tile.senders.getD q 0 ≤ c)
    (bad : operandRows s t tile f.sbase.toNat f.soff.toNat (sendRowsOf op f) [0, 3] 0 = .error a) :
    sendIssue op t c f s tile = (tile, Fx.fault 0x2004 (tileSite t a tile.seq.bundle 0)) := by
  have early : tile.senders.getD q 0 - c = 0 := Nat.sub_eq_zero_of_le free
  unfold sendIssue
  rw [sender, send_here own]
  dsimp only
  rw [early, stallFor_zero]
  dsimp only
  rw [bad]
  rfl

end Sys2Proof.Machine
end

section
/-! SUPPORT. The first row of a send leaves in its issue cycle, on a side link, on the mesh, to a link port or as a
broadcast word. -/

namespace Sys2Proof.Machine

open Sys2Proof Sys2Proof.Laws

/-! ## The row that leaves -/

/-- The read of the first row of a send that issues in cycle `c`. -/
def firstRead (f : SSlot) (t c a : Nat) (s : State) : RowRead where
  addr := a
  due := c
  slip := 0
  await := f.await
  val := some (readFrame s t a c)

theorem rowBusy_pos (op : SOp) : 0 < rowBusy op := by
  cases op <;> decide

theorem takeWhile_eq_nil_of_none {α : Type} {g : α → Bool} {l : List α} (h : ∀ x ∈ l, g x = false) : l.takeWhile g = [] := by
  cases l with
  | nil => rfl
  | cons x xs => rw [List.takeWhile_cons, h x List.mem_cons_self, if_neg Bool.false_ne_true]

/-- Of a send that issues only the first row is read in its issue cycle. -/
theorem rowsDue_sendItem {op : SOp} {f : SSlot} {t c a : Nat} {s : State} {tile : Tile} {rest : List Nat}
    (landed : f.await = true → isLanded s a = true) :
    rowsDue c (sendItem op f t c s tile (a :: rest)) = [(0, firstRead f t c a s, readFrame s t a c)] := by
  have head : (sendItem op f t c s tile (a :: rest)).reads = firstRead f t c a s ::
      readsOf s t f.await (rest.mapIdx fun i x => (x, c + rowBusy op * (i + 1))) := by
    simpa [sendItem, sendReads, readsOf, firstRead, List.mapIdx_cons] using landed
  have later : ∀ x ∈ (readsOf s t f.await (rest.mapIdx fun i x => (x, c + rowBusy op * (i + 1)))).zipIdx 1,
      (decide (x.1.due ≤ c) && x.1.val.isSome) = false := by
    intro x hx
    obtain ⟨r, hr, hd⟩ := List.mem_map.mp (List.fst_mem_of_mem_zipIdx hx)
    obtain ⟨i, hi, rfl⟩ := List.mem_mapIdx.mp hr
    have late : ¬ c + rowBusy op * (i + 1) ≤ c := Nat.not_le.mpr (Nat.lt_add_of_pos_right (Nat.mul_pos (rowBusy_pos op) (Nat.succ_pos i)))
    rw [← hd]
    exact (congrArg (· && _) (decide_eq_false late)).trans (Bool.false_and _)
  rw [rowsDue, head]
  have undone : (sendItem op f t c s tile (a :: rest)).done = 0 := rfl
  rw [undone, List.drop_zero, List.zipIdx_cons, List.takeWhile_cons, takeWhile_eq_nil_of_none later]
  simp [firstRead]

/-- A send that is alone in flight and has its first row to leave. -/
theorem flushSends_of_first {t c : Nat} {s : State} {op : SOp} {f : SSlot} {p : InFlight} {r : RowRead} {row : RowFrame}
    (alone : (tileAt s t).pipe = [p]) (work : p.work = .send op f) (fresh : p.done = 0) (due : rowsDue c p = [(0, r, row)]) :
    flushSends t c s = rowLeaves t op f p.issue 0 r.due r row (tileSet t { tileAt s t with
      pipe := if p.reads.length ≤ 1 then [] else [{ p with done := 1 }] } s) := by
  have ready : firstReady (sendDue c) (tileAt s t).pipe = some (0, p, op, f, [(0, r, row)]) := by
    rw [alone, firstReady, sendDue, work]
    dsimp only
    rw [due]
    rfl
  rw [flushSends, alone]
  show flushOne t c s = _
  rw [flushOne]
  dsimp only
  rw [ready]
  dsimp only
  rw [fresh, alone]
  rfl

/-! ## Rows on the network -/

/-- A row is on the network: one like it, due no earlier; the row itself, where no clash can delay it. -/
def Carried (r : NetRow) (rows : List NetRow) : Prop :=
  ∃ x ∈ rows, x.dst = r.dst ∧ x.hdr = r.hdr ∧ x.row = r.row ∧ x.inp = r.inp ∧ r.due ≤ x.due ∧ (r.flits = [] → x = r)

theorem net_countEvent (v c now : Nat) (s : State) : (countEvent v c now s).net = s.net := by
  unfold countEvent
  dsimp only
  split <;> rfl

theorem net_bump (i j n : Nat) (s : State) : (bump i j n s).net = s.net := by
  unfold bump
  split <;> rfl

/-- A row at another place, or the row that took its place, is as far. -/
theorem carried_set {r r0 x : NetRow} {rows : List NetRow} {i : Nat} (at_ : rows[i]? = some r0) (same : x.dst = r0.dst)
    (hdr : x.hdr = r0.hdr) (row : x.row = r0.row) (inp : x.inp = r0.inp) (due : r0.due ≤ x.due) (still : r0.flits = [] → x = r0)
    (h : Carried r rows) : Carried r (rows.set i x) := by
  obtain ⟨y, hy, e1, e2, e3, e6, e4, e5⟩ := h
  obtain ⟨j, hj, rfl⟩ := List.mem_iff_getElem.mp hy
  by_cases here : i = j
  · subst here
    have e0 : r0 = rows[i] := Option.some.inj (at_.symm.trans (List.getElem?_eq_getElem hj))
    refine ⟨x, List.mem_set hj x, ?_⟩
    rw [same, hdr, row, inp, e0]
    refine ⟨e1, e2, e3, e6, by rw [e0] at due; omega, fun k => ?_⟩
    have alike := e5 k
    rw [still (by rw [e0, alike, k]), e0, alike]
  · refine ⟨rows[j], ?_, e1, e2, e3, e6, e4, e5⟩
    have kept : (rows.set i x)[j]'(by simpa using hj) = rows[j] := List.getElem_set_ne here _
    exact kept ▸ List.getElem_mem _

theorem carried_waitClash {r : NetRow} (k : Clash) {s : State} (h : Carried r s.net.rows) :
    Carried r (waitClash k s).net.rows := by
  unfold waitClash
  split
  case h_1 => exact h
  case h_2 r0 at_ =>
    extract_lets r1 d
    have delayed : ∀ u : State, (delayHanded r0 d u).net = u.net := fun u => by
      unfold delayHanded
      split <;> rfl
    rw [delayed, countModule, net_countEvent, net_bump]
    refine carried_set at_ rfl rfl rfl rfl (Nat.le_add_right _ _) (fun none => ?_) h
    have same : r1 = r0 := by
      unfold r1
      rw [none, List.take_nil, List.drop_nil, pushFlits, List.append_nil, ← none]
    unfold d
    rw [same, Nat.sub_self, Nat.add_zero]

theorem aside_waitClash {b s : State} (k : Clash) (h : Aside b s) : Aside b (waitClash k s) := by
  unfold waitClash
  split
  · exact h
  · extract_lets r1 d
    unfold delayHanded
    split
    · exact aside_countModule _ _ (aside_bump 0x4000 0x10 1 h)
    · exact aside_linkSet _ _ (aside_countModule _ _ (aside_bump 0x4000 0x10 1 h))

theorem out_countEvent (v c now : Nat) (s : State) : (countEvent v c now s).out = s.out := by
  unfold countEvent
  dsimp only
  split <;> rfl

theorem out_bump (i j n : Nat) (s : State) : (bump i j n s).out = s.out := by
  unfold bump
  split <;> rfl

theorem out_waitClash (k : Clash) (s : State) : (waitClash k s).out = s.out := by
  unfold waitClash
  split
  · rfl
  · extract_lets r1 d
    have counted : ∀ u : State, (countModule 0x19 1 (bump 0x4000 0x10 1 u)).out = u.out := fun u => by
      rw [countModule, out_countEvent, out_bump]
    unfold delayHanded
    split
    · exact counted _
    · exact counted _

/-- What waiting at clashes keeps, clashes in their order keep. -/
theorem keeps_settleClashes {P : State → Prop} (step : ∀ k s, P s → P (waitClash k s)) (n : Nat) (s : State) (h : P s) :
    P (settleClashes n s) := by
  induction n generalizing s with
  | zero => exact h
  | succ n ih =>
    unfold settleClashes
    split
    · exact h
    · exact ih _ (step _ _ h)

theorem aside_netSend {b s : State} (r : NetRow) (h : Aside b s) : Aside b (netSend r s) :=
  keeps_settleClashes (fun k _ => aside_waitClash k) _ _ h

theorem out_netSend (r : NetRow) (s : State) : (netSend r s).out = s.out :=
  keeps_settleClashes (P := fun u => u.out = s.out) (fun k u h => (out_waitClash k u).trans h) _ _ rfl

theorem carried_netSend (r : NetRow) (s : State) : Carried r (netSend r s).net.rows :=
  keeps_settleClashes (P := fun u => Carried r u.net.rows) (fun k _ => carried_waitClash k) _ _
    ⟨r, List.mem_append_right _ (List.mem_singleton_self r), rfl, rfl, rfl, rfl, Nat.le_refl _, fun _ => rfl⟩

end Sys2Proof.Machine
end

section
/-! SUPPORT. What a row of a send changes as it leaves, and the sends of the S slot settled. -/

namespace Sys2Proof.Machine

open Sys2Proof Sys2Proof.Laws

/-! ## A row leaves -/

section
variable {t issue i due : Nat} {op : SOp} {f : SSlot} {r : RowRead} {row : RowFrame} {s : State}

/-- The state with the digests of the tile having taken the row. -/
def digested (t due : Nat) (r : RowRead) (row : RowFrame) (s : State) : State :=
  tileSet t (sendDigests s t r.addr due row.data (tileAt s t)) s

/-- A row that leaves by a link or the mesh changes, beside the digests of its tile, nothing but the network and what
counts. -/
theorem aside_rowLeaves (h : op ≠ .publish) : Aside (digested t due r row s) (rowLeaves t op f issue i due r row s) := by
  cases op with
  | publish => exact absurd rfl h
  | side => exact aside_countTile _ _ _ _ (aside_netSend _ (aside_emit _ (Aside.refl _)))
  | mesh => exact aside_countTile _ _ _ _ (aside_netSend _ (aside_emit _ (Aside.refl _)))
  | selvedge => exact aside_countTile _ _ _ _ (aside_netSend _ (aside_linkSet _ _ (Aside.refl _)))

theorem aside_sendNotice (ntype nitems sp gseq first scan : Nat) (items : Bytes) (s : State) :
    Aside s (sendNotice ntype nitems sp gseq first scan items s) := aside_inject _ _ _ _ (Aside.refl s)

/-- A broadcast word that leaves changes, beside the hold unit, nothing but the treadle and what counts. -/
theorem aside_rowLeaves_publish : Aside { s with hold := (rowLeaves t .publish f issue i due r row s).hold }
    (rowLeaves t .publish f issue i due r row s) := by
  have sent : ∀ (word : Nat) (value : BitVec 64) (p : Nat) (u : State), Aside s u →
      Aside { s with hold := (takeWord word value p u).hold } (takeWord word value p u) := by
    intro word value p u h
    unfold takeWord
    dsimp only
    split
    · have raised := aside_raiseFault 0x6002 (unitSite 4 0 0 word) h
      rw [raised.hold]
      exact raised
    · exact Aside.withHold h _
  exact sent _ _ _ _ (aside_sendNotice 4 1 _ 0 0 0 _ _)

/-- What a row that leaves does not change: the rows, the other tiles, of its tile all but the digests. -/
theorem rowLeaves_frame : (∀ b, rowGet (rowLeaves t op f issue i due r row s) b = rowGet s b) ∧
    (∀ u, u ≠ t → tileAt (rowLeaves t op f issue i due r row s) u = tileAt s u) ∧
    ∃ ds, tileAt (rowLeaves t op f issue i due r row s) t = { tileAt s t with digests := ds } := by
  by_cases h : op = .publish
  · subst h
    have k := aside_rowLeaves_publish (t := t) (issue := issue) (i := i) (due := due) (f := f) (r := r) (row := row) (s := s)
    exact ⟨fun b => k.rowGet b, fun u _ => k.tileAt u, _, k.tileAt t⟩
  · have k := aside_rowLeaves (t := t) (issue := issue) (i := i) (due := due) (f := f) (r := r) (row := row) (s := s) h
    refine ⟨fun b => k.rowGet b, fun u hu => ?_, (sendDigests s t r.addr due row.data (tileAt s t)).digests, ?_⟩
    · rw [k.tileAt, digested, tileAt_tileSet, if_neg hu]
    · rw [k.tileAt, digested, tileAt_tileSet_same]
      rfl

end

/-! ## The first row of a send that issues -/

/-- The rows listed at the links once a hand-off that issues in cycle `l` is known to its port. -/
def handedTo (s : State) (t l : Nat) (f : SSlot) (k : Nat) : List Handed :=
  if k = (handOff s t l f).2 then (linkAt s k).handed ++ (handOff s t l f).1 else (linkAt s k).handed

/-- The state in which the first row of a send leaves: `u`, of which the tile has the send in flight, that row done. -/
structure Issued (op : SOp) (t : TileIx) (c q : Nat) (a : Nat) (rest : List Nat) (f : SSlot) (s u : State) : Prop where
  frame   : SlotFrame s u t.val c
  same    : op ≠ .selvedge → SameCalm s u
  handed  : op = .selvedge → calm u = { calm s with handed := handedTo s t.val ((tileAt s t.val).count c) f }
  stops   : (tileAt u t.val).stops = (tileAt s t.val).stops
  senders : (tileAt u t.val).senders =
    (found t.val c s).2.senders.set q ((tileAt s t.val).count c + rowBusy op * sendRowsOf op f)
  behind  : (tileAt u t.val).seq.behind = (tileAt s t.val).seq.behind
  works   : (steady (tileAt u t.val)).works = if rest = [] then [] else [(.send op f, 1, a :: rest)]
  leaves  : sSlot op t c f s = rowLeaves t.val op f ((tileAt s t.val).count c) 0 ((tileAt s t.val).count c)
    (firstRead f t.val ((tileAt s t.val).count c) a (found t.val c s).1)
    (readFrame (found t.val c s).1 t.val a ((tileAt s t.val).count c)) u

/-- The list of rows handed to a link is all that a hand-off adds as it is noted. -/
theorem tileAt_noteHandOff (op : SOp) (t c : Nat) (f : SSlot) (s : State) (u : Nat) :
    tileAt (noteHandOff op t c f s) u = tileAt s u := by
  unfold noteHandOff
  split
  · dsimp only
    split <;> rfl
  · rfl

theorem apart_noteHandOff (op : SOp) (t c : Nat) (f : SSlot) (s : State) : Apart s (noteHandOff op t c f s) := by
  unfold noteHandOff
  split
  · dsimp only
    split <;> rfl
  · rfl

theorem rowGet_noteHandOff (op : SOp) (t c : Nat) (f : SSlot) (s : State) (b : Nat) :
    rowGet (noteHandOff op t c f s) b = rowGet s b := by
  unfold noteHandOff
  split
  · dsimp only
    split <;> rfl
  · rfl

theorem noteHandOff_of_ne {op : SOp} (h : op ≠ .selvedge) (t c : Nat) (f : SSlot) (s : State) : noteHandOff op t c f s = s := by
  unfold noteHandOff
  split
  · exact absurd rfl h
  · rfl

theorem handOff_of_apart {s u : State} {t l : Nat} {f : SSlot} (h : Apart s u)
    (behind : (tileAt u t).seq.behind = (tileAt s t).seq.behind) : handOff u t l f = handOff s t l f := by
  have entry : ∀ d i, sendEntry u d i = sendEntry s d i := fun d i => by rw [sendEntry, sendEntry, h.pattern]
  simp only [handOff, handedFrame, entry, h.sp, behind]

/-- A hand-off that is the last in flight is noted at its link. -/
theorem calm_noteHandOff {t l : Nat} {f : SSlot} {s : State} {p : InFlight} (last : (tileAt s t).pipe = [p])
    (work : p.work = .send .selvedge f) (issue : p.issue = l) :
    calm (noteHandOff .selvedge t l f s) = { calm s with handed := handedTo s t l f } := by
  have noted : noteHandOff .selvedge t l f s = linkSet (handOff s t l f).2 { linkAt s (handOff s t l f).2 with
      handed := (linkAt s (handOff s t l f).2).handed ++ (handOff s t l f).1 } s := by
    unfold noteHandOff
    rw [last]
    dsimp only [List.getLast?_singleton]
    rw [if_pos (by simp [work, issue]), issue]
  have handed : (fun k => (linkAt (noteHandOff .selvedge t l f s) k).handed) = handedTo s t l f := by
    funext k
    rw [noted, linkAt_linkSet, handedTo]
    split
    case isTrue here => rw [here]
    case isFalse => rfl
  exact (congrArg (fun g => { calm (noteHandOff .selvedge t l f s) with handed := g }) handed).trans (by rw [noted])

section
variable {op : SOp} {t : TileIx} {c q a : Nat} {rest : List Nat} {f : SSlot} {s : State}

theorem sSlot_of_ok (h : tileIssues s t.val c = true) (empty : (tileAt s t.val).pipe = [])
    (sender : senderOf t.val op f = some q)
    (own : (op == .side || op == .mesh) = true → foreign (found t.val c s).1 t.val f.modl.toNat = false)
    (free : (tileAt s t.val).senders.getD q 0 ≤ (tileAt s t.val).count c)
    (landed : f.await = true → isLanded (found t.val c s).1 a = true)
    (ok : operandRows (found t.val c s).1 t.val (found t.val c s).2 f.sbase.toNat f.soff.toNat (sendRowsOf op f) [0, 3] 0 =
      .ok (a :: rest)) : ∃ u, Issued op t c q a rest f s u := by
  obtain ⟨stops, senders⟩ := Prod.mk.inj (clocks_found t.val c s)
  obtain ⟨claims, x, calm, run⟩ := sendIssue_of_ok (c := (tileAt s t.val).count c) sender own (senders ▸ free) ok
  have frame := slotFrame_slotIssue (f := fun l => sendIssue op t.val l f) h (congrArg (·.2.rows) run |>.trans calm.quiet.rows)
  have tile := tileAt_slotIssue (f := fun l => sendIssue op t.val l f) h run calm.quiet
  have same := sameCalm_slotIssue (f := fun l => sendIssue op t.val l f) h run calm.quiet calm.counts
  rw [pipe_found c empty, List.nil_append] at tile
  have issue := sSlot_of_issues (op := op) (f := f) h empty
  generalize slotIssue t c (fun l => sendIssue op t.val l f) s = s2 at frame tile same issue
  have noted := tileAt_noteHandOff op t.val ((tileAt s t.val).count c) f s2
  have alone : (tileAt (noteHandOff op t.val ((tileAt s t.val).count c) f s2) t.val).pipe =
      [sendItem op f t.val ((tileAt s t.val).count c) (found t.val c s).1 (found t.val c s).2 (a :: rest)] := by
    rw [noted, tile]
  rw [flushSends_of_first alone rfl rfl (rowsDue_sendItem landed)] at issue
  obtain ⟨only, others, rows⟩ := frame
  refine ⟨_, ⟨?_, fun u hu => ?_, fun b => ?_⟩, fun k => ?_, fun k => ?_, ?_, ?_, ?_, ?_, issue⟩
  · exact (apart_tileSet _ _ ((apart_noteHandOff op t.val _ f s2).after (apart_of_onlyTiles only))).onlyTiles
  · rw [tileAt_tileSet, if_neg hu, noted, others u hu]
  · rw [rowGet_tileSet, rowGet_noteHandOff, rows b]
  · rw [noteHandOff_of_ne k]
    exact same
  · subst k
    refine (calm_noteHandOff (l := (tileAt s t.val).count c) (by rw [tile]) rfl rfl).trans ?_
    have list := handOff_of_apart (l := (tileAt s t.val).count c) (f := f) (apart_of_onlyTiles only)
      (by rw [tile]; exact behind_found t.val c s)
    have before : (fun k => (linkAt s2 k).handed) = fun k => (linkAt s k).handed := congrArg Calm.handed same
    have handed : handedTo s2 t.val ((tileAt s t.val).count c) f = handedTo s t.val ((tileAt s t.val).count c) f := by
      funext k
      rw [handedTo, handedTo, list, show (linkAt s2 k).handed = _ from congrFun before k]
    rw [handed, same]
  · rw [tileAt_tileSet_same, noted, tile]
    exact stops
  · rw [tileAt_tileSet_same, noted, tile]
  · rw [tileAt_tileSet_same, noted, tile]
    exact behind_found t.val c s
  · rw [tileAt_tileSet_same]
    have addrs : (sendItem op f t.val ((tileAt s t.val).count c) (found t.val c s).1 (found t.val c s).2 (a :: rest)).reads.map
        (·.addr) = a :: rest := by
      rw [sendItem, addr_readsOf, sendReads, map_fst_mapIdx]
    have count := congrArg List.length addrs
    rw [List.length_map, List.length_cons] at count
    cases rest with
    | nil =>
      rw [if_pos rfl, if_pos (by rw [count]; exact Nat.le_refl 1)]
      rfl
    | cons b rest =>
      rw [if_neg (List.cons_ne_nil _ _), if_neg (by rw [count, List.length_cons]; omega)]
      exact congrArg (fun l => [((Work.send op f), 1, l)]) addrs

end

end Sys2Proof.Machine
end

section
/-! SUPPORT. The sends of the S slot settled: where the first row of each arrives, and when. -/

namespace Sys2Proof.Machine

open Sys2Proof Sys2Proof.Laws

/-! ## What the times of a send depend on -/

theorem cycleOf_of_stops {v tile : Tile} (h : v.stops = tile.stops) (l : Nat) : v.cycleOf l = tile.cycleOf l := by
  rw [Tile.cycleOf, Tile.cycleOf, h]

theorem profile_of_apart {s u : State} (h : Apart s u) : profile u = profile s := by
  rw [profile, profile, h.pattern, h.ident]

/-- The state of repair of the mesh is the same. -/
def SameMesh (s u : State) : Prop := u.integrity.shifts = s.integrity.shifts ∧ u.net.routers = s.net.routers

theorem sameMesh_of_calm {s u : State} (h : SameCalm s u) : SameMesh s u :=
  ⟨congrArg Calm.shifts h, congrArg Calm.routers h⟩

theorem pathPhys_of_mesh {s u : State} (h : SameMesh s u) (a b : Nat) : pathPhys u a b = pathPhys s a b := by
  rw [pathPhys, pathPhys, h.1, h.2]

theorem padHops_of_mesh {s u : State} (h : SameMesh s u) (a b : Nat) : padHops u a b = padHops s a b := by
  rw [padHops, padHops, pathPhys_of_mesh h]

theorem flightLat_of_mesh {s u : State} (h : SameMesh s u) (k : Apart s u) (a b : Nat) : flightLat u a b = flightLat s a b := by
  rw [flightLat, flightLat, profile_of_apart k, pathPhys_of_mesh h]

theorem Apart.withHold {b s : State} (k : Apart b s) (h : Hold) : Apart { b with hold := h } { s with hold := h } :=
  congrArg (fun r : ApartRest => { r with hold := h }) k

section
variable {op : SOp} {t : TileIx} {c q a : Nat} {rest : List Nat} {f : SSlot} {s u : State}

theorem Issued.apart (h : Issued op t c q a rest f s u) : Apart s u := apart_of_onlyTiles h.frame.1

/-- What the first row of a send leaves: no row of memory changed, the others of its rows in flight. -/
theorem Issued.left (h : Issued op t c q a rest f s u) :
    (∀ b, rowGet (sSlot op t c f s) b = rowGet (found t.val c s).1 b) ∧
      (steady (tileAt (sSlot op t c f s) t.val)).works = (if rest = [] then [] else [(.send op f, 1, a :: rest)]) ∧
      (tileAt (sSlot op t c f s) t.val).senders =
        (found t.val c s).2.senders.set q ((tileAt s t.val).count c + rowBusy op * sendRowsOf op f) ∧
      ∀ v : TileIx, v ≠ t → steady (tileAt (sSlot op t c f s) v.val) = steady (tileAt s v.val) := by
  obtain ⟨⟨-, others, rows⟩, -, -, -, senders, -, works, leaves⟩ := h
  rw [leaves]
  obtain ⟨kept, beside, ds, mine⟩ := rowLeaves_frame (t := t.val) (op := op) (f := f) (i := 0)
    (issue := (tileAt s t.val).count c) (due := (tileAt s t.val).count c) (s := u)
    (r := firstRead f t.val ((tileAt s t.val).count c) a (found t.val c s).1)
    (row := readFrame (found t.val c s).1 t.val a ((tileAt s t.val).count c))
  refine ⟨fun b => (kept b).trans (rows b), ?_, ?_, fun v hv => ?_⟩
  · rw [mine]
    exact works
  · rw [mine]
    exact senders
  · rw [beside v (Fin.val_ne_of_ne hv)]
    exact others v (Fin.val_ne_of_ne hv)

theorem Issued.onlyTiles (h : Issued op t c q a rest f s u) (ne : op ≠ .publish) : OnlyTiles s (sSlot op t c f s) := by
  rw [h.leaves]
  exact ((aside_rowLeaves ne).apart.after (apart_tileSet _ _ h.apart)).onlyTiles

end

/-- A row on a side link lands at the latency of the link; no clash delays it. -/
theorem side_of_issued {t : TileIx} {c q a : Nat} {rest : List Nat} {f : SSlot} {s u : State}
    (h : Issued .side t c q a rest f s u) :
    let l := (tileAt s t.val).count c
    let row := readFrame (found t.val c s).1 t.val a l
    let dst := 24 * f.dy.toNat + f.dx.toNat
    let woff := f.soff.toNat % 128
    .sideRow t.val dst (sideCycles f.window.toNat woff row) ∈ (sSlot .side t c f s).out ∧
      ∃ r ∈ (sSlot .side t c f s).net.rows, r.dst = dst ∧
        r.hdr = { window := f.window.toNat, woff := woff, seq := 0, landSp := 0 } ∧ r.row = row ∧
        r.due = (tileAt s t.val).cycleOf l + Config.sideLanding (profile s) := by
  intro l row dst woff
  rw [h.leaves, rowLeaves, countTile, out_countEvent, net_countEvent, out_netSend]
  refine ⟨List.mem_append_right _ (List.mem_singleton_self _), ?_⟩
  obtain ⟨x, hx, -, -, -, -, -, same⟩ := carried_netSend _ _
  refine ⟨x, hx, ?_⟩
  rw [same rfl]
  refine ⟨rfl, rfl, rfl, ?_⟩
  rw [cycleOf_of_stops h.stops, profile_of_apart h.apart]

/-- A row on the mesh lands no earlier than the latency of its path and its pad. -/
theorem mesh_of_issued {t : TileIx} {c q a : Nat} {rest : List Nat} {f : SSlot} {s u : State}
    (h : Issued .mesh t c q a rest f s u) :
    let l := (tileAt s t.val).count c
    let row := readFrame (found t.val c s).1 t.val a l
    let dst := 24 * f.dy.toNat + f.dx.toNat
    let woff := f.soff.toNat % 128
    let h : Route := { classB := false, kind := 0, dx := f.dx, dy := f.dy, sx := BitVec.ofNat 5 (tileX t)
                       sy := BitVec.ofNat 5 (tileY t), window := f.window, woff := BitVec.ofNat 7 woff
                       pad := BitVec.ofNat 3 (padHops s t dst), act := 0, gen := 0 }
    let lat := flightLat s t dst + Config.meshHop * h.pad.toNat
    .meshRow t.val dst (rowFlits h row) lat ∈ (sSlot .mesh t c f s).out ∧
      ∃ r ∈ (sSlot .mesh t c f s).net.rows, r.dst = dst ∧
        r.hdr = { window := f.window.toNat, woff := woff, seq := 0, landSp := 0 } ∧ r.row = row ∧
        (tileAt s t.val).cycleOf l + lat ≤ r.due := by
  intro l row dst woff route lat
  have same : SameMesh s u := sameMesh_of_calm (h.same (by decide))
  rw [h.leaves, rowLeaves, countTile, out_countEvent, net_countEvent, out_netSend]
  dsimp only
  rw [padHops_of_mesh same, flightLat_of_mesh same h.apart]
  refine ⟨List.mem_append_right _ (List.mem_singleton_self _), ?_⟩
  obtain ⟨x, hx, e1, e2, e3, -, late, -⟩ := carried_netSend _ _
  refine ⟨x, hx, e1, e2, e3, ?_⟩
  rw [← Nat.add_assoc, ← flightLat_of_mesh same h.apart, ← cycleOf_of_stops h.stops]
  exact late

/-- A publication is driven out and its word is pending for the admission horizon from its pick. -/
theorem publish_of_issued {t : TileIx} {c q a : Nat} {rest : List Nat} {f : SSlot} {s u : State}
    (h : Issued .publish t c q a rest f s u) :
    let w := f.window.toNat % 16
    let p := s.sp - (tileAt s t.val).seq.behind
    let v := BitVec.ofNat 64 (leAt (readFrame (found t.val c s).1 t.val a ((tileAt s t.val).count c)).data 0 8)
    (w, p + admitHorizon s) ∉ s.treadle.got →
      OnlyTiles { s with hold := (sSlot .publish t c f s).hold } (sSlot .publish t c f s) ∧
      .publish t.val w v ∈ (sSlot .publish t c f s).out ∧
      { word := w, value := v, effect := p + admitHorizon s } ∈ (sSlot .publish t c f s).treadle.pending := by
  intro w p v new
  have run : sSlot .publish t c f s = publishNow t.val w v p (emit (.publish t.val w v) u) := by
    rw [h.leaves, rowLeaves, h.apart.sp, h.behind]
    rfl
  have told : SameCalm s (sendNotice 4 1 p 0 0 0 (wordItem w v (ownCoord (emit (.publish t.val w v) u)) t.val)
      (emit (.publish t.val w v) u)) := by
    refine sameCalm_inject _ _ _ _ ?_
    exact h.same (by decide)
  refine ⟨?_, ?_, ?_⟩
  · rw [h.leaves]
    exact (aside_rowLeaves_publish.apart.after (Apart.withHold h.apart _)).onlyTiles
  · rw [run]
    exact (kept_publishNow t.val w v p (Kept.refl _)).out.subset (List.mem_append_right _ (List.mem_singleton_self _))
  · rw [run, publishNow]
    generalize sendNotice 4 1 p 0 0 0 _ _ = n at told
    have got : n.treadle.got = s.treadle.got := congrArg Calm.got told
    have ahead : admitHorizon n = admitHorizon s := congrArg Calm.ahead told
    unfold takeWord
    rw [ahead, got]
    dsimp only
    rw [if_neg (fun k => new (List.contains_iff_mem.mp k))]
    exact List.mem_append_right _ (List.mem_singleton_self _)

/-- Settles O30, by the state in which the first row of a send leaves. -/
theorem sendsLeaveAtTheirSender : Obligations.SendsLeaveAtTheirSender := by
  intro t c a q rest f s h empty s1 tile l c1 row dst woff hdr rows legal sends left
  have issued : ∀ op, sends op → ∃ u, Issued op t c q a rest f s u := by
    intro op ⟨⟨sender, free, own⟩, landed, ok⟩
    exact sSlot_of_ok h empty sender (fun k => own (by cases op <;> simp_all)) free landed ok
  refine ⟨fun k => ?_, fun k => ?_, fun k => ?_, fun i op e inv mem legal bad => ?_⟩
  · obtain ⟨u, hu⟩ := issued _ k
    obtain ⟨out, row⟩ := side_of_issued hu
    exact ⟨_, rfl, hu.onlyTiles (by decide), hu.left, out, row⟩
  · obtain ⟨u, hu⟩ := issued _ k
    obtain ⟨out, row⟩ := mesh_of_issued hu
    exact ⟨_, rfl, hu.onlyTiles (by decide), hu.left, out, row⟩
  · intro w p new
    obtain ⟨u, hu⟩ := issued _ k
    obtain ⟨only, out, word⟩ := publish_of_issued hu new
    exact ⟨_, rfl, only, hu.left, out, word⟩
  · obtain ⟨sender, free, own⟩ := legal
    have run : exec i s = .next (sSlot op t c f s) := by
      simp only [List.mem_cons, Prod.mk.injEq, List.not_mem_nil, or_false] at mem
      obtain ⟨rfl, rfl⟩ | ⟨rfl, rfl⟩ | ⟨rfl, rfl⟩ | ⟨rfl, rfl⟩ := mem <;> rfl
    have senders : tile.senders = (tileAt s t.val).senders := (Prod.mk.inj (clocks_found t.val c s)).2
    have fails := sendIssue_of_error (c := l) sender (fun k => own (by cases op <;> simp_all)) (senders ▸ free) bad
    obtain ⟨⟨r, rec, code⟩, ⟨only, -, kept⟩, pipe, -⟩ := sSlot_of_fault inv h empty fails (by decide)
    exact ⟨_, run, only, ⟨[r], rec, r, List.mem_singleton_self r, code⟩, pipe, kept⟩

end Sys2Proof.Machine
end

section
/-! SUPPORT. A hand-off to a link port (R232, R234): its rows in the list of the port, the first on its way there. -/

namespace Sys2Proof.Machine

open Sys2Proof Sys2Proof.Laws

/-- A row alone on the network meets no other. -/
theorem firstClash_alone (r : NetRow) : firstClash [r] = none := by
  have own : ∀ x ∈ allClaims [r], x.1 = 0 := by
    intro x hx
    simp only [allClaims, List.zipIdx_cons, List.zipIdx_nil, List.flatMap_cons, List.flatMap_nil, List.append_nil,
      List.mem_flatMap, List.mem_map] at hx
    obtain ⟨_, _, _, _, rfl⟩ := hx
    rfl
  have none : ((allClaims [r]).filterMap fun x =>
      if (allClaims [r]).any fun y => y.1 != x.1 && y.2.2.2.out == x.2.2.2.out && y.2.2.2.cycle == x.2.2.2.cycle
          && (decide (y.2.2.2.order < x.2.2.2.order) || y.2.2.2.order == x.2.2.2.order && decide (y.1 < x.1))
      then some ({ cycle := x.2.2.2.cycle, row := x.1, flit := x.2.1, place := x.2.2.1 } : Clash) else none) = [] := by
    refine List.filterMap_eq_nil_iff.mpr fun x hx => if_neg fun clash => ?_
    obtain ⟨y, hy, meet⟩ := List.any_eq_true.mp clash
    simp [own x hx, own y hy] at meet
  rw [firstClash, none]
  rfl

/-- A row that is sent while no other is on the network is on it alone. -/
theorem netSend_alone {s : State} (r : NetRow) (h : s.net.rows = []) :
    netSend r s = { s with net := { s.net with rows := [r] } } := by
  unfold netSend
  extract_lets rows
  have alone : rows = [r] := by
    unfold rows
    rw [h]
    rfl
  rw [alone, settleClashes]
  dsimp only
  rw [firstClash_alone]

/-- Of the rows of a hand-off the offset of the first alone is that of the first. -/
theorem woff_eq_first_iff {a i : Nat} (h : i < 128) : (a + i) % 128 = (a + 0) % 128 ↔ i = 0 := by
  omega

theorem links_countEvent (v c now : Nat) (s : State) : (countEvent v c now s).links = s.links := by
  unfold countEvent
  dsimp only
  split <;> rfl

/-- A handed row as its tile has read it: it reaches its port in cycle `ready`. -/
def readOut (t issue woff ready : Nat) (row : RowFrame) (h : Handed) : Handed :=
  if h.tile = t && h.issue = issue && h.woff = woff then
    { h with ready := some ready, frame := { h.frame with row := row } }
  else h

/-- A row of a hand-off that leaves while no other is on the network is read out in the list of its port. -/
theorem handed_rowLeaves {t issue i due l : Nat} {f : SSlot} {r : RowRead} {row : RowFrame} {s : State}
    (port : bits (sendEntry s (dieOf t).val (f.dx.toNat * 32 + f.dy.toNat)) 58 6 = l) (alone : s.net.rows = []) :
    (linkAt (rowLeaves t .selvedge f issue i due r row s) l).handed = (linkAt s l).handed.map
      (readOut t issue ((f.soff.toNat + i) % 128) ((tileAt s t).cycleOf due + flightLat s t (attachTile l) +
        Config.meshHop * padHops s t (attachTile l)) row) := by
  subst port
  have sent : ∀ (k : NetRow) (u : State) (e n now l : Nat), u.net.rows = [] →
      linkAt (countTile t e n now (netSend k u)) l = linkAt u l := by
    intro k u e n now l h
    rw [netSend_alone k h, linkAt, countTile, links_countEvent]
    rfl
  refine (congrArg Link.handed (sent _ _ 0x29 1 _ _ ?_)).trans ?_
  · exact alone
  · rw [linkAt_linkSet_same]
    rfl

/-- Settles O31: the first of the rows listed is the row that leaves, and the network holds no other. -/
theorem handOffReachesItsPort : Obligations.HandOffReachesItsPort := by
  intro t c a rest f s h empty quiet s1 n e l u frame free landed ok others
  obtain ⟨v, hv⟩ := sSlot_of_ok (op := .selvedge) (q := 4) h empty rfl (fun k => by cases k) free landed ok
  have listed := hv.handed rfl
  have mesh : SameMesh s v := ⟨congrArg Calm.shifts listed, congrArg Calm.routers listed⟩
  have alone : v.net.rows = [] := (congrArg Calm.rows listed).trans quiet
  have handed : (linkAt v l).handed = (linkAt s l).handed ++ (handOff s t.val n f).1 := by
    have at_ := congrFun (congrArg Calm.handed listed) l
    exact at_.trans (if_pos rfl)
  have entry : sendEntry v (dieOf t.val).val (f.dx.toNat * 32 + f.dy.toNat) = e := by
    rw [sendEntry, hv.apart.pattern]
    rfl
  refine ⟨_, rfl, hv.onlyTiles (by decide), hv.left.1, ?_⟩
  have port : bits (sendEntry v (dieOf t.val).val (f.dx.toNat * 32 + f.dy.toNat)) 58 6 = l := by rw [entry]
  rw [hv.leaves, handed_rowLeaves port alone, handed, List.map_append, cycleOf_of_stops hv.stops,
    flightLat_of_mesh mesh hv.apart, padHops_of_mesh mesh]
  have old : (linkAt s l).handed.map (readOut t.val n ((f.soff.toNat + 0) % 128)
      ((tileAt s t.val).cycleOf n + flightLat s t.val u + Config.meshHop * padHops s t.val u) (readFrame s1 t.val a n)) =
      (linkAt s l).handed := by
    refine (List.map_congr_left fun h hh => ?_).trans (List.map_id _)
    exact if_neg (by simp [others h hh])
  refine congr (congrArg (· ++ ·) old) ?_
  rw [handOff]
  dsimp only
  rw [List.map_map]
  refine List.map_congr_left fun i hi => ?_
  have short : i < 128 := by
    have := List.mem_range.mp hi
    have := f.count.isLt
    omega
  have first : (decide (t.val = t.val) && decide (n = n) && decide ((f.soff.toNat + i) % 128 = (f.soff.toNat + 0) % 128)) =
      decide (i = 0) := by
    rw [decide_eq_true rfl, decide_eq_true rfl, Bool.true_and, Bool.true_and]
    exact decide_eq_decide.mpr (woff_eq_first_iff short)
  rw [Function.comp_apply, readOut, first]
  by_cases zero : i = 0
  · subst zero
    rfl
  · simp only [zero, decide_false, Bool.false_eq_true, if_false]
    rfl

end Sys2Proof.Machine
end

section
/-! SUPPORT. A row that lands in a tile with nothing in flight, and the digest row of a send descriptor (R273). -/

namespace Sys2Proof.Machine

open Sys2Proof Sys2Proof.Laws

/-! ## A row lands -/

/-- A tile with nothing in flight is one whose steady part has none. -/
theorem pipe_eq_nil_iff {t : Tile} : t.pipe = [] ↔ (steady t).works = [] := List.map_eq_nil_iff.symm

/-- Where nothing is in flight no read awaits the row: it is written and its landed bit set, and this counts. -/
theorem landRow_of_empty {t w a : Nat} {f : RowFrame} {s : State} (empty : (tileAt s t).pipe = []) :
    ∃ v, steady v = steady (tileAt s t) ∧ landRow t w a f s = itemLanded (.row a) (countTile t 0x2A 1 w (countTile t 2 0 w
      (countTile t 1 0 w (tileSet t v (landedSet a true (rowWrite t w a f s)))))) := by
  have same : steady (tileAt (rowWrite t w a f s) t) = steady (tileAt s t) := steadily_rowWrite t w a f (Steadily.refl s) t
  have still : (tileAt (landedSet a true (rowWrite t w a f s)) t).pipe = [] :=
    pipe_eq_nil_iff.mpr ((congrArg Steady.works same).trans (pipe_eq_nil_iff.mp empty))
  have prompt : ∀ l, lateFor a l (tileAt (landedSet a true (rowWrite t w a f s)) t) = 0 := fun l => by
    rw [lateFor, still]
    rfl
  have stays : ∀ m held u, holdTile t m 0 held u = u := fun _ _ _ => if_pos rfl
  have closed : ∀ u, (tileAt u t).pipe = [] → openIndex t u = u := fun u h => by
    unfold openIndex
    dsimp only
    rw [h]
    rfl
  have taken : (Tile.take a f (tileAt (landedSet a true (rowWrite t w a f s)) t)).pipe = [] := by
    rw [Tile.take, still]
    rfl
  refine ⟨Tile.take a f (tileAt (landedSet a true (rowWrite t w a f s)) t), ?_, ?_⟩
  · rw [Tile.take, still, List.map_nil, ← still]
    exact same
  · unfold landRow
    dsimp only
    rw [prompt, stays, closed]
    rw [(aside_countTile _ _ _ _ (aside_countTile _ _ _ _ (aside_countTile _ _ _ _ (Aside.refl _)))).tileAt, tileAt_tileSet_same]
    exact taken

/-- What a row that lands leaves: the row written and landed, every other row and what is steady of the tiles. -/
theorem landRow_frame {t w a : Nat} {f : RowFrame} {s : State} (empty : (tileAt s t).pipe = []) :
    isLanded (landRow t w a f s) a = true ∧
      (∀ b, rowGet (landRow t w a f s) b = if b = a then { f with data := slice f.data 0 512 } else rowGet s b) ∧
      ∀ u, steady (tileAt (landRow t w a f s) u) = steady (tileAt s u) := by
  obtain ⟨v, hv, run⟩ := landRow_of_empty (w := w) (a := a) (f := f) empty
  have counted := aside_countTile t 0x2A 1 w (aside_countTile t 2 0 w (aside_countTile t 1 0 w
    (Aside.refl (tileSet t v (landedSet a true (rowWrite t w a f s))))))
  rw [run]
  refine ⟨?_, fun b => ?_, fun u => ?_⟩
  · show mget true (countTile _ _ _ _ _).landed a = true
    rw [counted.landed]
    exact mget_mset_same (α := Bool) true _ a true
  · refine Eq.trans (counted.rowGet b) ?_
    exact rowGet_rowWrite t w a b f s
  · refine (congrArg steady (counted.tileAt u)).trans ?_
    have wrote := steadily_rowWrite t w a f (Steadily.refl s) u
    rw [tileAt_tileSet]
    split
    case isTrue here => rw [hv, here]
    case isFalse => exact wrote

/-! ## The digest row -/

section
variable {t : TileIx} {c : Nat} {i : Fin 8} {s : State}

theorem exec_digestRowWrite (h : issuing s = true) : exec (.digestRowWrite t c i) s = .next (writeDigest t.val c i.val s) :=
  congrArg Host.Outcome.next (if_pos h)

theorem writeDigest_of_none (empty : (tileAt s t.val).pipe = [])
    (none : ((tileAt s t.val).digests.filter (·.send))[i.val]? = none) : writeDigest t.val c i.val s = s := by
  unfold writeDigest
  rw [flushSends_of_empty _ empty]
  dsimp only
  rw [none]

theorem writeDigest_of_unripe {d : Digest} (empty : (tileAt s t.val).pipe = [])
    (named : ((tileAt s t.val).digests.filter (·.send))[i.val]? = some d)
    (unripe : ¬ (d.seen.length = d.n ∧ d.lastAt + 4 ≤ (tileAt s t.val).count c)) : writeDigest t.val c i.val s = s := by
  unfold writeDigest
  rw [flushSends_of_empty _ empty]
  dsimp only
  rw [named]
  exact if_neg (by simpa using unripe)

/-- The row that a digest's descriptor names. -/
def digestAt (s : State) (t : Nat) (d : Digest) : Nat :=
  rowAddr t (addrSpace (baseWord s t (tileAt s t) d.dbase)) (addrRow (baseWord s t (tileAt s t) d.dbase) + d.doff)

theorem digests_of_steady {v tile : Tile} (h : steady v = steady tile) : v.digests = tile.digests := congrArg Steady.digests h

/-- The digests of a tile with one begun anew. -/
def digestsAfter (d : Digest) (ds : List Digest) : List Digest := ds.map fun x => if x = d then x.fresh else x

theorem digestsAfter_eq (d : Digest) (ds : List Digest) : digestsAfter d ds = ds.map fun x => if x = d then d.fresh else x := by
  refine List.map_congr_left fun x _ => ?_
  split
  case isTrue here => rw [here]
  case isFalse => rfl

/-- A ripe descriptor writes its row to the state in which it has begun anew. -/
theorem writeDigest_of_ripe {d : Digest} (empty : (tileAt s t.val).pipe = [])
    (named : ((tileAt s t.val).digests.filter (·.send))[i.val]? = some d)
    (ripe : d.seen.length = d.n ∧ d.lastAt + 4 ≤ (tileAt s t.val).count c) :
    ∃ u w, (tileAt u t.val).pipe = [] ∧ (tileAt u t.val).digests = digestsAfter d (tileAt s t.val).digests ∧
      (∀ b, rowGet u b = rowGet s b) ∧
      writeDigest t.val c i.val s = landRow t.val w (digestAt s t.val d) (freshFrame (digestRow s t.val d) 0) u := by
  have form : ∃ fs v w, v.pipe = (tileAt s t.val).pipe ∧ v.digests = digestsAfter d (tileAt s t.val).digests ∧
      writeDigest t.val c i.val s = landRow t.val w (digestAt s t.val d) (freshFrame (digestRow s t.val d) 0)
        (raiseFaults fs (tileSet t.val v s)) := by
    unfold writeDigest
    rw [flushSends_of_empty _ empty]
    dsimp only
    rw [named]
    dsimp only
    rw [if_pos (by simpa using ripe)]
    generalize claimed : (tileAt s t.val).claim _ 0 _ = cl
    have pipe : cl.1.pipe = (tileAt s t.val).pipe := by rw [← claimed]; rfl
    have digests : cl.1.digests = (tileAt s t.val).digests := by rw [← claimed]; rfl
    refine ⟨_, { cl.1 with digests := digestsAfter d cl.1.digests }, _, pipe, congrArg (digestsAfter d) digests, rfl⟩
  obtain ⟨fs, v, w, pipe, digests, run⟩ := form
  have raised := aside_raiseFaults fs (Aside.refl (tileSet t.val v s))
  refine ⟨_, w, ?_, ?_, fun b => ?_, run⟩
  · rw [raised.tileAt, tileAt_tileSet_same, pipe, empty]
  · rw [raised.tileAt, tileAt_tileSet_same, digests]
  · rw [raised.rowGet, rowGet_tileSet]

end

theorem slice_slice_of_le {m n : Nat} (bs : Bytes) (h : m ≤ n) : slice (slice bs 0 n) 0 m = slice bs 0 m := by
  obtain ⟨k, rfl⟩ := Nat.exists_eq_add_of_le h
  rw [slice_eq _ _ _ (by rw [slice_length]; omega), List.drop_zero, take_slice]

theorem slice_append_left {n : Nat} {a b : Bytes} (h : a.length = n) : slice (a ++ b) 0 n = a := by
  rw [slice_eq _ _ _ (by rw [List.length_append]; omega), List.drop_zero, List.take_left' h]

theorem data_digestRow (s : State) (t : Nat) (d : Digest) : (freshFrame (digestRow s t d) 0).data = digestRow s t d := by
  rw [freshFrame, digestRow, slice_slice]

theorem slice_digestRow (s : State) (t : Nat) (d : Digest) : slice (digestRow s t d) 0 8 = leBytes 8 d.acc.toNat := by
  rw [digestRow, slice_slice_of_le _ (by decide)]
  simp only [List.append_assoc]
  rw [slice_append_left (leBytes_length 8 _)]

theorem leNat_leBytes_toNat (v : BitVec 64) : leNat (leBytes 8 v.toNat) = v.toNat := by
  rw [leNat_leBytes]
  exact Nat.mod_eq_of_lt (Nat.lt_of_lt_of_eq v.isLt (by decide))

theorem leAt_of_slice {bs : Bytes} {v : BitVec 64} (h : slice bs 0 8 = leBytes 8 v.toNat) : leAt bs 0 8 = v.toNat :=
  (congrArg leNat h).trans (leNat_leBytes_toNat v)

theorem leAt_digestRow (s : State) (t : Nat) (d : Digest) : leAt (digestRow s t d) 0 8 = d.acc.toNat :=
  leAt_of_slice (slice_digestRow s t d)

/-- Settles O38, by the row that lands. -/
theorem digestRowIsWrittenWhenComplete : Obligations.DigestRowIsWrittenWhenComplete := by
  intro t c i s issues empty tile ripe named
  refine ⟨fun d hd hr => ?_, fun d hd hr => ?_, fun hd => ?_⟩
  · intro w0 a
    obtain ⟨u, w, still, digests, rows, run⟩ := writeDigest_of_ripe empty hd hr
    obtain ⟨landed, written, steadily⟩ := landRow_frame (w := w) (a := digestAt s t.val d)
      (f := freshFrame (digestRow s t.val d) 0) still
    have here : rowGet (writeDigest t.val c i.val s) a = freshFrame (digestRow s t.val d) 0 := by
      rw [run, written, whole_freshFrame]
      exact if_pos rfl
    refine ⟨_, exec_digestRowWrite issues, ?_, here, ?_, ?_, fun b hb => ?_⟩
    · rw [run]
      exact landed
    · rw [here, data_digestRow]
      exact leAt_digestRow s t.val d
    · rw [run]
      exact ((digests_of_steady (steadily t.val)).trans digests).trans (digestsAfter_eq d _)
    · rw [run, written]
      exact (if_neg hb).trans (rows b)
  · rw [exec_digestRowWrite issues, writeDigest_of_unripe empty hd hr]
  · rw [exec_digestRowWrite issues, writeDigest_of_none empty hd]

end Sys2Proof.Machine
end

section
/-! SUPPORT. Packets that wait at their injection points (R219, R221), what crosses the mesh at once, failed bridge ports
(R216). -/

namespace Sys2Proof.Machine

open Sys2Proof Sys2Proof.Laws

/-! ## Nothing has crossed the mesh -/

/-- Where nothing has crossed the mesh no unit takes anything. -/
theorem settleArrived_of_none {s : State} (h : s.net.arrived = []) : settleArrived s = s := by
  have none : { s with net := { s.net with arrived := [] } } = s := by rw [← h]
  have landings : takeLandings s = s := by
    unfold takeLandings
    rw [h]
    exact none
  have staging : takeStaging s = s := by
    unfold takeStaging
    rw [h]
    exact none
  have words : takeWords s = s := by
    unfold takeWords
    rw [h]
    exact none
  have chains : passChains s = s := by
    unfold passChains
    rw [h]
    exact none
  have notices : takeNotices s = s := by
    unfold takeNotices
    rw [h]
    exact none
  have acks : sendAcks s = s := by
    unfold sendAcks
    rw [h]
    exact none
  rw [settleArrived, landings, staging, words, takeChains, chains, chains, chains, notices, acks]

theorem settleAll_of_none {s : State} (h : s.net.arrived = []) : settleAll s = s := by
  have none : { s with net := { s.net with arrived := [] } } = s := by rw [← h]
  rw [settleAll, settleArrived_of_none h]
  unfold takeSamples
  rw [h]
  exact none

/-! ## Injection -/

/-- A level in which nothing may go is passed over. -/
theorem injectLevels_of_spent {d v : Nat} {s : State} {r : List Nat}
    (h : ∀ x ∈ s.net.waiting.getD (3 * d + v) [], isSpent s d x.act = true) :
    injectLevels d s (v :: r) = injectLevels d s r := by
  have none : (s.net.waiting.getD (3 * d + v) []).findIdx? (fun w => !isSpent s d w.act) = none :=
    List.findIdx?_eq_none_iff.mpr fun x hx => by rw [h x hx]; rfl
  rw [injectLevels, none]

/-- In the first level with a packet that may go the first of these goes. -/
theorem injectLevels_of_first {d v i : Nat} {w : WaitB} {s : State} {r : List Nat}
    (at_ : (s.net.waiting.getD (3 * d + v) [])[i]? = some w) (may : isSpent s d w.act = false)
    (first : ∀ j x, j < i → (s.net.waiting.getD (3 * d + v) [])[j]? = some x → isSpent s d x.act = true) :
    injectLevels d s (v :: r) = some (3 * d + v, i, w) := by
  have found : (s.net.waiting.getD (3 * d + v) []).findIdx? (fun w => !isSpent s d w.act) = some i := by
    obtain ⟨hi, rfl⟩ := List.getElem?_eq_some_iff.mp at_
    refine List.findIdx?_eq_some_iff_getElem.mpr ⟨hi, by rw [may]; rfl, fun j hj => ?_⟩
    rw [first j _ hj (List.getElem?_eq_getElem (by omega))]
    exact Bool.false_ne_true
  rw [injectLevels, found]
  dsimp only
  rw [at_]

/-- Frames for links leave: each joins the class B queue of its port. -/
theorem departs_classB {items : List Output} (frames : ∀ o ∈ items, ∃ l b f, o = .classB l b f) (s : State) :
    (items.foldl depart s).net = s.net ∧ (items.foldl depart s).tick = s.tick ∧
      (∀ l x, x ∈ (linkAt s l).bulk → x ∈ (linkAt (items.foldl depart s) l).bulk) ∧
      ∀ l b f, .classB l b f ∈ items → (s.tick, b, f) ∈ (linkAt (items.foldl depart s) l).bulk := by
  induction items generalizing s with
  | nil => exact ⟨rfl, rfl, fun _ _ h => h, fun _ _ _ h => absurd h List.not_mem_nil⟩
  | cons o os ih =>
    obtain ⟨l, b, f, rfl⟩ := frames o List.mem_cons_self
    obtain ⟨net, tick, kept, there⟩ := ih (fun o ho => frames o (List.mem_cons_of_mem _ ho)) (depart s (.classB l b f))
    have queue : ∀ k, (linkAt (depart s (.classB l b f)) k).bulk =
        (linkAt s k).bulk ++ if k = l then [(s.tick, b, f)] else [] := by
      intro k
      rw [depart, linkAt_linkSet]
      split
      case isTrue here => rw [here]
      case isFalse => exact (List.append_nil _).symm
    refine ⟨net, tick, fun k x hx => kept k x ?_, fun k b' f' hm => ?_⟩
    · rw [queue]
      exact List.mem_append_left _ hx
    · obtain e | later := List.mem_cons.mp hm
      · cases e
        refine kept _ _ ?_
        rw [queue, if_pos rfl]
        exact List.mem_append_right _ (List.mem_singleton_self _)
      · exact there k b' f' later

/-- A packet of frames for links that may go leaves its injection point. -/
theorem injection_of_first {d : DieIx} {v i : Nat} {w : WaitB} {s : State} (level : v < 3)
    (at_ : (s.net.waiting.getD (3 * d.val + v) [])[i]? = some w) (may : isSpent s d w.act = false)
    (first : ∀ j x, j < i → (s.net.waiting.getD (3 * d.val + v) [])[j]? = some x → isSpent s d x.act = true)
    (above : ∀ u, u < v → ∀ x ∈ s.net.waiting.getD (3 * d.val + u) [], isSpent s d x.act = true) :
    injectNext d s = departAll d w { s with net := { s.net with
      waiting := s.net.waiting.set (3 * d.val + v) ((s.net.waiting.getD (3 * d.val + v) []).eraseIdx i) } } := by
  have chosen : injectLevels d s [0, 1, 2] = some (3 * d.val + v, i, w) := by
    obtain rfl | rfl | rfl : v = 0 ∨ v = 1 ∨ v = 2 := by omega
    · exact injectLevels_of_first at_ may first
    · rw [injectLevels_of_spent (above 0 (by decide))]
      exact injectLevels_of_first at_ may first
    · rw [injectLevels_of_spent (above 0 (by decide)), injectLevels_of_spent (above 1 (by decide))]
      exact injectLevels_of_first at_ may first
  rw [injectNext, chosen]

theorem exec_classBInjection {d : DieIx} {s u : State} (h : injectNext d.val s = u) (none : u.net.arrived = []) :
    exec (.classBInjection d) s = .next u := by
  refine congrArg Host.Outcome.next ?_
  rw [h, settleAll_of_none none]

/-! ## Bridge ports -/

/-- The state in which a bridge port is marked for repair. -/
def portMarked (pair port : Nat) (s : State) : State :=
  if s.integrity.markPorts.contains (pair, port) then s else
    tableWrite { s with integrity := { s.integrity with markPorts := s.integrity.markPorts ++ [(pair, port)] } }

theorem markPorts_tableWrite (s : State) : (tableWrite s).integrity.markPorts = s.integrity.markPorts := by
  unfold tableWrite
  split <;> rfl

theorem dies_tableWrite (s : State) : (tableWrite s).integrity.dies = s.integrity.dies := by
  unfold tableWrite
  split <;> rfl

theorem mem_portMarked (pair port : Nat) (s : State) : (pair, port) ∈ (portMarked pair port s).integrity.markPorts := by
  unfold portMarked
  split
  case isTrue h => exact List.contains_iff_mem.mp h
  case isFalse =>
    rw [markPorts_tableWrite]
    exact List.mem_append_right _ (List.mem_singleton_self _)

theorem dies_portMarked (pair port : Nat) (s : State) : (portMarked pair port s).integrity.dies = s.integrity.dies := by
  unfold portMarked
  split
  · rfl
  · rw [dies_tableWrite]

theorem aside_portMarked (pair port : Nat) (s : State) : Aside s (portMarked pair port s) := by
  unfold portMarked
  refine aside_ite rfl (aside_tableWrite ?_)
  rfl

theorem markPorts_raiseFault (code : Nat) (site : FaultSite) (s : State) :
    (raiseFault code site s).integrity.markPorts = s.integrity.markPorts := by
  have stopped : ∀ (c : BitVec 16) (o : Coord) (n : Nat) (u : State),
      (beginStop c o n u).integrity.markPorts = u.integrity.markPorts := by
    intro c o n u
    have sent : (sendFaults c o n u).integrity = u.integrity := (sent_sendFaults c o n (Sent.refl u)).integrity
    unfold beginStop
    dsimp only
    split <;> simp [objSet, sent]
  unfold raiseFault
  dsimp only
  split
  · exact stopped _ _ _ _
  · rfl

theorem die_portSite (p : Fin 4) (q : Nat) :
    (portSite p.val q).die.val = if p.val = 1 then 2 else if p.val = 3 then 1 else 0 := by
  obtain ⟨k, hk⟩ := p
  obtain rfl | rfl | rfl | rfl : k = 0 ∨ k = 1 ∨ k = 2 ∨ k = 3 := by omega
  all_goals rfl

/-- Settles O39, by what is first of those that may go, and by the marked port. -/
theorem waitingPacketsAndFailedPorts : Obligations.WaitingPacketsAndFailedPorts := by
  refine ⟨fun d v i w s => ?_, fun d s none spent => ?_, fun p q s inv job => ?_, fun p q s job => ?_⟩
  · intro queue may level at_ free first above none frames
    have blocked : ∀ x, ¬ may x → isSpent s d.val x.act = true := fun x h => (Bool.not_eq_false _).mp h
    have gone := injection_of_first level at_ free (fun j x hj hx => blocked x (first j x hj hx))
      (fun u hu x hx => blocked x (above u hu x hx))
    let u : State := { s with net := { s.net with
      waiting := s.net.waiting.set (3 * d.val + v) ((s.net.waiting.getD (3 * d.val + v) []).eraseIdx i) } }
    obtain ⟨net, -, -, there⟩ := departs_classB frames (setSpent d w.act (spentBy u d w.act + w.flits) u)
    have left : (departAll d w u).net = (setSpent d w.act (spentBy u d w.act + w.flits) u).net := net
    refine ⟨_, exec_classBInjection gone ?_, ?_, ?_, ?_, there, ?_⟩
    · rw [left]
      exact none
    · exact (sent_departAll d w (b := s) (s := u) rfl).only
    · rw [spentBy, left]
      exact mget_mset_same _ _ _ _
    · rw [left]
      rfl
    · rw [left]
      rfl
  · refine exec_classBInjection ?_ none
    have nothing : injectLevels d.val s [0, 1, 2] = Option.none := by
      rw [injectLevels_of_spent (spent 0 (by decide)), injectLevels_of_spent (spent 1 (by decide)),
        injectLevels_of_spent (spent 2 (by decide))]
      rfl
    rw [injectNext, nothing]
  · have run : exec (.bridgePortFailure p q) s =
        .next (raiseFault 0x4005 (portSite p.val q.val) (portMarked p.val q.val s)) :=
      congrArg Host.Outcome.next (if_pos job)
    refine ⟨_, run, ?_, ?_, ?_⟩
    · rw [markPorts_raiseFault]
      exact mem_portMarked _ _ _
    · exact (aside_raiseFault _ _ (aside_portMarked _ _ _)).only
    · rw [← die_portSite p q.val]
      refine Recorded.of_integrity (recorded_raiseFault ?_ _ _) (dies_portMarked _ _ _)
      rw [dies_portMarked]
      exact inv.dies
  · exact congrArg Host.Outcome.next (if_neg (by rw [job]; decide))

end Sys2Proof.Machine
end

section
/-! SUPPORT. What filling the positions of a link's pick leaves alone (R226, R234, R240, R243): all but the outputs, the
network, the counts, the frames at the ports and what the module awaits. -/

namespace Sys2Proof.Laws
open Sys2Proof.Machine

/-- What filling positions leaves alone: the state but for outputs, network, counts, ports and hold unit; the failures of
frames; every object entry but the counts of frames sent and sent again. -/
structure Filled where
  rest     : SentRest
  failures : Nat → SMap Nat
  entries  : Nat → Nat → Nat

def filled (s : State) : Filled where
  rest     := { sentRest s with hold := Hold.reset }
  failures := fun l => (linkAt s l).failures
  entries  := fun i j => if objKey i j % 256 = 0x10 ∨ objKey i j % 256 = 0xB then 0 else objGet s i j

@[reducible] def SameFilled (b s : State) : Prop := filled s = filled b

theorem sameFilled_foldl {α : Type} {b : State} (f : State → α → State) (l : List α)
    (hf : ∀ s x, SameFilled b s → SameFilled b (f s x)) (s : State) (h : SameFilled b s) : SameFilled b (l.foldl f s) := by
  induction l generalizing s with
  | nil => exact h
  | cons x xs ih => exact ih _ (hf s x h)

theorem sameFilled_ite {b s t : State} {c : Prop} [Decidable c] (h : SameFilled b s) (k : SameFilled b t) :
    SameFilled b (if c then s else t) := by
  split
  · exact h
  · exact k

theorem sameFilled_bump {b s : State} (l n : Nat) {j : Nat} (count : j = 0x10 ∨ j = 0xB) (h : SameFilled b s) :
    SameFilled b (bump (0x4100 + l) j n s) := by
  have entries : (filled (bump (0x4100 + l) j n s)).entries = (filled s).entries := by
    funext i j'
    unfold filled
    dsimp only
    split
    case isTrue => rfl
    case isFalse other =>
      refine objGet_bump_ne _ _ fun e => other ?_
      rw [e, objKey]
      omega
  have sent : Sent s (bump (0x4100 + l) j n s) := sent_bump _ _ _ (Sent.refl s)
  have links : (bump (0x4100 + l) j n s).links = s.links := by
    unfold bump
    split <;> rfl
  have failures : (filled (bump (0x4100 + l) j n s)).failures = (filled s).failures := by
    funext k
    show (linkAt _ k).failures = _
    rw [linkAt, links]
    rfl
  refine Eq.trans ?_ h
  show Filled.mk _ _ _ = Filled.mk _ _ _
  rw [Filled.mk.injEq]
  exact ⟨congrArg (fun r => { r with hold := Hold.reset }) sent, failures, entries⟩

theorem sameFilled_countLink {b s : State} (l e c : Nat) (h : SameFilled b s) : SameFilled b (countLink l e c s) := by
  unfold countLink countEvent
  exact sameFilled_ite h h

/-- A link port set, its failures as they were. -/
theorem sameFilled_linkSet {b s : State} {l : Nat} {v : Link} (e : v.failures = (linkAt s l).failures) (h : SameFilled b s) :
    SameFilled b (linkSet l v s) := by
  have failures : (fun k => (linkAt (linkSet l v s) k).failures) = fun k => (linkAt s k).failures := by
    funext k
    rw [linkAt_linkSet]
    split
    case isTrue here => rw [e, here]
    case isFalse => rfl
  exact (congrArg (fun f => { filled s with failures := f }) failures).trans h

theorem sameFilled_sendFrame {b s : State} (l pos : Nat) (f : Frame) (h : SameFilled b s) :
    SameFilled b (sendFrame l pos f s) := by
  unfold sendFrame
  extract_lets k g kept s1
  have left : SameFilled b s1 := sameFilled_linkSet rfl h
  split
  · exact sameFilled_countLink _ _ _ left
  · exact sameFilled_countLink _ _ _ left
  · exact left
  · exact sameFilled_countLink _ _ _ (sameFilled_bump _ _ (.inl rfl) left)

theorem sameFilled_sendRow {b s : State} (l pos : Nat) (x : Handed) (h : SameFilled b s) : SameFilled b (sendRow l pos x s) := by
  unfold sendRow
  have gone : SameFilled b (linkSet l { linkAt (sendFrame l pos x.frame s) l with
      handed := (linkAt (sendFrame l pos x.frame s) l).handed.erase x } (sendFrame l pos x.frame s)) :=
    sameFilled_linkSet rfl (sameFilled_sendFrame _ _ _ h)
  exact sameFilled_ite gone gone

theorem sameFilled_resendIn {b s : State} (l pos : Nat) (f : SentFrame) (rest : List (Nat × SentFrame)) (h : SameFilled b s) :
    SameFilled b (resendIn l pos f rest s) := by
  unfold resendIn
  exact sameFilled_countLink _ _ _ (sameFilled_bump _ _ (.inr rfl) (sameFilled_linkSet rfl h))

theorem sameFilled_symbolsIn {b s : State} (l pos : Nat) (ready : List (Nat × Output)) (h : SameFilled b s) :
    SameFilled b (symbolsIn l pos ready s) := by
  unfold symbolsIn
  exact sameFilled_linkSet rfl h

theorem sameFilled_bulkIn {b s : State} (l pos : Nat) (h : SameFilled b s) : SameFilled b (bulkIn l pos s) := by
  unfold bulkIn
  extract_lets k
  split
  · exact h
  · split
    · exact h
    · exact sameFilled_sendFrame _ _ _ (sameFilled_linkSet rfl h)

theorem sameFilled_retryIn {b s : State} (l pos : Nat) (h : SameFilled b s) : SameFilled b (retryIn l pos s) := by
  unfold retryIn
  extract_lets k
  split
  · exact h
  · split
    · exact h
    · exact sameFilled_ite h (sameFilled_linkSet rfl h)

theorem sameFilled_fillPosition {b s : State} (l pos : Nat) (h : SameFilled b s) : SameFilled b (fillPosition l s pos) := by
  unfold fillPosition
  extract_lets k full
  refine sameFilled_ite (sameFilled_retryIn _ _ h) (sameFilled_ite ?_ (sameFilled_retryIn _ _ ?_))
  · split
    · exact sameFilled_resendIn _ _ _ _ h
    · exact sameFilled_ite (sameFilled_retryIn _ _ (sameFilled_bulkIn _ _ h)) (sameFilled_symbolsIn _ _ _ h)
  · split
    · exact sameFilled_sendRow _ _ _ h
    · exact sameFilled_bulkIn _ _ h

theorem sameFilled_advanceLink {b s : State} (l : Nat) (h : SameFilled b s) : SameFilled b (advanceLink l s) := by
  unfold advanceLink
  exact sameFilled_ite h (sameFilled_foldl _ _ (fun _ _ k => sameFilled_fillPosition _ _ k) _ h)

/-! ## What is as it was -/

section
variable {b s : State} (h : SameFilled b s)
include h

/-- Filling positions changes, beside the hold unit, only what counts, packets and symbols may change. -/
theorem SameFilled.sent : Sent { b with hold := s.hold } s :=
  congrArg (fun f : Filled => { f.rest with hold := s.hold }) h

theorem SameFilled.failures (l : Nat) : (linkAt s l).failures = (linkAt b l).failures :=
  congrFun (congrArg Filled.failures h) l

theorem SameFilled.objGet {i j : Nat} (ne : ¬ (objKey i j % 256 = 0x10 ∨ objKey i j % 256 = 0xB)) :
    objGet s i j = objGet b i j := by
  have e := congrFun (congrFun (congrArg Filled.entries h) i) j
  unfold filled at e
  dsimp only at e
  rwa [if_neg ne, if_neg ne] at e

end

end Sys2Proof.Laws
end

section
/-! SUPPORT. Class S frames at a link port (R228, R236 to R242): sound frames, frames requested again, what the module
awaits. -/

namespace Sys2Proof.Machine

open Sys2Proof Sys2Proof.Laws

/-! ## Sound frames -/

theorem key_ne_of_place {i j l k : Nat} (h : objKey i j % 256 ≠ k) (small : k < 256) : objKey i j ≠ objKey (0x4100 + l) k := by
  intro e
  apply h
  rw [e, objKey]
  omega

theorem sent_frameGood (l n seq : Nat) (s : State) : Sent s (frameGood l n seq s) := by
  unfold frameGood
  exact sent_linkSet _ _ (sent_countLink _ _ _ (sent_countLink _ _ _ (sent_bump _ _ _ (Sent.refl s))))

theorem net_frameGood (l n seq : Nat) (s : State) : (frameGood l n seq s).net = s.net := by
  show (countLink l 2 1 (countLink l 3 n (bump (0x4100 + l) 9 n s))).net = s.net
  rw [countLink, net_countEvent, countLink, net_countEvent, net_bump]

theorem objGet_countLink (l e c i j : Nat) (s : State) : objGet (countLink l e c s) i j = objGet s i j := objGet_countEvent ..

theorem objGet_stopAwaiting (x : Awaited) (s : State) (i j : Nat) : objGet (stopAwaiting x s) i j = objGet s i j := rfl

theorem objGet_itemLanded (x : Awaited) (s : State) (i j : Nat) : objGet (itemLanded x s) i j = objGet s i j := rfl

/-- The corrected codewords count; no other entry changes. -/
theorem objGet_frameGood_same (l n seq : Nat) (s : State) :
    objGet (frameGood l n seq s) (0x4100 + l) 9 = objGet s (0x4100 + l) 9 + n := by
  show objGet (countLink l 2 1 (countLink l 3 n (bump (0x4100 + l) 9 n s))) _ _ = _
  rw [objGet_countLink, objGet_countLink, objGet_bump_same]

theorem objGet_frameGood {i j : Nat} (l n seq : Nat) (s : State) (ne : objKey i j % 256 ≠ 9) :
    objGet (frameGood l n seq s) i j = objGet s i j := by
  show objGet (countLink l 2 1 (countLink l 3 n (bump (0x4100 + l) 9 n s))) _ _ = _
  rw [objGet_countLink, objGet_countLink, objGet_bump_ne _ _ (key_ne_of_place ne (by decide))]

theorem linkAt_countEvent (v c now : Nat) (s : State) (k : Nat) : linkAt (countEvent v c now s) k = linkAt s k := by
  rw [linkAt, links_countEvent, linkAt]

theorem linkAt_bump (i j n : Nat) (s : State) (k : Nat) : linkAt (bump i j n s) k = linkAt s k := by
  have links : (bump i j n s).links = s.links := by
    unfold bump
    split <;> rfl
  rw [linkAt, links, linkAt]

/-- Of the ports a sound frame changes the list of failures alone. -/
theorem linkAt_frameGood (l n seq : Nat) (s : State) (k : Nat) :
    linkAt (frameGood l n seq s) k =
      { linkAt s k with failures := if k = l then mset 0 (linkAt s l).failures seq 0 else (linkAt s k).failures } := by
  have counted : ∀ k, linkAt (countLink l 2 1 (countLink l 3 n (bump (0x4100 + l) 9 n s))) k = linkAt s k := fun k => by
    rw [countLink, linkAt_countEvent, countLink, linkAt_countEvent, linkAt_bump]
  unfold frameGood
  dsimp only
  rw [linkAt_linkSet, counted]
  split
  case isTrue here => rw [here]
  case isFalse => rw [counted]

theorem ownCoord_of_entry {s u : State} (h : objGet u 0x4200 1 = objGet s 0x4200 1) : ownCoord u = ownCoord s := by
  rw [ownCoord, ownCoord, h]

theorem ownCoord_frameGood (l n seq : Nat) (s : State) : ownCoord (frameGood l n seq s) = ownCoord s :=
  ownCoord_of_entry (objGet_frameGood _ _ _ _ (by decide))

section
variable {l n : Nat} {f : Frame} {chk : RxCheck} {s : State}

theorem takeScheduled_of_dead (h : linkLive s = false) : takeScheduled l f chk s = s := by
  unfold takeScheduled
  rw [if_pos (by rw [h]; rfl)]

theorem takeScheduled_of_sound (live : linkLive s = true) (good : chk = .good n) (proof : proofOk f.row = true) :
    takeScheduled l f chk s = if f.dest ≠ ownCoord s then
      forwardFrame l f (itemLanded (.frame l f.seq.toNat) (frameGood l n f.seq.toNat s))
    else landFrame l f (frameGood l n f.seq.toNat s) := by
  subst good
  unfold takeScheduled
  rw [if_neg (by rw [live]; decide)]
  dsimp only
  rw [if_neg (by rw [proof]; decide), ownCoord_frameGood]

theorem takeScheduled_of_bad (live : linkLive s = true)
    (bad : chk = .bad n ∨ (∃ m, chk = .good m) ∧ proofOk f.row = false ∧ n = 0) : takeScheduled l f chk s = rowBad l n f s := by
  unfold takeScheduled
  rw [if_neg (by rw [live]; decide)]
  obtain rfl | ⟨⟨m, rfl⟩, proof, rfl⟩ := bad
  · rfl
  · dsimp only
    rw [if_pos (by rw [proof]; rfl)]

end

/-! ## Landing -/

theorem objGet_netSend {i j : Nat} (r : NetRow) (s : State) (ne : objKey i j ≠ objKey 0x4000 0x10) :
    objGet (netSend r s) i j = objGet s i j := by
  refine keeps_settleClashes (P := fun u => objGet u i j = objGet s i j) (fun k u h => ?_) _ _ rfl
  unfold waitClash
  split
  · exact h
  · extract_lets r1 d
    have counted : ∀ v : State, objGet (countModule 0x19 1 (bump 0x4000 0x10 1 v)) i j = objGet v i j := fun v => by
      rw [objGet_countModule, objGet_bump_ne _ _ ne]
    unfold delayHanded
    split
    · exact (counted _).trans h
    · exact (counted _).trans h

/-- The state with the least landing slack kept. -/
def slackNoted (l : Nat) (f : Frame) (s : State) : State :=
  if landingSlack s (landingSp s f) < objGet s (0x4100 + l) 0xD then
    objSet (0x4100 + l) 0xD (landingSlack s (landingSp s f)) s else s

theorem sent_slackNoted (l : Nat) (f : Frame) (s : State) : Sent s (slackNoted l f s) := by
  unfold slackNoted
  exact sent_ite (sent_objSet _ _ _ (Sent.refl s)) (Sent.refl s)

theorem slackNoted_only (l : Nat) (f : Frame) (s : State) : slackNoted l f s = { s with objs := (slackNoted l f s).objs } := by
  unfold slackNoted
  split <;> rfl

theorem objGet_slackNoted {i j : Nat} (l : Nat) (f : Frame) (s : State) (ne : objKey i j % 256 ≠ 0xD) :
    objGet (slackNoted l f s) i j = objGet s i j := by
  unfold slackNoted
  split
  · exact objGet_objSet_ne _ _ (key_ne_of_place ne (by decide))
  · rfl

theorem landFrame_eq (l : Nat) (f : Frame) (s : State) : landFrame l f s =
    if landingSp s f ≤ (slackNoted l f s).sp then releaseFrame l (cycleNow (slackNoted l f s)) f (slackNoted l f s)
    else countLink l 9 1 (linkSet l { linkAt (slackNoted l f s) l with
      landing := (linkAt (slackNoted l f s) l).landing ++ [f] } (stopAwaiting (.frame l f.seq.toNat) (slackNoted l f s))) := rfl

/-- A state that differs from one with a hold unit replaced has that hold unit. -/
theorem aside_own_hold {b s : State} {x : Hold} (h : Aside { b with hold := x } s) : Aside { b with hold := s.hold } s := by
  have same : s.hold = x := h.hold
  rw [same]
  exact h

theorem mem_of_aside_hold {b s : State} {x : Hold} (h : Aside { b with hold := x } s) : s.mem = b.mem := h.mem

theorem tiles_of_aside_hold {b s : State} {x : Hold} (h : Aside { b with hold := x } s) : s.tiles = b.tiles := h.tiles

theorem sp_of_sent_hold {b s : State} {x : Hold} (h : Sent { b with hold := x } s) : s.sp = b.sp := h.sp

theorem pattern_of_sent_hold {b s : State} {x : Hold} (h : Sent { b with hold := x } s) : s.pattern = b.pattern := h.pattern

/-- A frame whose landing SP is to come waits in the landing queue. -/
theorem landFrame_of_early {l : Nat} {f : Frame} {s : State} (early : s.sp < landingSp s f) :
    Aside { s with hold := (landFrame l f s).hold } (landFrame l f s) ∧
      (∀ j, j % 256 ≠ 0xD → objGet (landFrame l f s) (0x4100 + l) j = objGet s (0x4100 + l) j) ∧
      (linkAt (landFrame l f s) l).landing = (linkAt s l).landing ++ [f] := by
  have noted := sent_slackNoted l f s
  have links : (slackNoted l f s).links = s.links := by rw [slackNoted_only]
  have run := landFrame_eq l f s
  rw [if_neg (by rw [noted.sp]; omega)] at run
  rw [run]
  refine ⟨?_, fun j hj => ?_, ?_⟩
  · exact aside_own_hold (aside_countLink _ _ _ (aside_linkSet _ _ (Aside.withHold noted.aside _)))
  · rw [objGet_countLink, objGet_linkSet, objGet_stopAwaiting]
    exact objGet_slackNoted l f s (by rw [objKey]; omega)
  · rw [countLink, linkAt_countEvent, linkAt_linkSet_same, linkAt, links]
    rfl

/-- What an arriving frame does to the hold unit as it enters the mesh, it does to nothing else. -/
theorem aside_awaitRow (l t : Nat) (f : Frame) (s : State) : Aside { s with hold := (awaitRow l t f s).hold } (awaitRow l t f s) := by
  unfold awaitRow
  dsimp only
  split <;> rfl

theorem awaitRow_only (l t : Nat) (f : Frame) (s : State) : awaitRow l t f s = { s with hold := (awaitRow l t f s).hold } := by
  unfold awaitRow
  dsimp only
  split <;> rfl

/-- A frame enters the mesh for the selvedge queue of its tile: no earlier than the latency of its path and pad. -/
theorem releaseFrame_of_inside {l c : Nat} {f : Frame} {s : State} (inside : f.tx.toNat < 24) :
    Aside { s with hold := (releaseFrame l c f s).hold } (releaseFrame l c f s) ∧
      (∀ i j, objKey i j ≠ objKey 0x4000 0x10 → objGet (releaseFrame l c f s) i j = objGet s i j) ∧
      ∃ r ∈ (releaseFrame l c f s).net.rows, r.dst = 24 * f.ty.toNat + f.tx.toNat ∧ r.inp = .selvedge ∧ r.row = f.row ∧
        r.hdr = { window := f.window.toNat, woff := f.woff.toNat, seq := f.seq.toNat, landSp := f.landSp.toNat } ∧
        c + flightLat s (attachTile l) (24 * f.ty.toNat + f.tx.toNat) +
          Config.meshHop * padHops s (attachTile l) (24 * f.ty.toNat + f.tx.toNat) ≤ r.due := by
  unfold releaseFrame
  extract_lets t hdr r
  rw [if_neg (by omega)]
  refine ⟨?_, fun i j ne => ?_, ?_⟩
  · exact aside_own_hold (aside_netSend r (aside_awaitRow l t f s))
  · rw [objGet_netSend _ _ ne, awaitRow_only]
    exact objGet_of_objs rfl rfl i j
  · obtain ⟨x, hx, dst, hdr, row, inp, due, -⟩ := carried_netSend r (awaitRow l t f s)
    exact ⟨x, hx, dst, inp, row, hdr, due⟩

theorem cycleNow_of_sent {s u : State} (h : Sent s u) : cycleNow u = cycleNow s := by
  rw [cycleNow, cycleNow, h.cycle0, h.ident, h.tick, h.boundary]

theorem flight_of_sent {s u : State} (h : Sent s u) (net : u.net = s.net) (a b : Nat) :
    flightLat u a b = flightLat s a b ∧ padHops u a b = padHops s a b := by
  have mesh : SameMesh s u := ⟨by rw [h.integrity], by rw [net]⟩
  exact ⟨flightLat_of_mesh mesh h.aside.apart a b, padHops_of_mesh mesh a b⟩

theorem landingSp_of_sent {s u : State} (h : Sent s u) (f : Frame) : landingSp u f = landingSp s f := by
  rw [landingSp, landingSp, h.sp]

/-! ## Forwarding -/

/-- The entry that forwards the frames of a slot of a link. -/
def forwardEntry (s : State) (l slot : Nat) : Nat :=
  match s.pattern with
  | none => 0
  | some p => ((p.forwards.getD l []).getD slot 0).toNat

theorem forwardFrame_of_none {l : Nat} {f : Frame} {s : State}
    (none : forwardEntry s l (positionSlot (f.seq.toNat % 16)) < 2 ^ 15) :
    forwardFrame l f s = raiseFault 0x4012 (unitSite 2 (l / 9) 0 f.seq.toNat) s := if_pos none

/-- A frame handed on to a link. -/
def handOn (s : State) (l : Nat) (f : Frame) (e : Nat) : Handed :=
  let t := nearestSp s.sp f.sendSp.toNat + assumed s l + 1
  { slot := bits e 5 4, sp := t - 1, tile := 768, issue := f.seq.toNat, woff := f.woff.toNat
    ready := some (cycleNow s + meshLat (profile s) (attachTile l) (attachTile (bits e 9 6)))
    frame := { f with sendSp := BitVec.ofNat 16 t }, late := false }

/-- The state in which a frame is handed on to a link: counted, the positions that have begun filled. -/
def forwarding (out : Nat) (s : State) : State := advanceLink out (countLink out 8 1 (bump (0x4100 + out) 0x12 1 s))

theorem forwardFrame_of_entry {l e : Nat} {f : Frame} {s : State} (entry : forwardEntry s l (positionSlot (f.seq.toNat % 16)) = e)
    (valid : 2 ^ 15 ≤ e) (early : (forwarding (bits e 9 6) s).sp < nearestSp s.sp f.sendSp.toNat + assumed s l + 1) :
    forwardFrame l f s = linkSet (bits e 9 6) { linkAt (forwarding (bits e 9 6) s) (bits e 9 6) with
      handed := (linkAt (forwarding (bits e 9 6) s) (bits e 9 6)).handed ++ [handOn s l f e] } (forwarding (bits e 9 6) s) := by
  subst entry
  exact (if_neg (Nat.not_lt.mpr valid)).trans (if_pos early)

end Sys2Proof.Machine
end

section
/-! SUPPORT. Class S frames at a link port settled: landed, handed on, requested again and awaited. -/

namespace Sys2Proof.Machine

open Sys2Proof Sys2Proof.Laws

/-! ## Faults and requests leave entries alone -/

theorem objGet_beginStop {i j : Nat} (h : Uncounted i j) (ne : objKey i j ≠ objKey 0x7000 4) (code : BitVec 16)
    (origin : Coord) (stamp : Nat) (s : State) : objGet (beginStop code origin stamp s) i j = objGet s i j := by
  have sent := objGet_sendFaults h code origin stamp s
  unfold beginStop
  dsimp only
  split
  · rw [objGet_objSet_ne _ _ ne]
    exact (objGet_of_objs rfl rfl i j).trans sent
  · exact (objGet_of_objs rfl rfl i j).trans sent

theorem objGet_raiseFault {i j : Nat} (h : Uncounted i j) (ne : objKey i j ≠ objKey 0x7000 4) (code : Nat)
    (site : FaultSite) (s : State) : objGet (raiseFault code site s) i j = objGet s i j := by
  unfold raiseFault
  dsimp only
  split
  · rw [objGet_beginStop h ne]
    exact objGet_of_objs rfl rfl i j
  · exact objGet_of_objs rfl rfl i j

theorem links_raiseHold (e now d : Nat) (r : HoldReq) (s : State) : (raiseHold e now d r s).links = s.links := by
  have bumped : ∀ (i j n : Nat) (u : State), (bump i j n u).links = u.links := fun i j n u => by
    unfold bump
    split <;> rfl
  have injected : ∀ u : State, (inject d 1 1 [.holdRequest r] u).links = u.links := fun u => by
    unfold inject
    dsimp only
    split
    · rfl
    · split
      · rfl
      · rw [countModule, links_countEvent, bumped]
  unfold raiseHold sendHold
  split
  · split
    · rw [injected, links_countEvent]
    · rw [links_countEvent]
  · rfl

theorem objGet_raiseHold {i j : Nat} (h : Uncounted i j) (e now d : Nat) (r : HoldReq) (s : State) :
    objGet (raiseHold e now d r s) i j = objGet s i j := by
  unfold raiseHold sendHold
  split
  · split
    · rw [objGet_inject h, objGet_countEvent]
    · rw [objGet_countEvent]
  · rfl

/-! ## A frame is awaited -/

/-- A frame that the module awaits: the slice resumes only once it has landed, or it is expected by its landing pick. -/
def awaits (i : Awaited) (h : Hold) : Prop := i ∈ h.awaited ∨ ∃ x ∈ h.expected, x.item = i

theorem awaitFrame_frame (l : Nat) (f : Frame) (s : State) :
    Aside { s with hold := (awaitFrame l f s).hold } (awaitFrame l f s) ∧ (awaitFrame l f s).links = s.links ∧
      (∀ i j, Uncounted i j → objKey i j % 256 ≠ 0xC → objGet (awaitFrame l f s) i j = objGet s i j) ∧
      awaits (.frame l f.seq.toNat) (awaitFrame l f s).hold := by
  unfold awaitFrame
  extract_lets i lsp h0 s1
  split
  case isTrue known => exact ⟨rfl, rfl, fun _ _ _ _ => rfl, .inl (List.contains_iff_mem.mp known)⟩
  case isFalse =>
    split
    case isTrue => exact ⟨rfl, rfl, fun i j _ _ => objGet_of_objs rfl rfl i j, .inl (by simp [i])⟩
    case isFalse =>
      split
      case isTrue =>
        have held := aside_bump (0x4100 + l) 0xC 1 (aside_linkHold l s.sp 2 (Aside.refl s1))
        refine ⟨?_, ?_, fun i j plain place => ?_, .inl ?_⟩
        · exact aside_own_hold held
        · rw [show (bump (0x4100 + l) 0xC 1 (linkHold l s.sp 2 s1)).links = (linkHold l s.sp 2 s1).links by
            unfold bump; split <;> rfl, linkHold, links_raiseHold]
        · rw [objGet_bump_ne _ _ (key_ne_of_place place (by decide)), linkHold, objGet_raiseHold plain]
          exact objGet_of_objs rfl rfl i j
        · rw [held.hold]
          simp [s1, i]
      case isFalse =>
        split
        case isTrue known =>
          obtain ⟨x, hx, e⟩ := List.any_eq_true.mp known
          exact ⟨rfl, rfl, fun _ _ _ _ => rfl, .inr ⟨x, hx, eq_of_beq e⟩⟩
        case isFalse =>
          exact ⟨rfl, rfl, fun i j _ _ => objGet_of_objs rfl rfl i j,
            .inr ⟨_, List.mem_append_right _ (List.mem_singleton_self _), rfl⟩⟩

/-! ## Frames that cannot be corrected -/

/-- The state in which a frame of a link counts as bad, `n` of its codewords uncorrectable. -/
def badNoted (l n seq : Nat) (s : State) : State :=
  countLink l 4 1 (bump (0x4100 + l) 0xA n (linkSet l { linkAt s l with
    failures := mset 0 (linkAt s l).failures seq (mget 0 (linkAt s l).failures seq + 1) } s))

theorem sent_badNoted (l n seq : Nat) (s : State) : Sent s (badNoted l n seq s) :=
  sent_countLink _ _ _ (sent_bump _ _ _ (sent_linkSet _ _ (Sent.refl s)))

theorem objGet_badNoted (l n seq : Nat) (s : State) :
    objGet (badNoted l n seq s) (0x4100 + l) 0xA = objGet s (0x4100 + l) 0xA + n := by
  rw [badNoted, objGet_countLink, objGet_bump_same, objGet_linkSet]

theorem failures_badNoted (l n seq : Nat) (s : State) :
    mget 0 (linkAt (badNoted l n seq s) l).failures seq = mget 0 (linkAt s l).failures seq + 1 := by
  rw [badNoted, countLink, linkAt_countEvent, linkAt_bump, linkAt_linkSet_same]
  dsimp only
  rw [mget_mset_same]

theorem uncounted_link {l j : Nat} (small : j < 256) (ne : j ≠ 0x11) (ne' : j ≠ 0x12) : Uncounted (0x4100 + l) j := by
  unfold Uncounted objKey
  omega

section
variable {l n seq : Nat} {s : State}

theorem frameBad_of_many (h : objGet s (0x4100 + l) 0xF < mget 0 (linkAt s l).failures seq + 1) :
    frameBad l n seq s = linkFault 0x4011 l seq (badNoted l n seq s) := if_pos h

theorem frameBad_of_few (h : mget 0 (linkAt s l).failures seq + 1 ≤ objGet s (0x4100 + l) 0xF) :
    frameBad l n seq s = requestRetry l seq (badNoted l n seq s) := if_neg (Nat.not_lt.mpr h)

/-- After too many failures a frame is fault 0x4011 of its die. -/
theorem frameBad_frame_of_many (inv : Inv s) (die : l < 36) (h : objGet s (0x4100 + l) 0xF < mget 0 (linkAt s l).failures seq + 1) :
    Recorded s (frameBad l n seq s) (l / 9) 0x4011 ∧ Aside s (frameBad l n seq s) ∧
      objGet (frameBad l n seq s) (0x4100 + l) 0xA = objGet s (0x4100 + l) 0xA + n := by
  have noted := sent_badNoted l n seq s
  have site : (unitSite 3 (l / 9) l (seq % 2 ^ 18)).die.val = l / 9 := Nat.mod_eq_of_lt (by omega)
  rw [frameBad_of_many h, linkFault]
  refine ⟨?_, aside_raiseFault _ _ noted.aside, ?_⟩
  · have record := recorded_raiseFault (s := badNoted l n seq s) (by rw [noted.integrity]; exact inv.dies) 0x4011
      (unitSite 3 (l / 9) l (seq % 2 ^ 18))
    rw [site] at record
    exact Recorded.of_integrity record (by rw [noted.integrity])
  · rw [objGet_raiseFault (uncounted_link (by decide) (by decide) (by decide)) (by rw [objKey, objKey]; omega), objGet_badNoted]

/-- Before, it is requested again in a header of the link's own direction. -/
theorem frameBad_frame_of_few (h : mget 0 (linkAt s l).failures seq + 1 ≤ objGet s (0x4100 + l) 0xF) :
    Sent { s with hold := (frameBad l n seq s).hold } (frameBad l n seq s) ∧ .retry l seq ∈ (frameBad l n seq s).out ∧
      mget 0 (linkAt (frameBad l n seq s) l).failures seq = mget 0 (linkAt s l).failures seq + 1 ∧
      objGet (frameBad l n seq s) (0x4100 + l) 0xA = objGet s (0x4100 + l) 0xA + n := by
  have filled := sameFilled_advanceLink l (b := badNoted l n seq s) rfl
  have noted := sent_badNoted l n seq s
  rw [frameBad_of_few h, requestRetry]
  refine ⟨?_, List.mem_append_right _ (List.mem_singleton_self _), ?_, ?_⟩
  · exact sent_linkSet _ _ (sent_emit _ (Eq.trans filled.sent (noted.withHold _)))
  · rw [linkAt_linkSet_same]
    exact (congrArg (fun m => mget 0 m seq) (filled.failures l)).trans (failures_badNoted l n seq s)
  · rw [objGet_linkSet, objGet_emit, filled.objGet (by rw [objKey]; omega), objGet_badNoted]

end

end Sys2Proof.Machine
end

section
/-! SUPPORT. Class S frames at a link port, settled. -/

namespace Sys2Proof.Machine

open Sys2Proof Sys2Proof.Laws

theorem recorded_of_sent {s u : State} {code d : Nat} (inv : Inv s) (h : Sent s u) (site : FaultSite) (die : site.die.val = d) :
    Recorded s (raiseFault code site u) d code := by
  subst die
  exact Recorded.of_integrity (recorded_raiseFault (by rw [h.integrity]; exact inv.dies) code site) (by rw [h.integrity])

theorem die_unitSite {ocls die oidx detail : Nat} (h : die < 4) : (unitSite ocls die oidx detail).die.val = die :=
  Nat.mod_eq_of_lt h

section
variable {l n : Nat} {f : Frame} {s : State}

/-- A class S frame that the module asks for again is awaited. -/
theorem rowBad_of_few (h : mget 0 (linkAt s l).failures f.seq.toNat + 1 ≤ objGet s (0x4100 + l) 0xF) :
    (rowBad l n f s).mem = s.mem ∧ .retry l f.seq.toNat ∈ (rowBad l n f s).out ∧
      mget 0 (linkAt (rowBad l n f s) l).failures f.seq.toNat = mget 0 (linkAt s l).failures f.seq.toNat + 1 ∧
      objGet (rowBad l n f s) (0x4100 + l) 0xA = objGet s (0x4100 + l) 0xA + n ∧
      awaits (.frame l f.seq.toNat) (rowBad l n f s).hold := by
  have run : rowBad l n f s = awaitFrame l f (frameBad l n f.seq.toNat s) := if_neg (Nat.not_lt.mpr h)
  obtain ⟨sent, out, failures, count⟩ := frameBad_frame_of_few (n := n) h
  obtain ⟨aside, links, entries, awaited⟩ := awaitFrame_frame l f (frameBad l n f.seq.toNat s)
  rw [run]
  refine ⟨?_, (kept_awaitFrame l f (Kept.refl _)).out.subset out, ?_, ?_, awaited⟩
  · exact (mem_of_aside_hold aside).trans (mem_of_aside_hold (Sent.aside sent))
  · rw [linkAt, links]
    exact failures
  · rw [entries _ _ (uncounted_link (by decide) (by decide) (by decide)) (by rw [objKey]; omega), count]

theorem rowBad_of_many (h : objGet s (0x4100 + l) 0xF < mget 0 (linkAt s l).failures f.seq.toNat + 1) :
    rowBad l n f s = frameBad l n f.seq.toNat s := if_pos h

/-- A sound frame for this module that comes early. -/
theorem landed_early (early : s.sp < landingSp s f) :
    let u := landFrame l f (frameGood l n f.seq.toNat s)
    u.mem = s.mem ∧ u.tiles = s.tiles ∧ objGet u (0x4100 + l) 9 = objGet s (0x4100 + l) 9 + n ∧
      (linkAt u l).landing = (linkAt s l).landing ++ [f] := by
  have good := sent_frameGood l n f.seq.toNat s
  obtain ⟨aside, entries, landing⟩ := landFrame_of_early (l := l) (f := f) (s := frameGood l n f.seq.toNat s)
    (by rw [landingSp_of_sent good, good.sp]; exact early)
  refine ⟨(mem_of_aside_hold aside).trans good.mem, (tiles_of_aside_hold aside).trans good.tiles, ?_, ?_⟩
  · rw [entries 9 (by decide), objGet_frameGood_same]
  · rw [landing, linkAt_frameGood]

theorem landFrame_of_due (due : landingSp s f ≤ s.sp) : landFrame l f s = releaseFrame l (cycleNow s) f (slackNoted l f s) := by
  have noted := sent_slackNoted l f s
  rw [landFrame_eq, if_pos (by rw [noted.sp]; exact due), cycleNow_of_sent noted]

/-- A sound frame for this module whose landing SP has begun. -/
theorem landed_due (due : landingSp s f ≤ s.sp) (inside : f.tx.toNat < 24) :
    let u := landFrame l f (frameGood l n f.seq.toNat s)
    let t := 24 * f.ty.toNat + f.tx.toNat
    u.mem = s.mem ∧ objGet u (0x4100 + l) 9 = objGet s (0x4100 + l) 9 + n ∧
      ∃ r ∈ u.net.rows, r.dst = t ∧ r.inp = .selvedge ∧ r.row = f.row ∧
        r.hdr = { window := f.window.toNat, woff := f.woff.toNat, seq := f.seq.toNat, landSp := f.landSp.toNat } ∧
        cycleNow s + flightLat s (attachTile l) t + Config.meshHop * padHops s (attachTile l) t ≤ r.due := by
  intro u t
  have good := sent_frameGood l n f.seq.toNat s
  have noted : Sent s (slackNoted l f (frameGood l n f.seq.toNat s)) := Eq.trans (sent_slackNoted l f _) good
  have net : (slackNoted l f (frameGood l n f.seq.toNat s)).net = s.net := by
    rw [slackNoted_only]
    exact net_frameGood l n f.seq.toNat s
  have run : u = releaseFrame l (cycleNow (frameGood l n f.seq.toNat s)) f (slackNoted l f (frameGood l n f.seq.toNat s)) :=
    landFrame_of_due (by rw [landingSp_of_sent good, good.sp]; exact due)
  obtain ⟨aside, entries, r, hr, dst, inp, row, hdr, late⟩ := releaseFrame_of_inside (l := l)
    (c := cycleNow (frameGood l n f.seq.toNat s)) (f := f) (s := slackNoted l f (frameGood l n f.seq.toNat s)) inside
  obtain ⟨flight, pad⟩ := flight_of_sent noted net (attachTile l) t
  rw [flight, pad, cycleNow_of_sent good] at late
  rw [run]
  refine ⟨(mem_of_aside_hold aside).trans noted.mem, ?_, r, hr, dst, inp, row, hdr, late⟩
  rw [entries _ _ (by rw [objKey, objKey]; omega), objGet_slackNoted _ _ _ (by rw [objKey]; omega), objGet_frameGood_same]

/-- A sound frame for a tile off the grid. -/
theorem landed_outside (inv : Inv s) (die : l < 36) (due : landingSp s f ≤ s.sp) (outside : 24 ≤ f.tx.toNat) :
    let u := landFrame l f (frameGood l n f.seq.toNat s)
    u.mem = s.mem ∧ u.tiles = s.tiles ∧ Recorded s u (l / 9) 0x4003 := by
  intro u
  have good := sent_frameGood l n f.seq.toNat s
  have noted : Sent s (slackNoted l f (frameGood l n f.seq.toNat s)) := Eq.trans (sent_slackNoted l f _) good
  have run : u = raiseFault 0x4003 (unitSite 1 (l / 9) 0 f.seq.toNat) (slackNoted l f (frameGood l n f.seq.toNat s)) :=
    (landFrame_of_due (by rw [landingSp_of_sent good, good.sp]; exact due)).trans (if_pos outside)
  have raised := aside_raiseFault 0x4003 (unitSite 1 (l / 9) 0 f.seq.toNat) noted.aside
  rw [run]
  exact ⟨raised.mem, raised.tiles, recorded_of_sent inv noted _ (die_unitSite (by omega))⟩

/-- The state in which a sound frame for another module is handled. -/
def handled (l n : Nat) (f : Frame) (s : State) : State := itemLanded (.frame l f.seq.toNat) (frameGood l n f.seq.toNat s)

theorem sent_handled (l n : Nat) (f : Frame) (s : State) :
    Sent { s with hold := (handled l n f s).hold } (handled l n f s) := (sent_frameGood l n f.seq.toNat s).withHold _

theorem objGet_handled {i j : Nat} (ne : objKey i j % 256 ≠ 9) : objGet (handled l n f s) i j = objGet s i j := by
  rw [handled, objGet_itemLanded, objGet_frameGood _ _ _ _ ne]

theorem forwardEntry_handled (slot : Nat) : forwardEntry (handled l n f s) l slot = forwardEntry s l slot := by
  rw [forwardEntry, forwardEntry, pattern_of_sent_hold (sent_handled l n f s)]

theorem sent_forwarding (out : Nat) (u : State) : Sent { u with hold := (forwarding out u).hold } (forwarding out u) := by
  have counted : Sent u (countLink out 8 1 (bump (0x4100 + out) 0x12 1 u)) := sent_countLink _ _ _ (sent_bump _ _ _ (Sent.refl u))
  have filled := sameFilled_advanceLink out (b := countLink out 8 1 (bump (0x4100 + out) 0x12 1 u)) rfl
  exact Eq.trans filled.sent (counted.withHold _)

theorem objGet_forwarding (out : Nat) (u : State) :
    objGet (forwarding out u) (0x4100 + out) 0x12 = objGet u (0x4100 + out) 0x12 + 1 := by
  have filled := sameFilled_advanceLink out (b := countLink out 8 1 (bump (0x4100 + out) 0x12 1 u)) rfl
  refine (filled.objGet (by rw [objKey]; omega)).trans ?_
  rw [objGet_countLink, objGet_bump_same]

/-- A sound frame for another module with an entry whose pick is to come is listed at the link of the entry. -/
theorem forwarded {e : Nat} (entry : forwardEntry s l (positionSlot (f.seq.toNat % 16)) = e) (valid : 2 ^ 15 ≤ e)
    (early : s.sp < nearestSp s.sp f.sendSp.toNat + assumed s l + 1) :
    let u := forwardFrame l f (handled l n f s)
    let out := bits e 9 6
    u.mem = s.mem ∧ u.tiles = s.tiles ∧ objGet u (0x4100 + out) 0x12 = objGet s (0x4100 + out) 0x12 + 1 ∧
      handOn s l f e ∈ (linkAt u out).handed := by
  intro u out
  have first := sent_handled l n f s
  have second := sent_forwarding out (handled l n f s)
  have same : handOn (handled l n f s) l f e = handOn s l f e := by
    have sent := sent_frameGood l n f.seq.toNat s
    have delay : assumed (handled l n f s) l = assumed s l := by
      rw [assumed, assumed, pattern_of_sent_hold first]
    have prof : profile (handled l n f s) = profile s := (profile_of_apart sent.aside.apart :)
    have cyc : cycleNow (handled l n f s) = cycleNow s := (cycleNow_of_sent sent :)
    simp only [handOn, delay, prof, cyc, sp_of_sent_hold first]
  have delay : assumed (handled l n f s) l = assumed s l := by
    rw [assumed, assumed, pattern_of_sent_hold first]
  have run : u = _ := forwardFrame_of_entry (e := e) (l := l) (f := f) (s := handled l n f s)
    ((forwardEntry_handled _).trans entry) valid
    (by rw [sp_of_sent_hold second, sp_of_sent_hold first, delay]; exact early)
  rw [run]
  refine ⟨?_, ?_, ?_, ?_⟩
  · exact (mem_of_aside_hold (Sent.aside second)).trans (mem_of_aside_hold (Sent.aside first))
  · exact (tiles_of_aside_hold (Sent.aside second)).trans (tiles_of_aside_hold (Sent.aside first))
  · rw [objGet_linkSet, objGet_forwarding, objGet_handled (by rw [objKey]; omega)]
  · rw [linkAt_linkSet_same, ← same]
    exact List.mem_append_right _ (List.mem_singleton_self _)

theorem integrity_of_sent_hold {b u : State} {x : Hold} (h : Sent { b with hold := x } u) : u.integrity = b.integrity :=
  h.integrity

/-- A frame for another module with no entry. -/
theorem unforwarded (inv : Inv s) (die : l < 36) :
    let u := raiseFault 0x4012 (unitSite 2 (l / 9) 0 f.seq.toNat) (handled l n f s)
    u.mem = s.mem ∧ u.tiles = s.tiles ∧ Recorded s u (l / 9) 0x4012 := by
  have first := sent_handled l n f s
  have raised := aside_raiseFault 0x4012 (unitSite 2 (l / 9) 0 f.seq.toNat) first.aside
  have same := integrity_of_sent_hold first
  refine ⟨mem_of_aside_hold raised, tiles_of_aside_hold raised, ?_⟩
  have site : (unitSite 2 (l / 9) 0 f.seq.toNat).die.val = l / 9 := die_unitSite (by omega)
  have recorded := recorded_raiseFault (s := handled l n f s) (by rw [same]; exact inv.dies) 0x4012
    (unitSite 2 (l / 9) 0 f.seq.toNat)
  rw [site] at recorded
  exact Recorded.of_integrity recorded (congrArg Integrity.dies same)

end

/-- Settles O40, by the cases of a frame that reaches a port: sound and due, sound and early, for another module, bad. -/
theorem scheduledFramesLandForwardOrRetry : Obligations.ScheduledFramesLandForwardOrRetry := by
  intro i link f chk s inv named l o u q gives
  have die := link.isLt
  have run : exec i s = .next (takeScheduled l f chk s) := by
    obtain rfl | rfl := named <;> rfl
  have give : ∀ {s' : State} {post : State → Prop}, takeScheduled l f chk s = s' → s'.mem = s.mem → post s' → gives post := by
    intro s' post e mem h
    exact ⟨s', by rw [run, e], mem, h⟩
  refine ⟨fun live n good proof own => ?_, fun live n good proof other => ?_, fun live n bad => ?_, fun dead => ?_⟩
  · have take := (takeScheduled_of_sound (l := l) live good proof).trans (if_neg (Classical.not_not.mpr own))
    refine ⟨fun early => ?_, fun due inside => ?_, fun due outside => ?_⟩
    · obtain ⟨mem, rest⟩ := landed_early (l := l) (n := n) early
      exact give take mem rest
    · obtain ⟨mem, rest⟩ := landed_due (l := l) (n := n) due inside
      exact give take mem rest
    · obtain ⟨mem, rest⟩ := landed_outside (l := l) (n := n) inv die due outside
      exact give take mem rest
  · intro e out t
    have take := (takeScheduled_of_sound (l := l) live good proof).trans (if_pos other)
    refine ⟨fun none => ?_, fun valid early => ?_⟩
    · have first := sent_frameGood l n f.seq.toNat s
      have fault := forwardFrame_of_none (l := l) (f := f) (s := handled l n f s) (Nat.lt_of_le_of_lt (Nat.le_of_eq (forwardEntry_handled _)) none)
      obtain ⟨mem, tiles, recorded⟩ := unforwarded (n := n) (f := f) inv die
      exact give (take.trans fault) mem ⟨tiles, recorded⟩
    · obtain ⟨mem, rest⟩ := forwarded (l := l) (n := n) rfl valid early
      exact give take mem rest
  · have take := takeScheduled_of_bad (l := l) (f := f) live bad
    refine ⟨fun many => ?_, fun few => ?_⟩
    · obtain ⟨rec, aside, count⟩ := frameBad_frame_of_many (n := n) inv die many
      exact give (take.trans (rowBad_of_many many)) aside.mem ⟨rec, count⟩
    · obtain ⟨mem, out, failures, count, awaited⟩ := rowBad_of_few (n := n) few
      exact give take mem ⟨out, failures, count, awaited⟩
  · rw [run, takeScheduled_of_dead dead]

end Sys2Proof.Machine
end

section
/-! SUPPORT. A class B packet at its injection point (R219, R221): where it goes at once, where it waits; rows that reach
a tile (R90, R91). -/

namespace Sys2Proof.Machine

open Sys2Proof Sys2Proof.Laws

/-! ## What may go -/

/-- The budget of an activity depends on its entry alone. -/
theorem budget_of_entries {s u : State} {act : Nat} (e : ∀ j, 2 ≤ j → j ≤ 9 → objGet u 0x4000 j = objGet s 0x4000 j) :
    budget u act = budget s act := by
  unfold budget
  rw [e 2 (by decide) (by decide), e 3 (by decide) (by decide)]
  split
  · rfl
  · split
    · rfl
    · split
      case isTrue h =>
        rw [Bool.and_eq_true, decide_eq_true_iff, decide_eq_true_iff] at h
        rw [e act (by omega) h.2]
      case isFalse => rfl

section
variable {s u : State} {d act : Nat}

/-- Whether a packet may go depends on the job, the budgets and what waits and has been spent. -/
theorem mayGo_of_same (job : u.job = s.job) (e : ∀ j, 2 ≤ j → j ≤ 9 → objGet u 0x4000 j = objGet s 0x4000 j)
    (spent : u.net.spent = s.net.spent) (waiting : u.net.waiting = s.net.waiting) : mayGo u d act ↔ mayGo s d act := by
  unfold mayGo isSpent spentBy
  rw [job, budget_of_entries e, spent, waiting]

theorem mustWait_of_same (job : u.job = s.job) (e : ∀ j, 2 ≤ j → j ≤ 9 → objGet u 0x4000 j = objGet s 0x4000 j)
    (spent : u.net.spent = s.net.spent) (waiting : u.net.waiting = s.net.waiting) : mustWait u d act ↔ mustWait s d act := by
  unfold mustWait isSpent spentBy
  rw [job, budget_of_entries e, spent, waiting]

theorem any_act_eq_false {q : List WaitB} (h : ∀ x ∈ q, x.act ≠ act) : q.any (·.act == act) = false :=
  List.any_eq_false.mpr fun x hx => by simpa using h x hx

/-- A packet that may go leaves at once. -/
theorem inject_of_mayGo {n : Nat} {items : List Output} (some : items ≠ []) (h : mayGo s d act) :
    inject d act n items s = departAll d { act := act, flits := n, items := items } s := by
  have go : (!s.job || !isSpent s d act && !(s.net.waiting.getD (3 * d + levelOf act) []).any (·.act == act)) = true := by
    obtain job | ⟨free, none⟩ := h
    · rw [job]
      rfl
    · rw [free, any_act_eq_false none]
      exact Bool.or_true _
  unfold inject
  rw [if_neg (by simpa using some)]
  exact if_pos go

/-- A packet that must wait joins those that wait, and is counted. -/
theorem inject_of_mustWait {n : Nat} {items : List Output} (some : items ≠ []) (h : mustWait s d act) :
    inject d act n items s = countModule 0x18 1 (bump 0x4000 0x12 1 { s with net := { s.net with
      waiting := s.net.waiting.set (3 * d + levelOf act) (s.net.waiting.getD (3 * d + levelOf act) [] ++
        [{ act := act, flits := n, items := items }]) } }) := by
  have stay : ¬ (!s.job || !isSpent s d act && !(s.net.waiting.getD (3 * d + levelOf act) []).any (·.act == act)) = true := by
    obtain ⟨job, spent | ⟨x, hx, e⟩⟩ := h
    · rw [job, spent]
      exact Bool.false_ne_true
    · have waits : (s.net.waiting.getD (3 * d + levelOf act) []).any (·.act == act) = true :=
        List.any_eq_true.mpr ⟨x, hx, by rw [e]; exact beq_self_eq_true act⟩
      rw [job, waits]
      cases isSpent s d act <;> decide
  unfold inject
  rw [if_neg (by simpa using some)]
  exact if_neg stay

/-- A packet that must wait joins those that wait, and 0x4000:12 counts it. -/
theorem waits_inject {n : Nat} {items : List Output} (some : items ≠ []) (h : mustWait s d act) :
    Waits s (inject d act n items s) d act n items ∧
      objGet (inject d act n items s) 0x4000 0x12 = objGet s 0x4000 0x12 + 1 := by
  have sent : Sent s (inject d act n items s) := sent_inject _ _ _ _ (Sent.refl s)
  refine ⟨⟨sent.only, ?_⟩, ?_⟩
  · rw [inject_of_mustWait some h, countModule, net_countEvent, net_bump]
  · rw [inject_of_mustWait some h, objGet_countModule, objGet_bump_same]
    exact congrArg (· + 1) (objGet_of_objs rfl rfl _ _)

end

/-! ## What crosses the mesh at once -/

/-- An output that reaches a unit of the module by the mesh. -/
def crosses : Output → Prop
  | .landing _ _ _ | .stagingIn _ _ _ _ | .sampleIn _ _ | .chainIn _ _ _ | .wordIn _ _ | .noticeIn _ _ | .backAck _ _ => True
  | _ => False

theorem depart_of_crosses {o : Output} (h : crosses o) (s : State) :
    depart s o = { s with net := { s.net with arrived := s.net.arrived ++ [o] } } := by
  unfold crosses at h
  split at h
  case h_8 => exact absurd h id
  all_goals rfl

theorem departs_of_crosses {items : List Output} (h : ∀ o ∈ items, crosses o) (s : State) :
    items.foldl depart s = { s with net := { s.net with arrived := s.net.arrived ++ items } } := by
  induction items generalizing s with
  | nil => rw [List.append_nil]; rfl
  | cons o os ih =>
    rw [List.foldl_cons, depart_of_crosses (h o List.mem_cons_self), ih fun o ho => h o (List.mem_cons_of_mem _ ho),
      List.append_assoc]
    rfl

/-- The state in which a packet's flits have been counted and what it carries has arrived. -/
def crossed (d act n : Nat) (items : List Output) (s : State) : State :=
  { setSpent d act (spentBy s d act + n) s with
    net := { (setSpent d act (spentBy s d act + n) s).net with arrived := s.net.arrived ++ items } }

theorem inject_of_crosses {d act n : Nat} {items : List Output} {s : State} (some : items ≠ []) (go : mayGo s d act)
    (h : ∀ o ∈ items, crosses o) : inject d act n items s = crossed d act n items s := by
  rw [inject_of_mayGo some go, departAll, departs_of_crosses h]
  rfl

/-- A frame for a link that may go joins the class B queue of its port. -/
theorem inject_classB {d act n l : Nat} {level : Bool} {f : Frame} {s : State} (go : mayGo s d act) :
    inject d act n [.classB l level f] s =
      linkSet l { linkAt s l with bulk := (linkAt s l).bulk ++ [(s.tick, level, f)] }
        (setSpent d act (spentBy s d act + n) s) := by
  rw [inject_of_mayGo (List.cons_ne_nil _ _) go]
  rfl

/-! ## Rows that reach a tile -/

theorem arrive_eq_entered (t : Nat) (inp : LandIn) (r : LandRow) (s : State) :
    arrive t inp r s = tileSet t (entered (tileAt s t) inp r) s := by
  unfold arrive entered
  simp only [Bool.and_eq_true, decide_eq_true_eq, List.isEmpty_iff]
  split
  · rfl
  · split
    · rfl
    · rfl

/-- A row that alone has crossed the mesh arrives at the mesh input of its tile. -/
theorem takeLandings_of_one {s : State} {t : Nat} {h : Route} {r : LandRow} (one : s.net.arrived = [.landing t h r]) :
    takeLandings s = tileSet t (entered (tileAt s t) .mesh
      { r with since := cycleNow s + meshLat (profile s) (24 * h.sy.toNat + h.sx.toNat) t })
      { s with net := { s.net with arrived := [] } } := by
  unfold takeLandings
  rw [one]
  dsimp only [List.foldl_cons, List.foldl_nil, List.filter]
  rw [arrive_eq_entered]
  rfl

theorem takeLandings_of_none {s : State} (none : s.net.arrived = []) : takeLandings s = s := by
  have same : { s with net := { s.net with arrived := [] } } = s := by rw [← none]
  unfold takeLandings
  rw [none]
  exact same

end Sys2Proof.Machine
end

section
/-! SUPPORT. Background writes and their acknowledgements (R121, R122, R243, R244). -/

namespace Sys2Proof.Machine

open Sys2Proof Sys2Proof.Laws

/-! ## After a sound frame -/

theorem objGet_frameGood_of_ne {i j : Nat} (l n seq : Nat) (s : State) (ne : objKey i j ≠ objKey (0x4100 + l) 9) :
    objGet (frameGood l n seq s) i j = objGet s i j := by
  show objGet (countLink l 2 1 (countLink l 3 n (bump (0x4100 + l) 9 n s))) _ _ = _
  rw [objGet_countLink, objGet_countLink, objGet_bump_ne _ _ ne]

theorem budgets_frameGood (l n seq : Nat) (s : State) (j : Nat) (_ : 2 ≤ j) (h : j ≤ 9) :
    objGet (frameGood l n seq s) 0x4000 j = objGet s 0x4000 j :=
  objGet_frameGood_of_ne _ _ _ _ (by rw [objKey, objKey]; omega)

section
variable {l n seq d act : Nat} {s : State}

theorem mayGo_frameGood : mayGo (frameGood l n seq s) d act ↔ mayGo s d act :=
  mayGo_of_same (sent_frameGood l n seq s).job (budgets_frameGood l n seq s) (by rw [net_frameGood]) (by rw [net_frameGood])

theorem mustWait_frameGood : mustWait (frameGood l n seq s) d act ↔ mustWait s d act :=
  mustWait_of_same (sent_frameGood l n seq s).job (budgets_frameGood l n seq s) (by rw [net_frameGood]) (by rw [net_frameGood])

theorem peerCoord_frameGood (k : Nat) : peerCoord (frameGood l n seq s) k = peerCoord s k := by
  rw [peerCoord, peerCoord, objGet_frameGood _ _ _ _ (by rw [objKey]; omega)]

theorem spentBy_frameGood : spentBy (frameGood l n seq s) d act = spentBy s d act := by
  rw [spentBy, spentBy, net_frameGood]

/-- The links of a class B frame depend on the placement and on the state of the links. -/
theorem routeLink_of_entries {u : State} (dest : Coord) (slice : ∀ j, objGet u 0x4200 (j + 0xC) = objGet s 0x4200 (j + 0xC))
    (links : ∀ k, objGet u (0x4100 + k) 1 = objGet s (0x4100 + k) 1) : routeLink u dest = routeLink s dest := by
  have up : linkUp u = linkUp s := funext fun k => by rw [linkUp, linkUp, linkState, linkState, links]
  have dir : routeDir u dest = routeDir s dest := by
    simp only [routeDir, sliceRank, sliceAt, extent, isRing, slice 0, slice 1, slice 2, slice 3]
    have masks : ∀ a, objGet u 0x4200 (0x10 + a) = objGet s 0x4200 (0x10 + a) := fun a => by
      rw [show 0x10 + a = a + 4 + 0xC by omega, slice]
    simp only [masks]
    rfl
  rw [routeLink, routeLink, dir]
  simp only [broadcastLink, up]

theorem routeLink_frameGood (link : l < 36) (dest : Coord) : routeLink (frameGood l n seq s) dest = routeLink s dest := by
  refine routeLink_of_entries dest (fun j => ?_) fun k => ?_
  · exact objGet_frameGood_of_ne _ _ _ _ (by rw [objKey, objKey]; omega)
  · exact objGet_frameGood _ _ _ _ (by rw [objKey]; omega)

end

/-! ## Into the mesh -/

section
variable {s : State} {d act n t : Nat} {h : Route} {r : LandRow}

/-- The row of a packet that may go arrives at the mesh input of its tile. -/
theorem takeLandings_landing (none : s.net.arrived = []) :
    takeLandings (depart s (.landing t h r)) = tileSet t (entered (tileAt s t) .mesh
      { r with since := cycleNow s + meshLat (profile s) (24 * h.sy.toNat + h.sx.toNat) t }) s := by
  have one : (depart s (.landing t h r)).net.arrived = [.landing t h r] := congrArg (· ++ [Output.landing t h r]) none
  have same : { depart s (.landing t h r) with net := { (depart s (.landing t h r)).net with arrived := [] } } = s := by
    rw [← none]
    rfl
  rw [takeLandings_of_one one, same]
  rfl

/-- The tile of a route header is the one that it was made of. -/
theorem source_of_tile {a : Nat} (grid : a < 768) :
    24 * (BitVec.ofNat 5 (tileY a)).toNat + (BitVec.ofNat 5 (tileX a)).toNat = a := by
  rw [BitVec.toNat_ofNat, BitVec.toNat_ofNat, tileX, tileY]
  omega

theorem attachTile_lt {l : Nat} (link : l < 36) : attachTile l < 768 :=
  (by decide : ∀ k : Fin 36, attachTile k.val < 768) ⟨l, link⟩

theorem corner_lt {d : Nat} (die : d < 4) : corner d < 768 :=
  (by decide : ∀ k : Fin 4, corner k.val < 768) ⟨d, die⟩

/-- The state in which a row has entered tile `t` from the mesh, `n` flits of an activity of die `d` spent. -/
def meshEntered (d act n t : Nat) (r : LandRow) (s : State) : State :=
  tileSet t (entered (tileAt s t) .mesh r) (setSpent d act (spentBy s d act + n) s)

theorem sent_meshEntered (b : State) (sent : Sent b s) :
    Sent { b with tiles := (meshEntered d act n t r s).tiles } (meshEntered d act n t r s) := by
  have same : Sent b (setSpent d act (spentBy s d act + n) s) := sent_setSpent _ _ _ sent
  exact congrArg (fun u : SentRest => { u with tiles := (meshEntered d act n t r s).tiles }) same

theorem tileAt_meshEntered (v : Nat) :
    tileAt (meshEntered d act n t r s) v = if v = t then entered (tileAt s t) .mesh r else tileAt s v :=
  tileAt_tileSet ..

/-- A background write that may go, from tile `a`. -/
theorem takeLandings_inject_backLanding {a w o ref : Nat} {gen : BitVec 16} {row : RowFrame} {sender : Coord}
    (grid : a < 768) (none : s.net.arrived = []) (go : mayGo s d act) :
    takeLandings (inject d act n [backLanding a t act w o gen row sender ref] s) = meshEntered d act n t
      { hdr := { window := w, woff := o, seq := 0, landSp := 0 }, row := row
        back := some { gen := gen, sender := sender, ref := ref }, port := Option.none
        since := cycleNow s + meshLat (profile s) a t } s := by
  rw [inject_of_mayGo (List.cons_ne_nil _ _) go, departAll]
  refine (takeLandings_landing (s := setSpent d act (spentBy s d act + n) s) none).trans ?_
  dsimp only
  rw [source_of_tile grid]
  rfl

end

end Sys2Proof.Machine
end

section
/-! SUPPORT. Background writes and acknowledgements at a link port settled (R121, R122, R243, R244). -/

namespace Sys2Proof.Machine

open Sys2Proof Sys2Proof.Laws

/-! ## Writes that come from a link -/

section
variable {link : LinkIx} {f : Frame} {chk : RxCheck} {ref n : Nat} {s : State}

theorem exec_backgroundWrite_of_dead (dead : linkLive s = false) : exec (.backgroundWrite link f chk ref) s = .next s :=
  congrArg Host.Outcome.next (if_pos (by rw [dead]; rfl))

theorem exec_backgroundWrite_of_bad (live : linkLive s = true)
    (bad : chk = .bad n ∨ (∃ m, chk = .good m) ∧ proofOk f.row = false ∧ n = 0) :
    exec (.backgroundWrite link f chk ref) s = .next (frameBad link.val n f.seq.toNat s) := by
  have up : ¬ (!linkLive s) = true := by rw [live]; decide
  refine congrArg Host.Outcome.next ((if_neg up).trans ?_)
  obtain rfl | ⟨⟨m, rfl⟩, proof, rfl⟩ := bad
  · rfl
  · exact if_pos (by rw [proof]; rfl)

/-- The rest of a sound write. -/
def soundWrite (link : LinkIx) (f : Frame) (ref : Nat) (s : State) : State :=
  if f.dest ≠ ownCoord s then relayFrame (link.val / 9) f s
  else if 24 ≤ f.tx.toNat then raiseFault 0x4003 (unitSite 1 (link.val / 9) 0 f.seq.toNat) s
  else takeLandings (inject (link.val / 9) f.activity.toNat 9 [backLanding (attachTile link.val)
    (24 * f.ty.toNat + f.tx.toNat) f.activity.toNat f.window.toNat f.woff.toNat f.gen f.row (peerCoord s link.val) ref] s)

theorem exec_backgroundWrite_of_sound (live : linkLive s = true) (proof : proofOk f.row = true) :
    exec (.backgroundWrite link f (.good n) ref) s = .next (soundWrite link f ref (frameGood link.val n f.seq.toNat s)) := by
  have up : ¬ (!linkLive s) = true := by rw [live]; decide
  have ok : ¬ (!proofOk f.row) = true := by rw [proof]; decide
  exact congrArg Host.Outcome.next ((if_neg up).trans (if_neg ok))

/-- A frame for another module whose activity may go joins the class B queue of its link. -/
theorem relayFrame_frameGood {l d x : Nat} (link : l < 36) (route : routeLink s f.dest = some x)
    (go : mayGo s d f.activity.toNat) :
    let u := relayFrame d f (frameGood l n f.seq.toNat s)
    OnlySent s u ∧ (linkAt u x).bulk = (linkAt s x).bulk ++ [(s.tick, noticeLevel f.kind, f)] := by
  intro u
  have sent := sent_frameGood l n f.seq.toNat s
  have run : u = inject d f.activity.toNat 9 [.classB x (noticeLevel f.kind) f] (frameGood l n f.seq.toNat s) := by
    show relayFrame _ _ _ = _
    rw [relayFrame, routeLink_frameGood link, route]
  refine ⟨?_, ?_⟩
  · rw [run]
    exact (sent_inject _ _ _ _ sent).only
  · rw [run, inject_classB (mayGo_frameGood.mpr go), linkAt_linkSet_same, linkAt_frameGood]
    show _ ++ [((frameGood l n f.seq.toNat s).tick, _, _)] = _
    rw [sent.tick]

/-! ## Acknowledgements -/

theorem exec_backgroundAck_of_bad {acks : List BackAck} (live : linkLive s = true) :
    exec (.backgroundAck ⟨link, ⟨f, .bad n⟩, acks⟩) s = .next (frameBad link.val n f.seq.toNat s) :=
  congrArg Host.Outcome.next (if_neg (by rw [live]; decide))

/-- The rest of a sound frame of one acknowledgement. -/
def soundAck (link : LinkIx) (f : Frame) (a : BackAck) (s : State) : State :=
  if f.dest ≠ ownCoord s then relayFrame (link.val / 9) f s
  else sendAcks (inject (link.val / 9) 2 9 [.backAck (ownCoord s) a] s)

theorem exec_backgroundAck_of_sound {a : BackAck} (live : linkLive s = true) :
    exec (.backgroundAck ⟨link, ⟨f, .good n⟩, [a]⟩) s = .next (soundAck link f a (frameGood link.val n f.seq.toNat s)) :=
  congrArg Host.Outcome.next (if_neg (by rw [live]; decide))

/-- An acknowledgement of the own module that has crossed the mesh alone is taken. -/
theorem sendAcks_of_own {d act n : Nat} {a : BackAck} (none : s.net.arrived = []) :
    sendAcks (crossed d act n [.backAck (ownCoord s) a] s) = takeAck (setSpent d act (spentBy s d act + n) s) a := by
  have one : (crossed d act n [.backAck (ownCoord s) a] s).net.arrived = [.backAck (ownCoord s) a] :=
    congrArg (· ++ [Output.backAck (ownCoord s) a]) none
  have emptied : { crossed d act n [.backAck (ownCoord s) a] s with
      net := { (crossed d act n [.backAck (ownCoord s) a] s).net with arrived := [] } } =
      setSpent d act (spentBy s d act + n) s := by
    rw [← none]
    rfl
  have own : ownCoord (setSpent d act (spentBy s d act + n) s) = ownCoord s := rfl
  unfold sendAcks
  rw [one]
  simp only [List.filterMap_cons, List.filterMap_nil, List.filter, List.map_cons, List.map_nil, List.eraseDups_cons,
    List.eraseDups_nil, beq_self_eq_true, List.foldl_cons, List.foldl_nil]
  rw [emptied, sendAcksTo, own, if_pos rfl]
  rfl

variable {a : BackAck} {w : BackWrite}

/-- The writes but the one acknowledged. -/
def otherBacks (s : State) (a : BackAck) : List BackWrite := s.net.backs.filter (·.ref != a.ref)

/-- A write once it has been refused again. -/
def refusedBack (s : State) (a : BackAck) (w : BackWrite) : BackWrite :=
  { w with refused := w.refused + 1, gen := if a.opened then a.gen else a.gen + 1, retryTp := some (s.tp + 1) }

theorem takeAck_of_accepted (found : s.net.backs.find? (·.ref == a.ref) = some w) (ok : a.opened = true ∧ a.gen = w.gen) :
    takeAck s a = { s with net := { s.net with backs := otherBacks s a } } := by
  unfold takeAck
  rw [found]
  exact if_pos (by rw [ok.1, ok.2, beq_self_eq_true]; rfl)

theorem not_accepted (no : a.opened = false ∨ a.gen ≠ w.gen) : ¬ (a.opened && a.gen == w.gen) = true := by
  rw [Bool.and_eq_true, beq_iff_eq]
  rintro ⟨opened, gen⟩
  obtain closed | other := no
  · exact Bool.false_ne_true (closed.symm.trans opened)
  · exact other gen

theorem takeAck_of_abandoned (found : s.net.backs.find? (·.ref == a.ref) = some w)
    (no : a.opened = false ∨ a.gen ≠ w.gen) (many : objGet s 0x3100 0xF ≤ w.refused + 1) :
    takeAck s a = bump 0x3100 0x10 1 { s with net := { s.net with backs := otherBacks s a } } := by
  unfold takeAck
  rw [found]
  exact (if_neg (not_accepted no)).trans (if_pos many)

theorem takeAck_of_refused (found : s.net.backs.find? (·.ref == a.ref) = some w)
    (no : a.opened = false ∨ a.gen ≠ w.gen) (few : w.refused + 1 < objGet s 0x3100 0xF) :
    takeAck s a = { s with net := { s.net with
      backs := s.net.backs.map fun x => if x.ref = a.ref then refusedBack s a x else x } } := by
  unfold takeAck
  rw [found]
  exact (if_neg (not_accepted no)).trans (if_neg (Nat.not_le.mpr few))

end

/-- A write changed in place is found by its reference, the others are as before. -/
theorem find_and_others_map {ref : Nat} {w : BackWrite} {xs : List BackWrite} (g : BackWrite → BackWrite)
    (same : ∀ x, (g x).ref = x.ref) (found : xs.find? (·.ref == ref) = some w) :
    (xs.map fun x => if x.ref = ref then g x else x).find? (·.ref == ref) = some (g w) ∧
      (xs.map fun x => if x.ref = ref then g x else x).filter (·.ref != ref) = xs.filter (·.ref != ref) := by
  have kept : ∀ x : BackWrite, (if x.ref = ref then g x else x).ref = x.ref := fun x => by
    split
    · exact same x
    · rfl
  constructor
  · have hw : w.ref = ref := by simpa using List.find?_some found
    rw [List.find?_map, show ((·.ref == ref) ∘ fun x => if x.ref = ref then g x else x) = (fun x : BackWrite => x.ref == ref)
      from funext fun x => congrArg (· == ref) (kept x), found]
    exact congrArg some (if_pos hw)
  · rw [List.filter_map, show ((·.ref != ref) ∘ fun x => if x.ref = ref then g x else x) = (fun x : BackWrite => x.ref != ref)
      from funext fun x => congrArg (· != ref) (kept x)]
    refine (List.map_congr_left fun x hx => if_neg ?_).trans (List.map_id _)
    simpa using (List.mem_filter.mp hx).2

/-! ## Writes that are sent again -/

/-- The list of writes in which the one named is sent again. -/
def relaunched (ref : Nat) (s : State) : State :=
  { s with net := { s.net with backs := s.net.backs.map fun x => if x.ref = ref then { x with retryTp := none } else x } }

theorem retryBack_of_found {ref tp : Nat} {w : BackWrite} {s : State} (found : s.net.backs.find? (·.ref == ref) = some w)
    (retry : w.retryTp = some tp) (due : tp ≤ s.tp) :
    retryBack ref s = launchBack w.die w.act { w with retryTp := none } (relaunched ref s) := by
  unfold retryBack
  rw [found]
  dsimp only
  rw [retry]
  exact if_neg (Nat.not_lt.mpr due)

theorem retryBack_of_early {ref tp : Nat} {w : BackWrite} {s : State} (found : s.net.backs.find? (·.ref == ref) = some w)
    (retry : w.retryTp = some tp) (early : s.tp < tp) : retryBack ref s = s := by
  unfold retryBack
  rw [found]
  dsimp only
  rw [retry]
  exact if_pos early

/-- A background write of this module that may go is driven out and arrives at the mesh input of its tile. -/
theorem launchBack_of_mayGo {d act : Nat} {w : BackWrite} {s : State} (die : d < 4) (none : s.net.arrived = [])
    (go : mayGo s d act) :
    launchBack d act w s = meshEntered d act 9 w.tile
      { hdr := { window := w.window, woff := w.woff, seq := 0, landSp := 0 }, row := w.row
        back := some { gen := w.gen, sender := w.dest, ref := w.ref }, port := Option.none
        since := cycleNow s + meshLat (profile s) (corner d) w.tile } (emit (.backWrite w) s) := by
  rw [launchBack, inject_of_mayGo (List.cons_ne_nil _ _) go, departAll]
  refine (takeLandings_landing (s := emit (.backWrite w) (setSpent d act (spentBy s d act + 9) s)) none).trans ?_
  dsimp only
  rw [source_of_tile (corner_lt die)]
  rfl

theorem mem_and_tiles_of_sent_hold {b u : State} {x : Hold} (h : Sent { b with hold := x } u) :
    u.mem = b.mem ∧ u.tiles = b.tiles := ⟨h.mem, h.tiles⟩

/-- What a frame that cannot be corrected leads to: a fault after too many failures, else a request. -/
theorem bad_frame_outcomes {i : Instr} {l n q : Nat} {s : State} (inv : Inv s) (link : l < 36)
    (run : exec i s = .next (frameBad l n q s)) :
    (objGet s (0x4100 + l) 0xF < mget 0 (linkAt s l).failures q + 1 →
      ∃ s', exec i s = .next s' ∧ Recorded s s' (l / 9) 0x4011 ∧ OnlyAside s s') ∧
    (mget 0 (linkAt s l).failures q + 1 ≤ objGet s (0x4100 + l) 0xF → ∃ s', exec i s = .next s' ∧ .retry l q ∈ s'.out ∧
      mget 0 (linkAt s' l).failures q = mget 0 (linkAt s l).failures q + 1 ∧ s'.mem = s.mem ∧ s'.tiles = s.tiles) := by
  refine ⟨fun many => ?_, fun few => ?_⟩
  · obtain ⟨recorded, aside, -⟩ := frameBad_frame_of_many (n := n) inv link many
    exact ⟨_, run, recorded, aside.only⟩
  · obtain ⟨sent, out, failures, -⟩ := frameBad_frame_of_few (n := n) few
    obtain ⟨mem, tiles⟩ := mem_and_tiles_of_sent_hold sent
    exact ⟨_, run, out, failures, mem, tiles⟩

/-- A sound write for this module that may go has arrived at its tile. -/
theorem soundWrite_entered {link : LinkIx} {f : Frame} {ref n : Nat} {s : State} (own : f.dest = ownCoord s)
    (grid : f.tx.toNat < 24) (none : s.net.arrived = []) (go : mayGo s (link.val / 9) f.activity.toNat) :
    soundWrite link f ref (frameGood link.val n f.seq.toNat s) =
      meshEntered (link.val / 9) f.activity.toNat 9 (24 * f.ty.toNat + f.tx.toNat)
        { hdr := { window := f.window.toNat, woff := f.woff.toNat, seq := 0, landSp := 0 }, row := f.row
          back := some { gen := f.gen, sender := peerCoord s link.val, ref := ref }, port := Option.none
          since := cycleNow s + meshLat (profile s) (attachTile link.val) (24 * f.ty.toNat + f.tx.toNat) }
        (frameGood link.val n f.seq.toNat s) := by
  have sent := sent_frameGood link.val n f.seq.toNat s
  rw [soundWrite, ownCoord_frameGood, if_neg (Classical.not_not.mpr own), if_neg (Nat.not_le.mpr grid),
    takeLandings_inject_backLanding (attachTile_lt link.isLt) (by rw [net_frameGood]; exact none) (mayGo_frameGood.mpr go),
    peerCoord_frameGood, cycleNow_of_sent sent, profile_of_apart sent.aside.apart]

theorem tileAt_of_tiles {s u : State} (h : u.tiles = s.tiles) (v : Nat) : tileAt u v = tileAt s v := by
  rw [tileAt, tileAt, h]

theorem waits_of_frameGood {l n seq d act k : Nat} {items : List Output} {s t : State}
    (h : Waits (frameGood l n seq s) t d act k items) (sent : Sent s t) : Waits s t d act k items := by
  refine ⟨sent.only, ?_⟩
  rw [h.2, net_frameGood]

/-- A sound write for this module that must wait stands at its injection point. -/
theorem soundWrite_waits {link : LinkIx} {f : Frame} {ref n : Nat} {s : State} (own : f.dest = ownCoord s)
    (grid : f.tx.toNat < 24) (none : s.net.arrived = []) (wait : mustWait s (link.val / 9) f.activity.toNat) :
    let u := soundWrite link f ref (frameGood link.val n f.seq.toNat s)
    Waits s u (link.val / 9) f.activity.toNat 9 [backLanding (attachTile link.val) (24 * f.ty.toNat + f.tx.toNat)
        f.activity.toNat f.window.toNat f.woff.toNat f.gen f.row (peerCoord s link.val) ref] ∧
      objGet u 0x4000 0x12 = objGet s 0x4000 0x12 + 1 := by
  intro u
  obtain ⟨waits, count⟩ := waits_inject (n := 9) (s := frameGood link.val n f.seq.toNat s)
    (List.cons_ne_nil (backLanding (attachTile link.val) (24 * f.ty.toNat + f.tx.toNat) f.activity.toNat f.window.toNat
      f.woff.toNat f.gen f.row (peerCoord s link.val) ref) []) (mustWait_frameGood.mpr wait)
  have run : u = inject (link.val / 9) f.activity.toNat 9 [backLanding (attachTile link.val)
      (24 * f.ty.toNat + f.tx.toNat) f.activity.toNat f.window.toNat f.woff.toNat f.gen f.row (peerCoord s link.val) ref]
      (frameGood link.val n f.seq.toNat s) := by
    show soundWrite _ _ _ _ = _
    rw [soundWrite, ownCoord_frameGood, if_neg (Classical.not_not.mpr own), if_neg (Nat.not_le.mpr grid), peerCoord_frameGood]
    refine takeLandings_of_none ?_
    rw [waits.2, net_frameGood]
    exact none
  rw [run]
  refine ⟨waits_of_frameGood waits (sent_inject _ _ _ _ (sent_frameGood ..)), count.trans ?_⟩
  rw [objGet_frameGood _ _ _ _ (by decide)]

/-- A sound acknowledgement for this module that may go is taken. -/
theorem soundAck_taken {link : LinkIx} {f : Frame} {n : Nat} {a : BackAck} {s : State} (own : f.dest = ownCoord s)
    (none : s.net.arrived = []) (go : mayGo s (link.val / 9) 2) :
    soundAck link f a (frameGood link.val n f.seq.toNat s) =
      takeAck (setSpent (link.val / 9) 2 (spentBy s (link.val / 9) 2 + 9) (frameGood link.val n f.seq.toNat s)) a := by
  rw [soundAck, ownCoord_frameGood, if_neg (Classical.not_not.mpr own),
    inject_of_crosses (List.cons_ne_nil _ _) (mayGo_frameGood.mpr go) (by simp [crosses]),
    ← ownCoord_frameGood link.val n f.seq.toNat s, sendAcks_of_own (by rw [net_frameGood]; exact none), spentBy_frameGood]

/-- What an acknowledgement of a known write does, in a state `b` in which only what counts has changed. -/
theorem takeAck_outcomes {a : BackAck} {w : BackWrite} {s b : State} (sent : Sent s b) (backs : b.net.backs = s.net.backs)
    (entries : ∀ j, 0xE < j → j < 0x20 → objGet b 0x3100 j = objGet s 0x3100 j)
    (found : s.net.backs.find? (·.ref == a.ref) = some w) :
    (¬ (a.opened = false ∨ a.gen ≠ w.gen) → OnlySent s (takeAck b a) ∧ (takeAck b a).net.backs = otherBacks s a) ∧
    (a.opened = false ∨ a.gen ≠ w.gen → objGet s 0x3100 0xF ≤ w.refused + 1 → OnlySent s (takeAck b a) ∧
      (takeAck b a).net.backs = otherBacks s a ∧ objGet (takeAck b a) 0x3100 0x10 = objGet s 0x3100 0x10 + 1) ∧
    (a.opened = false ∨ a.gen ≠ w.gen → w.refused + 1 < objGet s 0x3100 0xF → OnlySent s (takeAck b a) ∧
      (takeAck b a).net.backs.find? (·.ref == a.ref) = some (refusedBack s a w) ∧
      (takeAck b a).net.backs.filter (·.ref != a.ref) = otherBacks s a) := by
  have others : otherBacks b a = otherBacks s a := by rw [otherBacks, otherBacks, backs]
  have refusals := entries 0xF (by decide) (by decide)
  rw [← backs] at found
  refine ⟨fun ok => ?_, fun no many => ?_, fun no few => ?_⟩
  · obtain ⟨opened, gen⟩ := not_or.mp ok
    rw [takeAck_of_accepted found ⟨(Bool.not_eq_false _).mp opened, Classical.not_not.mp gen⟩, others]
    exact ⟨Sent.only sent, rfl⟩
  · rw [takeAck_of_abandoned found no (by rw [refusals]; exact many), others]
    refine ⟨Sent.only (sent_bump _ _ _ (s := { b with net := { b.net with backs := otherBacks s a } }) sent), ?_, ?_⟩
    · rw [net_bump]
    · rw [objGet_bump_same, ← entries 0x10 (by decide) (by decide)]
      exact congrArg (· + 1) (objGet_of_objs rfl rfl _ _)
  · obtain ⟨same, rest⟩ := find_and_others_map (refusedBack b a) (fun _ => rfl) found
    rw [takeAck_of_refused found no (by rw [refusals]; exact few)]
    refine ⟨Sent.only sent, same.trans ?_, rest.trans others⟩
    rw [refusedBack, sent.tp]
    rfl

/-- A write whose time pick has come is sent again. -/
theorem retryBack_relaunched {ref tp : Nat} {w : BackWrite} {s : State} (found : s.net.backs.find? (·.ref == ref) = some w)
    (retry : w.retryTp = some tp) (due : tp ≤ s.tp) (window : w.window < 256) (die : w.die < 4)
    (none : s.net.arrived = []) (go : mayGo s w.die w.act) :
    let u := retryBack ref s
    .backWrite { w with retryTp := Option.none } ∈ u.out ∧ OnlySent { s with tiles := u.tiles } u ∧
      tileAt u w.tile = entered (tileAt s w.tile) .mesh
        { hdr := { window := w.window % 256, woff := w.woff, seq := 0, landSp := 0 }, row := w.row
          back := some { gen := w.gen, sender := w.dest, ref := w.ref }, port := Option.none
          since := cycleNow s + meshLat (profile s) (corner w.die) w.tile } ∧
      u.net.backs.find? (·.ref == ref) = some { w with retryTp := Option.none } := by
  intro u
  have go' : mayGo (relaunched ref s) w.die w.act := (mayGo_of_same rfl (fun _ _ _ => rfl) rfl rfl).mpr go
  have run : u = _ := (retryBack_of_found found retry due).trans (launchBack_of_mayGo die none go')
  have sent : Sent s (emit (.backWrite { w with retryTp := Option.none }) (relaunched ref s)) := sent_emit _ (Sent.refl s)
  rw [run]
  refine ⟨List.mem_append_right _ (List.mem_singleton_self _), (sent_meshEntered s sent).only, ?_, ?_⟩
  · rw [tileAt_meshEntered, if_pos rfl, Nat.mod_eq_of_lt window]
    rfl
  · exact (find_and_others_map (fun x => { x with retryTp := Option.none }) (fun _ => rfl) found).1

/-- Settles O41, by the cases of a write, of an acknowledgement, and of a write sent again. -/
theorem backgroundWritesLandOrRetry : Obligations.BackgroundWritesLandOrRetry := by
  refine ⟨fun link f chk ref s inv none => ?_, fun i link f chk ref n acks s inv live named => ?_,
    fun link f n a s live none go => ?_, fun ref tp w s found retry => ?_⟩
  · intro l d u act i r
    have start : linkLive s = true → ∀ n, chk = .good n → proofOk f.row = true →
        exec i s = .next (soundWrite link f ref (frameGood l n f.seq.toNat s)) := by
      rintro live n rfl proof
      exact exec_backgroundWrite_of_sound live proof
    refine ⟨fun live n good proof own => ⟨fun grid go => ?_, fun grid wait => ?_, fun grid => ?_⟩,
      fun live n x good proof other route go => ?_, exec_backgroundWrite_of_dead⟩
    · have sent := sent_frameGood l n f.seq.toNat s
      refine ⟨_, (start live n good proof).trans (congrArg _ (soundWrite_entered own grid none go)), ?_, ?_, fun v ne => ?_⟩
      · exact (sent_meshEntered s sent).only
      · rw [tileAt_meshEntered, if_pos rfl, tileAt_of_tiles sent.tiles]
      · rw [tileAt_meshEntered, if_neg ne, tileAt_of_tiles sent.tiles]
    · obtain ⟨waits, count⟩ := soundWrite_waits (ref := ref) (n := n) own grid none wait
      exact ⟨_, start live n good proof, waits, count⟩
    · have sent := sent_frameGood l n f.seq.toNat s
      refine ⟨_, (start live n good proof).trans (congrArg _ ((if_neg ?_).trans (if_pos grid))), ?_, ?_⟩
      · rw [ownCoord_frameGood]
        exact Classical.not_not.mpr own
      · exact recorded_of_sent inv sent _ (die_unitSite (by omega))
      · exact (aside_raiseFault _ _ sent.aside).only
    · obtain ⟨only, bulk⟩ := relayFrame_frameGood (n := n) link.isLt route go
      refine ⟨_, (start live n good proof).trans (congrArg _ (if_pos ?_)), only, bulk⟩
      rw [ownCoord_frameGood]
      exact other
  · refine bad_frame_outcomes (n := n) inv link.isLt ?_
    obtain ⟨rfl, bad⟩ | ⟨rfl, rfl⟩ := named
    · exact exec_backgroundWrite_of_bad live bad
    · exact exec_backgroundAck_of_bad live
  · intro i
    have start := exec_backgroundAck_of_sound (link := link) (f := f) (n := n) (a := a) live
    refine ⟨fun own w found => ?_, fun other activity kind x route => ?_⟩
    · intro rest refused
      have taken := soundAck_taken (n := n) (a := a) own none go
      rw [taken] at start
      obtain ⟨accepted, abandoned, again⟩ := takeAck_outcomes (sent_setSpent (link.val / 9) 2
        (spentBy s (link.val / 9) 2 + 9) (sent_frameGood link.val n f.seq.toNat s)) (congrArg Net.backs (net_frameGood link.val n f.seq.toNat s) :)
        (fun j low high => objGet_frameGood link.val n f.seq.toNat s (by rw [objKey]; omega)) found
      exact ⟨fun ok => ⟨_, start, accepted ok⟩, fun no many => ⟨_, start, abandoned no many⟩,
        fun no few => ⟨_, start, again no few⟩⟩
    · have go' : mayGo s (link.val / 9) f.activity.toNat := by
        rw [activity]
        exact go
      obtain ⟨only, bulk⟩ := relayFrame_frameGood (n := n) link.isLt route go'
      rw [kind] at bulk
      refine ⟨_, start.trans (congrArg _ (if_pos ?_)), only, bulk⟩
      rw [ownCoord_frameGood]
      exact other
  · intro r
    refine ⟨fun live due window die none go => ?_, fun h => ?_⟩
    · exact ⟨_, congrArg Host.Outcome.next (if_pos live), retryBack_relaunched found retry due window die none go⟩
    · obtain dead | early := h
      · exact congrArg Host.Outcome.next (if_neg (by rw [dead]; decide))
      · refine congrArg Host.Outcome.next ?_
        rw [retryBack_of_early found retry early, ite_self]

end Sys2Proof.Machine
end

section
/-! SUPPORT. Retry requests, retransmissions and late rows of a link (R234, R240), control blocks and IDLE symbols (R229,
R230, R369). -/

namespace Sys2Proof.Machine

open Sys2Proof Sys2Proof.Laws

section
variable {l : Nat} {s : State}

/-! ## Once the positions that have begun are filled -/

theorem filled_advanceLink (l : Nat) (s : State) : SameFilled s (advanceLink l s) := sameFilled_advanceLink l rfl

theorem stopState_advanceLink : stopState (advanceLink l s) = stopState s :=
  (filled_advanceLink l s).objGet (by decide)

theorem linkState_advanceLink (k : Nat) : linkState (advanceLink l s) k = linkState s k :=
  (filled_advanceLink l s).objGet (by rw [objKey]; omega)

theorem linkUp_advanceLink (k : Nat) : linkUp (advanceLink l s) k = linkUp s k := by
  rw [linkUp, linkUp, linkState_advanceLink]

theorem tick_of_filled {u : State} (h : SameFilled s u) : u.tick = s.tick := congrArg SentRest.tick h.sent
theorem tp_of_filled {u : State} (h : SameFilled s u) : u.tp = s.tp := congrArg SentRest.tp h.sent
theorem boundary_of_filled {u : State} (h : SameFilled s u) : u.boundary = s.boundary := congrArg SentRest.boundary h.sent
theorem mem_of_filled {u : State} (h : SameFilled s u) : u.mem = s.mem := congrArg SentRest.mem h.sent
theorem tiles_of_filled {u : State} (h : SameFilled s u) : u.tiles = s.tiles := congrArg SentRest.tiles h.sent
theorem integrity_of_filled {u : State} (h : SameFilled s u) : u.integrity = s.integrity :=
  congrArg SentRest.integrity h.sent

theorem notBegun_advanceLink (full : Bool) (pos : Nat) : notBegun (advanceLink l s) full pos = notBegun s full pos := by
  rw [notBegun, notBegun, tick_of_filled (filled_advanceLink l s), boundary_of_filled (filled_advanceLink l s)]

/-! ## Retry requests -/

/-- The age of a frame in time picks. -/
def ageOf (s : State) (seq : Nat) : Nat := (s.tp % 4096 + 4096 - seq / 16) % 4096

/-- The frame to resend: the one that was sent, or the empty frame that its position carried. -/
def resent (s : State) (k : Link) (seq : Nat) : SentFrame :=
  (k.sent.find? (·.seq == seq)).getD
    { tp := s.tp - ageOf s seq, seq := seq, frame := emptyFrame (s.tp - ageOf s seq) (seq % 16) }

/-- The frames to resend once another has joined them: scheduled rows before other frames. -/
def resendOrder (t : Nat) (f : SentFrame) (xs : List (Nat × SentFrame)) : List (Nat × SentFrame) :=
  if classS f.frame.kind then xs.filter (classS ·.2.frame.kind) ++ [(t, f)] ++ xs.filter (!classS ·.2.frame.kind)
  else xs ++ [(t, f)]

theorem mem_resendOrder_self (t : Nat) (f : SentFrame) (xs : List (Nat × SentFrame)) : (t, f) ∈ resendOrder t f xs := by
  unfold resendOrder
  split <;> simp

theorem mem_resendOrder {t : Nat} {f : SentFrame} {xs : List (Nat × SentFrame)} {y : Nat × SentFrame} (h : y ∈ xs) :
    y ∈ resendOrder t f xs := by
  unfold resendOrder
  split
  case isTrue => cases c : classS y.2.frame.kind <;> simp [h, c]
  case isFalse => exact List.mem_append_left _ h

theorem retryFor_of_stopped {seq : Nat} (stopped : stopState s ≠ 0) : retryFor l seq s = advanceLink l s :=
  if_pos (by rw [stopState_advanceLink]; exact stopped)

theorem retryFor_of_late {seq : Nat} (runs : stopState s = 0)
    (late : 17 ≤ ageOf s seq ∨ positions (linkState s l == 2) ≤ seq % 16) :
    retryFor l seq s = raiseFault 0x4013 (unitSite 3 (l / 9) l seq) (advanceLink l s) := by
  have tp := tp_of_filled (filled_advanceLink l s)
  refine (if_neg (by rw [stopState_advanceLink]; exact Classical.not_not.mpr runs)).trans (if_pos ?_)
  rw [Bool.or_eq_true, decide_eq_true_iff, decide_eq_true_iff, linkState_advanceLink, tp]
  exact late

theorem retryFor_of_young {seq : Nat} (runs : stopState s = 0) (young : ageOf s seq < 17)
    (place : seq % 16 < positions (linkState s l == 2)) :
    retryFor l seq s = linkSet l { linkAt (advanceLink l s) l with
      resend := resendOrder s.tick (resent s (linkAt (advanceLink l s) l) seq) (linkAt (advanceLink l s) l).resend }
      (advanceLink l s) := by
  have tp := tp_of_filled (filled_advanceLink l s)
  have tick := tick_of_filled (filled_advanceLink l s)
  have runs' : ¬ stopState (advanceLink l s) ≠ 0 := by
    rw [stopState_advanceLink]
    exact Classical.not_not.mpr runs
  have fresh : ¬ (decide (17 ≤ ((advanceLink l s).tp % 4096 + 4096 - seq / 16) % 4096) ||
      decide (positions (linkState (advanceLink l s) l == 2) ≤ seq % 16)) = true := by
    rw [Bool.or_eq_true, decide_eq_true_iff, decide_eq_true_iff, linkState_advanceLink, tp]
    exact not_or.mpr ⟨Nat.not_le.mpr young, Nat.not_le.mpr place⟩
  unfold retryFor
  dsimp only
  rw [if_neg runs', if_neg fresh, tp, tick]
  unfold resent resendOrder
  cases (linkAt (advanceLink l s) l).sent.find? (·.seq == seq) <;> rfl

/-! ## Retransmission -/

theorem resendNext_of_none (none : (linkAt (advanceLink l s) l).resend = []) : resendNext l s = advanceLink l s := by
  unfold resendNext
  dsimp only
  rw [none]

theorem resendNext_of_some {x : Nat × SentFrame} {rest : List (Nat × SentFrame)}
    (some : (linkAt (advanceLink l s) l).resend = x :: rest) (up : linkUp s l = true)
    (free : (linkAt (advanceLink l s) l).used.lookup (reserveSlot (linkState s l == 2)) = none)
    (later : notBegun s (linkState s l == 2) (reserveSlot (linkState s l == 2)) = true) :
    resendNext l s = resendIn l (reserveSlot (linkState s l == 2)) x.2 rest (advanceLink l s) := by
  unfold resendNext
  dsimp only
  rw [some]
  dsimp only
  rw [linkState_advanceLink, linkUp_advanceLink, notBegun_advanceLink, free, up, later]
  rfl

/-- The frame of a retransmission: a scheduled row goes as a retransmission, another as its own kind. -/
def resentFrame (f : SentFrame) : Frame := if classS f.frame.kind then { f.frame with kind := .retransmission } else f.frame

theorem lookup_append_of_none {α : Type} {xs : List (Nat × α)} {r : Nat} {v : α} (h : xs.lookup r = none) :
    (xs ++ [(r, v)]).lookup r = some v := by
  rw [List.lookup_append, h, List.lookup_cons, beq_self_eq_true]
  rfl

theorem resendIn_frame (pos : Nat) (f : SentFrame) (rest : List (Nat × SentFrame)) (s : State) :
    let u := resendIn l pos f rest s
    OnlySent s u ∧ u.out = s.out ++ [.linkFrame l pos (resentFrame f)] ∧
      linkAt u l = { linkAt s l with resend := rest, used := (linkAt s l).used ++ [(pos, .frame (resentFrame f))] } ∧
      objGet u (0x4100 + l) 0xB = objGet s (0x4100 + l) 0xB + 1 := by
  intro u
  refine ⟨?_, ?_, ?_, ?_⟩
  · exact Sent.only (sent_countLink _ _ _ (sent_bump _ _ _ (sent_linkSet _ _ (sent_emit _ (Sent.refl s)))))
  · show (countLink _ _ _ (bump _ _ _ _)).out = _
    rw [countLink, out_countEvent, out_bump]
    rfl
  · show linkAt (countLink _ _ _ (bump _ _ _ _)) l = _
    rw [countLink, linkAt_countEvent, linkAt_bump, linkAt_linkSet_same]
    rfl
  · show objGet (countLink _ _ _ (bump _ _ _ _)) _ _ = _
    rw [objGet_countLink, objGet_bump_same, objGet_linkSet, objGet_emit]

end

end Sys2Proof.Machine
end

section
/-! SUPPORT. Late rows, control blocks and IDLE symbols of a link settled (R229, R230, R234, R240, R369). -/

namespace Sys2Proof.Machine

open Sys2Proof Sys2Proof.Laws

/-! ## Late rows -/

theorem sendFrame_frame (l pos : Nat) (f : Frame) (s : State) :
    (sendFrame l pos f s).out = s.out ++ [.linkFrame l pos { f with seq := frameSeq s.tp pos }] ∧
      (linkAt (sendFrame l pos f s) l).handed = (linkAt s l).handed := by
  unfold sendFrame
  extract_lets k g kept s1
  have out : s1.out = s.out ++ [.linkFrame l pos g] := rfl
  have handed : (linkAt s1 l).handed = (linkAt s l).handed := by
    rw [linkAt_linkSet_same]
  split
  case h_3 => exact ⟨out, handed⟩
  case h_4 => exact ⟨by rw [countLink, out_countEvent, out_bump, out], by rw [countLink, linkAt_countEvent, linkAt_bump, handed]⟩
  all_goals exact ⟨by rw [countLink, out_countEvent, out], by rw [countLink, linkAt_countEvent, handed]⟩

/-- A late row leaves in a position and is taken off the list of its port. -/
theorem sendRow_frame (l pos : Nat) (h : Handed) (s : State) :
    (sendRow l pos h s).out = s.out ++ [.linkFrame l pos { h.frame with seq := frameSeq s.tp pos }] ∧
      (linkAt (sendRow l pos h s) l).handed = (linkAt s l).handed.erase h := by
  obtain ⟨out, handed⟩ := sendFrame_frame l pos h.frame s
  have left : ∀ u, u = linkSet l { linkAt (sendFrame l pos h.frame s) l with
      handed := (linkAt (sendFrame l pos h.frame s) l).handed.erase h } (sendFrame l pos h.frame s) →
      u.out = s.out ++ [.linkFrame l pos { h.frame with seq := frameSeq s.tp pos }] ∧
        (linkAt u l).handed = (linkAt s l).handed.erase h := by
    rintro u rfl
    exact ⟨out, by rw [linkAt_linkSet_same, handed]⟩
  unfold sendRow
  extract_lets s1 k rest s2
  split
  · exact left s2 rfl
  · exact left s2 rfl

section
variable {l : Nat} {s : State}

theorem sendLate_of_free {h : Handed} {at_ pos : Nat} (ready : h.ready = some at_)
    (listed : h ∈ (linkAt (advanceLink l s) l).handed) (free : freePosition (advanceLink l s) l = some pos) :
    sendLate l h s = sendRow l pos h (advanceLink l s) := by
  unfold sendLate
  dsimp only
  rw [ready, free]
  exact if_pos (List.contains_iff_mem.mpr listed)

theorem exec_selvedgeLateRow_of_some {link : LinkIx} {n : Nat} {h : Handed} (job : s.job = true)
    (late : ((linkAt s link.val).handed.filter (·.late))[n]? = some h) :
    exec (.selvedgeLateRow link n) s = .next (sendLate link.val h s) := by
  refine congrArg Host.Outcome.next ((if_neg ?_).trans ?_)
  · rw [job]
    decide
  · rw [late]

/-! ## Control blocks -/

theorem reserved_count {v n : Nat} (fits : v / 2 ^ 48 + n < 2 ^ 16) :
    (v / 2 ^ 48 + n) % 2 ^ 16 * 2 ^ 48 + v % 2 ^ 48 = v + n * 2 ^ 48 := by
  rw [Nat.mod_eq_of_lt fits]
  omega

theorem objGet_toPort_count {l k n : Nat} {o : Output} {s : State} (e : objGet s (0x4100 + k) 0xA = n) :
    objGet (toPort l o s) (0x4100 + k) 0xA = n := by
  rw [objGet_toPort (uncounted_link (by decide) (by decide) (by decide)), e]

theorem mem_out_toPort (l : Nat) (o : Output) (s : State) : o ∈ (toPort l o s).out := by
  have emitted : o ∈ (emit o (bump (0x4100 + l) 0x11 1 s)).out := List.mem_append_right _ (List.mem_singleton_self _)
  unfold toPort
  dsimp only
  split
  · exact emitted
  · exact emitted

theorem exec_badBlock_of_still {link : LinkIx} {n : Nat} (job : s.job = false) (still : linkState s link.val ≠ 1) :
    exec (.controlBlock link ⟨false, n⟩) s = .next (bump (0x4100 + link.val) 0xA 1 s) := by
  refine congrArg Host.Outcome.next ((if_neg Bool.false_ne_true).trans ((if_neg ?_).trans (if_pos still)))
  rw [job]
  exact Bool.false_ne_true

/-- Training of a link repeats the exchange that a bad control block interrupted. -/
def repeatExchange (l : Nat) (s u : State) : State :=
  if (linkAt s l).step = 5 && coordsSet s then sendCoord l u else if (linkAt s l).step = 6 then sendDelay l u else u

theorem exec_badBlock_of_training {link : LinkIx} {n : Nat} (job : s.job = false) (trains : linkState s link.val = 1) :
    exec (.controlBlock link ⟨false, n⟩) s =
      .next (repeatExchange link.val s (bump (0x4100 + link.val) 0xA 1 s)) := by
  refine congrArg Host.Outcome.next ((if_neg Bool.false_ne_true).trans ((if_neg ?_).trans (if_neg (Classical.not_not.mpr trains))))
  rw [job]
  exact Bool.false_ne_true

/-- Repeating an exchange changes what sends and counts, and no count of bad codewords. -/
theorem repeatExchange_frame {u : State} {n : Nat} (sent : Sent s u) (count : objGet u (0x4100 + l) 0xA = n) :
    Sent s (repeatExchange l s u) ∧ objGet (repeatExchange l s u) (0x4100 + l) 0xA = n := by
  unfold repeatExchange
  split
  · exact ⟨sent_toPort _ _ sent, objGet_toPort_count count⟩
  · split
    · refine ⟨sent_toPort _ _ (sent_linkSet _ _ sent), objGet_toPort_count ?_⟩
      rw [objGet_linkSet, count]
    · exact ⟨sent, count⟩

/-- At step 6 the delay request goes out again. -/
theorem repeatExchange_of_delay {u : State} (tick : u.tick = s.tick) (step : (linkAt s l).step = 6) :
    .symbol l 3 (timePayload 1 0 s.tick) ∈ (repeatExchange l s u).out := by
  have other : ¬ ((linkAt s l).step = 5 && coordsSet s) = true := by
    rw [step]
    exact Bool.false_ne_true
  rw [repeatExchange, if_neg other, if_pos step, ← tick]
  exact mem_out_toPort _ _ _

/-- At step 5 the coordinates go out again. -/
theorem repeatExchange_of_coords {u : State} (own : ownCoord u = ownCoord s) (stepping : objGet u 0x1000 5 = objGet s 0x1000 5)
    (step : (linkAt s l).step = 5) (coords : coordsSet s = true) :
    .symbol l 5 (coordPayload (ownCoord s) l (linkDir l) (linkRank l) (objGet s 0x1000 5)) ∈
      (repeatExchange l s u).out := by
  rw [repeatExchange, if_pos (by rw [step, coords]; rfl), ← own, ← stepping]
  exact mem_out_toPort _ _ _

/-! ## IDLE symbols -/

theorem exec_idle_of_wrongTag {link : LinkIx} {payload : Bytes} {p : RxPick} (sealed : linkSealed s link.val = true)
    (live : linkLive s = true) (wrong : pickTagOk s link.val p payload = false) :
    exec (.idle link none payload (some p)) s = .next (linkFault 0x7010 link.val p.tp (bump 0x6100 0x15 1 s)) :=
  congrArg Host.Outcome.next (if_pos (by rw [sealed, live, wrong]; rfl))

/-- A fault of a link, in a state in which only what counts and is sent has changed. -/
theorem recorded_linkFault {u : State} {code detail : Nat} (inv : Inv s) (link : l < 36) (sent : Sent s u) :
    Recorded s (linkFault code l detail u) (l / 9) code ∧ OnlyAside s (linkFault code l detail u) :=
  ⟨recorded_of_sent inv sent _ (die_unitSite (by omega)), (aside_raiseFault _ _ sent.aside).only⟩

end

/-- Settles O42, by what the positions that have begun leave of the link's port. -/
theorem retriesAndControlBlocks : Obligations.RetriesAndControlBlocks := by
  intro link s inv l o s0 k full r
  have run : ∀ (q : BitVec 16) (i : Instr), i = .retryRequest link q ∨ (∃ p, i = .idle link (some q) p none) →
      exec i s = .next (retryFor l q.toNat s) := by
    rintro q i (rfl | ⟨p, rfl⟩)
    · rfl
    · rfl
  refine ⟨fun q i named => ?_, fun x rest some up free later => ?_, fun none => ?_, fun n h at_ pos job late ready listed free => ?_,
    fun job n => ?_, ?_, fun n pos fits => ?_, fun n job => ?_, fun n job => ?_, fun p => ?_, fun payload p sealed live wrong => ?_⟩
  · intro age empty
    refine ⟨fun stopped => ?_, fun runs young place => ?_, fun runs late => ?_⟩
    · rw [run q i named, retryFor_of_stopped stopped]
    · refine ⟨_, (run q i named).trans (congrArg _ (retryFor_of_young runs young place)), ?_, fun y hy => ?_, rfl⟩
      · rw [linkAt_linkSet_same]
        exact mem_resendOrder_self _ _ _
      · rw [linkAt_linkSet_same]
        exact mem_resendOrder hy
    · have same := integrity_of_filled (filled_advanceLink l s)
      refine ⟨_, (run q i named).trans (congrArg _ (retryFor_of_late runs late)), ?_, ?_⟩
      · have site : (unitSite 3 (l / 9) l q.toNat).die.val = l / 9 := die_unitSite (by omega)
        have recorded := recorded_raiseFault (s := s0) (by rw [same]; exact inv.dies) 0x4013 (unitSite 3 (l / 9) l q.toNat)
        rw [site] at recorded
        exact Recorded.of_integrity recorded (congrArg Integrity.dies same)
      · exact (aside_raiseFault _ _ (Aside.refl s0)).only
  · obtain ⟨sent, out, port, count⟩ := resendIn_frame r x.2 rest s0
    refine ⟨_, congrArg Host.Outcome.next (resendNext_of_some some up free later), sent, out, ?_, ?_, count⟩
    · rw [port]
    · rw [port]
      exact lookup_append_of_none free
  · exact congrArg Host.Outcome.next (resendNext_of_none none)
  · have run := (exec_selvedgeLateRow_of_some job late).trans (congrArg _ (sendLate_of_free ready listed free))
    have filled : SameFilled s (sendRow l pos h s0) := sameFilled_sendRow _ _ _ (filled_advanceLink l s)
    obtain ⟨out, handed⟩ := sendRow_frame l pos h s0
    refine ⟨_, run, ?_, handed, tiles_of_filled filled, mem_of_filled filled⟩
    rw [out, tp_of_filled (filled_advanceLink l s)]
  · exact congrArg Host.Outcome.next (if_pos (by rw [job]; rfl))
  · rfl
  · refine ⟨_, congrArg Host.Outcome.next ((if_pos rfl).trans (if_neg (Nat.pos_iff_ne_zero.mp pos))), rfl, ?_⟩
    rw [objGet_objSet_same]
    exact reserved_count fits
  · have run : exec (.controlBlock link ⟨false, n⟩) s = .next (linkFault 0x4014 l 0 s) :=
      congrArg Host.Outcome.next ((if_neg Bool.false_ne_true).trans (if_pos job))
    exact ⟨_, run, recorded_linkFault inv link.isLt (Sent.refl s)⟩
  · have sent : Sent s (bump o 0xA 1 s) := sent_bump _ _ _ (Sent.refl s)
    by_cases trains : linkState s l = 1
    · obtain ⟨only, count⟩ := repeatExchange_frame (l := l) sent (objGet_bump_same o 0xA 1 s)
      refine ⟨_, exec_badBlock_of_training job trains, only.only, count, fun still => absurd trains still,
        fun _ step => repeatExchange_of_delay sent.tick step, fun _ step coords => repeatExchange_of_coords ?_ ?_ step coords⟩
      · exact ownCoord_of_entry (objGet_bump_ne _ _ (by rw [objKey, objKey]; omega))
      · exact objGet_bump_ne _ _ (by rw [objKey, objKey]; omega)
    · refine ⟨_, exec_badBlock_of_still job trains, sent.only, objGet_bump_same .., fun _ => ?_,
        fun e => absurd e trains, fun e => absurd e trains⟩
      unfold bump
      split <;> rfl
  · cases p <;> rfl
  · have sent : Sent s (bump 0x6100 0x15 1 s) := sent_bump _ _ _ (Sent.refl s)
    obtain ⟨recorded, only⟩ := recorded_linkFault (code := 0x7010) (detail := p.tp) inv link.isLt sent
    refine ⟨_, exec_idle_of_wrongTag sealed live wrong, recorded, only, ?_⟩
    rw [linkFault, objGet_raiseFault (by unfold Uncounted objKey; decide) (by decide), objGet_bump_same]

end Sys2Proof.Machine
end

section
/-! SUPPORT. Training of a link (R248 to R252): how a training ends, what a symbol sent leaves alone, the good lanes. -/

namespace Sys2Proof.Machine

open Sys2Proof Sys2Proof.Laws

/-! ## Entries and progress of a link -/

theorem objKey_ne_of_field {i a b : Nat} (h : a ≠ b) : objKey i a ≠ objKey i b := by
  rw [objKey, objKey]
  omega

theorem objGet_fnSet (n : Nat) (f : Fn) (s : State) (i j : Nat) : objGet (fnSet n f s) i j = objGet s i j := rfl

theorem linkAt_fnSet (n : Nat) (f : Fn) (s : State) (k : Nat) : linkAt (fnSet n f s) k = linkAt s k := rfl
theorem linkAt_objSet (i j v : Nat) (s : State) (k : Nat) : linkAt (objSet i j v s) k = linkAt s k := rfl

/-- A port but for the symbols that wait. -/
def progress (k : Link) : Link := { k with symbols := [] }

theorem progress_toPort (k : Nat) (o : Output) (s : State) (l : Nat) :
    progress (linkAt (toPort k o s) l) = progress (linkAt s l) := by
  have emitted : ∀ j, linkAt (emit o (bump (0x4100 + k) 0x11 1 s)) j = linkAt s j := fun j => linkAt_bump _ _ _ s j
  unfold toPort
  dsimp only
  split
  · rw [linkAt_linkSet]
    split
    case isTrue here =>
      rw [here, emitted]
      rfl
    case isFalse => rw [emitted]
  · rw [emitted]

section
variable {l : Nat} {s : State}

/-- A symbol sent leaves the progress of training, the entries but its count, the rows and the tiles. -/
theorem toPort_frame (k : Nat) (o : Output) (s : State) (l : Nat) :
    let u := toPort k o s
    progress (linkAt u l) = progress (linkAt s l) ∧ (∀ i j, Uncounted i j → objGet u i j = objGet s i j) ∧
      u.mem = s.mem ∧ u.tiles = s.tiles ∧ o ∈ u.out := by
  have sent : Sent s (toPort k o s) := sent_toPort k o (Sent.refl s)
  exact ⟨progress_toPort k o s l, fun i j h => objGet_toPort h k o s, sent.mem, sent.tiles, mem_out_toPort k o s⟩

theorem linkState_toPort (k : Nat) (o : Output) (s : State) (l : Nat) : linkState (toPort k o s) l = linkState s l :=
  objGet_toPort (uncounted_link (by decide) (by decide) (by decide)) k o s

/-! ## How a training ends -/

/-- The failure of a link's function shows nothing where the link is in a failed state already. -/
theorem fnFailed_of_shown (link : l < 36) (st : linkState s l = 4 ∨ linkState s l = 5 ∨ linkState s l = 6) :
    fnFailed l s = { s with fns := (fnFailed l s).fns } := by
  have shown : ∀ f : Fn, fnShow l false (fnSet l f s) = fnSet l f s := fun f => by
    have e : linkState (fnSet l f s) l = linkState s l := rfl
    unfold fnShow
    rw [if_pos link, if_neg Bool.false_ne_true, e]
    refine if_pos ?_
    obtain h | h | h := st <;> rw [h] <;> rfl
  unfold fnFailed
  dsimp only
  split
  · rw [shown]
    rfl
  · rfl

/-- A training that ends without the link sets the link state and drops the exchange in progress. -/
theorem trainEnd_only {st : Nat} (link : l < 36) (failed : st = 4 ∨ st = 5 ∨ st = 6) :
    trainEnd l st s = { objSet (0x4100 + l) 1 st (linkSet l { linkAt s l with t0 := none } s) with
      fns := (trainEnd l st s).fns } := by
  refine fnFailed_of_shown link ?_
  rw [linkState, objGet_objSet_same]
  exact failed

theorem trainEnd_frame {st : Nat} (link : l < 36) (failed : st = 4 ∨ st = 5 ∨ st = 6) (s : State) :
    let u := trainEnd l st s
    linkState u l = st ∧ (∀ i j, objKey i j ≠ objKey (0x4100 + l) 1 → objGet u i j = objGet s i j) ∧
      linkAt u l = { linkAt s l with t0 := none } ∧ u.mem = s.mem ∧ u.tiles = s.tiles := by
  intro u
  have only : u = _ := trainEnd_only link failed
  rw [only]
  refine ⟨?_, fun i j ne => ?_, ?_, rfl, rfl⟩
  · exact (objGet_of_objs rfl rfl _ _).trans (objGet_objSet_same (0x4100 + l) 1 st _)
  · exact (objGet_of_objs rfl rfl _ _).trans ((objGet_objSet_ne _ _ ne).trans (objGet_linkSet ..))
  · exact linkAt_linkSet_same l _ s

/-! ## Lanes -/

/-- The number whose binary digits are some lanes' results, the first lane lowest. -/
def digitsOf : List Bool → Nat
  | [] => 0
  | b :: r => flag b + 2 * digitsOf r

theorem foldl_flags (good : List Bool) (k a : Nat) :
    ((good.zipIdx k).map fun g => flag g.1 * 2 ^ g.2).foldl (· + ·) a = a + 2 ^ k * digitsOf good := by
  induction good generalizing k a with
  | nil => rfl
  | cons b r ih =>
    rw [List.zipIdx_cons, List.map_cons, List.foldl_cons, ih, digitsOf, Nat.pow_succ, Nat.mul_add, Nat.mul_assoc,
      Nat.mul_comm (flag b), Nat.add_assoc]

theorem bitOf_digitsOf {good : List Bool} {i : Nat} {b : Bool} (at_ : good[i]? = some b) : bitOf (digitsOf good) i = b := by
  induction good generalizing i with
  | nil => cases at_
  | cons c r ih =>
    have bit : flag c < 2 := by cases c <;> decide
    cases i with
    | zero =>
      obtain rfl : c = b := Option.some.inj at_
      rw [bitOf, bits, digitsOf, Nat.pow_zero, Nat.div_one, Nat.pow_one, Nat.add_mul_mod_self_left, Nat.mod_eq_of_lt bit]
      cases c <;> rfl
    | succ j =>
      have half : digitsOf (c :: r) / 2 ^ (j + 1) = digitsOf r / 2 ^ j := by
        rw [digitsOf, Nat.pow_succ', ← Nat.div_div_eq_div_mul, Nat.add_mul_div_left _ _ (by decide), Nat.div_eq_of_lt bit,
          Nat.zero_add]
      rw [bitOf, bits, half]
      exact ih at_

end

end Sys2Proof.Machine
end

section
/-! SUPPORT. The steps of the training of a link settled (R248 to R252): lanes, the COORD exchange, delay measurement. -/

namespace Sys2Proof.Machine

open Sys2Proof Sys2Proof.Laws

section
variable {l : Nat} {s : State}

/-! ## Lanes -/

/-- The state in which the results of the lanes have been recorded and the link trains on. -/
def lanesNoted (l : Nat) (lanes : List LaneTrain) (s : State) : State :=
  let four := lanes.take 4
  let worst := (four.map (·.errors)).foldl max 0
  let ratio := if worst = 0 then 0 else roundMag 0 0 worst 22400000000 fmtF32
  let s1 := objSet (0x4100 + l) 8 ratio (objSet (0x4100 + l) 3
    (((four.map laneGood).zipIdx.map fun g => flag g.1 * 2 ^ g.2).foldl (· + ·) 0) (objSet (0x4100 + l) 1 1
    (linkSet l { linkAt s l with
      step := 5, trips := [], coords := 0, t0 := none, trainings := (linkAt s l).trainings + 1 } s)))
  fnSet l { fnAt s1 l with state := if (fnAt s1 l).state = 0 then 1 else (fnAt s1 l).state } s1

theorem trainLanes_eq (lanes : List LaneTrain) (l : Nat) (s : State) :
    trainLanes l lanes s = if (((lanes.take 4).map laneGood).filter id).length < 3 then trainEnd l 4 (lanesNoted l lanes s)
      else if coordsSet (lanesNoted l lanes s) then sendCoord l (lanesNoted l lanes s) else lanesNoted l lanes s := rfl

theorem length_filter_map {α : Type} (p : α → Bool) (xs : List α) :
    ((xs.map p).filter id).length = (xs.filter p).length := by
  rw [List.filter_map, List.length_map]
  rfl

/-- What recording the lanes leaves. -/
structure LanesNoted (l : Nat) (lanes : List LaneTrain) (s u : State) : Prop where
  state : linkState u l = 1
  mask  : objGet u (0x4100 + l) 3 = digitsOf ((lanes.take 4).map laneGood)
  link  : linkAt u l = { linkAt s l with
    step := 5, trips := [], coords := 0, t0 := none, trainings := (linkAt s l).trainings + 1 }
  entry : ∀ i j, i < 0x4100 ∨ 0x4200 ≤ i → j < 0x100 → objGet u i j = objGet s i j
  mem   : u.mem = s.mem
  tiles : u.tiles = s.tiles

theorem lanesNoted_frame (l : Nat) (link : l < 36) (lanes : List LaneTrain) (s : State) :
    LanesNoted l lanes s (lanesNoted l lanes s) := by
  constructor
  case state =>
    unfold lanesNoted
    dsimp only
    rw [linkState, objGet_fnSet, objGet_objSet_ne _ _ (objKey_ne_of_field (by decide)), objGet_objSet_ne _ _ (objKey_ne_of_field (by decide)),
      objGet_objSet_same]
  case mask =>
    unfold lanesNoted
    dsimp only
    rw [objGet_fnSet, objGet_objSet_ne _ _ (objKey_ne_of_field (by decide)), objGet_objSet_same, foldl_flags, Nat.pow_zero, Nat.one_mul,
      Nat.zero_add]
  case link =>
    unfold lanesNoted
    dsimp only
    rw [linkAt_fnSet, linkAt_objSet, linkAt_objSet, linkAt_objSet, linkAt_linkSet_same]
  case entry =>
    intro i j far small
    have other : ∀ a, a < 0x100 → objKey i j ≠ objKey (0x4100 + l) a := fun a h => by
      rw [objKey, objKey]
      omega
    unfold lanesNoted
    dsimp only
    rw [objGet_fnSet, objGet_objSet_ne _ _ (other 8 (by decide)), objGet_objSet_ne _ _ (other 3 (by decide)),
      objGet_objSet_ne _ _ (other 1 (by decide)), objGet_linkSet]
  case mem =>
    unfold lanesNoted
    dsimp only [fnSet, objSet, linkSet]
  case tiles =>
    unfold lanesNoted
    dsimp only [fnSet, objSet, linkSet]

theorem coordsSet_of_entry {u : State} (h : objGet u 0x4200 1 = objGet s 0x4200 1) : coordsSet u = coordsSet s := by
  rw [coordsSet, coordsSet, h]

/-- What the training of the lanes of a link leads to. -/
theorem trainLanes_frame (link : l < 36) (lanes : List LaneTrain) (s : State) :
    let t := trainLanes l lanes s
    t.mem = s.mem ∧ t.tiles = s.tiles ∧ (linkAt t l).trainings = (linkAt s l).trainings + 1 ∧
      (∀ i x, i < 4 → lanes[i]? = some x → bitOf (objGet t (0x4100 + l) 3) i = laneGood x) ∧
      (3 ≤ ((lanes.take 4).filter laneGood).length → linkState t l = 1 ∧ (linkAt t l).step = 5 ∧
        (coordsSet s = true →
          .symbol l 5 (coordPayload (ownCoord s) l (linkDir l) (linkRank l) (objGet s 0x1000 5)) ∈ t.out)) ∧
      (((lanes.take 4).filter laneGood).length < 3 → linkState t l = 4) := by
  have noted := lanesNoted_frame l link lanes s
  have own : objGet (lanesNoted l lanes s) 0x4200 1 = objGet s 0x4200 1 := noted.entry _ _ (.inr (by decide)) (by decide)
  have digit : ∀ t, objGet t (0x4100 + l) 3 = objGet (lanesNoted l lanes s) (0x4100 + l) 3 →
      ∀ i x, i < 4 → lanes[i]? = some x → bitOf (objGet t (0x4100 + l) 3) i = laneGood x := by
    intro t e i x hi at_
    rw [e, noted.mask]
    refine bitOf_digitsOf ?_
    rw [List.getElem?_map, List.getElem?_take_of_lt hi, at_]
    rfl
  rw [trainLanes_eq, length_filter_map, coordsSet_of_entry own]
  split
  case isTrue few =>
    obtain ⟨state, entries, port, mem, tiles⟩ := trainEnd_frame link (.inl rfl) (lanesNoted l lanes s)
    refine ⟨mem.trans noted.mem, tiles.trans noted.tiles, ?_, digit _ (entries _ _ (objKey_ne_of_field (by decide))),
      fun many => absurd many (Nat.not_le.mpr few), fun _ => state⟩
    rw [port, noted.link]
  case isFalse many =>
    split
    case isTrue coords =>
      obtain ⟨same, entries, mem, tiles, out⟩ := toPort_frame l (.symbol l 5 (coordPayload
        (ownCoord (lanesNoted l lanes s)) l (linkDir l) (linkRank l) (objGet (lanesNoted l lanes s) 0x1000 5)))
        (lanesNoted l lanes s) l
      refine ⟨mem.trans noted.mem, tiles.trans noted.tiles, ?_, digit _ (entries _ _ (uncounted_link (by decide) (by decide)
        (by decide))), fun _ => ⟨(linkState_toPort ..).trans noted.state, ?_, fun _ => ?_⟩, fun few => absurd few many⟩
      · exact (congrArg Link.trainings same).trans (congrArg Link.trainings noted.link)
      · exact (congrArg Link.step same).trans (congrArg Link.step noted.link)
      · rw [← ownCoord_of_entry own, ← noted.entry 0x1000 5 (.inl (by decide)) (by decide)]
        exact out
    case isFalse none =>
      refine ⟨noted.mem, noted.tiles, ?_, digit _ rfl, fun _ => ⟨noted.state, ?_, fun c => absurd c none⟩,
        fun few => absurd few many⟩
      · rw [noted.link]
      · rw [noted.link]

/-! ## The COORD exchange -/

section
variable {peer : Coord} {pl : BitVec 6} {dir rank : BitVec 3} {st : BitVec 8}

/-- How many COORD symbols in a row agree, the one received included. -/
def coordCount (s : State) (l : Nat) (peer : Coord) (pl : BitVec 6) (st : BitVec 8) : Nat :=
  if peer = peerCoord s l ∧ pl.toNat = objGet s (0x4100 + l) 7 ∧ (linkAt s l).stepping = some st.toNat
    then (linkAt s l).coords + 1 else 1

/-- Whether a COORD symbol is what the placement of the module makes expect. -/
def coordExpected (s : State) (l : Nat) (peer : Coord) (dir rank : BitVec 3) : Prop :=
  peer = expectedPeer s (linkDir l) ∧ rank.toNat = linkRank l ∧
    dir.toNat = (if linkDir l % 2 = 0 then linkDir l + 1 else linkDir l - 1)

/-- The state in which a COORD symbol has been recorded. -/
def coordNoted (l : Nat) (peer : Coord) (pl : BitVec 6) (st : BitVec 8) (s : State) : State :=
  objSet (0x4100 + l) 6 (coordNat peer) (objSet (0x4100 + l) 7 pl.toNat
    (linkSet l { linkAt s l with coords := coordCount s l peer pl st, stepping := some st.toNat } s))

/-- What has been recorded of the peer. -/
structure CoordNoted (l : Nat) (peer : Coord) (pl : BitVec 6) (n : Nat) (s t : State) : Prop where
  mem    : t.mem = s.mem
  tiles  : t.tiles = s.tiles
  coord  : objGet t (0x4100 + l) 6 = coordNat peer
  link   : objGet t (0x4100 + l) 7 = pl.toNat
  coords : (linkAt t l).coords = n

theorem coordNoted_frame (l : Nat) (peer : Coord) (pl : BitVec 6) (st : BitVec 8) (s : State) :
    let t := coordNoted l peer pl st s
    CoordNoted l peer pl (coordCount s l peer pl st) s t ∧ linkState t l = linkState s l ∧
      (linkAt t l).step = (linkAt s l).step ∧ t.tick = s.tick := by
  have port : linkAt (coordNoted l peer pl st s) l =
      { linkAt s l with coords := coordCount s l peer pl st, stepping := some st.toNat } := by
    rw [coordNoted, linkAt_objSet, linkAt_objSet, linkAt_linkSet_same]
  refine ⟨⟨rfl, rfl, objGet_objSet_same .., ?_, by rw [port]⟩, ?_, by rw [port], rfl⟩
  · rw [coordNoted, objGet_objSet_ne _ _ (objKey_ne_of_field (by decide)), objGet_objSet_same]
  · rw [linkState, coordNoted, objGet_objSet_ne _ _ (objKey_ne_of_field (by decide)),
      objGet_objSet_ne _ _ (objKey_ne_of_field (by decide)), objGet_linkSet, linkState]

theorem takeCoord_eq : takeCoord l peer pl dir rank st s =
    if linkState s l = 5 then coordNoted l peer pl st s
    else if linkState s l ≠ 1 || (linkAt s l).step ≠ 5 then s
    else if !coordsSet s || decide (coordCount s l peer pl st < 8) then coordNoted l peer pl st s
    else if decide (peer = expectedPeer s (linkDir l)) &&
        dir.toNat == (if linkDir l % 2 = 0 then linkDir l + 1 else linkDir l - 1) && rank.toNat == linkRank l
      then sendDelay l (coordNoted l peer pl st s)
    else trainEnd l 5 (coordNoted l peer pl st s) := by
  unfold takeCoord coordNoted coordCount
  simp only [decide_eq_true_eq]

theorem takeCoord_of_miswired (h : linkState s l = 5) : takeCoord l peer pl dir rank st s = coordNoted l peer pl st s := by
  rw [takeCoord_eq, if_pos h]

theorem takeCoord_of_other (h : linkState s l ≠ 5) (other : linkState s l ≠ 1 ∨ (linkAt s l).step ≠ 5) :
    takeCoord l peer pl dir rank st s = s := by
  rw [takeCoord_eq, if_neg h, if_pos (by simpa using other)]

section
variable (trains : linkState s l = 1) (step : (linkAt s l).step = 5)
include trains step

theorem takeCoord_of_exchange : takeCoord l peer pl dir rank st s =
    if !coordsSet s || decide (coordCount s l peer pl st < 8) then coordNoted l peer pl st s
    else if decide (peer = expectedPeer s (linkDir l)) &&
        dir.toNat == (if linkDir l % 2 = 0 then linkDir l + 1 else linkDir l - 1) && rank.toNat == linkRank l
      then sendDelay l (coordNoted l peer pl st s)
    else trainEnd l 5 (coordNoted l peer pl st s) := by
  rw [takeCoord_eq, if_neg (by rw [trains]; decide), if_neg (by simp [trains, step])]

theorem takeCoord_of_few (few : coordsSet s = false ∨ coordCount s l peer pl st < 8) :
    takeCoord l peer pl dir rank st s = coordNoted l peer pl st s := by
  rw [takeCoord_of_exchange trains step, if_pos (by simpa using few)]

theorem takeCoord_of_expected (coords : coordsSet s = true) (many : 8 ≤ coordCount s l peer pl st)
    (ok : coordExpected s l peer dir rank) : takeCoord l peer pl dir rank st s = sendDelay l (coordNoted l peer pl st s) := by
  obtain ⟨there, rnk, dr⟩ := ok
  rw [takeCoord_of_exchange trains step, if_neg (by simpa [coords] using many), if_pos (by simp [there, rnk, dr])]

theorem takeCoord_of_unexpected (coords : coordsSet s = true) (many : 8 ≤ coordCount s l peer pl st)
    (bad : ¬ coordExpected s l peer dir rank) :
    takeCoord l peer pl dir rank st s = trainEnd l 5 (coordNoted l peer pl st s) := by
  rw [takeCoord_of_exchange trains step, if_neg (by simpa [coords] using many), if_neg fun ok => bad ?_]
  simp only [Bool.and_eq_true, decide_eq_true_eq, beq_iff_eq] at ok
  exact ⟨ok.1.1, ok.2, ok.1.2⟩

end

/-- A COORD recorded stays recorded as the delay request goes out. -/
theorem sendDelay_frame (l : Nat) (s : State) :
    let t := sendDelay l s
    (linkAt t l).step = 6 ∧ (linkAt t l).t0 = some s.tick ∧ (linkAt t l).coords = (linkAt s l).coords ∧
      (linkAt t l).trips = (linkAt s l).trips ∧ (∀ i j, Uncounted i j → objGet t i j = objGet s i j) ∧
      t.mem = s.mem ∧ t.tiles = s.tiles ∧ .symbol l 3 (timePayload 1 0 s.tick) ∈ t.out := by
  obtain ⟨same, entries, mem, tiles, out⟩ := toPort_frame l (.symbol l 3 (timePayload 1 0 s.tick))
    (linkSet l { linkAt s l with t0 := some s.tick, step := 6 } s) l
  rw [linkAt_linkSet_same] at same
  refine ⟨congrArg Link.step same, congrArg Link.t0 same, (congrArg Link.coords same :), (congrArg Link.trips same :),
    fun i j h => (entries i j h).trans (objGet_linkSet ..), mem, tiles, out⟩

end

/-! ## Delay measurement -/

/-- Round trips measured, the echo of the one in progress included. -/
def tripsNow (l : Nat) (t0 : BitVec 64) (u : BitVec 24) (s : State) : List Nat :=
  (linkAt s l).trips ++ [s.tick - t0.toNat - u.toNat]

section
variable {t0 : BitVec 64} {u : BitVec 24} (trains : linkState s l = 1) (step : (linkAt s l).step = 6)
  (inProgress : (linkAt s l).t0 = some t0.toNat)
include trains step inProgress

theorem takeEcho_eq : takeEcho l t0 u s = if (tripsNow l t0 u s).length < 64
    then sendDelay l (linkSet l { linkAt s l with trips := tripsNow l t0 u s } s) else trainDone l (tripsNow l t0 u s) s := by
  unfold takeEcho
  dsimp only
  rw [if_neg (by simp [trains, step, inProgress])]
  rfl

/-- An echo before the last: the next delay request goes out. -/
theorem takeEcho_frame_of_few (few : (tripsNow l t0 u s).length < 64) :
    let t := takeEcho l t0 u s
    (linkAt t l).trips = tripsNow l t0 u s ∧ (linkAt t l).t0 = some s.tick ∧ linkState t l = 1 ∧
      t.mem = s.mem ∧ t.tiles = s.tiles := by
  rw [takeEcho_eq trains step inProgress, if_pos few]
  obtain ⟨-, t0, -, trips, entries, mem, tiles, -⟩ := sendDelay_frame l (linkSet l { linkAt s l with trips := tripsNow l t0 u s } s)
  refine ⟨trips.trans ?_, t0, ?_, mem, tiles⟩
  · rw [linkAt_linkSet_same]
  · refine (entries _ _ (uncounted_link (by decide) (by decide) (by decide))).trans ?_
    rw [objGet_linkSet]
    exact trains

end

/-- The state in which the round trips have been recorded. -/
def tripsNoted (l : Nat) (trips : List Nat) (s : State) : State :=
  objSet (0x4100 + l) 4 (delayPicks (trips.foldl max 0)) (objSet (0x4100 + l) 5 (trips.foldl max 0)
    (linkSet l { linkAt s l with trips := trips, t0 := none, step := 7 } s))

theorem trainDone_eq (l : Nat) (trips : List Nat) (s : State) :
    trainDone l trips s = if 8 < delayPicks (trips.foldl max 0) then trainEnd l 6 (tripsNoted l trips s)
      else noteWidth l (fnDone l (tripsNoted l trips s)) := rfl

theorem entries_tripsNoted (l : Nat) (trips : List Nat) (s : State) :
    objGet (tripsNoted l trips s) (0x4100 + l) 5 = trips.foldl max 0 ∧
      objGet (tripsNoted l trips s) (0x4100 + l) 4 = delayPicks (trips.foldl max 0) ∧
      objGet (tripsNoted l trips s) (0x4100 + l) 3 = objGet s (0x4100 + l) 3 := by
  unfold tripsNoted
  refine ⟨?_, objGet_objSet_same .., ?_⟩
  · rw [objGet_objSet_ne _ _ (objKey_ne_of_field (by decide)), objGet_objSet_same]
  · rw [objGet_objSet_ne _ _ (objKey_ne_of_field (by decide)), objGet_objSet_ne _ _ (objKey_ne_of_field (by decide)),
      objGet_linkSet]

/-- A function that has started shows the width of its link. -/
theorem fnDone_of_starting (link : l < 36) (starts : (fnAt s l).state = 1) :
    fnDone l s = { objSet (0x4100 + l) 1 (if objGet s (0x4100 + l) 3 = 15 then 2 else 3) s with fns := (fnDone l s).fns } := by
  unfold fnDone fnShow
  dsimp only
  rw [if_pos starts, if_pos link, if_pos rfl, objGet_fnSet]
  rfl

theorem fnDone_frame (link : l < 36) (starts : (fnAt s l).state = 1) :
    (∀ i j, objGet (fnDone l s) i j =
      objGet (objSet (0x4100 + l) 1 (if objGet s (0x4100 + l) 3 = 15 then 2 else 3) s) i j) ∧
      (fnDone l s).mem = s.mem ∧ (fnDone l s).tiles = s.tiles := by
  rw [fnDone_of_starting link starts]
  exact ⟨fun _ _ => rfl, rfl, rfl⟩

theorem noteWidth_frame (l : Nat) (s : State) :
    (∀ i j, objGet (noteWidth l s) i j = objGet s i j) ∧ (noteWidth l s).mem = s.mem ∧ (noteWidth l s).tiles = s.tiles :=
  ⟨fun _ _ => rfl, rfl, rfl⟩

/-- The last echo ends the measurement: the link is up, or too long. -/
theorem trainDone_frame (link : l < 36) (starts : (fnAt s l).state = 1) (trips : List Nat) :
    let t := trainDone l trips s
    let rtt := trips.foldl max 0
    objGet t (0x4100 + l) 5 = rtt ∧ objGet t (0x4100 + l) 4 = delayPicks rtt ∧
      linkState t l = (if 8 < delayPicks rtt then 6 else if objGet s (0x4100 + l) 3 = 15 then 2 else 3) ∧
      t.mem = s.mem ∧ t.tiles = s.tiles := by
  intro t rtt
  obtain ⟨five, four, three⟩ := entries_tripsNoted l trips s
  have run : t = _ := trainDone_eq l trips s
  rw [run]
  split
  case isTrue long =>
    obtain ⟨state, entries, -, mem, tiles⟩ := trainEnd_frame link (.inr (.inr rfl)) (tripsNoted l trips s)
    refine ⟨?_, ?_, state, mem, tiles⟩
    · rw [entries _ _ (objKey_ne_of_field (by decide)), five]
    · rw [entries _ _ (objKey_ne_of_field (by decide)), four]
  case isFalse =>
    obtain ⟨entry, mem, tiles⟩ := fnDone_frame (s := tripsNoted l trips s) link starts
    obtain ⟨same, mem', tiles'⟩ := noteWidth_frame l (fnDone l (tripsNoted l trips s))
    refine ⟨?_, ?_, ?_, mem'.trans mem, tiles'.trans tiles⟩
    · rw [same, entry, objGet_objSet_ne _ _ (objKey_ne_of_field (by decide)), five]
    · rw [same, entry, objGet_objSet_ne _ _ (objKey_ne_of_field (by decide)), four]
    · rw [linkState, same, entry, objGet_objSet_same, three]

/-! ## Time-outs -/

/-- The lanes that are left when one has not passed its step. -/
def lanesLeft (s : State) (l lane : Nat) : Nat :=
  if bitOf (objGet s (0x4100 + l) 3) lane then objGet s (0x4100 + l) 3 - 2 ^ lane else objGet s (0x4100 + l) 3

theorem stepTimeout_of_other {step lane : Nat} (h : linkState s l ≠ 1) : stepTimeout l step lane s = s := if_pos h

theorem stepTimeout_of_lane {step lane : Nat} (trains : linkState s l = 1) (early : step ≤ 3) :
    stepTimeout l step lane s = if ((List.range 4).filter (bitOf (lanesLeft s l lane))).length < 3
      then trainEnd l 4 (objSet (0x4100 + l) 3 (lanesLeft s l lane) s)
      else objSet (0x4100 + l) 3 (lanesLeft s l lane) s :=
  (if_neg (Classical.not_not.mpr trains)).trans (if_pos early)

/-- A lane that has not passed is taken from the good ones; with fewer than three the training ends. -/
theorem stepTimeout_frame_of_lane {step lane : Nat} (link : l < 36) (trains : linkState s l = 1) (early : step ≤ 3) :
    let t := stepTimeout l step lane s
    t.mem = s.mem ∧ t.tiles = s.tiles ∧ objGet t (0x4100 + l) 3 = lanesLeft s l lane ∧
      linkState t l = if ((List.range 4).filter (bitOf (lanesLeft s l lane))).length < 3 then 4 else 1 := by
  rw [stepTimeout_of_lane trains early]
  split
  case isTrue few =>
    obtain ⟨state, entries, -, mem, tiles⟩ := trainEnd_frame link (.inl rfl) (objSet (0x4100 + l) 3 (lanesLeft s l lane) s)
    refine ⟨mem, tiles, ?_, state⟩
    rw [entries _ _ (objKey_ne_of_field (by decide)), objGet_objSet_same]
  case isFalse =>
    refine ⟨rfl, rfl, objGet_objSet_same .., ?_⟩
    rw [linkState, objGet_objSet_ne _ _ (objKey_ne_of_field (by decide))]
    exact trains

theorem stepTimeout_of_coords {lane : Nat} (trains : linkState s l = 1) (coords : coordsSet s = true) :
    stepTimeout l 5 lane s = trainEnd l 5 s := by
  refine (if_neg (Classical.not_not.mpr trains)).trans ((if_neg (by decide)).trans ((if_neg ?_).trans rfl))
  rw [coords]
  decide

theorem stepTimeout_of_delay {lane : Nat} (trains : linkState s l = 1) : stepTimeout l 6 lane s = trainEnd l 6 s :=
  (if_neg (Classical.not_not.mpr trains)).trans ((if_neg (by decide)).trans ((if_neg (Bool.false_ne_true)).trans rfl))

end

end Sys2Proof.Machine
end

section
/-! SUPPORT. Training of a link settled (R248 to R252): every step keeps rows and tiles, and S11 goes on when it can. -/

namespace Sys2Proof.Machine

open Sys2Proof Sys2Proof.Laws

section
variable {l : Nat} {s : State}

/-! ## The handshake of a link that comes up -/

/-- A link that comes up during S12 carries a handshake, which changes no entry of its training. -/
theorem greet_frame (l : Nat) (was s : State) :
    let t := greet l was s
    (∀ j, j < 256 → j ≠ 0x11 → j ≠ 0x12 → objGet t (0x4100 + l) j = objGet s (0x4100 + l) j) ∧ t.mem = s.mem ∧
      t.tiles = s.tiles := by
  unfold greet
  intro t
  by_cases up : atStep s 12 && linkUp s l && !linkUp was l
  · obtain ⟨-, entries, mem, tiles, -⟩ := toPort_frame l (.symbol l 3 (timePayload 3 0 s.tick))
      (linkSet l { linkAt s l with t0 := some s.tick } s) l
    have run : t = _ := if_pos up
    rw [run]
    exact ⟨fun j small a b => (entries _ _ (uncounted_link small a b)).trans (objGet_linkSet ..), mem, tiles⟩
  · have run : t = s := if_neg up
    rw [run]
    exact ⟨fun _ _ _ _ => rfl, rfl, rfl⟩

theorem greet_of_down {was : State} (down : linkUp s l = false) : greet l was s = s :=
  if_neg (by rw [down, Bool.and_false]; exact Bool.false_ne_true)

theorem linkUp_of_training (h : linkState s l = 1) : linkUp s l = false := by
  rw [linkUp, h]
  rfl

/-! ## Loss of block lock -/

theorem exec_blockLockLoss_of_job {link : LinkIx} {lane : Fin 4} (up : linkUp s link.val = true) (job : s.job = true) :
    exec (.blockLockLoss link lane) s = .next (linkFault 0x4010 link.val lane.val s) :=
  congrArg Host.Outcome.next ((if_neg (by rw [up]; decide)).trans (if_pos job))

theorem exec_blockLockLoss_of_idle {link : LinkIx} {lane : Fin 4} (up : linkUp s link.val = true) (job : s.job = false) :
    exec (.blockLockLoss link lane) s = .next (fnGone link.val (objSet (0x4100 + link.val) 1 0 s)) :=
  congrArg Host.Outcome.next ((if_neg (by rw [up]; decide)).trans (if_neg (by rw [job]; decide)))

/-- A lost function of a link that is down shows it down. -/
theorem fnGone_frame (link : l < 36) (down : linkState s l = 0) :
    linkState (fnGone l s) l = 0 ∧ (fnGone l s).mem = s.mem ∧ (fnGone l s).tiles = s.tiles := by
  have shown : ∀ f : Fn, fnShow l false (fnSet l f s) = objSet (0x4100 + l) 1 0 (fnSet l f s) := fun f => by
    have e : linkState (fnSet l f s) l = 0 := down
    unfold fnShow
    rw [if_pos link, if_neg Bool.false_ne_true, e]
    rfl
  unfold fnGone
  dsimp only
  split
  · rw [shown, linkState, objGet_objSet_same]
    exact ⟨rfl, rfl, rfl⟩
  · exact ⟨down, rfl, rfl⟩

end

/-- Settles O43, step by step. -/
theorem linkTrainingRunsItsSteps : Obligations.LinkTrainingRunsItsSteps := by
  intro link s inv l k o gives good
  have die : l < 36 := link.isLt
  refine ⟨fun lanes => ⟨fun may => ?_, fun may => ?_⟩, fun peer pl dir rank st => ?_, fun t0 u => ⟨fun on => ?_, fun off down => ?_⟩,
    fun t0 u trains step inProgress => ?_, fun step lane => ⟨fun other => ?_, fun trains e coords => ?_, fun trains e => ?_,
    fun trains early => ?_⟩, fun lane => ⟨fun down => ?_, fun up job => ?_, fun up job => ?_⟩⟩
  · exact congrArg (fun u => Host.Outcome.next (settleS11 u)) (if_neg (by rw [may]; exact Bool.false_ne_true))
  · obtain ⟨mem, tiles, rest⟩ := trainLanes_frame die lanes s
    exact ⟨_, congrArg (fun u => Host.Outcome.next (settleS11 u)) (if_pos may), mem, tiles, rest⟩
  · intro n fits takes
    obtain ⟨noted, state, step', tick⟩ := coordNoted_frame l peer pl st s
    have take : ∀ {t : State} {post : State → Prop}, takeCoord l peer pl dir rank st s = t → CoordNoted l peer pl n s t →
        post t → takes post := fun {t post} e noted h =>
      ⟨t, congrArg (fun u => Host.Outcome.next (settleS11 u)) e, noted.mem, noted.tiles, noted.coord, noted.link, noted.coords, h⟩
    refine ⟨fun miswired => take (takeCoord_of_miswired miswired) noted (state.trans miswired),
      fun trains step few => take (takeCoord_of_few trains step few) noted ⟨state.trans trains, step'.trans step⟩,
      fun trains step coords many => ⟨fun ok => ?_, fun bad => ?_⟩, fun other rest => ?_⟩
    · obtain ⟨six, t0, kept, -, entries, mem, tiles, out⟩ := sendDelay_frame l (coordNoted l peer pl st s)
      rw [tick] at t0 out
      refine take (takeCoord_of_expected trains step coords many ok) ⟨mem.trans noted.mem, tiles.trans noted.tiles, ?_, ?_,
        kept.trans noted.coords⟩ ⟨six, t0, out⟩
      · rw [entries _ _ (uncounted_link (by decide) (by decide) (by decide)), noted.coord]
      · rw [entries _ _ (uncounted_link (by decide) (by decide) (by decide)), noted.link]
    · obtain ⟨ended, entries, port, mem, tiles⟩ := trainEnd_frame die (.inr (.inl rfl)) (coordNoted l peer pl st s)
      refine take (takeCoord_of_unexpected trains step coords many bad) ⟨mem.trans noted.mem, tiles.trans noted.tiles, ?_, ?_, ?_⟩
        ended
      · rw [entries _ _ (objKey_ne_of_field (by decide)), noted.coord]
      · rw [entries _ _ (objKey_ne_of_field (by decide)), noted.link]
      · rw [port]
        exact noted.coords
    · exact congrArg (fun u => Host.Outcome.next (settleS11 u)) (takeCoord_of_other other rest)
  · exact ⟨_, congrArg Host.Outcome.next (if_pos (by simpa using on)), (sent_toPort _ _ (Sent.refl s)).only, mem_out_toPort _ _ _⟩
  · exact congrArg Host.Outcome.next (if_neg (by simpa using ⟨off, down⟩))
  · intro trips
    refine ⟨fun few => ?_, fun many starts => ?_⟩
    · obtain ⟨all, t0', state, mem, tiles⟩ := takeEcho_frame_of_few trains step inProgress few
      have still : greet l s (takeEcho l t0 u s) = takeEcho l t0 u s := greet_of_down (linkUp_of_training state)
      exact ⟨_, congrArg (fun v => Host.Outcome.next (settleS11 v)) still, mem, tiles, all, t0', state⟩
    · have done : takeEcho l t0 u s = trainDone l trips s :=
        (takeEcho_eq trains step inProgress).trans (if_neg (Nat.not_lt.mpr many))
      obtain ⟨five, four, state, mem, tiles⟩ := trainDone_frame die starts trips
      obtain ⟨entries, mem', tiles'⟩ := greet_frame l s (trainDone l trips s)
      refine ⟨_, congrArg (fun v => Host.Outcome.next (settleS11 (greet l s v))) done, mem'.trans mem, tiles'.trans tiles,
        ?_, ?_, ?_⟩
      · rw [entries 5 (by decide) (by decide) (by decide), five]
      · rw [entries 4 (by decide) (by decide) (by decide), four]
      · rw [linkState, entries 1 (by decide) (by decide) (by decide)]
        exact state
  · exact congrArg (fun u => Host.Outcome.next (settleS11 u)) (stepTimeout_of_other other)
  · subst e
    obtain ⟨ended, -, -, mem, tiles⟩ := trainEnd_frame die (.inr (.inl rfl)) s
    exact ⟨_, congrArg (fun u => Host.Outcome.next (settleS11 u)) (stepTimeout_of_coords trains coords), mem, tiles, ended⟩
  · subst e
    obtain ⟨ended, -, -, mem, tiles⟩ := trainEnd_frame die (.inr (.inr rfl)) s
    exact ⟨_, congrArg (fun u => Host.Outcome.next (settleS11 u)) (stepTimeout_of_delay trains), mem, tiles, ended⟩
  · obtain ⟨mem, tiles, left, state⟩ := stepTimeout_frame_of_lane (lane := lane) die trains early
    refine ⟨_, rfl, mem, tiles, left, ?_⟩
    rw [left]
    exact state
  · exact congrArg Host.Outcome.next (if_pos (by rw [down]; rfl))
  · exact ⟨_, exec_blockLockLoss_of_job up job, recorded_linkFault inv die (Sent.refl s)⟩
  · obtain ⟨state, mem, tiles⟩ := fnGone_frame (s := objSet (0x4100 + l) 1 0 s) die (objGet_objSet_same ..)
    exact ⟨_, exec_blockLockLoss_of_idle up job, state, mem, tiles⟩

end Sys2Proof.Machine
end

section
/-! SUPPORT. A write that is refused for another reason than the statement gives (R374, R379, R462). -/

namespace Sys2Proof.Machine

open Sys2Proof Sys2Proof.Laws

/-- A state with the code running and the CAN FD port up at node 1, whose port privilege is 2: the privilege of a signed
write. -/
def vendorPort : State :=
  objSet 0x9000 5 2 (objSet 0x9000 1 1 (objSet 0x2200 2 4 (objSet 0x2000 0xE 2
    { State.reset with power := { State.reset.power with input := true, rails := true } })))

/-- A write of one byte to the signed write counter, four bytes long, over the CAN FD port. -/
def counterWrite : Instr := .write (.entry .can 0x6100 0x13 [0])

/-- What the object service shows of the refusal after a command. -/
def lastRefusal (o : Host.Outcome State Fault Refusal) : Option Nat :=
  match o with
  | .next s => some (objGet s 0x1002 3)
  | _ => none

/-- The write is answered for its length, with 0x02. -/
theorem lastRefusal_counterWrite : lastRefusal (exec counterWrite vendorPort) = some (65536 * 0x6100 + 256 * 0x13 + 2) := by
  decide +kernel

theorem counterWrite_may : (pathOpen vendorPort .can = true ∧ codeRunning vendorPort = true ∧
    ¬ (pathPrivilege vendorPort .can < writePrivilege 0x6100 0x13 ∨ pathBarred .can 0x6100 0x13 = true)) ∧
    ∃ r, entry? 0x6100 0x13 = some r ∧ r.acc ≤ 1 := by
  refine ⟨by decide +kernel, ?_⟩
  have found : ((entry? 0x6100 0x13).map (·.acc)) = some 1 := by decide +kernel
  obtain ⟨r, hr, acc⟩ := Option.map_eq_some_iff.mp found
  exact ⟨r, hr, Nat.le_of_eq acc⟩

/-- Refutes O45: with the CAN FD privilege at 2, a value past the range of 0x9000:05 that the statement does not exclude, the signed write counter, a read-only entry, passes the check of access,
and a write of the wrong length is answered 0x02, not 0x03. -/
theorem not_refusedWritesChangeNothing : ¬ Obligations.RefusedWritesChangeNothing := by
  intro h
  obtain ⟨⟨up, runs, may⟩, r, found, acc⟩ := counterWrite_may
  obtain ⟨-, -, -, rest⟩ := h counterWrite .can 0x6100 0x13 [0] vendorPort rfl
  obtain ⟨-, entries⟩ := rest up (by decide) (.inl runs)
  obtain ⟨-, readOnly, -⟩ := entries r found
  obtain ⟨s', run, -, -, -, last⟩ := readOnly may acc
  have shown := lastRefusal_counterWrite
  rw [run] at shown
  have same : 65536 * 0x6100 + 256 * 0x13 + 3 = 65536 * 0x6100 + 256 * 0x13 + 2 := last.symm.trans (Option.some.inj shown)
  exact absurd same (by decide)

end Sys2Proof.Machine
end

section
/-! SUPPORT. A write that is refused while a sealed job is cleared (R387, R462). -/

namespace Sys2Proof.Machine

open Sys2Proof Sys2Proof.Laws

/-- A module with the code running and the CAN FD port up at node 1, whose sealed job has ended and is still to be
cleared: no job runs, and the session state is 5. -/
def clearingDue : State :=
  objSet 0x6100 0x11 5 (objSet 0x9000 1 1 (objSet 0x2200 2 4 (objSet 0x2000 0xE 2
    { State.reset with power := { State.reset.power with input := true, rails := true } })))

theorem inv_clearingDue : Inv clearingDue := by
  obtain ⟨rows, port, dies, fns, loads, dests⟩ := resetMeetsInvariant
  exact ⟨rows, port, dies, fns, loads, dests⟩

/-- How many items a command has driven out. -/
def outCount (o : Host.Outcome State Fault Refusal) : Option Nat :=
  match o with
  | .next s => some s.out.length
  | _ => none

/-- The disable of a link is answered at once: it is refused with 0x07, as in a job. -/
theorem outCount_disable : outCount (exec (.enableWrite .can 0 [0]) clearingDue) = some 1 ∧
    clearingDue.out.length = 0 := by decide +kernel

theorem disable_may : pathOpen clearingDue .can = true ∧ codeRunning clearingDue = true ∧
    pathPrivilege clearingDue .can = 1 ∧ clearingDue.stores.length < 16 := by decide +kernel

/-- Refutes O46: while a sealed job is cleared no job runs, and yet the disable of a link is refused. -/
theorem not_acceptedWritesTakeEffect : ¬ Obligations.AcceptedWritesTakeEffect := by
  rintro ⟨writes, -⟩
  obtain ⟨up, runs, operator, room⟩ := disable_may
  obtain ⟨-, -, -, -, -, -, -, -, -, -, -, -, enable, -⟩ := writes .can [0] clearingDue inv_clearingDue up runs operator
  obtain ⟨s', run, -, out, -⟩ := enable 0 rfl (by decide) room (.inr (.inl rfl))
  obtain ⟨answered, silent⟩ := outCount_disable
  rw [run] at answered
  have count : s'.out.length = 1 := Option.some.inj answered
  rw [out, silent] at count
  exact absurd count (by decide)

end Sys2Proof.Machine
end

section
/-! SUPPORT. The PCI Express port (R400, R401, R407 to R409). -/

namespace Sys2Proof.Machine

open Sys2Proof Sys2Proof.Laws

/-! ## Training and resets of the function -/

/-- Training of the port shows its result in three entries. -/
theorem pcieTrain_eq (s : State) : ∃ rate width gen, pcieTrain s = objSet 0x8000 4 gen (objSet 0x8000 3 width
    (objSet 0x8000 2 rate (emit .pcieTraining { s with free := s.free + 3 }))) := by
  unfold pcieTrain
  dsimp only
  split
  · exact ⟨_, _, _, rfl⟩
  · exact ⟨_, _, _, rfl⟩

theorem pcieTrain_frame (s : State) :
    pcieTrain s = { s with objs := (pcieTrain s).objs, out := s.out ++ [.pcieTraining], free := s.free + 3 } ∧
      objGet (pcieTrain s) 0x8000 0xD = objGet s 0x8000 0xD := by
  obtain ⟨rate, width, gen, run⟩ := pcieTrain_eq s
  rw [run]
  refine ⟨rfl, ?_⟩
  rw [objGet_objSet_ne _ _ (by decide), objGet_objSet_ne _ _ (by decide), objGet_objSet_ne _ _ (by decide)]
  exact objGet_of_objs rfl rfl _ _

/-- The state in which a reset of the function has taken place, but for the training of the link. -/
def functionReset (s : State) : State :=
  bump 0x8000 0xD 1 { s with
    masked := 0xFFFFFFFF, pendVec := 0, loadSeq := none
    stores := s.stores.map fun x => match x.rcpt with | .slot _ => { x with rcpt := .nowhere } | _ => x }

theorem functionReset_only (s : State) :
    functionReset s = { s with masked := 0xFFFFFFFF, pendVec := 0, loadSeq := none, stores := (functionReset s).stores
                               objs := (functionReset s).objs } ∧
      objGet (functionReset s) 0x8000 0xD = objGet s 0x8000 0xD + 1 := by
  constructor
  · unfold functionReset bump
    rw [if_neg (by decide)]
    rfl
  · rw [functionReset, objGet_bump_same]
    exact congrArg (· + 1) (objGet_of_objs rfl rfl _ _)

theorem resetFunction_eq (k : PcieReset) (s : State) :
    resetFunction k s = if k = .hot ∨ k = .linkDown then pcieTrain (functionReset s) else functionReset s := by
  cases k <;> rfl

/-! ## Interrupt vectors -/

theorem getLsbD_unmask (m : BitVec 32) (v w : Nat) :
    (m &&& ~~~(1#32 <<< v)).getLsbD w = (m.getLsbD w && !decide (w = v)) := by
  by_cases small : w < 32
  · rw [BitVec.getLsbD_and, BitVec.getLsbD_not, getLsbD_oneBit v w small, decide_eq_true small, Bool.true_and]
  · have gone : m.getLsbD w = false := BitVec.getLsbD_of_ge m w (Nat.le_of_not_lt small)
    rw [BitVec.getLsbD_and, gone, Bool.false_and, Bool.false_and]

/-- Unmasking a vector clears its mask and pending bits, and delivers a pending interrupt. -/
theorem unmask_eq (v : Nat) (s : State) :
    unmask v s = { s with
      masked := s.masked &&& ~~~(1#32 <<< v)
      pendVec := if s.pendVec.getLsbD v then s.pendVec &&& ~~~(1#32 <<< v) else s.pendVec
      out := s.out ++ (if s.pendVec.getLsbD v then [.interrupt v] else []) } := by
  unfold unmask
  dsimp only
  cases s.pendVec.getLsbD v
  · rw [if_neg Bool.false_ne_true, if_neg Bool.false_ne_true, if_neg Bool.false_ne_true, List.append_nil]
  · rfl

/-! ## The debug window -/

section
variable {s : State} {o a : Nat}

/-- The row address of a beam row names its tile and space. -/
theorem fields_of_rowAddr {t row : Nat} (grid : t < 768) (inside : row < 2 ^ 20) :
    addrTile (rowAddr t 1 row) = some t := by
  have x : t % 24 < 24 := Nat.mod_lt _ (by decide)
  have y : t / 24 < 32 := by omega
  have hx : bits (rowAddr t 1 row) 27 5 = t % 24 := by
    show (t % 24 * 134217728 + t / 24 * 4194304 + 1 * 1048576 + row) / 134217728 % 32 = _
    generalize t % 24 = x at *
    generalize t / 24 = y at *
    omega
  have hy : bits (rowAddr t 1 row) 22 5 = t / 24 := by
    show (t % 24 * 134217728 + t / 24 * 4194304 + 1 * 1048576 + row) / 4194304 % 32 = _
    omega
  unfold addrTile
  dsimp only
  rw [hx, hy, if_pos (by simp [y, Nat.mod_lt]), Nat.div_add_mod]

theorem addrTile_lt {a t : Nat} (h : addrTile a = some t) : t < 768 := by
  unfold addrTile at h
  dsimp only at h
  split at h
  case isTrue grid =>
    rw [Bool.and_eq_true, decide_eq_true_iff, decide_eq_true_iff] at grid
    obtain ⟨x, y⟩ := grid
    have e := Option.some.inj h
    omega
  case isFalse => cases h

/-- The row of an enabled aperture is a beam row of a tile. -/
theorem addrTile_of_bar2Row (h : bar2Row s o = some a) : ∃ t, addrTile a = some t := by
  unfold bar2Row at h
  dsimp only at h
  split at h
  case isTrue => cases h
  case isFalse open_ =>
    obtain ⟨t, ht, rfl⟩ := Option.map_eq_some_iff.mp h
    refine ⟨t, fields_of_rowAddr (addrTile_lt ht) ?_⟩
    simp only [Bool.or_eq_true, decide_eq_true_eq, not_or] at open_
    exact Nat.lt_trans (Nat.lt_of_not_le open_.2) (by decide)

theorem rowGet_serveSlice (a c rank : Nat) (s : State) (b : Nat) : rowGet (serveSlice a c rank s) b = rowGet s b := by
  unfold serveSlice requestAccess
  split <;> rfl

/-- A background write of a row stores it and leaves every other row. -/
theorem rowGet_backStore {t : Nat} (tile : addrTile a = some t) (f : RowFrame) (s : State) (b : Nat) :
    rowGet (backStore a f s) b = if b = a then { f with data := slice f.data 0 512 } else rowGet s b := by
  have faults : ∀ fs (u : State), rowGet (raiseFaults fs u) b = rowGet u b := fun fs u =>
    (aside_raiseFaults fs (Aside.refl u)).rowGet b
  unfold backStore
  rw [tile]
  dsimp only
  rw [rowGet_rowWrite, faults, rowGet_tileSet]
  split
  · rfl
  · split
    · exact rowGet_serveSlice ..
    · rfl

theorem exec_bar2Write_of_open {b : Bytes} (row : bar2Row s o = some a) (up : pcieUp s = true) (runs : codeRunning s = true)
    (job : s.job = false) (plain : withholding s = false) (whole : o % 512 = 0) (long : b.length = 512) :
    exec (.bar2Write o b) s = .next (backPut a b s) := by
  refine congrArg Host.Outcome.next ((if_pos (by rw [up, runs]; rfl)).trans ?_)
  unfold bar2Put
  rw [row]
  exact if_neg (by rw [job, plain, whole, long]; decide)

theorem exec_bar2Write_of_other {b : Bytes} (up : pcieUp s = true) (runs : codeRunning s = true)
    (other : bar2Row s o = none ∨ s.job = true ∨ withholding s = true ∨ o % 512 ≠ 0 ∨ b.length ≠ 512) :
    exec (.bar2Write o b) s = .next (bump 0x8000 0xB 1 s) := by
  refine congrArg Host.Outcome.next ((if_pos (by rw [up, runs]; rfl)).trans ?_)
  unfold bar2Put
  split
  case h_1 a row =>
    refine if_pos ?_
    rw [row] at other
    obtain none | other := other
    · cases none
    · simpa [or_assoc] using other
  case h_2 => rfl

/-! ## Reads of the debug window -/

theorem rows_of_whole (whole : o % 512 = 0) : (o + 512 + 511) / 512 - o / 512 = 1 ∧ 512 * (o / 512) = o := by omega

/-- A row read over the window without corrections. -/
theorem windowRow_of_sound (none : mget [] s.upsets a = []) (clean : mget false s.poison a = false)
    (proof : proofOk (rowGet s a) = true) :
    windowRow a s = ((rowGet s a).data, false, serveSlice a (backSlot s a) rankBackground (drawn a s)) := by
  have fetched : fetchRow s a = { frame := rowGet s a, corrected := 0, bad := false } := by
    unfold fetchRow
    rw [none]
    dsimp only
    rw [if_pos rfl, clean]
  unfold windowRow
  rw [fetched]
  dsimp only
  rw [proof]
  rfl

theorem serveSlice_frame (a c rank : Nat) (s : State) :
    (serveSlice a c rank (drawn a s)).mem = s.mem ∧ (serveSlice a c rank (drawn a s)).integrity = s.integrity ∧
      (serveSlice a c rank (drawn a s)).out = s.out := by
  have free : (drawn a s).mem = s.mem ∧ (drawn a s).integrity = s.integrity ∧ (drawn a s).out = s.out := by
    unfold drawn
    split
    · exact ⟨rfl, rfl, rfl⟩
    · exact ⟨rfl, rfl, rfl⟩
  unfold serveSlice requestAccess
  split
  · exact free
  · exact free

theorem bar2Get_of_whole (plain : withholding s = false) (whole : o % 512 = 0) :
    bar2Get o 512 s = emit (.completion (if (windowRows 1 o s).2.1 then List.replicate 512 0xFF
      else slice (windowRows 1 o s).1 0 512) (windowRows 1 o s).2.1) (windowRows 1 o s).2.2 := by
  obtain ⟨one, first⟩ := rows_of_whole whole
  unfold bar2Get
  rw [if_neg (by rw [plain]; exact Bool.false_ne_true)]
  dsimp only
  rw [one, first, whole]

theorem length_rowGet_data (s : State) (a : Nat) : (rowGet s a).data.length = 512 := by
  rw [rowGet, frameOf]
  exact slice_length ..

theorem bar2Get_of_row (plain : withholding s = false) (whole : o % 512 = 0) (row : bar2Row s o = some a)
    (none : mget [] s.upsets a = []) (clean : mget false s.poison a = false) (proof : proofOk (rowGet s a) = true) :
    bar2Get o 512 s = emit (.completion (rowGet s a).data false)
      (serveSlice a (backSlot s a) rankBackground (drawn a s)) := by
  have rows : windowRows 1 o s =
      ((rowGet s a).data, false, serveSlice a (backSlot s a) rankBackground (drawn a s)) := by
    simp only [windowRows, row, windowRow_of_sound none clean proof, List.append_nil, Bool.or_false]
  rw [bar2Get_of_whole plain whole, rows]
  dsimp only
  rw [if_neg Bool.false_ne_true, slice_self _ _ (length_rowGet_data s a)]

theorem bar2Get_of_closed (plain : withholding s = false) (whole : o % 512 = 0) (row : bar2Row s o = none) :
    bar2Get o 512 s = emit (.completion (List.replicate 512 0xFF) false) s := by
  have rows : windowRows 1 o s = (List.replicate 512 0xFF, false, s) := by
    simp only [windowRows, row, List.append_nil, Bool.or_false]
  rw [bar2Get_of_whole plain whole, rows]
  dsimp only
  rw [if_neg Bool.false_ne_true, slice_self _ _ List.length_replicate]

end

/-- Settles O50, by the commands of the port. -/
theorem pciePortResetsAndInterrupts : Obligations.PciePortResetsAndInterrupts := by
  refine ⟨fun s => ⟨fun high => ?_, fun low => ?_⟩, fun k s up => ?_, fun v s up => ?_, fun o b s up runs => ⟨?_, ?_⟩,
    fun o n s up runs => ⟨fun sealed => ?_, fun a plain row whole none clean proof => ?_, fun plain row whole => ?_⟩,
    fun o s inv up => ?_, fun o n b k v s down => ?_⟩
  · exact congrArg Host.Outcome.next (if_pos high)
  · have run : exec .perstDeassert s = .next (if pcieUp { s with power := { s.power with perst := true } }
        then pcieTrain { s with power := { s.power with perst := true } }
        else { s with power := { s.power with perst := true } }) :=
      congrArg Host.Outcome.next (if_neg (by rw [low]; exact Bool.false_ne_true))
    refine ⟨_, run, ?_⟩
    split
    · rw [(pcieTrain_frame { s with power := { s.power with perst := true } }).1]
      exact ⟨rfl, rfl⟩
    · exact ⟨rfl, rfl⟩
  · obtain ⟨only, count⟩ := functionReset_only s
    obtain ⟨trained, same⟩ := pcieTrain_frame (functionReset s)
    refine ⟨_, congrArg Host.Outcome.next ((if_pos up).trans (resetFunction_eq k s)), ?_⟩
    split
    · have entry := same.trans count
      rw [trained] at entry ⊢
      rw [only] at entry ⊢
      exact ⟨rfl, rfl, rfl, entry, rfl, rfl, rfl, rfl, rfl, rfl⟩
    · rw [only] at count ⊢
      exact ⟨rfl, rfl, rfl, count, (List.append_nil _).symm, rfl, rfl, rfl, rfl, rfl⟩
  · refine ⟨_, congrArg Host.Outcome.next ((if_pos up).trans (unmask_eq v.val s)), rfl, ?_, fun w ne => ⟨?_, ?_⟩, ?_, rfl⟩
    · exact (getLsbD_unmask s.masked v.val v.val).trans (by simp)
    · exact (getLsbD_unmask s.masked v.val w).trans (by simp [ne])
    · dsimp only
      split
      · rw [getLsbD_unmask, decide_eq_false ne]
        exact Bool.and_true _
      · rfl
    · dsimp only
      split
      · rw [getLsbD_unmask]
        simp
      case isFalse idle => exact (Bool.not_eq_true _).mp idle
  · intro a row job plain whole long
    obtain ⟨t, tile⟩ := addrTile_of_bar2Row row
    refine ⟨_, exec_bar2Write_of_open row up runs job plain whole long, ?_, fun x ne => ?_⟩
    · rw [backPut, rowGet_backStore tile, if_pos rfl, freshFrame, slice_self _ _ long, slice_self _ _ long]
    · rw [backPut, rowGet_backStore tile, if_neg ne]
  · intro other
    refine ⟨_, exec_bar2Write_of_other up runs other, ?_, objGet_bump_same ..⟩
    unfold bump
    split <;> rfl
  · exact congrArg Host.Outcome.next ((if_pos (by rw [up, runs]; rfl)).trans (if_pos sealed))
  · obtain ⟨mem, integrity, out⟩ := serveSlice_frame a (backSlot s a) rankBackground s
    refine ⟨_, congrArg Host.Outcome.next ((if_pos (by rw [up, runs]; rfl)).trans
      (bar2Get_of_row plain whole row none clean proof)), mem, integrity, ?_⟩
    exact congrArg (· ++ [Output.completion (rowGet s a).data false]) out
  · exact congrArg Host.Outcome.next ((if_pos (by rw [up, runs]; rfl)).trans (bar2Get_of_closed plain whole row))
  · refine ⟨_, congrArg Host.Outcome.next (if_pos up), ?_, List.mem_append_right _ (List.mem_singleton_self _), ?_⟩
    · exact recorded_raiseFault inv.dies 0x8001 (unitSite 4 0 0 (o % 2 ^ 18))
    · exact (aside_emit _ (aside_raiseFault _ _ (Aside.refl s))).only
  · have closed : ¬ pcieUp s = true := by
      rw [down]
      exact Bool.false_ne_true
    have off : ¬ (pcieUp s && codeRunning s) = true := by
      rw [down]
      exact Bool.false_ne_true
    exact ⟨congrArg Host.Outcome.next (if_neg closed), congrArg Host.Outcome.next (if_neg closed),
      congrArg Host.Outcome.next (if_neg off), congrArg Host.Outcome.next (if_neg off),
      congrArg Host.Outcome.next (if_neg closed)⟩

end Sys2Proof.Machine
end

section
/-! SUPPORT. Port memory fields, the load command block (R405, R406, R78), recovery commands (R404). -/

namespace Sys2Proof.Machine

open Sys2Proof Sys2Proof.Laws

/-! ## Fields of port memory -/

theorem portGet_of_pmem {s t : State} (h : t.pmem = s.pmem) (a n : Nat) : portGet t a n = portGet s a n := by
  simp only [portGet, portByte, h]

/-- Bytes outside what is written are as they were. -/
theorem portGet_portPut_apart {a b n : Nat} {bs : Bytes} (s : State) (apart : b + n ≤ a ∨ a + bs.length ≤ b) :
    portGet (portPut a bs s) b n = portGet s b n := by
  unfold portGet
  refine List.map_congr_left fun i hi => ?_
  have small := List.mem_range.mp hi
  rw [portByte_portPut, if_neg (by omega)]

/-- A number of four bytes written and read back. -/
theorem number_portPut (a v : Nat) (s : State) : leNat (portGet (portPut a (leBytes 4 v) s) a 4) = v % 2 ^ 32 := by
  have whole := portGet_portPut a (leBytes 4 v) s
  rw [leBytes_length] at whole
  exact (congrArg leNat whole).trans (leNat_leBytes 4 v)

theorem number_portPut_word (a : Nat) (v : BitVec 32) (s : State) :
    leNat (portGet (portPut a (leBytes 4 v.toNat) s) a 4) = v.toNat := by
  rw [number_portPut, Nat.mod_eq_of_lt v.isLt]

/-- What every step of a fold keeps, the fold keeps. -/
theorem foldl_keeps {α β : Type} (view : State → β) (f : State → α → State) (h : ∀ s x, view (f s x) = view s) (l : List α)
    (s : State) : view (l.foldl f s) = view s := by
  induction l generalizing s with
  | nil => rfl
  | cons x xs ih => exact (ih _).trans (h s x)

theorem pmem_raiseVector (v : Nat) (s : State) : (raiseVector v s).pmem = s.pmem := by
  unfold raiseVector
  split <;> rfl

theorem raiseVector_only (v : Nat) (s : State) :
    raiseVector v s = { s with pendVec := (raiseVector v s).pendVec, out := (raiseVector v s).out } := by
  unfold raiseVector
  split <;> rfl

theorem objGet_raiseVector (v : Nat) (s : State) (i j : Nat) : objGet (raiseVector v s) i j = objGet s i j := by
  unfold raiseVector
  split <;> rfl

theorem objGet_portPut (a : Nat) (bs : Bytes) (s : State) (i j : Nat) : objGet (portPut a bs s) i j = objGet s i j := rfl

/-! ## Load commands -/

section
variable {s : State} {q : BitVec 32}

theorem loadCommand_of_idle (up : pcieUp s = true) (runs : codeRunning s = true) (idle : s.loadSeq = none)
    (new : q.toNat ≠ loadField s 4 4) :
    loadCommand q s = emits [.dmaRead (loadField s 8 8) (loadField s 0x10 8), .dmaRead (loadField s 0x18 8) (loadField s 0x20 4)]
      { portPut loadBlock (leBytes 4 q.toNat) s with loadSeq := some q } :=
  (if_neg (by rw [up, runs]; decide)).trans (if_neg (by rw [idle]; simpa using new))

theorem loadCommand_of_busy (up : pcieUp s = true) (runs : codeRunning s = true)
    (old : s.loadSeq ≠ none ∨ q.toNat = loadField s 4 4) :
    loadCommand q s = portPut loadBlock (leBytes 4 q.toNat) s := by
  refine (if_neg (by rw [up, runs]; decide)).trans (if_pos ?_)
  rw [Bool.or_eq_true, decide_eq_true_iff]
  exact old.imp_left fun busy => Option.isSome_iff_ne_none.mpr busy

theorem loadCommand_of_down (down : pcieUp s = false ∨ codeRunning s = false) : loadCommand q s = s := by
  refine if_pos ?_
  obtain h | h := down
  · rw [h]
    rfl
  · rw [h, Bool.not_false, Bool.or_true]

end

/-! ## Answers to a load -/

/-- What a load answers, and what its answer leaves alone. -/
structure Answered (u t : State) (q : BitVec 32) (status detail : Nat) : Prop where
  idle     : t.loadSeq = none
  sequence : leNat (portGet t 0x20004 4) = q.toNat
  shown    : objGet t 0x8000 9 = status
  place    : leNat (portGet t 0x2002C 4) = detail % 2 ^ 32
  pattern  : t.pattern = u.pattern
  mem      : t.mem = u.mem
  security : t.security = u.security

/-- The load command block with status, place and sequence of an answer. -/
def answerPut (q : BitVec 32) (st : Nat × Nat) (u : State) : State :=
  portPut 0x20004 (leBytes 4 q.toNat) (portPut 0x2002C (leBytes 4 st.2) (portPut 0x20028 (leBytes 1 st.1) u))

theorem loadRespond_eq (q : BitVec 32) (c : Check) (u : State) : loadRespond q c u =
    raiseVector 5 (objSet 0x8000 9 (c.getD (0, 0)).1 (answerPut q (c.getD (0, 0)) { u with loadSeq := none })) := by
  simp only [loadRespond, loadBlock, Nat.reduceAdd, answerPut]

theorem numbers_answerPut (q : BitVec 32) (st : Nat × Nat) (u : State) :
    leNat (portGet (answerPut q st u) 0x20004 4) = q.toNat ∧ leNat (portGet (answerPut q st u) 0x2002C 4) = st.2 % 2 ^ 32 := by
  refine ⟨number_portPut_word 0x20004 q _, ?_⟩
  rw [answerPut, portGet_portPut_apart _ (by rw [leBytes_length]; decide), number_portPut]

theorem answerPut_only (q : BitVec 32) (st : Nat × Nat) (u : State) :
    answerPut q st u = { u with pmem := (answerPut q st u).pmem } := rfl

theorem loadRespond_frame (q : BitVec 32) (c : Check) (u : State) :
    Answered u (loadRespond q c u) q (c.getD (0, 0)).1 (c.getD (0, 0)).2 := by
  rw [loadRespond_eq]
  generalize c.getD (0, 0) = st
  obtain ⟨sequence, place⟩ := numbers_answerPut q st { u with loadSeq := none }
  rw [answerPut_only] at sequence place ⊢
  generalize (answerPut q st { u with loadSeq := none }).pmem = pm at sequence place ⊢
  have same := portGet_of_pmem (pmem_raiseVector 5 (objSet 0x8000 9 st.1 { u with loadSeq := none, pmem := pm }))
  constructor
  case sequence => rw [same]; exact sequence
  case place => rw [same]; exact place
  case shown => rw [objGet_raiseVector, objGet_objSet_same]
  all_goals
    rw [raiseVector_only]
    rfl

/-- The pattern and the security block of a state. -/
def loaded (s : State) : Option Pattern × Security := (s.pattern, s.security)

theorem loaded_placeSched (f : Bytes) (t at_ b : Nat) (d : Schedule) (s : State) :
    loaded (placeSched f t at_ b d s) = loaded s := by
  unfold placeSched
  refine foldl_keeps loaded _ (fun s r => ?_) _ s
  rfl

theorem loaded_foldl_snd {α : Type} (g : Nat × State → α → Nat × State) (h : ∀ acc x, loaded (g acc x).2 = loaded acc.2)
    (l : List α) (acc : Nat × State) : loaded (l.foldl g acc).2 = loaded acc.2 := by
  induction l generalizing acc with
  | nil => rfl
  | cons x xs ih => exact (ih _).trans (h acc x)

/-- Placing a pattern's schedules changes rows alone. -/
theorem loaded_placeTile (p : Pattern) (t : Nat) (s : State) : loaded (placeTile p t s) = loaded s := by
  unfold placeTile
  refine loaded_foldl_snd _ (fun acc d => ?_) _ (0, s)
  split
  · rfl
  · exact loaded_placeSched ..

/-- A pattern accepted is the loaded one, and extends measurement register 4 with its hash. -/
theorem loaded_installPattern (p : Pattern) (s : State) : loaded (installPattern p s) = (some p, { s.security with
    measure := s.security.measure.set 4 (sha384 (s.security.measure.getD 4 [] ++ slice p.hash 0 48)) }) := by
  unfold installPattern
  refine (foldl_keeps loaded _ (fun s t => ?_) _ _).trans rfl
  split
  · rfl
  · exact loaded_placeTile p t s

theorem parts_of_loaded {u : State} {x : Option Pattern × Security} (h : loaded u = x) :
    u.pattern = x.1 ∧ u.security = x.2 := by
  subst h
  exact ⟨rfl, rfl⟩

theorem pattern_installPattern (p : Pattern) (s : State) : (installPattern p s).pattern = some p :=
  (parts_of_loaded (loaded_installPattern p s)).1

theorem security_installPattern (p : Pattern) (s : State) : (installPattern p s).security = { s.security with
    measure := s.security.measure.set 4 (sha384 (s.security.measure.getD 4 [] ++ slice p.hash 0 48)) } :=
  (parts_of_loaded (loaded_installPattern p s)).2

/-! ## The checks of a load -/

theorem loadField_eq (s : State) (n : Nat) : loadField s 4 n = leNat (portGet s 0x20004 n) ∧
    loadField s 8 n = leNat (portGet s 0x20008 n) ∧ loadField s 0x10 n = leNat (portGet s 0x20010 n) ∧
    loadField s 0x18 n = leNat (portGet s 0x20018 n) ∧ loadField s 0x20 n = leNat (portGet s 0x20020 n) := by
  simp only [loadField, loadBlock, Nat.reduceAdd, and_self]

/-- Whether the DMA of a load failed, or brought other lengths than the command block names. -/
def dmaBad (ok : Bool) (f r : Bytes) (s : State) : Prop :=
  ok = false ∨ 0x40000000 < leNat (portGet s 0x20010 8) ∨ f.length ≠ leNat (portGet s 0x20010 8) ∨
    r.length ≠ leNat (portGet s 0x20020 4)

/-- The checks of the relocation block and of the pattern. -/
def fileChecks (f r : Bytes) (s : State) : Check :=
  firstFail [checkReloc s f r, checkPattern s f (leNat (portGet s 0x20010 8)) (relBase r)]

theorem firstFail_cons_none {c : Check} {l : List Check} (h : c = none) : firstFail (c :: l) = firstFail l := by
  rw [firstFail, List.findSome?_cons, h]
  rfl

theorem firstFail_cons_some {c : Check} {x : Nat × Nat} {l : List Check} (h : c = some x) : firstFail (c :: l) = some x := by
  rw [firstFail, List.findSome?_cons, h]
  rfl

section
variable {s : State} {q : BitVec 32} {ok : Bool} {f r : Bytes}

theorem failIf_of_not {c : Bool} {status detail : Nat} (h : ¬ c = true) : failIf c status detail = none := if_neg h

/-- All the checks of a load in their order. -/
def loadChecks (ok : Bool) (f r : Bytes) (s : State) : Check :=
  firstFail [failIf s.job 0x22 0,
    failIf (!ok || decide (0x40000000 < leNat (portGet s 0x20010 8)) || f.length != leNat (portGet s 0x20010 8)
      || r.length != leNat (portGet s 0x20020 4)) 0x20 0,
    checkReloc s f r, checkPattern s f (leNat (portGet s 0x20010 8)) (relBase r)]

theorem loadComplete_eq (under : s.loadSeq = some q) : loadComplete ok f r s =
    loadRespond q (loadChecks ok f r s)
      (if (loadChecks ok f r s).isNone then installPattern (makePattern f r (ownRank s f)) s else s) := by
  unfold loadComplete loadChecks
  rw [under, (loadField_eq s 8).2.2.1, (loadField_eq s 4).2.2.2.2]

theorem loadChecks_of_job (job : s.job = true) : loadChecks ok f r s = some (0x22, 0) := by
  refine firstFail_cons_some ?_
  rw [job]
  rfl

theorem dmaBad_iff : (!ok || decide (0x40000000 < leNat (portGet s 0x20010 8)) || f.length != leNat (portGet s 0x20010 8)
    || r.length != leNat (portGet s 0x20020 4)) = true ↔ dmaBad ok f r s := by
  unfold dmaBad
  simp [or_assoc]

theorem loadChecks_of_dma (job : s.job = false) (bad : dmaBad ok f r s) : loadChecks ok f r s = some (0x20, 0) := by
  unfold loadChecks
  rw [firstFail_cons_none (by rw [job]; rfl)]
  exact firstFail_cons_some (if_pos (dmaBad_iff.mpr bad))

theorem loadChecks_of_files (job : s.job = false) (good : ¬ dmaBad ok f r s) : loadChecks ok f r s = fileChecks f r s := by
  unfold loadChecks
  rw [firstFail_cons_none (by rw [job]; rfl), firstFail_cons_none (failIf_of_not fun h => good (dmaBad_iff.mp h))]
  rfl

/-- What a load answers whose checks fail. -/
theorem loadComplete_of_failed {status detail : Nat} (under : s.loadSeq = some q)
    (fails : loadChecks ok f r s = some (status, detail)) :
    Answered s (loadComplete ok f r s) q status detail := by
  have run := loadComplete_eq (ok := ok) (f := f) (r := r) under
  rw [fails] at run
  rw [run]
  exact loadRespond_frame q (some (status, detail)) s

/-- A load whose checks pass installs the pattern. -/
theorem loadComplete_of_passed (under : s.loadSeq = some q) (passes : loadChecks ok f r s = none) :
    Answered (installPattern (makePattern f r (ownRank s f)) s) (loadComplete ok f r s) q 0 0 := by
  have run := loadComplete_eq (ok := ok) (f := f) (r := r) under
  rw [passes] at run
  rw [run]
  exact loadRespond_frame q none (installPattern (makePattern f r (ownRank s f)) s)

/-! ## Recovery commands -/

/-- The state in which a recovery command has been answered with a status. -/
def recoveryAnswered (q : BitVec 32) (c : Nat) (s : State) : State :=
  raiseVector 5 (portPut 0x3C (leBytes 4 q.toNat) (portPut 0x40 (leBytes 4 c) (portPut 0x38 (leBytes 4 q.toNat) s)))

theorem numbers_recoveryAnswered (q : BitVec 32) (c : Nat) (s : State) :
    leNat (portGet (recoveryAnswered q c s) 0x3C 4) = q.toNat ∧
      leNat (portGet (recoveryAnswered q c s) 0x40 4) = c % 2 ^ 32 := by
  unfold recoveryAnswered
  constructor
  · rw [portGet_of_pmem (pmem_raiseVector _ _), number_portPut_word]
  · rw [portGet_of_pmem (pmem_raiseVector _ _), portGet_portPut_apart _ (by rw [leBytes_length]; decide), number_portPut]

theorem startState_recoveryAnswered (q : BitVec 32) (c : Nat) (s : State) :
    startState (recoveryAnswered q c s) = startState s := by
  rw [startState, recoveryAnswered, objGet_raiseVector, objGet_portPut, objGet_portPut, objGet_portPut, startState]

/-- The image that a recovery command names. -/
def recoveryImage (q : BitVec 32) (s : State) : Bytes :=
  portGet (portPut 0x38 (leBytes 4 q.toNat) s) 0x10000000 (leNat (portGet s 0x34 4))

/-- A sound image, its versions and measurements taken, starts from S4 and is kept. -/
def startFromS4 (image : Bytes) (s : State) : State :=
  { objSet 0x2200 2 4 (objSet 0x2200 1 0 (setOutcome 3 2 s)) with
    start := { (setOutcome 3 2 s).start with copy := some image } }

theorem startFromS4_frame (image : Bytes) (s : State) :
    (startFromS4 image s).pmem = s.pmem ∧ startState (startFromS4 image s) = 0 ∧ objGet (startFromS4 image s) 0x2200 2 = 4 ∧
      (startFromS4 image s).start.copy = some image := by
  have entry : ∀ i j, objGet (startFromS4 image s) i j = objGet (objSet 0x2200 2 4 (objSet 0x2200 1 0 (setOutcome 3 2 s))) i j :=
    fun _ _ => rfl
  refine ⟨rfl, ?_, ?_, rfl⟩
  · rw [startState, entry, objGet_objSet_ne _ _ (by decide), objGet_objSet_same]
  · rw [entry, objGet_objSet_same]

theorem pmem_extendReg (i : Nat) (d : Bytes) (s : State) : (extendReg i d s).pmem = s.pmem := rfl

theorem pmem_takeImage (image : Bytes) (s : State) : (takeImage image s).pmem = s.pmem := by
  unfold takeImage
  rw [pmem_extendReg, pmem_extendReg]
  rfl

/-- The status of the check of the image that a recovery command names. -/
def recoveryStatus (q : BitVec 32) (s : State) : Nat :=
  imageFault (portPut 0x38 (leBytes 4 q.toNat) s) (recoveryImage q s)

theorem recover_eq (up : pcieUp s = true) (window : startState s = 3) (new : q.toNat ≠ leNat (portGet s 0x3C 4)) :
    recover q.toNat s = if recoveryStatus q s ≠ 0 then recoveryAnswered q (recoveryStatus q s) s else
      startFromS4 (recoveryImage q s) (takeImage (recoveryImage q s) (recoveryAnswered q (recoveryStatus q s) s)) := by
  have taken : ¬ (!pcieUp s || !recovering s || decide (q.toNat = leNat (portGet s 0x3C 4))) = true := by
    rw [up, recovering, window, decide_eq_false new]
    decide
  have length : leNat (portGet (portPut 0x38 (leBytes 4 q.toNat) s) 0x34 4) = leNat (portGet s 0x34 4) := by
    rw [portGet_portPut_apart _ (by rw [leBytes_length]; decide)]
  unfold recover
  rw [if_neg taken, imageBase]
  dsimp only
  rw [length]
  rfl

theorem recover_of_closed (closed : pcieUp s = false ∨ startState s ≠ 3 ∨ q.toNat = leNat (portGet s 0x3C 4)) :
    recover q.toNat s = s := by
  refine if_pos ?_
  simpa [recovering, or_assoc] using closed

end

/-- Settles O51, by the first check that fails, and by the image check. -/
theorem patternLoadsReplaceThePattern : Obligations.PatternLoadsReplaceThePattern := by
  refine ⟨fun q s up runs => ?_, fun q s down => congrArg Host.Outcome.next (loadCommand_of_down down),
    fun ok f r s idle => ?_, fun ok f r q s under => ?_, fun q s up window new => ?_,
    fun q s closed => congrArg Host.Outcome.next (recover_of_closed closed)⟩
  · intro f
    obtain ⟨four, eight, sixteen, -, -⟩ := loadField_eq s 8
    obtain ⟨sequence, -, -, -, words⟩ := loadField_eq s 4
    obtain ⟨-, -, -, block, -⟩ := loadField_eq s 8
    refine ⟨fun idle other => ?_, fun busy => ?_⟩
    · rw [← sequence] at other
      refine ⟨_, congrArg Host.Outcome.next (loadCommand_of_idle up runs idle other), ?_, ?_⟩
      · rw [eight, sixteen, block, words]
        rfl
      · exact number_portPut_word 0x20000 q s
    · rw [← sequence] at busy
      exact ⟨_, congrArg Host.Outcome.next (loadCommand_of_busy up runs busy), rfl, number_portPut_word 0x20000 q s⟩
  · unfold exec execLoadDmaComplete loadComplete
    rw [idle]
  · intro len bad checks gives same
    have failed : ∀ {status detail}, loadChecks ok f r s = some (status, detail) → gives status detail same := by
      intro status detail fails
      obtain ⟨idle, sequence, shown, place, pattern, mem, security⟩ := loadComplete_of_failed under fails
      exact ⟨_, rfl, idle, sequence, shown, place, pattern, mem, security⟩
    refine ⟨fun job => failed (loadChecks_of_job job), fun job dma => failed (loadChecks_of_dma job dma), fun job good => ?_⟩
    have files : loadChecks ok f r s = checks := loadChecks_of_files job good
    cases e : checks with
    | some x => exact failed (files.trans e)
    | none =>
      obtain ⟨idle, sequence, shown, place, pattern, -, security⟩ := loadComplete_of_passed under (files.trans e)
      rw [pattern_installPattern] at pattern
      rw [security_installPattern] at security
      exact ⟨_, rfl, idle, sequence, shown, place, pattern, security⟩
  · intro s1 image c
    have run : exec (.recoveryCommand q) s = .next (recover q.toNat s) := rfl
    have named : recoveryStatus q s = c := rfl
    rw [recover_eq up window new, named] at run
    obtain ⟨sequence, status⟩ := numbers_recoveryAnswered q c s
    by_cases sound : c = 0
    · obtain ⟨pmem, state, step, copy⟩ := startFromS4_frame image (takeImage image (recoveryAnswered q c s))
      have memory := portGet_of_pmem (pmem.trans (pmem_takeImage image _))
      refine ⟨_, run.trans (congrArg _ (if_neg (Classical.not_not.mpr sound))), ?_, ?_, fun bad => absurd sound bad,
        fun _ => ⟨state, step, copy⟩⟩
      · exact (congrArg leNat (memory 0x3C 4)).trans sequence
      · exact (congrArg leNat (memory 0x40 4)).trans status
    · refine ⟨_, run.trans (congrArg _ (if_pos sound)), sequence, status, fun _ => ?_, fun good => absurd good sound⟩
      exact (startState_recoveryAnswered q c s).trans window

end Sys2Proof.Machine
end

section
/-! SUPPORT. Snapshots (R429), overflow selectors (R430, R431), precise sample records (R432 to R434). -/

namespace Sys2Proof.Machine

open Sys2Proof Sys2Proof.Laws

/-! ## Snapshots and selectors -/

theorem snapshotDone_frame (s : State) :
    let done := objGet s 0x7000 4 = 2 ∧ ∀ n ∈ s.counting.left, n = 0
    (¬ done → exec .snapshotDone s = .next s) ∧
    (done → ∃ s', exec .snapshotDone s = .next s' ∧ s' = { s with objs := s'.objs } ∧ objGet s' 0x7000 4 = 3) := by
  have cond : (decide (objGet s 0x7000 4 = 2) && s.counting.left.all (· == 0)) = true ↔
      objGet s 0x7000 4 = 2 ∧ ∀ n ∈ s.counting.left, n = 0 := by
    rw [Bool.and_eq_true, decide_eq_true_iff, List.all_eq_true]
    exact and_congr_right fun _ => forall₂_congr fun _ _ => beq_iff_eq
  exact ⟨fun h => congrArg Host.Outcome.next (if_neg fun c => h (cond.mp c)),
    fun h => ⟨_, congrArg Host.Outcome.next (if_pos (cond.mpr h)), rfl, objGet_objSet_same ..⟩⟩

theorem selectorOverflow_below {k : Fin 8} {s : State}
    (below : ∀ h, s.counting.shadows[k.val]? = some h → h.count < 2 ^ 48) : exec (.selectorOverflow k) s = .next s := by
  refine congrArg Host.Outcome.next ?_
  cases e : s.counting.shadows[k.val]? with
  | none => rfl
  | some h => exact if_neg (Nat.not_le.mpr (below h e))

/-- A vector raised is delivered, or pending where it is masked. -/
theorem raiseVector_shows (v : Nat) (hv : v < 32) (s : State) :
    (s.masked.getLsbD v = false → (raiseVector v s).out = s.out ++ [.interrupt v]) ∧
      (s.masked.getLsbD v = true → (raiseVector v s).pendVec.getLsbD v = true) := by
  unfold raiseVector
  constructor
  · intro h
    rw [if_neg (by rw [h]; decide)]
    rfl
  · intro h
    rw [if_pos h]
    have bit : (1#32 <<< v).getLsbD v = true := by simp [hv]
    rw [BitVec.getLsbD_or, bit, Bool.or_true]

/-- Whether no vector of a selector was raised within the microsecond before. -/
def freshAt (h : Shadow) (s : State) : Prop := ∀ t, h.irqAt = some t → t + 800 ≤ s.tick

/-- Whether an overflow of a selector takes a sample. -/
def samples (h : Shadow) (s : State) : Prop :=
  bitOf (selFlags h.sel) 1 = true ∧ selEvent h.sel < 0xC000 ∧ objGet s 0x7100 1 = 1

/-- The counting block once a selector has been reloaded, its vector last raised at `irq`. -/
def reloaded (k : Nat) (h : Shadow) (irq : Option Nat) (taken : List Sample) (s : State) : State :=
  { s with counting := { s.counting with
    shadows := s.counting.shadows.set k { h with count := 2 ^ 48 - selPeriod h.sel, irqAt := irq }
    samples := s.counting.samples ++ taken } }

/-- The sample that an overflow takes, if it takes one. -/
def taken (h : Shadow) (s : State) : List Sample :=
  if bitOf (selFlags h.sel) 1 && decide (selEvent h.sel < 0xC000) && objGet s 0x7100 1 == 1
  then [takeSample (selEvent h.sel) s] else []

theorem taken_eq (h : Shadow) (s : State) :
    (samples h s → taken h s = [takeSample (selEvent h.sel) s]) ∧ (¬ samples h s → taken h s = []) := by
  have sample : (bitOf (selFlags h.sel) 1 && decide (selEvent h.sel < 0xC000) && objGet s 0x7100 1 == 1) = true ↔
      samples h s := by
    rw [Bool.and_eq_true, Bool.and_eq_true, decide_eq_true_iff, beq_iff_eq, and_assoc]
    rfl
  exact ⟨fun y => if_pos (sample.mpr y), fun n => if_neg fun y => n (sample.mp y)⟩

/-- A selector whose counter has overflowed is reloaded, takes its sample, and raises its vector or counts it lost. -/
theorem overflow_eq {k : Nat} {h : Shadow} {s : State} (at_ : s.counting.shadows[k]? = some h) :
    (freshAt h s → overflow k s = raiseVector (8 + k) (reloaded k h (some s.tick) (taken h s) s)) ∧
      (¬ freshAt h s → overflow k s = bump 0x7000 0xB 1 (reloaded k h h.irqAt (taken h s) s)) := by
  have joins (c : Bool) (l : List Sample) (x : Sample) : (if c then l ++ [x] else l) = l ++ if c then [x] else [] := by
    cases c with
    | true => rfl
    | false => exact (List.append_nil l).symm
  unfold overflow
  rw [at_]
  dsimp only
  rw [joins]
  cases irq : h.irqAt with
  | none => exact ⟨fun _ => rfl, fun n => absurd (fun _ e => by rw [irq] at e; cases e) n⟩
  | some t =>
    have fresh : freshAt h s ↔ decide (t + 800 ≤ s.tick) = true := by
      unfold freshAt
      rw [irq, decide_eq_true_iff]
      exact ⟨fun all => all t rfl, fun le _ e => Option.some.inj e ▸ le⟩
    rw [fresh]
    dsimp only
    constructor
    · intro f
      rw [if_pos f, if_pos f]
      rfl
    · intro f
      rw [if_neg f, if_neg f, ← irq]
      rfl

theorem selectorOverflow_reached {k : Fin 8} {h : Shadow} {s : State} (at_ : s.counting.shadows[k.val]? = some h)
    (reached : 2 ^ 48 ≤ h.count) : exec (.selectorOverflow k) s = .next (overflow k.val s) := by
  refine congrArg Host.Outcome.next ?_
  rw [at_]
  exact if_pos reached

/-- What an overflow of a selector does. -/
theorem selectorOverflow_frame (k : Fin 8) (h : Shadow) (s : State) (at_ : s.counting.shadows[k.val]? = some h)
    (reached : 2 ^ 48 ≤ h.count) :
    ∃ s' g, exec (.selectorOverflow k) s = .next s' ∧ s'.counting.shadows = s.counting.shadows.set k.val g ∧
      g.sel = h.sel ∧ g.count = 2 ^ 48 - selPeriod h.sel ∧
      s' = { s with objs := s'.objs, counting := s'.counting, pendVec := s'.pendVec, out := s'.out } ∧
      s'.counting.live = s.counting.live ∧
      (samples h s → s'.counting.samples = s.counting.samples ++ [takeSample (selEvent h.sel) s]) ∧
      (¬ samples h s → s'.counting.samples = s.counting.samples) ∧
      (freshAt h s → g.irqAt = some s.tick ∧ s'.objs = s.objs ∧
        (s.masked.getLsbD (8 + k.val) = false → s'.out = s.out ++ [.interrupt (8 + k.val)]) ∧
        (s.masked.getLsbD (8 + k.val) = true → s'.pendVec.getLsbD (8 + k.val) = true)) ∧
      (¬ freshAt h s → g.irqAt = h.irqAt ∧ s'.out = s.out ∧ s'.pendVec = s.pendVec ∧
        objGet s' 0x7000 0xB = objGet s 0x7000 0xB + 1) := by
  obtain ⟨yes, no⟩ := taken_eq h s
  have joined (irq : Option Nat) : (samples h s →
        (reloaded k.val h irq (taken h s) s).counting.samples = s.counting.samples ++ [takeSample (selEvent h.sel) s]) ∧
      (¬ samples h s → (reloaded k.val h irq (taken h s) s).counting.samples = s.counting.samples) :=
    ⟨fun y => congrArg (s.counting.samples ++ ·) (yes y),
      fun n => (congrArg (s.counting.samples ++ ·) (no n)).trans (List.append_nil _)⟩
  rw [selectorOverflow_reached at_ reached]
  by_cases fresh : freshAt h s
  · have shows := raiseVector_shows (8 + k.val) (by omega) (reloaded k.val h (some s.tick) (taken h s) s)
    have only := raiseVector_only (8 + k.val) (reloaded k.val h (some s.tick) (taken h s) s)
    rw [(overflow_eq at_).1 fresh]
    generalize raiseVector (8 + k.val) (reloaded k.val h (some s.tick) (taken h s) s) = u at shows only ⊢
    have counting : u.counting = (reloaded k.val h (some s.tick) (taken h s) s).counting := by rw [only]
    have objs : u.objs = s.objs := by rw [only]; rfl
    refine ⟨u, { h with count := 2 ^ 48 - selPeriod h.sel, irqAt := some s.tick }, rfl, ?_, rfl, rfl, ?_, ?_, ?_, ?_,
      fun _ => ⟨rfl, objs, shows⟩, fun n => absurd fresh n⟩
    · rw [counting]; rfl
    · rw [only]; rfl
    · rw [counting]; rfl
    · rw [counting]; exact (joined _).1
    · rw [counting]; exact (joined _).2
  · rw [(overflow_eq at_).2 fresh]
    exact ⟨_, { h with count := 2 ^ 48 - selPeriod h.sel }, rfl, rfl, rfl, rfl, rfl, rfl, (joined _).1, (joined _).2,
      fun f => absurd f fresh, fun _ => ⟨rfl, rfl, rfl, objGet_bump_same ..⟩⟩

/-! ## Sample records -/

theorem samples_countEvent (v c now : Nat) (s : State) :
    (countEvent v c now s).counting.samples = s.counting.samples := by
  unfold countEvent
  dsimp only
  split
  · rfl
  · rfl

theorem sampleRecord_of_none {t : TileIx} {n : Nat} {s : State} (none : ∀ x ∈ s.counting.samples, x.event / 64 ≠ t.val) :
    exec (.sampleRecord t n) s = .next s := by
  have no : s.counting.samples.findIdx? (fun x => x.event / 64 == t.val) = Option.none :=
    List.findIdx?_eq_none_iff.mpr fun x hx => beq_eq_false_iff_ne.mpr (none x hx)
  refine congrArg Host.Outcome.next ?_
  rw [no]

/-- The oldest sample of a tile leaves the waiting ones, and its record sets out. -/
theorem sampleRecord_of_oldest {t : TileIx} {n : Nat} {x : Sample} {xs ys : List Sample} {s : State}
    (at_ : s.counting.samples = xs ++ x :: ys) (own : x.event / 64 = t.val) (oldest : ∀ y ∈ xs, y.event / 64 ≠ t.val) :
    exec (.sampleRecord t n) s = .next (takeSamples (inject (dieOf t.val).val 6 1
      [.sampleIn (dieOf t.val).val (sampleBytes x n)] { s with counting := { s.counting with samples := xs ++ ys } })) := by
  have found : (xs ++ x :: ys).findIdx? (fun x => x.event / 64 == t.val) = some xs.length := by
    rw [List.findIdx?_append, List.findIdx?_eq_none_iff.mpr fun y hy => beq_eq_false_iff_ne.mpr (oldest y hy),
      List.findIdx?_cons, if_pos (beq_iff_eq.mpr own)]
    simp
  have get : (xs ++ x :: ys)[xs.length]? = some x := by simp
  have rest : (xs ++ x :: ys).eraseIdx xs.length = xs ++ ys := by
    rw [List.eraseIdx_append_of_length_le (Nat.le_refl _), Nat.sub_self]
    rfl
  refine congrArg Host.Outcome.next ?_
  rw [at_, found]
  dsimp only
  rw [get]
  dsimp only
  rw [rest]

/-- What a unit does with the outputs that are records, written as a fold over what has crossed the mesh. -/
def samplesPut (put : Nat → Bytes → State → State) (os : List Output) (s : State) : State :=
  os.foldl (fun s o => match o with
    | .sampleIn d b => put d b s
    | _ => s) s

theorem samplesPut_one (put : Nat → Bytes → State → State) (d : Nat) (b : Bytes) (s : State) :
    samplesPut put [.sampleIn d b] s = put d b s := rfl

/-- A record that alone has crossed the mesh reaches its buffer. -/
theorem takeSamples_of_one {s : State} {d : Nat} {b : Bytes} (one : s.net.arrived = [.sampleIn d b]) :
    takeSamples s = putSample d b { s with net := { s.net with arrived := [] } } := by
  unfold takeSamples
  rw [one]
  exact (samplesPut_one putSample d b { s with net := { s.net with arrived := [] } } :)

theorem takeSamples_of_none {s : State} (none : s.net.arrived = []) : takeSamples s = s := by
  have same : { s with net := { s.net with arrived := [] } } = s := by rw [← none]
  unfold takeSamples
  rw [none]
  exact same

theorem counting_bump (i j n : Nat) (s : State) : (bump i j n s).counting = s.counting := by
  unfold bump
  split <;> rfl

/-- The records in the buffer of die `d` that are not read. -/
def unreadIn (d : Nat) (s : State) : Nat := idxAhead (objGet s 0x7100 (6 + d)) (objGet s 0x7100 (2 + d))

/-- A record that finds its buffer full is counted as dropped. -/
theorem putSample_full {d : Nat} {b : Bytes} {s : State} (full : 4096 ≤ unreadIn d s) :
    (putSample d b s).counting.samples = s.counting.samples ∧
      objGet (putSample d b s) 0x7100 0xB = objGet s 0x7100 0xB + 1 ∧
      putSample d b s = { s with objs := (putSample d b s).objs, counting := (putSample d b s).counting } := by
  have eq : putSample d b s = countModule 0x1B 1 (bump 0x7100 0xB 1
      { s with counting := { s.counting with dropped := s.counting.dropped.set d true } }) := if_pos full
  rw [eq]
  refine ⟨samples_countEvent .., ?_, rfl⟩
  rw [objGet_countModule, objGet_bump_same]
  exact congrArg (· + 1) (objGet_of_objs rfl rfl _ _)

/-- A record as it stands in its buffer: its flag [1] tells whether one was dropped before it. -/
def flagged (b : Bytes) (lost : Bool) : Bytes := patch b 23 (leBytes 1 (leAt b 23 1 + 2 * flag lost))

/-- The state in which a record has been written and the write index of its buffer has advanced. -/
def recordPut (d : Nat) (b : Bytes) (s : State) : State :=
  let w := objGet s 0x7100 (2 + d)
  bump 0x7100 0xC 1 (objSet 0x7100 (2 + d) ((w + 1) % 2 ^ 32)
    { portPut (sampleBuffer d + 32 * (w % 4096)) (flagged b (s.counting.dropped.getD d false)) s with
      counting := { s.counting with dropped := s.counting.dropped.set d false } })

theorem putSample_room {d : Nat} {b : Bytes} {s : State} (room : unreadIn d s < 4096) : putSample d b s =
    if unreadIn d s + 1 = objGet s 0x7100 0xA then raiseVector 16 (recordPut d b s) else recordPut d b s :=
  if_neg (Nat.not_le.mpr room)

theorem sampleBytes_length (x : Sample) (n : Nat) : (sampleBytes x n).length = 32 := by
  simp [sampleBytes, leBytes_length]

theorem flagged_eq {b : Bytes} (len : b.length = 32) (lost : Bool) :
    flagged b lost = b.take 23 ++ leBytes 1 (leAt b 23 1 + (if lost then 2 else 0)) ++ b.drop 24 := by
  have two : 2 * flag lost = if lost then 2 else 0 := by cases lost <;> rfl
  unfold flagged patch
  rw [two, leBytes_length]
  refine List.take_of_length_le ?_
  simp [leBytes_length, len]

/-- What a record written to its buffer leaves. -/
theorem recordPut_frame {d : Nat} {b : Bytes} {s : State} (hd : d < 4) (len : b.length = 32) :
    let w := objGet s 0x7100 (2 + d)
    let u := recordPut d b s
    u.counting.samples = s.counting.samples ∧ objGet u 0x7100 (2 + d) = (w + 1) % 2 ^ 32 ∧
      objGet u 0x7100 0xC = objGet s 0x7100 0xC + 1 ∧
      portGet u (0x180000 + 0x20000 * d + 32 * (w % 4096)) 32 =
        b.take 23 ++ leBytes 1 (leAt b 23 1 + (if s.counting.dropped.getD d false then 2 else 0)) ++ b.drop 24 ∧
      u = { s with objs := u.objs, counting := u.counting, pmem := u.pmem } := by
  intro w u
  have at_ : 0x180000 + 0x20000 * d + 32 * (w % 4096) = sampleBuffer d + 32 * (w % 4096) := rfl
  have key : objKey 0x7100 (2 + d) ≠ objKey 0x7100 0xC := objKey_ne_of_field (by omega)
  refine ⟨?_, ?_, ?_, ?_, rfl⟩
  · rw [show u.counting = _ from counting_bump ..]
    rfl
  · rw [show objGet u 0x7100 (2 + d) = _ from objGet_bump_ne _ _ key, objGet_objSet_same]
  · rw [show objGet u 0x7100 0xC = _ from objGet_bump_same .., objGet_objSet_ne _ _ key.symm]
    exact congrArg (· + 1) (objGet_of_objs rfl rfl _ _)
  · rw [at_, ← flagged_eq len]
    have long : (flagged b (s.counting.dropped.getD d false)).length = 32 := by
      rw [flagged_eq len]
      simp [leBytes_length, len]
    refine (portGet_of_pmem (s := portPut _ _ s) rfl _ _).trans ?_
    exact long ▸ portGet_portPut _ _ s

/-- A sample leaves those that wait for their record. -/
def sampled (net : Net) (l : List Sample) (s : State) : State :=
  { s with net := net, counting := { s.counting with samples := l } }

theorem arrived_crossed (d act n : Nat) (items : List Output) (s : State) :
    (crossed d act n items s).net.arrived = s.net.arrived ++ items := rfl

theorem crossed_only (d act n : Nat) (items : List Output) (s : State) :
    crossed d act n items s = { s with net := (crossed d act n items s).net } := rfl

/-- A record that may go reaches its buffer in the step in which it sets out. -/
theorem takeSamples_inject {d n : Nat} {x : Sample} {l : List Sample} {s : State} (go : mayGo s d 6)
    (none : s.net.arrived = []) : ∃ net, takeSamples (inject d 6 1 [.sampleIn d (sampleBytes x n)] (sampled s.net l s)) =
      putSample d (sampleBytes x n) (sampled net l s) := by
  have go' : mayGo (sampled s.net l s) d 6 := (mayGo_of_same rfl (fun _ _ _ => objGet_of_objs rfl rfl _ _) rfl rfl).mpr go
  have one : (crossed d 6 1 [.sampleIn d (sampleBytes x n)] (sampled s.net l s)).net.arrived =
      [.sampleIn d (sampleBytes x n)] := (arrived_crossed ..).trans (by rw [show (sampled s.net l s).net.arrived = [] from none]; rfl)
  rw [inject_of_crosses (List.cons_ne_nil _ _) go' (by simp [crosses]), takeSamples_of_one one]
  rw [crossed_only]
  exact ⟨_, congrArg (putSample d (sampleBytes x n)) rfl⟩

/-- A record that must wait joins those waiting at its die. -/
theorem takeSamples_inject_waits {d : Nat} {b : Bytes} {l : List Sample} {s : State} (wait : mustWait s d 6)
    (none : s.net.arrived = []) :
    let s' := takeSamples (inject d 6 1 [.sampleIn d b] (sampled s.net l s))
    s'.counting.samples = l ∧ OnlySent s s' ∧ objGet s' 0x4000 0x12 = objGet s 0x4000 0x12 + 1 ∧
      s'.net.waiting = s.net.waiting.set (3 * d + 2) (s.net.waiting.getD (3 * d + 2) [] ++
        [{ act := 6, flits := 1, items := [.sampleIn d b] }]) := by
  have wait' : mustWait (sampled s.net l s) d 6 :=
    (mustWait_of_same rfl (fun _ _ _ => objGet_of_objs rfl rfl _ _) rfl rfl).mpr wait
  obtain ⟨⟨only, net⟩, counts⟩ := waits_inject (n := 1) (List.cons_ne_nil (Output.sampleIn d b) []) wait'
  have kept : (inject d 6 1 [.sampleIn d b] (sampled s.net l s)).counting.samples = l := by
    rw [inject_of_mustWait (List.cons_ne_nil _ _) wait', countModule, samples_countEvent, counting_bump]
    rfl
  have still : (inject d 6 1 [.sampleIn d b] (sampled s.net l s)).net.arrived = [] := by rw [net]; exact none
  intro s'
  have same : s' = inject d 6 1 [.sampleIn d b] (sampled s.net l s) := takeSamples_of_none still
  rw [same]
  refine ⟨kept, ?_, counts.trans ?_, congrArg Net.waiting net⟩
  · rw [OnlySent] at only ⊢
    rw [only]
    rfl
  · exact congrArg (· + 1) (objGet_of_objs rfl rfl _ _)

theorem objGet_sampled (net : Net) (l : List Sample) (s : State) (i j : Nat) : objGet (sampled net l s) i j = objGet s i j :=
  objGet_of_objs rfl rfl _ _

theorem unreadIn_sampled (net : Net) (l : List Sample) (s : State) (d : Nat) :
    unreadIn d (sampled net l s) = idxAhead (objGet s 0x7100 (6 + d)) (objGet s 0x7100 (2 + d)) := by
  rw [unreadIn, objGet_sampled, objGet_sampled]

theorem dropped_only {net : Net} {l : List Sample} {s r : State}
    (h : r = { sampled net l s with objs := r.objs, counting := r.counting }) :
    r = { s with objs := r.objs, net := r.net, counting := r.counting } := by
  have still : r.net = net := by rw [h]; rfl
  rw [still]
  exact h

/-- A record written has changed nothing but its buffer and what shows it. -/
def OnlyRecord (s t : State) : Prop :=
  t = { s with objs := t.objs, net := t.net, counting := t.counting, pmem := t.pmem, pendVec := t.pendVec, out := t.out }

theorem OnlyRecord.of_sampled {net : Net} {l : List Sample} {s r : State}
    (h : r = { sampled net l s with objs := r.objs, counting := r.counting, pmem := r.pmem }) : OnlyRecord s r := by
  unfold OnlyRecord
  rw [h]
  rfl

theorem OnlyRecord.raiseVector {s r : State} (v : Nat) (h : OnlyRecord s r) : OnlyRecord s (raiseVector v r) := by
  unfold Machine.raiseVector
  split
  · unfold OnlyRecord at h ⊢
    rw [h]
  · unfold OnlyRecord at h ⊢
    rw [h]
    rfl

/-- Settles O60, by the raise of a selector's vector and the path of a sample's record to the buffer of its die. -/
theorem countersSnapshotsAndSamples : Obligations.CountersSnapshotsAndSamples := by
  unfold Obligations.CountersSnapshotsAndSamples
  refine ⟨snapshotDone_frame, fun k s below => selectorOverflow_below below, selectorOverflow_frame,
    fun t n s none => sampleRecord_of_none none, ?_⟩
  intro t n x xs ys s at_ own oldest arrived d w unread lost b
  rw [sampleRecord_of_oldest at_ own oldest]
  have hd : d < 4 := (dieOf t.val).isLt
  refine ⟨fun go full => ?full, fun go room => ?room, fun wait => ⟨_, rfl, takeSamples_inject_waits wait arrived⟩⟩
  case full =>
    obtain ⟨net, put⟩ := takeSamples_inject (n := n) (x := x) (l := xs ++ ys) go arrived
    obtain ⟨kept, counts, only⟩ := putSample_full (b := b) (s := sampled net (xs ++ ys) s)
      (by rw [unreadIn_sampled]; exact full)
    rw [objGet_sampled] at counts
    refine ⟨_, congrArg Host.Outcome.next put, ?_⟩
    change objGet (putSample d b (sampled net (xs ++ ys) s)) 0x7100 0xB = _ at counts
    generalize putSample d b (sampled net (xs ++ ys) s) = u at kept counts only ⊢
    exact ⟨kept, counts, dropped_only only⟩
  case room =>
    obtain ⟨net, put⟩ := takeSamples_inject (n := n) (x := x) (l := xs ++ ys) go arrived
    obtain ⟨kept, index, counts, bytes, only⟩ :=
      recordPut_frame (s := sampled net (xs ++ ys) s) hd (sampleBytes_length x n)
    have eq := put.trans (putSample_room (s := sampled net (xs ++ ys) s) (by rw [unreadIn_sampled]; exact room))
    rw [unreadIn_sampled, objGet_sampled] at eq
    rw [objGet_sampled] at index counts bytes
    refine ⟨_, congrArg Host.Outcome.next eq, ?_⟩
    have record : OnlyRecord s (recordPut d b (sampled net (xs ++ ys) s)) := OnlyRecord.of_sampled only
    generalize recordPut d b (sampled net (xs ++ ys) s) = r at kept index counts bytes record only ⊢
    split
    case isFalse more => exact ⟨kept, index, counts, bytes, record, fun e => absurd e more⟩
    case isTrue =>
      have raised := raiseVector_only 16 r
      have masked : r.masked = s.masked := by rw [only]; rfl
      refine ⟨?_, (objGet_raiseVector ..).trans index, (objGet_raiseVector ..).trans counts,
        (portGet_of_pmem (pmem_raiseVector 16 r) _ _).trans bytes, record.raiseVector 16, fun _ open_ => ?_⟩
      · rw [raised]
        exact kept
      · rw [(raiseVector_shows 16 (by decide) r).1 (masked ▸ open_)]
        exact List.mem_append_right _ List.mem_cons_self

end Sys2Proof.Machine
end

section
/-! SUPPORT. Power windows, the throttle request, power emergencies (R442, R48). -/

namespace Sys2Proof.Machine

open Sys2Proof Sys2Proof.Laws

/-! ## The words of the power controller -/

theorem sendWord_pace (reason : BitVec 8) (ocls : BitVec 4) (oidx arg : BitVec 10) (pick stamp : Nat) (s : State) :
    sendWord .pace reason ocls oidx arg pick stamp s =
      takePace (ownWord .pace reason ocls oidx arg pick stamp s) pick
        (wordSent .pace (ownWord .pace reason ocls oidx arg pick stamp s) s) := rfl

/-- The state whose PACE is counted. -/
def paceCounted (s : State) : State := bump 0x2000 0xC 1 { s with power := { s.power with lastPace := some s.sp } }

/-- The PACE of a changed throttle request. -/
def paceWord (v : Nat) (s : State) : ControlWord :=
  ownWord .pace 0 0 0 (BitVec.ofNat 10 v) (s.sp + horizon s + 1) s.sp (paceCounted s)

theorem sendPace_eq (v : Nat) (s : State) : sendPace v s = takePace (paceWord v s) (s.sp + horizon s + 1)
    (wordSent .pace (paceWord v s) (paceCounted s)) := sendWord_pace ..

theorem fields_paceCounted (s : State) : (paceCounted s).power = { s.power with lastPace := some s.sp } ∧
    (paceCounted s).mem = s.mem ∧ (paceCounted s).hold = s.hold := ⟨rfl, rfl, rfl⟩

theorem paces_countOwn (k : CwKind) (s : State) : (countOwn k s).hold.paces = s.hold.paces := rfl

theorem fields_countOwn (k : CwKind) (s : State) : (countOwn k s).power = s.power ∧ (countOwn k s).mem = s.mem := ⟨rfl, rfl⟩

/-- A throttle request sent is a pace that waits, and is counted. -/
theorem sendPace_frame (v : Nat) (s : State) :
    (sendPace v s).power = { s.power with lastPace := some s.sp } ∧
      objGet (sendPace v s) 0x2000 0xC = objGet s 0x2000 0xC + 1 ∧ (sendPace v s).mem = s.mem ∧
      (sendPace v s).hold.paces = s.hold.paces ++
        [{ effect := s.sp + horizon s + 1, sender := some (ownCoord s), value := v % 1024 }] := by
  have sent := sent_wordSent .pace (paceWord v s) (paceCounted s)
  have own : ownCoord (paceCounted s) = ownCoord s :=
    ownCoord_of_entry ((objGet_bump_ne _ _ (by decide)).trans (objGet_of_objs rfl rfl _ _))
  obtain ⟨power, mem, hold⟩ := fields_paceCounted s
  obtain ⟨power', mem'⟩ := fields_countOwn .pace (paceCounted s)
  rw [sendPace_eq]
  refine ⟨?power, ?entry, ?rows, ?paces⟩
  case power => exact (sent.power.trans power').trans power
  case entry =>
    refine (objGet_of_objs rfl rfl _ _).trans ((objGet_wordSent ⟨by decide, by decide⟩ _ _ _).trans ?_)
    exact (objGet_bump_same ..).trans (congrArg (· + 1) (objGet_of_objs rfl rfl _ _))
  case rows => exact (sent.mem.trans mem').trans mem
  case paces =>
    show (wordSent .pace (paceWord v s) (paceCounted s)).hold.paces ++ _ = _
    rw [sent.hold, paces_countOwn, hold]
    refine congrArg (s.hold.paces ++ [·]) ?_
    rw [← own, show (paceWord v s).arg.toNat = v % 1024 from BitVec.toNat_ofNat v 10]
    rfl

/-! ## Power windows -/

/-- The energy of a power window added. -/
def metered (w : Nat) (s : State) : State :=
  { s with power := { s.power with energy := s.power.energy + w * objGet s 0x2000 5 } }

theorem objGet_metered (w : Nat) (s : State) (i j : Nat) : objGet (metered w s) i j = objGet s i j :=
  objGet_of_objs rfl rfl _ _

theorem ownRequest_of_hold {s u : State} (hold : u.hold = s.hold) (own : ownCoord u = ownCoord s) :
    ownRequest u = ownRequest s := by
  unfold ownRequest
  rw [hold, own]

theorem ownCoord_metered (w : Nat) (s : State) : ownCoord (metered w s) = ownCoord s :=
  ownCoord_of_entry (objGet_metered ..)

/-- Whether the throttle request may move: a job runs unheld with no safe stop, and 16 picks have passed. -/
def mayThrottle (s : State) : Prop := holdLive s = true ∧ s.started = true ∧ s.hold.held = false ∧ paceFree s = true

theorem mayThrottle_iff (s : State) : ¬ (!holdLive s || !s.started || s.hold.held || !paceFree s) = true ↔ mayThrottle s := by
  unfold mayThrottle
  cases holdLive s <;> cases s.started <;> cases s.hold.held <;> cases paceFree s <;> decide

theorem powerWindow_quiet {w : Nat} {s : State} (rest : ¬ mayThrottle s) : powerWindow w s = metered w s :=
  if_pos (Classical.byContradiction fun c => rest ((mayThrottle_iff s).mp c))

/-- What a power window does where the request may move. -/
theorem powerWindow_eq {w : Nat} {s : State} (runs : mayThrottle s) : powerWindow w s =
    if s.power.hot = true ∨ objGet s 0x2000 3 < w then
      (if stepUp s (ownRequest s) = ownRequest s then metered w s else sendPace (stepUp s (ownRequest s)) (metered w s))
    else if w + objGet s 0x2000 4 < objGet s 0x2000 3 ∧ ownRequest s ≠ 0 then
      sendPace (stepDown s (ownRequest s)) (metered w s)
    else metered w s := by
  have eq : powerWindow w s =
      if (metered w s).power.hot || decide (objGet (metered w s) 0x2000 3 < w) then
        (if stepUp (metered w s) (ownRequest (metered w s)) = ownRequest (metered w s) then metered w s
          else sendPace (stepUp (metered w s) (ownRequest (metered w s))) (metered w s))
      else if decide (w + objGet (metered w s) 0x2000 4 < objGet (metered w s) 0x2000 3) && ownRequest (metered w s) != 0 then
        sendPace (stepDown (metered w s) (ownRequest (metered w s))) (metered w s)
      else metered w s := if_neg ((mayThrottle_iff s).mpr runs)
  have request : ownRequest (metered w s) = ownRequest s := ownRequest_of_hold rfl (ownCoord_metered w s)
  have up : stepUp (metered w s) (ownRequest s) = stepUp s (ownRequest s) := by
    unfold stepUp paceNow
    rw [objGet_metered]
  have down : stepDown (metered w s) (ownRequest s) = stepDown s (ownRequest s) := rfl
  rw [eq, request, objGet_metered, objGet_metered, up, down, show (metered w s).power.hot = s.power.hot from rfl]
  simp only [Bool.or_eq_true, Bool.and_eq_true, decide_eq_true_eq, bne_iff_ne]

/-- A request that moves is sent, and the energy is added. -/
theorem powerWindow_sends {w v : Nat} {s : State} (h : powerWindow w s = sendPace v (metered w s)) :
    ∃ s', exec (.powerWindow w) s = .next s' ∧ s'.power.energy = s.power.energy + w * objGet s 0x2000 5 ∧
      s'.power.lastPace = some s.sp ∧ objGet s' 0x2000 0xC = objGet s 0x2000 0xC + 1 ∧ s'.mem = s.mem ∧
      s'.hold.paces = s.hold.paces ++ [{
        effect := s.sp + horizon s + 1, sender := some (ownCoord s), value := v % 1024 }] := by
  obtain ⟨power, counts, mem, paces⟩ := sendPace_frame v (metered w s)
  rw [objGet_metered] at counts
  rw [horizon, objGet_metered, ownCoord_metered] at paces
  exact ⟨_, congrArg Host.Outcome.next h, by rw [power]; rfl, by rw [power]; rfl, counts, mem, paces⟩

/-- What a power window does. -/
theorem powerWindow_frame (w : Nat) (s : State) :
    let r := ownRequest s
    let runs := holdLive s = true ∧ s.started = true ∧ s.hold.held = false ∧ paceFree s = true
    let limit := objGet s 0x2000 3
    let hot := s.power.hot = true ∨ limit < w
    let up := min Config.maxPace (if r = 0 then paceNow s + 1 else r + 1)
    let down := if r - 1 ≤ Config.minPace s.ident.grade then 0 else r - 1
    let energy := s.power.energy + w * objGet s 0x2000 5
    let quiet := exec (.powerWindow w) s = .next { s with power := { s.power with energy := energy } }
    let sends := fun (v : Nat) => ∃ s', exec (.powerWindow w) s = .next s' ∧ s'.power.energy = energy ∧
      s'.power.lastPace = some s.sp ∧ objGet s' 0x2000 0xC = objGet s 0x2000 0xC + 1 ∧ s'.mem = s.mem ∧
      s'.hold.paces = s.hold.paces ++ [{
        effect := s.sp + horizon s + 1, sender := some (ownCoord s), value := v % 1024 }]
    (¬ runs → quiet) ∧
    (runs → hot → up = r → quiet) ∧
    (runs → hot → up ≠ r → sends up) ∧
    (runs → ¬ hot → limit ≤ w + objGet s 0x2000 4 ∨ r = 0 → quiet) ∧
    (runs → ¬ hot → w + objGet s 0x2000 4 < limit → r ≠ 0 → sends down) := by
  intro r runs limit hot up down energy quiet sends
  have eq := fun h : runs => powerWindow_eq (w := w) (s := s) h
  refine ⟨fun rest => congrArg Host.Outcome.next (powerWindow_quiet rest), fun h hot same => ?_, fun h hot moves => ?_,
    fun h cool stays => ?_, fun h cool below moves => ?_⟩
  · exact congrArg Host.Outcome.next ((eq h).trans ((if_pos hot).trans (if_pos same)))
  · exact powerWindow_sends ((eq h).trans ((if_pos hot).trans (if_neg moves)))
  · refine congrArg Host.Outcome.next ((eq h).trans ((if_neg cool).trans (if_neg fun ⟨below, moves⟩ => ?_)))
    exact stays.elim (Nat.not_le.mpr below) moves
  · exact powerWindow_sends ((eq h).trans ((if_neg cool).trans (if_pos ⟨below, moves⟩)))

/-! ## Power emergencies -/

/-- Whether a power emergency may ask for a hold. -/
def mayRaise (s : State) : Prop :=
  holdLive s = true ∧ s.started = true ∧ s.hold.held = false ∧ .power ∉ s.hold.awaited

theorem mayRaise_iff (s : State) :
    ¬ (!holdLive s || !s.started || s.hold.held || s.hold.awaited.contains .power) = true ↔ mayRaise s := by
  unfold mayRaise
  rw [← List.contains_iff_mem]
  cases holdLive s <;> cases s.started <;> cases s.hold.held <;> cases s.hold.awaited.contains .power <;> decide

theorem mayHold_of_mayRaise {s : State} (h : mayRaise s) : mayHold s = true := by
  obtain ⟨live, -, unheld, -⟩ := h
  rw [holdLive, Bool.and_eq_true] at live
  rw [mayHold, live.1, unheld, live.2]
  rfl

/-- The argument of an emergency HOLD. -/
def emergencyArg (s : State) : Nat := min Config.maxPace (max (ownRequest s) (paceNow s) + 8)

/-- The state in which an emergency is awaited and counted. -/
def emergency (s : State) : State :=
  bump 0x2000 0xD 1 { s with
    hold := { s.hold with awaited := s.hold.awaited ++ [.power] }
    power := { s.power with lastEmerg := some (s.sp + 1 + horizon s) } }

/-- The request of an emergency. -/
def emergencyRequest (s : State) : HoldReq :=
  { sp := s.sp, reason := 5, ocls := 5, oidx := 0, count := emergencyArg s }

/-- The powerShown power of an emergency average shown. -/
def powerShown (w : Nat) (s : State) : State := objSet 0x2000 2 w s

theorem objGet_powerShown {i j : Nat} (w : Nat) (s : State) (ne : objKey i j ≠ objKey 0x2000 2) :
    objGet (powerShown w s) i j = objGet s i j := objGet_objSet_ne _ _ ne

theorem powerEmergency_above {w : Nat} {s : State} (above : objGet s 0x1001 7 < w) : powerEmergency w s =
    if !holdLive s || !s.started || s.hold.held || s.hold.awaited.contains .power then powerShown w s
    else raiseHold 0xC80E s.tick 0 (emergencyRequest (powerShown w s)) (emergency (powerShown w s)) := by
  have above' : objGet (objSet 0x2000 2 w s) 0x1001 7 < w := by rw [objGet_objSet_ne _ _ (by decide)]; exact above
  exact if_pos above'

theorem powerEmergency_below {w : Nat} {s : State} (below : w < objGet s 0x1001 7) :
    powerEmergency w s = tryRelease (stopAwaiting .power (powerShown w s)) := by
  have below' : w < objGet (objSet 0x2000 2 w s) 0x1001 7 := by rw [objGet_objSet_ne _ _ (by decide)]; exact below
  exact (if_neg (Nat.lt_asymm below')).trans (if_pos below')

theorem powerEmergency_at {w : Nat} {s : State} (same : w = objGet s 0x1001 7) : powerEmergency w s = powerShown w s := by
  have same' : objGet (objSet 0x2000 2 w s) 0x1001 7 = w := by rw [objGet_objSet_ne _ _ (by decide)]; exact same.symm
  exact (if_neg (Nat.not_lt.mpr (Nat.le_of_eq same'.symm))).trans (if_neg (Nat.not_lt.mpr (Nat.le_of_eq same')))

theorem raiseHold_of_may {e now d : Nat} {r : HoldReq} {s : State} (may : mayHold s = true) :
    raiseHold e now d r s = inject d 1 1 [.holdRequest r] (countEvent e 1 now s) := by
  have may' : mayHold (countEvent e 1 now s) = true := by
    have sent := sent_countEvent e 1 now (Sent.refl s)
    rw [mayHold, sent.job, sent.hold, sent.integrity]
    exact may
  exact (if_pos may).trans (if_pos may')

/-- A hold request that may go is driven out at once. -/
theorem holdRequest_inject {d : Nat} {r : HoldReq} {s : State} (go : mayGo s d 1) :
    .holdRequest r ∈ (inject d 1 1 [.holdRequest r] s).out := by
  rw [inject_of_mayGo (List.cons_ne_nil _ _) go]
  exact List.mem_append_right _ List.mem_cons_self

/-- What an emergency leaves once its request has been raised. -/
theorem emergency_frame {s : State} (may : mayRaise s) :
    let s' := raiseHold 0xC80E s.tick 0 (emergencyRequest s) (emergency s)
    objGet s' 0x2000 2 = objGet s 0x2000 2 ∧ s'.hold = { s.hold with awaited := s.hold.awaited ++ [.power] } ∧
      s'.power.lastEmerg = some (s.sp + 1 + horizon s) ∧ objGet s' 0x2000 0xD = objGet s 0x2000 0xD + 1 ∧
      (mayGo s 0 1 → .holdRequest (emergencyRequest s) ∈ s'.out) := by
  have eq := raiseHold_of_may (e := 0xC80E) (now := s.tick) (d := 0) (r := emergencyRequest s)
    (s := emergency s) (mayHold_of_mayRaise may :)
  have counted : Sent (emergency s) (inject 0 1 1 [.holdRequest (emergencyRequest s)] (countEvent 0xC80E 1 s.tick (emergency s))) :=
    sent_inject _ _ _ _ (sent_countEvent _ _ _ (Sent.refl _))
  have entries : ∀ i j, objKey i j ≠ objKey 0x2000 0xD →
      objGet (countEvent 0xC80E 1 s.tick (emergency s)) i j = objGet s i j := fun i j ne => by
    rw [objGet_countEvent]
    exact (objGet_bump_ne _ _ ne).trans (objGet_of_objs rfl rfl _ _)
  have go : mayGo (countEvent 0xC80E 1 s.tick (emergency s)) 0 1 ↔ mayGo s 0 1 :=
    mayGo_of_same rfl (fun j _ _ => entries _ _ (by rw [objKey, objKey]; omega)) rfl rfl
  intro s'
  rw [show s' = _ from eq]
  refine ⟨?_, counted.hold, congrArg Power.lastEmerg counted.power, ?_, fun free => holdRequest_inject (go.mpr free)⟩
  · rw [objGet_inject ⟨by decide, by decide⟩]
    exact entries _ _ (by decide)
  · rw [objGet_inject ⟨by decide, by decide⟩, objGet_countEvent]
    exact (objGet_bump_same ..).trans (congrArg (· + 1) (objGet_of_objs rfl rfl _ _))

/-- A RELEASE sent, or none, leaves rows, what is awaited and entries as they are. -/
theorem tryRelease_frame (s : State) : (tryRelease s).mem = s.mem ∧ (tryRelease s).hold.awaited = s.hold.awaited ∧
    ∀ i j, Uncounted i j → objGet (tryRelease s) i j = objGet s i j := by
  unfold tryRelease
  split
  case isFalse => exact ⟨rfl, rfl, fun _ _ _ => rfl⟩
  case isTrue =>
    split
    case h_1 => exact ⟨rfl, rfl, fun _ _ _ => rfl⟩
    case h_2 st _ =>
      have sent := sent_wordSent .release
        (ownWord .release 0 0 0 0 st s.tp { s with hold := { s.hold with sent := true } })
        { s with hold := { s.hold with sent := true } }
      rw [sendWord_release]
      refine ⟨sent.mem, (congrArg Hold.awaited sent.hold :), fun i j h => ?_⟩
      exact (objGet_of_objs rfl rfl _ _).trans ((objGet_wordSent h _ _ _).trans (objGet_of_objs rfl rfl _ _))

/-- What a power emergency does. -/
theorem powerEmergency_frame (w : Nat) (s : State) :
    let rated := objGet s 0x1001 7
    let free := holdLive s = true ∧ s.started = true ∧ s.hold.held = false ∧ .power ∉ s.hold.awaited
    let raised := min Config.maxPace (max (ownRequest s) (paceNow s) + 8)
    let request : HoldReq := { sp := s.sp, reason := 5, ocls := 5, oidx := 0, count := raised }
    (rated < w → free → ∃ s', exec (.powerEmergency w) s = .next s' ∧ objGet s' 0x2000 2 = w ∧
        s'.hold = { s.hold with awaited := s.hold.awaited ++ [.power] } ∧
        s'.power.lastEmerg = some (s.sp + 1 + horizon s) ∧ objGet s' 0x2000 0xD = objGet s 0x2000 0xD + 1 ∧
        (mayGo s 0 1 → .holdRequest request ∈ s'.out)) ∧
    (w = rated ∨ rated < w ∧ ¬ free → ∃ s', exec (.powerEmergency w) s = .next s' ∧ s' = { s with objs := s'.objs } ∧
      objGet s' 0x2000 2 = w) ∧
    (w < rated → ∃ s', exec (.powerEmergency w) s = .next s' ∧ objGet s' 0x2000 2 = w ∧
      .power ∉ s'.hold.awaited ∧ s'.mem = s.mem) := by
  intro rated free raised request
  have shown : objGet (powerShown w s) 0x2000 2 = w := objGet_objSet_same ..
  refine ⟨fun above may => ?_, fun still => ?_, fun below => ?_⟩
  · have may' : mayRaise (powerShown w s) := may
    obtain ⟨power, hold, last, counts, out⟩ := emergency_frame may'
    have eq := (powerEmergency_above above).trans (if_neg ((mayRaise_iff s).mpr may))
    have same : emergencyRequest (powerShown w s) = request := by
      have own : ownCoord (powerShown w s) = ownCoord s := ownCoord_of_entry (objGet_powerShown _ _ (by decide))
      have arg : emergencyArg (powerShown w s) = raised := by
        rw [emergencyArg, ownRequest_of_hold (s := s) (u := powerShown w s) rfl own, paceNow, objGet_powerShown _ _ (by decide)]
        rfl
      rw [emergencyRequest, arg]
      rfl
    rw [objGet_powerShown _ _ (by decide)] at counts
    rw [horizon, objGet_powerShown _ _ (by decide)] at last
    refine ⟨_, congrArg Host.Outcome.next eq, power.trans shown, hold, last, counts, fun go => ?_⟩
    rw [← same]
    have same_go : mayGo (powerShown w s) 0 1 ↔ mayGo s 0 1 :=
      mayGo_of_same rfl (fun j _ _ => objGet_powerShown _ _ (by rw [objKey, objKey]; omega)) rfl rfl
    exact out (same_go.mpr go)
  · have eq : powerEmergency w s = powerShown w s := by
      obtain same | ⟨above, busy⟩ := still
      · exact powerEmergency_at same
      · refine (powerEmergency_above above).trans (if_pos ?_)
        exact Classical.byContradiction fun c => busy ((mayRaise_iff s).mp c)
    exact ⟨_, congrArg Host.Outcome.next eq, rfl, shown⟩
  · obtain ⟨mem, awaited, entries⟩ := tryRelease_frame (stopAwaiting .power (powerShown w s))
    refine ⟨_, congrArg Host.Outcome.next (powerEmergency_below below), ?_, ?_, mem⟩
    · exact (entries _ _ ⟨by decide, by decide⟩).trans ((objGet_of_objs rfl rfl _ _).trans shown)
    · rw [awaited]
      intro h
      simpa using (List.mem_filter.mp h).2

end Sys2Proof.Machine
end

section
/-! SUPPORT. Junction and coolant readings, the input, the references (R437 to R444, R452). -/

namespace Sys2Proof.Machine

open Sys2Proof Sys2Proof.Laws

/-! ## Readings and throttling -/

/-- A number of 16 bits in two's complement read back. -/
theorem signed_unsigned {v : Int} (low : -32768 ≤ v) (high : v < 32768) : signed 16 (unsigned 16 v) = v := by
  have whole : (2 : Nat) ^ 16 = 65536 := rfl
  have half : (2 : Nat) ^ (16 - 1) = 32768 := rfl
  unfold signed unsigned
  rw [whole, half]
  split <;> omega

theorem die_power (detail : Nat) : (unitSite 5 0 0 (detail % 2 ^ 18)).die.val = 0 := die_unitSite (by decide)

theorem recorded_powerFault {s : State} (units : s.integrity.dies.length = 4) (code detail : Nat) :
    Recorded s (powerFault code detail s) 0 code := by
  have h := recorded_raiseFault units code (unitSite 5 0 0 (detail % 2 ^ 18))
  rwa [die_power] at h

theorem aside_powerFault (code detail : Nat) (s : State) : Aside s (powerFault code detail s) :=
  aside_raiseFault _ _ (Aside.refl s)

theorem objGet_powerFault (code detail : Nat) (s : State) (j : Nat) (h : j < 0x11) :
    objGet (powerFault code detail s) 0x2000 j = objGet s 0x2000 j :=
  objGet_raiseFault ⟨by rw [objKey]; omega, by rw [objKey, objKey]; omega⟩ (by rw [objKey, objKey]; omega) _ _ _

/-- Whether a state is hot, from its readings. -/
def isHot (s : State) : Bool :=
  coolantBad s || decide (10 * (objGet s 0x2000 6 : Int) ≤ signed 16 (objGet s 0x2000 7)) ||
    s.power.hot && decide (10 * (objGet s 0x2000 6 : Int) - 30 < signed 16 (objGet s 0x2000 7))

theorem fields_judgeHeat (s : State) : (judgeHeat s).power = { s.power with hot := isHot s } ∧
    (judgeHeat s).integrity = s.integrity ∧ (judgeHeat s).mem = s.mem := ⟨rfl, rfl, rfl⟩

theorem objGet_judgeHeat (s : State) (i j : Nat) : objGet (judgeHeat s) i j = objGet s i j := objGet_of_objs rfl rfl _ _

theorem coolantBad_of_entries {s u : State} (e : ∀ j, 8 ≤ j → j ≤ 10 → objGet u 0x2000 j = objGet s 0x2000 j)
    (power : u.power.coolant = s.power.coolant) : coolantBad u = coolantBad s := by
  unfold coolantBad
  dsimp only
  rw [power, e 8 (by decide) (by decide), e 9 (by decide) (by decide), e 0xA (by decide) (by decide)]

/-! ## Junctions -/

/-- The junction reading shown and judged. -/
def readJunction (d : Int) (s : State) : State := judgeHeat (objSet 0x2000 7 (unsigned 16 d) s)

theorem objGet_readJunction {i j : Nat} (d : Int) (s : State) (ne : objKey i j ≠ objKey 0x2000 7) :
    objGet (readJunction d s) i j = objGet s i j :=
  (objGet_judgeHeat ..).trans (objGet_objSet_ne _ _ ne)

theorem shown_readJunction {d : Int} (s : State) (low : -32768 ≤ d) (high : d < 32768) :
    signed 16 (objGet (readJunction d s) 0x2000 7) = d := by
  rw [readJunction, objGet_judgeHeat, objGet_objSet_same]
  exact signed_unsigned low high

theorem isHot_junction {d : Int} (s : State) (low : -32768 ≤ d) (high : d < 32768) :
    isHot (objSet 0x2000 7 (unsigned 16 d) s) = (coolantBad s || decide ((objGet s 0x2000 6 : Int) * 10 ≤ d) ||
      s.power.hot && decide ((objGet s 0x2000 6 : Int) * 10 - 30 < d)) := by
  have coolant : coolantBad (objSet 0x2000 7 (unsigned 16 d) s) = coolantBad s :=
    coolantBad_of_entries (fun j _ _ => objGet_objSet_ne _ _ (by rw [objKey, objKey]; omega)) rfl
  unfold isHot
  rw [coolant, objGet_objSet_ne _ _ (by decide), objGet_objSet_same, signed_unsigned low high, Int.mul_comm]
  rfl

/-- The state in which the rails are off for overtemperature. -/
def overheated (s : State) : State := objSet 0x2200 1 2 (railsOff (powerFault 0x1030 0 s))

theorem overheated_frame {s : State} (units : s.integrity.dies.length = 4) :
    Recorded s (overheated s) 0 0x1030 ∧ (overheated s).power = { s.power with rails := false } ∧
      startState (overheated s) = 2 ∧ objGet (overheated s) 0x2000 0xE = objGet s 0x2000 0xE % 4 ∧
      objGet (overheated s) 0x2000 7 = objGet s 0x2000 7 := by
  have power := (aside_powerFault 0x1030 0 s).power
  refine ⟨recorded_powerFault units 0x1030 0, ?_, objGet_objSet_same .., ?_, ?_⟩
  · show { (powerFault 0x1030 0 s).power with rails := false } = _
    rw [power]
  · refine (objGet_objSet_ne _ _ (by decide)).trans ((objGet_objSet_same ..).trans (congrArg (· % 4) ?_))
    exact objGet_powerFault _ _ _ _ (by decide)
  · refine (objGet_objSet_ne _ _ (by decide)).trans ((objGet_objSet_ne _ _ (by decide)).trans ?_)
    exact (objGet_of_objs rfl rfl _ _).trans (objGet_powerFault _ _ _ _ (by decide))

/-- What a junction reading does. -/
theorem junction_frame (d : Int) (i : Instr) (s : State) (inv : Inv s) (cmd : i = .throttleTemp d ∨ i = .overtemp d)
    (low : -32768 ≤ d) (high : d < 32768) :
    let limit := (objGet s 0x2000 6 : Int) * 10
    ∃ s', exec i s = .next s' ∧ signed 16 (objGet s' 0x2000 7) = d ∧
      s'.power.hot = (coolantBad s || decide (limit ≤ d) || s.power.hot && decide (limit - 30 < d)) ∧
      (d < 1050 → s' = { s with objs := s'.objs, power := { s.power with hot := s'.power.hot } }) ∧
      (1050 ≤ d → Recorded s s' 0 0x1030 ∧ s'.power.rails = false ∧ startState s' = 2 ∧
        objGet s' 0x2000 0xE = objGet s 0x2000 0xE % 4) := by
  intro limit
  have step : exec i s = .next (if 1050 ≤ d then overheated (readJunction d s) else readJunction d s) := by
    obtain rfl | rfl := cmd
    · rfl
    · rfl
  have shown := shown_readJunction s low high
  have hot := isHot_junction s low high
  obtain ⟨power, integrity, -⟩ := fields_judgeHeat (objSet 0x2000 7 (unsigned 16 d) s)
  have hot' : (readJunction d s).power.hot = (coolantBad s || decide (limit ≤ d) || s.power.hot && decide (limit - 30 < d)) :=
    (congrArg Power.hot power).trans hot
  by_cases hotter : 1050 ≤ d
  · rw [if_pos hotter] at step
    obtain ⟨fault, rails, state, up, reading⟩ := overheated_frame (s := readJunction d s) inv.dies
    refine ⟨_, step, by rw [reading, shown], by rw [rails]; exact hot', fun less => absurd hotter (Int.not_le.mpr less),
      fun _ => ⟨Recorded.of_integrity fault rfl, by rw [rails], state, ?_⟩⟩
    rw [up, objGet_readJunction _ _ (by decide)]
  · rw [if_neg hotter] at step
    exact ⟨_, step, shown, hot', fun _ => rfl, fun more => absurd more hotter⟩

/-! ## Coolant -/

theorem raiseFault_of_nonStopping {code : Nat} (h : isStopping code = false) (site : FaultSite) (s : State) :
    raiseFault code site s = { s with integrity := { s.integrity with
      dies := s.integrity.dies.set site.die.val (s.integrity.dies.getD site.die.val [] ++ [makeRecord s code site]) } } := by
  unfold raiseFault
  rw [h]
  rfl

/-- The coolant readings shown. -/
def readCoolant (inlet : Int) (flow : Nat) (s : State) : State :=
  objSet 0x2000 8 (unsigned 16 inlet) (objSet 0x2000 9 flow { s with power := { s.power with coolant := true } })

theorem objGet_readCoolant {i j : Nat} (inlet : Int) (flow : Nat) (s : State) (ne8 : objKey i j ≠ objKey 0x2000 8)
    (ne9 : objKey i j ≠ objKey 0x2000 9) : objGet (readCoolant inlet flow s) i j = objGet s i j :=
  (objGet_objSet_ne _ _ ne8).trans ((objGet_objSet_ne _ _ ne9).trans (objGet_of_objs rfl rfl _ _))

theorem shown_readCoolant (inlet : Int) (flow : Nat) (s : State) :
    objGet (readCoolant inlet flow s) 0x2000 8 = unsigned 16 inlet ∧ objGet (readCoolant inlet flow s) 0x2000 9 = flow :=
  ⟨objGet_objSet_same .., (objGet_objSet_ne _ _ (by decide)).trans (objGet_objSet_same ..)⟩

theorem coolantBad_readCoolant {inlet : Int} {flow : Nat} {s : State} (low : -32768 ≤ inlet) (high : inlet < 32768) :
    coolantBad (readCoolant inlet flow s) = true ↔
      bitOf (objGet s 0x2000 0xA) 0 = false ∧ 450 < inlet ∨ bitOf (objGet s 0x2000 0xA) 1 = false ∧ flow < 40 := by
  obtain ⟨e8, e9⟩ := shown_readCoolant inlet flow s
  unfold coolantBad
  dsimp only
  rw [e8, e9, objGet_readCoolant _ _ _ (by decide) (by decide), signed_unsigned low high,
    show (readCoolant inlet flow s).power.coolant = true from rfl]
  simp only [Bool.true_and, Bool.or_eq_true, Bool.and_eq_true, decide_eq_true_eq, Bool.not_eq_true']

/-- What a coolant reading does. -/
theorem coolantRange_frame (inlet : Int) (flow : Nat) (s : State) (inv : Inv s) (low : -32768 ≤ inlet)
    (high : inlet < 32768) :
    let fails := objGet s 0x2000 0xA
    let bad := bitOf fails 0 = false ∧ 450 < inlet ∨ bitOf fails 1 = false ∧ flow < 40
    ∃ s', exec (.coolantRange inlet flow) s = .next s' ∧ objGet s' 0x2000 9 = flow ∧
      signed 16 (objGet s' 0x2000 8) = inlet ∧ (bad → s'.power.hot = true ∧ Recorded s s' 0 0x1031) ∧
      (¬ bad → s'.integrity = s.integrity) ∧ s'.integrity.stopLine = s.integrity.stopLine ∧ s'.mem = s.mem := by
  intro fails bad
  have bad_iff : coolantBad (readCoolant inlet flow s) = true ↔ bad := coolantBad_readCoolant low high
  obtain ⟨e8, e9⟩ := shown_readCoolant inlet flow s
  have step : exec (.coolantRange inlet flow) s = .next (judgeHeat (if coolantBad (readCoolant inlet flow s)
    then powerFault 0x1031 0 (readCoolant inlet flow s) else readCoolant inlet flow s)) := rfl
  by_cases h : bad
  · rw [if_pos (bad_iff.mpr h)] at step
    have fault := recorded_powerFault (s := readCoolant inlet flow s) inv.dies 0x1031 0
    have line : (powerFault 0x1031 0 (readCoolant inlet flow s)).integrity.stopLine = s.integrity.stopLine := by
      rw [powerFault, raiseFault_of_nonStopping (by decide)]
      rfl
    have aside := aside_powerFault 0x1031 0 (readCoolant inlet flow s)
    have entries := fun j (hj : j < 0x11) => objGet_powerFault 0x1031 0 (readCoolant inlet flow s) j hj
    have still : coolantBad (powerFault 0x1031 0 (readCoolant inlet flow s)) = true :=
      (coolantBad_of_entries (fun j _ _ => entries j (by omega)) (by rw [aside.power])).trans (bad_iff.mpr h)
    refine ⟨_, step, ?_, ?_, fun _ => ⟨?_, Recorded.of_integrity fault rfl⟩, fun good => absurd h good, line, aside.mem⟩
    · rw [objGet_judgeHeat, entries 9 (by decide), e9]
    · rw [objGet_judgeHeat, entries 8 (by decide), e8]
      exact signed_unsigned low high
    · show (coolantBad _ || _ || _) = true
      rw [still]
      rfl
  · rw [if_neg (mt bad_iff.mp h)] at step
    refine ⟨_, step, ?_, ?_, fun yes => absurd yes h, fun _ => rfl, rfl, rfl⟩
    · rw [objGet_judgeHeat, e9]
    · rw [objGet_judgeHeat, e8]
      exact signed_unsigned low high

/-- What a failed coolant sensor does. -/
theorem coolantSensor_frame (flow : Bool) (s : State) : ∃ s', exec (.coolantSensor flow) s = .next s' ∧
    objGet s' 0x2000 0xA = (objGet s 0x2000 0xA ||| (if flow then 2 else 1)) ∧
    s' = { s with objs := s'.objs, power := { s.power with hot := s'.power.hot } } :=
  ⟨_, rfl, (objGet_judgeHeat ..).trans (objGet_objSet_same ..), rfl⟩

/-! ## The input -/

theorem storeFlash_only (x : Store) (s : State) :
    storeFlash x s = { s with flash := (storeFlash x s).flash, flashOct := (storeFlash x s).flashOct } := by
  unfold storeFlash
  dsimp only
  split
  case h_1 => rfl
  case h_2 => split <;> rfl

/-- The state after a store in progress has been completed. -/
def storeEnded (s : State) : State := match s.stores with | [] => s | x :: _ => storeFlash x s

theorem storeEnded_only (s : State) :
    storeEnded s = { s with flash := (storeEnded s).flash, flashOct := (storeEnded s).flashOct } := by
  unfold storeEnded
  split
  · rfl
  · exact storeFlash_only ..

/-- The state at a power-down before the store in progress is completed. -/
def inputGone (s : State) : State := bumpKept 0x2000 0xF (powerFault 0x1001 0 s)

theorem powerDown_eq (s : State) : powerDown s = objSet 0x2000 0xE 0 { storeEnded (inputGone s) with
    stores := [], power := { (storeEnded (inputGone s)).power with input := false, rails := false } } := rfl

theorem objGet_bumpKept_same (i j : Nat) (s : State) : objGet (bumpKept i j s) i j = objGet s i j + 1 :=
  (objGet_of_objs rfl rfl _ _).trans (objGet_bump_same ..)

theorem integrity_inputGone (s : State) : (inputGone s).integrity = (powerFault 0x1001 0 s).integrity := rfl

theorem powerDown_frame {s : State} (units : s.integrity.dies.length = 4) :
    Recorded s (powerDown s) 0 0x1001 ∧ (powerDown s).power.input = false ∧ (powerDown s).power.rails = false ∧
      (powerDown s).stores = [] ∧ objGet (powerDown s) 0x2000 0xE = 0 ∧
      objGet (powerDown s) 0x2000 0xF = objGet s 0x2000 0xF + 1 := by
  have only := storeEnded_only (inputGone s)
  have integrity : (storeEnded (inputGone s)).integrity = (powerFault 0x1001 0 s).integrity := by
    rw [only]
    exact integrity_inputGone s
  rw [powerDown_eq]
  refine ⟨?_, rfl, rfl, rfl, objGet_objSet_same .., ?_⟩
  · have fault := recorded_powerFault units 0x1001 0
    unfold Recorded at fault ⊢
    rw [← integrity] at fault
    exact fault
  · refine (objGet_objSet_ne _ _ (by decide)).trans ?_
    have counted : objGet (inputGone s) 0x2000 0xF = objGet s 0x2000 0xF + 1 :=
      (objGet_bumpKept_same ..).trans (congrArg (· + 1) (objGet_powerFault _ _ _ _ (by decide)))
    refine Eq.trans (objGet_of_objs ?_ ?_ _ _) counted
    · show (storeEnded (inputGone s)).objs = _
      rw [only]
    · show (storeEnded (inputGone s)).ident = _
      rw [only]

/-- What readings of the input and an open sense contact do. -/
theorem input_frame (mv : BitVec 32) (s : State) (inv : Inv s) :
    let off := fun (i : Instr) => ∃ s', exec i s = .next s' ∧ Recorded s s' 0 0x1001 ∧ s'.power.input = false ∧
      s'.power.rails = false ∧ s'.stores = [] ∧ objGet s' 0x2000 0xE = 0 ∧
      objGet s' 0x2000 0xF = objGet s 0x2000 0xF + 1
    (s.power.input = false ∨ 40000 ≤ mv.toNat ∧ mv.toNat ≤ 60000 → ∃ s', exec (.inputOutOfRange mv) s = .next s' ∧
      s' = { s with objs := s'.objs } ∧ objGet s' 0x2000 1 = mv.toNat) ∧
    (s.power.input = true → mv.toNat < 40000 ∨ 60000 < mv.toNat → off (.inputOutOfRange mv)) ∧
    (s.power.input = true → off .senseOpen) ∧ (s.power.input = false → exec .senseOpen s = .next s) := by
  intro off
  have step : exec (.inputOutOfRange mv) s = .next
      (if !s.power.input || decide (40000 ≤ mv.toNat) && decide (mv.toNat ≤ 60000) then objSet 0x2000 1 mv.toNat s
        else powerDown (objSet 0x2000 1 mv.toNat s)) := rfl
  have good : (!s.power.input || decide (40000 ≤ mv.toNat) && decide (mv.toNat ≤ 60000)) = true ↔
      s.power.input = false ∨ 40000 ≤ mv.toNat ∧ mv.toNat ≤ 60000 := by
    rw [Bool.or_eq_true, Bool.and_eq_true, decide_eq_true_iff, decide_eq_true_iff, Bool.not_eq_true']
  refine ⟨fun h => ?_, fun on out => ?_, fun on => ?_, fun absent => ?_⟩
  · rw [if_pos (good.mpr h)] at step
    exact ⟨_, step, rfl, objGet_objSet_same ..⟩
  · have bad : ¬ (s.power.input = false ∨ 40000 ≤ mv.toNat ∧ mv.toNat ≤ 60000) := by
      rw [on]
      simp
      omega
    rw [if_neg (mt good.mp bad)] at step
    obtain ⟨fault, input, rails, stores, up, counts⟩ := powerDown_frame (s := objSet 0x2000 1 mv.toNat s) inv.dies
    exact ⟨_, step, Recorded.of_integrity fault rfl, input, rails, stores, up,
      counts.trans (congrArg (· + 1) (objGet_objSet_ne _ _ (by decide)))⟩
  · exact ⟨_, congrArg Host.Outcome.next (if_pos on), powerDown_frame inv.dies⟩
  · exact congrArg Host.Outcome.next (if_neg (by rw [absent]; exact Bool.false_ne_true))

/-! ## References -/

/-- What a change of a reference does. -/
theorem refStateChange_frame (b : Bool) (st : Fin 3) (s : State) :
    let j := if b then 3 else 2
    (objGet s 0x2202 1 = flag b → exec (.refStateChange b st) s = .next s) ∧
    (objGet s 0x2202 1 ≠ flag b → ∃ s', exec (.refStateChange b st) s = .next s' ∧ s' = { s with objs := s'.objs } ∧
      objGet s' 0x2202 j = st.val ∧ objGet s' 0x2202 5 = objGet s 0x2202 5 +
        (if objGet s 0x2202 j = 1 ∧ st.val ≠ 1 then 1 else 0)) := by
  intro j
  have field : j ≠ 5 := by
    show (if b then 3 else 2) ≠ 5
    cases b <;> decide
  have lost : (decide (objGet s 0x2202 j = 1) && st.val != 1) = true ↔ objGet s 0x2202 j = 1 ∧ st.val ≠ 1 := by
    rw [Bool.and_eq_true, decide_eq_true_iff, bne_iff_ne]
  refine ⟨fun h => congrArg Host.Outcome.next (if_pos h), fun h => ?_⟩
  have step : exec (.refStateChange b st) s = .next (objSet 0x2202 j st.val
      (if decide (objGet s 0x2202 j = 1) && st.val != 1 then bump 0x2202 5 1 s else s)) :=
    congrArg Host.Outcome.next (if_neg h)
  refine ⟨_, step, ?_, objGet_objSet_same .., ?_⟩
  · split <;> rfl
  · refine (objGet_objSet_ne _ _ (objKey_ne_of_field field.symm)).trans ?_
    by_cases loss : objGet s 0x2202 j = 1 ∧ st.val ≠ 1
    · rw [if_pos (lost.mpr loss), if_pos loss]
      exact objGet_bump_same ..
    · rw [if_neg (mt lost.mp loss), if_neg loss]
      rfl

end Sys2Proof.Machine
end

section
/-! SUPPORT. Stretched clocks: the cycle in which a tile's clock stands still, clock regions without tiles (R25). -/

namespace Sys2Proof.Machine

open Sys2Proof Sys2Proof.Laws

/-! ## The next cycle in which a tile runs -/

/-- Every cycle passed is one in which the clock stands still. -/
theorem runsAt_passed (stops : List Nat) (k c : Nat) :
    c ≤ runsAt stops k c ∧ (∀ m, c ≤ m → m < runsAt stops k c → m ∈ stops) ∧
      (runsAt stops k c ∈ stops → runsAt stops k c = c + k) := by
  induction k generalizing c with
  | zero => exact ⟨Nat.le_refl c, fun m h less => absurd less (Nat.not_lt.mpr h), fun _ => rfl⟩
  | succ k ih =>
    by_cases at_ : stops.contains c = true
    · have eq : runsAt stops (k + 1) c = runsAt stops k (c + 1) := if_pos at_
      obtain ⟨le, passed, last⟩ := ih (c + 1)
      rw [eq]
      refine ⟨by omega, fun m h less => ?_, fun h => by rw [last h]; omega⟩
      obtain rfl | later := Nat.eq_or_lt_of_le h
      · exact List.contains_iff_mem.mp at_
      · exact passed m later less
    · have eq : runsAt stops (k + 1) c = c := if_neg at_
      rw [eq]
      exact ⟨Nat.le_refl c, fun m h less => absurd less (Nat.not_lt.mpr h), fun h => absurd (List.contains_iff_mem.mpr h) at_⟩

/-- A list without duplicates is no longer than one that holds all it holds. -/
theorem length_le_of_nodup {l m : List Nat} (once : l.Nodup) (all : l ⊆ m) : l.length ≤ m.length := by
  induction l generalizing m with
  | nil => exact Nat.zero_le _
  | cons x l ih =>
    obtain ⟨apart, rest⟩ := List.nodup_cons.mp once
    have here : x ∈ m := all List.mem_cons_self
    have others : l ⊆ m.erase x := fun y hy =>
      (List.mem_erase_of_ne fun same : y = x => apart (same ▸ hy)).mpr (all (List.mem_cons_of_mem x hy))
    have shorter := ih rest others
    have pos := List.length_pos_of_mem here
    rw [List.length_erase_of_mem here] at shorter
    rw [List.length_cons]
    omega

/-- As many cycles as the clock stands still in cannot hide the next one in which it runs. -/
theorem runsAt_not_mem (stops : List Nat) (c : Nat) : runsAt stops stops.length c ∉ stops := by
  intro h
  obtain ⟨-, passed, last⟩ := runsAt_passed stops stops.length c
  have all : List.range' c (stops.length + 1) ⊆ stops := by
    intro m hm
    obtain ⟨low, high⟩ := List.mem_range'_1.mp hm
    rw [last h] at passed h
    obtain less | rfl := Nat.lt_or_eq_of_le (Nat.le_of_lt_succ high)
    · exact passed m low less
    · exact h
  have long := length_le_of_nodup List.nodup_range' all
  rw [List.length_range'] at long
  omega

/-! ## Cycles in which a tile's clock stands still -/

/-- The clock of tile `t` stands still in cycle `n`. -/
def Standing (t n : Nat) (s : State) : Prop := n ∈ (tileAt s t).stops

theorem standing_tileSet {t n u : Nat} {v : Tile} {s : State} (still : ∀ x ∈ (tileAt s u).stops, x ∈ v.stops)
    (h : Standing t n s) : Standing t n (tileSet u v s) := by
  unfold Standing at h ⊢
  rw [tileAt_tileSet]
  split
  case isTrue e => exact still n (e ▸ h)
  case isFalse => exact h

theorem mem_stopAt (c : Nat) (tile : Tile) : c ∈ (tile.stopAt c).stops ∧ ∀ x ∈ tile.stops, x ∈ (tile.stopAt c).stops := by
  unfold Tile.stopAt
  split
  case isTrue h => exact ⟨List.contains_iff_mem.mp h, fun _ hx => hx⟩
  case isFalse =>
    refine ⟨List.mem_append_right _ List.mem_cons_self, fun x hx => ?_⟩
    rw [List.mem_append, List.mem_cons, List.mem_filter, List.mem_filter, decide_eq_true_iff, decide_eq_true_iff]
    obtain less | same | more := Nat.lt_trichotomy x c
    · exact .inl ⟨hx, less⟩
    · exact .inr (.inl same)
    · exact .inr (.inr ⟨hx, more⟩)

theorem standing_slipAccesses {t n : Nat} (u c : Nat) {s : State} (h : Standing t n s) : Standing t n (slipAccesses u c s) := by
  unfold slipAccesses
  refine List.foldlRecOn _ _ h fun s k u _ => ?_
  dsimp only
  split
  · exact standing_tileSet (fun _ hx => hx) k
  · exact k

theorem standing_stopTile {t n : Nat} (u c : Nat) {s : State} (h : Standing t n s) : Standing t n (stopTile u c s) := by
  unfold stopTile
  split
  · exact h
  · exact standing_slipAccesses _ _ (standing_tileSet (mem_stopAt (c + 1) _).2 h)

theorem standing_stopTile_self (t c : Nat) (s : State) : Standing t (c + 1) (stopTile t c s) := by
  unfold stopTile
  split
  case isTrue h => exact List.contains_iff_mem.mp h
  case isFalse =>
    refine standing_slipAccesses _ _ ?_
    unfold Standing
    rw [tileAt_tileSet_same]
    exact (mem_stopAt (c + 1) _).1

theorem Standing.of_tiles {t n : Nat} {s u : State} (h : Standing t n s) (e : u.tiles = s.tiles) : Standing t n u := by
  unfold Standing
  rw [tileAt_of_tiles e]
  exact h

theorem standing_refuse {t n : Nat} (u : Nat) (x : Access) {s : State} (h : Standing t n s) : Standing t n (refuse u x s) := by
  unfold refuse
  extract_lets v fresh s1 col s2 tile here s3
  have h1 : Standing t n s1 := standing_stopTile _ _ h
  have h2 : Standing t n s2 := standing_tileSet (fun _ hx => hx) h1
  have h3 : Standing t n s3 := standing_tileSet (fun _ hx => hx) h2
  clear_value s3
  split
  · exact h3.of_tiles (aside_countTile _ _ _ _ (aside_countTile _ _ _ _ (aside_bump _ _ _ (Aside.refl s3)))).tiles
  · exact h3

theorem standing_arbitrate {t n : Nat} (k : Nat) (us : List Nat) (s : State) (h : Standing t n s) :
    Standing t n (arbitrate k us s) := by
  induction k generalizing us s with
  | zero => exact h
  | succ k ih =>
    unfold arbitrate
    split
    · exact h
    · exact ih _ _ (standing_refuse _ _ h)

/-! ## Entries -/

theorem objGet_stopTile (t c : Nat) (s : State) (i j : Nat) : objGet (stopTile t c s) i j = objGet s i j := by
  unfold stopTile
  split
  · rfl
  · unfold slipAccesses
    refine (objGet_foldl _ (fun s u => ?_) _ _).trans rfl
    dsimp only
    split <;> rfl

theorem objGet_countTile (t e c now : Nat) (s : State) (i j : Nat) : objGet (countTile t e c now s) i j = objGet s i j :=
  objGet_countEvent ..

theorem objGet_refuse {i j : Nat} (ne : objKey i j ≠ objKey 0x3100 0xD) (u : Nat) (x : Access) (s : State) :
    objGet (refuse u x s) i j = objGet s i j := by
  unfold refuse
  extract_lets v fresh s1 col s2 tile here s3
  have h3 : objGet s3 i j = objGet s i j := objGet_stopTile ..
  clear_value s3
  split
  · rw [objGet_countTile, objGet_countTile, objGet_bump_ne _ _ ne]
    exact h3
  · exact h3

theorem objGet_arbitrate {i j : Nat} (ne : objKey i j ≠ objKey 0x3100 0xD) (k : Nat) (us : List Nat) (s : State) :
    objGet (arbitrate k us s) i j = objGet s i j := by
  induction k generalizing us s with
  | zero => rfl
  | succ k ih =>
    unfold arbitrate
    split
    · rfl
    · exact (ih _ _).trans (objGet_refuse ne _ _ _)

/-! ## Stretched periods -/

theorem tooSoon_iff (newest : Option Nat) (c : Nat) : tooSoon newest c = true ↔ ∃ n, newest = some n ∧ c < n + 4 := by
  unfold tooSoon
  cases newest with
  | none => exact iff_of_false Bool.false_ne_true fun ⟨_, e, _⟩ => nomatch e
  | some x => exact decide_eq_true_iff.trans ⟨fun h => ⟨x, rfl, h⟩, fun ⟨n, e, h⟩ => Option.some.inj e ▸ h⟩

/-- The tile whose period has been stretched, before accesses that move are arbitrated. -/
def stretched (t n c : Nat) (s : State) : State :=
  countTile t 6 1 c (bump 0x2100 4 1 (tileSet t { tileAt (stopTile t (n - 1) s) t with
    seq := { (tileAt (stopTile t (n - 1) s) t).seq with
      stretches := (tileAt s t).seq.stretches + 1, stretched := some c } } (stopTile t (n - 1) s)))

/-- The cycle in which the clock of a tile stands still for a period stretched in cycle `c`. -/
def stillAt (t c : Nat) (s : State) : Nat := runsAt (tileAt s t).stops (tileAt s t).stops.length (c + 1)

theorem clockStretch_tile {t : TileIx} {c : Nat} {s : State}
    (far : ¬ ∃ n, (tileAt s t).seq.stretched = some n ∧ c < n + 4) :
    ∃ k us, exec (.clockStretch (.tile t) c) s = .next (arbitrate k us (stretched t (stillAt t c s) c s)) :=
  ⟨_, _, congrArg Host.Outcome.next (if_neg (mt (tooSoon_iff _ _).mp far))⟩

theorem tileAt_stretched (t n c u : Nat) (s : State) : tileAt (stretched t n c s) u =
    if u = t then { tileAt (stopTile t (n - 1) s) t with seq := { (tileAt (stopTile t (n - 1) s) t).seq with
      stretches := (tileAt s t).seq.stretches + 1, stretched := some c } } else tileAt (stopTile t (n - 1) s) u := by
  have tiles := (aside_countTile t 6 1 c (aside_bump 0x2100 4 1 (Aside.refl (tileSet t
    { tileAt (stopTile t (n - 1) s) t with seq := { (tileAt (stopTile t (n - 1) s) t).seq with
      stretches := (tileAt s t).seq.stretches + 1, stretched := some c } } (stopTile t (n - 1) s))))).tiles
  rw [stretched, tileAt_of_tiles tiles, tileAt_tileSet]

/-- What a stretched period leaves of tiles, rows and entries. -/
theorem stretched_frame (t n c : Nat) (s : State) : Apart s (stretched t n c s) ∧
    (∀ a, rowGet (stretched t n c s) a = rowGet s a) ∧
    (∀ u, u ≠ t → steady (tileAt (stretched t n c s) u) = steady (tileAt s u)) ∧
    steady (tileAt (stretched t n c s) t) =
      { steady (tileAt s t) with stretches := (tileAt s t).seq.stretches + 1, stretched := some c } ∧
    Standing t (n - 1 + 1) (stretched t n c s) ∧ objGet (stretched t n c s) 0x2100 4 = objGet s 0x2100 4 + 1 := by
  have steady_stop : ∀ u, steady (tileAt (stopTile t (n - 1) s) u) = steady (tileAt s u) :=
    steadily_stopTile t (n - 1) (fun _ => rfl)
  have aside : ∀ u : State, Aside u (countTile t 6 1 c (bump 0x2100 4 1 u)) := fun u =>
    aside_countTile _ _ _ _ (aside_bump _ _ _ (Aside.refl u))
  refine ⟨?_, fun a => ?_, fun u ne => ?_, ?_, ?_, ?_⟩
  · exact (aside _).apart.after (apart_tileSet _ _ (apart_stopTile _ _ (Aside.refl s).apart))
  · exact ((aside _).rowGet a).trans ((rowGet_tileSet _ _ _ a).trans (rowGet_stopTile _ _ _ a))
  · rw [tileAt_stretched, if_neg ne]
    exact steady_stop u
  · rw [tileAt_stretched, if_pos rfl, ← steady_stop t]
    rfl
  · unfold Standing
    rw [tileAt_stretched, if_pos rfl]
    exact standing_stopTile_self ..
  · rw [stretched, objGet_countTile, objGet_bump_same]
    exact congrArg (· + 1) (objGet_stopTile ..)

/-- What a stretched period of a tile does. -/
theorem clockStretch_tile_frame (t : TileIx) (c : Nat) (s : State) :
    let x := tileAt s t
    let near := ∃ n, x.seq.stretched = some n ∧ c < n + 4
    (near → exec (.clockStretch (.tile t) c) s = .next s) ∧
    (¬ near → ∃ s' n, exec (.clockStretch (.tile t) c) s = .next s' ∧ OnlyTiles s s' ∧
      (∀ a, rowGet s' a = rowGet s a) ∧ (∀ u, u ≠ t → steady (tileAt s' u) = steady (tileAt s u)) ∧
      steady (tileAt s' t) = { steady x with stretches := x.seq.stretches + 1, stretched := some c } ∧
      c < n ∧ n ∉ x.stops ∧ (∀ m, c < m → m < n → m ∈ x.stops) ∧ n ∈ (tileAt s' t).stops ∧
      objGet s' 0x2100 4 = objGet s 0x2100 4 + 1) := by
  intro x near
  refine ⟨fun soon => congrArg Host.Outcome.next (if_pos ((tooSoon_iff _ _).mpr soon)), fun far => ?_⟩
  obtain ⟨k, us, step⟩ := clockStretch_tile far
  obtain ⟨apart, rows, others, own, stands, counts⟩ := stretched_frame t (stillAt t c s) c s
  obtain ⟨later, passed, -⟩ := runsAt_passed x.stops x.stops.length (c + 1)
  have steady_all := steadily_arbitrate k us (stretched t (stillAt t c s) c s) (fun _ => rfl)
  have whole : stillAt t c s - 1 + 1 = stillAt t c s := Nat.sub_add_cancel (Nat.le_trans (Nat.le_add_left 1 c) later)
  refine ⟨_, stillAt t c s, step, (apart_arbitrate _ _ _ apart).onlyTiles, fun a => (rowGet_arbitrate _ _ _ a).trans (rows a),
    fun u ne => (steady_all u).trans (others u fun e => ne (Fin.ext e)), (steady_all t).trans own, later, runsAt_not_mem _ _, passed, ?_, ?_⟩
  · exact whole ▸ standing_arbitrate k us _ stands
  · exact (objGet_arbitrate (by decide) _ _ _).trans counts

/-- What a stretched period of a region without tiles does. -/
theorem clockStretch_region_frame (r : ClockRegion) (c k : Nat) (s : State)
    (region : ∃ d : DieIx, r = .network d ∧ k = d ∨ r = .selvedge d ∧ k = 4 + d) :
    let x := mget Region.reset s.regions k
    let near := ∃ n, x.stretched = some n ∧ c < n + 4
    (near → exec (.clockStretch r c) s = .next s) ∧
    (¬ near → ∃ s', exec (.clockStretch r c) s = .next s' ∧ s' = { s with objs := s'.objs, regions := s'.regions } ∧
      objGet s' 0x2100 4 = objGet s 0x2100 4 + 1 ∧
      mget Region.reset s'.regions k = { x with stretches := x.stretches + 1, stretched := some c } ∧
      ∀ j, j ≠ k → mget Region.reset s'.regions j = mget Region.reset s.regions j) := by
  intro x near
  have step : exec (.clockStretch r c) s = .next (stretchRegion k c s) := by
    obtain ⟨d, ⟨rfl, rfl⟩ | ⟨rfl, rfl⟩⟩ := region
    · rfl
    · rfl
  refine ⟨fun soon => step.trans (congrArg Host.Outcome.next (if_pos ((tooSoon_iff _ _).mpr soon))), fun far => ?_⟩
  have eq : stretchRegion k c s = bump 0x2100 4 1 { s with
      regions := mset Region.reset s.regions k { x with stretches := x.stretches + 1, stretched := some c } } :=
    if_neg (mt (tooSoon_iff _ _).mp far)
  rw [eq] at step
  have set := fun j => mget_mset Region.reset s.regions k j { x with stretches := x.stretches + 1, stretched := some c }
  exact ⟨_, step, rfl, (objGet_bump_same ..).trans (congrArg (· + 1) (objGet_of_objs rfl rfl _ _)),
    (set k).trans (if_pos rfl), fun j ne => (set j).trans (if_neg ne)⟩

/-- Settles O59, clause by clause: the power controller, readings, the input, references, clock regions. -/
theorem powerHeatAndClocks : Obligations.PowerHeatAndClocks :=
  ⟨fun w s _ => powerWindow_frame w s, powerEmergency_frame, junction_frame, coolantRange_frame, coolantSensor_frame,
    input_frame, refStateChange_frame, clockStretch_tile_frame, clockStretch_region_frame⟩

end Sys2Proof.Machine
end

section
/-! SUPPORT. Security messages: their answers, offers, acceptance, key bundles (R361 to R365), offer time-out (R362), IDE
keys (R373). -/

namespace Sys2Proof.Machine

open Sys2Proof Sys2Proof.Laws

/-! ## Answers -/

/-- `t` differs from `s` only in what an answered request shows. -/
def Replied (s t : State) : Prop :=
  t = { s with objs := t.objs, out := t.out } ∧ ∀ i j, objKey i j / 256 ≠ 0x1002 → objGet t i j = objGet s i j

theorem Replied.session {s t : State} (h : Replied s t) : session t = session s := h.2 _ _ (by decide)

theorem Replied.security {s t : State} (h : Replied s t) : t.security = s.security := by rw [h.1]

theorem objKey_page_ne {i j k : Nat} (hk : k < 256) (h : objKey i j / 256 ≠ 0x1002) : objKey i j ≠ objKey 0x1002 k := by
  intro e
  rw [e, objKey] at h
  omega

theorem replied_respond (p : Path) (r : Response) (s : State) : Replied s (respond p r s) := by
  have entries : ∀ i j, objKey i j / 256 ≠ 0x1002 → objGet (countRequest r s) i j = objGet s i j := by
    intro i j h
    have served := objGet_bump_ne 1 s (objKey_page_ne (k := 1) (by decide) h)
    unfold countRequest
    dsimp only
    split
    · exact served
    · rw [objGet_objSet_ne _ _ (objKey_page_ne (by decide) h), objGet_bump_ne _ _ (objKey_page_ne (by decide) h), served]
  refine ⟨?_, fun i j h => (objGet_of_objs rfl rfl _ _).trans (entries i j h)⟩
  unfold respond countRequest
  dsimp only
  split <;> rfl

theorem out_respond (p : Path) (r : Response) (s : State) : (respond p r s).out = s.out ++ [.response p r] := by
  refine congrArg (· ++ [Output.response p r]) ?_
  unfold countRequest
  dsimp only
  split <;> rfl

/-- A security command is answered on its path with a status and data, after which `post` holds of state and data. -/
def Gives (i : Instr) (p : Path) (s : State) (status : Nat) (post : State → Bytes → Prop) : Prop :=
  ∃ s' d, exec i s = .next s' ∧ s'.out = s.out ++ [.response p (answerOf 0x10 0 0 status d)] ∧ post s' d

/-- Only counts and the answer are new, and the session is as before. -/
def Same (s s' : State) : Prop := s' = { s with objs := s'.objs, out := s'.out } ∧ session s' = session s

theorem Replied.same {s t : State} (h : Replied s t) : Same s t := ⟨h.1, h.session⟩

/-- Whether a path answers security messages. -/
def Answers (p : Path) (s : State) : Prop := pathOpen s p = true ∧ p ≠ .can ∧ codeRunning s = true

theorem secAnswer_up {p : Path} {m : Bytes} {f : State → SecReply} {s : State} (up : Answers p s) :
    secAnswer p m f s = respond p (answerOf 0x10 0 0 (f s).1 (f s).2.1) (f s).2.2 := by
  obtain ⟨path, can, runs⟩ := up
  unfold secAnswer
  rw [if_neg (by rw [path]; decide), if_neg can, if_neg (by rw [runs]; decide)]
  rfl

/-- A message that is answered. -/
theorem gives_of_reply {i : Instr} {p : Path} {m : Bytes} {f : State → SecReply} {s u : State} {status : Nat} {d : Bytes}
    {post : State → Bytes → Prop} (step : exec i s = .next (secAnswer p m f s)) (up : Answers p s)
    (reply : f s = (status, d, u)) (out : u.out = s.out) (h : ∀ s', Replied u s' → post s' d) :
    Gives i p s status post := by
  rw [secAnswer_up up, reply] at step
  exact ⟨_, d, step, (out_respond ..).trans (by rw [out]), h _ (replied_respond ..)⟩

/-- A message that is refused. -/
theorem gives_of_refused {i : Instr} {p : Path} {m : Bytes} {f : State → SecReply} {s : State} {status : Nat}
    (step : exec i s = .next (secAnswer p m f s)) (up : Answers p s) (reply : f s = (status, [], s)) :
    Gives i p s status fun s' _ => Same s s' :=
  gives_of_reply step up reply rfl fun _ h => h.same

theorem secAnswer_closed {p : Path} {m : Bytes} {f : State → SecReply} {s : State} (closed : pathOpen s p = false) :
    secAnswer p m f s = s := if_pos (by rw [closed]; rfl)

/-! ## Reports -/

/-- A field of a byte string after its first `n` bytes. -/
theorem slice_append_right {a b : Bytes} {n : Nat} (o k : Nat) (h : a.length = n) : slice (a ++ b) (n + o) k = slice b o k := by
  subst h
  rw [slice, slice, List.drop_append, List.drop_eq_nil_of_le (Nat.le_add_right _ _), Nat.add_sub_cancel_left]
  rfl

/-- The fields of a report before its nonce. -/
def reportHead (s : State) (kind mode state : Nat) : Bytes :=
  leBytes 2 1 ++ leBytes 1 kind ++ leBytes 1 (steppingCode s) ++ leBytes 1 (gradeCode s) ++ leBytes 1 (objGet s 0x6100 6)
    ++ leBytes 1 mode ++ leBytes 1 state ++ slice (octGet s 0x6100 3) 0 16

theorem fields_report (s : State) (kind mode state : Nat) (nonce xpub kem : Bytes) :
    slice (report s (reportBody s kind mode state nonce xpub kem)) 32 32 = slice nonce 0 32 ∧
      slice (report s (reportBody s kind mode state nonce xpub kem)) 0 8 = ascii "CHRATT01" := by
  obtain ⟨rest, body⟩ : ∃ rest, report s (reportBody s kind mode state nonce xpub kem) =
      ascii "CHRATT01" ++ (reportHead s kind mode state ++ (slice nonce 0 32 ++ rest)) := by
    unfold report reportBody reportHead
    simp only [List.append_assoc]
    exact ⟨_, rfl⟩
  have magic : (ascii "CHRATT01").length = 8 := by decide
  have head : (reportHead s kind mode state).length = 24 := by
    simp only [reportHead, List.length_append, leBytes_length, slice_length]
  rw [body]
  refine ⟨?_, slice_append_left magic⟩
  rw [slice_append_right 24 32 magic, slice_append_right 0 32 head]
  exact slice_append_left (slice_length ..)

end Sys2Proof.Machine
end

section
/-! SUPPORT. What each security message does (R361 to R365), offer time-out (R362), IDE keys (R373). -/

namespace Sys2Proof.Machine

open Sys2Proof Sys2Proof.Laws

/-! ## Security messages -/

theorem attestation_gives {p : Path} {s : State} (nonce : Bytes) (up : Answers p s) :
    Gives (.attestationRequest p nonce) p s 0 fun s' d => Same s s' ∧ slice d 32 32 = slice nonce 0 32 ∧
      slice d 0 8 = ascii "CHRATT01" :=
  gives_of_reply rfl up rfl rfl fun _ h => ⟨h.same, fields_report ..⟩

/-- The state in which an offer stands. -/
def offered (nonce : Bytes) (mode : Nat) (s : State) : State :=
  objSet 0x6100 0x11 1 { s with
    free := s.free + 1
    security := { s.security with
      offer := reportBody s 2 mode 1 nonce (Config.x25519Public (Config.freshSecret s.free))
        (Config.mlkemPublic (Config.freshSecret s.free))
      nonce := nonce, secret := Config.freshSecret s.free } }

theorem offer_of_accepted {nonce : Bytes} {mode : Nat} {s : State} (job : s.job = false) (idle : session s = 0)
    (fits : mode = objGet s 0x6200 1) : offer nonce mode s =
      (0, report s (reportBody s 2 mode 1 nonce (Config.x25519Public (Config.freshSecret s.free))
        (Config.mlkemPublic (Config.freshSecret s.free))), offered nonce mode s) := by
  unfold offer
  rw [if_neg (by rw [job]; decide), if_neg (Classical.not_not.mpr idle), if_neg (Classical.not_not.mpr fits)]
  rfl

theorem offer_gives {p : Path} {s : State} (nonce : Bytes) (up : Answers p s) (m : BitVec 8) :
    (s.job = true → Gives (.offerRequest p nonce m) p s 7 fun s' _ => Same s s') ∧
      (s.job = false → session s ≠ 0 → Gives (.offerRequest p nonce m) p s 0xD fun s' _ => Same s s') ∧
      (s.job = false → session s = 0 → m.toNat ≠ objGet s 0x6200 1 →
        Gives (.offerRequest p nonce m) p s 6 fun s' _ => Same s s') ∧
      (s.job = false → session s = 0 → m.toNat = objGet s 0x6200 1 →
        Gives (.offerRequest p nonce m) p s 0 fun s' d => session s' = 1 ∧ s'.security.nonce = nonce ∧
          s'.security.secret = Config.freshSecret s.free ∧ s'.free = s.free + 1 ∧ slice d 32 32 = slice nonce 0 32) := by
  refine ⟨fun job => gives_of_refused rfl up (if_pos job), fun job busy => gives_of_refused rfl up ?_,
    fun job idle other => gives_of_refused rfl up ?_, fun job idle fits => ?_⟩
  · exact (if_neg (by rw [job]; decide)).trans (if_pos busy)
  · exact (if_neg (by rw [job]; decide)).trans ((if_neg (Classical.not_not.mpr idle)).trans (if_pos other))
  · refine gives_of_reply rfl up (offer_of_accepted job idle fits) rfl fun s' h => ?_
    refine ⟨h.session.trans (objGet_objSet_same ..), by rw [h.security]; rfl, by rw [h.security]; rfl, by rw [h.1]; rfl, ?_⟩
    exact (fields_report ..).1

/-- The state in which a session has been accepted. -/
def accepted (xpub kem : Bytes) (s : State) : State :=
  objSet 0x6100 0x11 2 (extendReg 6 (sessionKeys s xpub kem).1
    { s with security := { s.security with
      th := (sessionKeys s xpub kem).1, kBundle := (sessionKeys s xpub kem).2.2.2 } })

theorem accept_gives {p : Path} {s : State} (up : Answers p s) (x k c : Bytes) :
    (s.job = true ∨ session s ≠ 1 → Gives (.accept p x k c) p s 0xD fun s' _ => Same s s') ∧
      (s.job = false → session s = 1 → c = (sessionKeys s x k).2.1 →
        Gives (.accept p x k c) p s 0 fun s' d => session s' = 2 ∧ s'.security.th = (sessionKeys s x k).1 ∧
          d = (sessionKeys s x k).2.2.1) ∧
      (s.job = false → session s = 1 → c ≠ (sessionKeys s x k).2.1 →
        Gives (.accept p x k c) p s 0xD fun s' _ => session s' = 0 ∧ s'.security.secret = [] ∧
          objGet s' 0x6100 0x16 = objGet s 0x6100 0x16 + 1) := by
  have waits : (s.job || decide (session s ≠ 1)) = true ↔ s.job = true ∨ session s ≠ 1 := by
    rw [Bool.or_eq_true, decide_eq_true_iff]
  have open_ (job : s.job = false) (one : session s = 1) : ¬ (s.job || decide (session s ≠ 1)) = true := fun h =>
    (waits.mp h).elim (by rw [job]; exact Bool.false_ne_true) fun n => n one
  refine ⟨fun h => gives_of_refused rfl up (if_pos (waits.mpr h)), fun job one right => ?_, fun job one wrong => ?_⟩
  · have reply : acceptOffer x k c s = (0, (sessionKeys s x k).2.2.1, accepted x k s) :=
      (if_neg (open_ job one)).trans (if_neg (Classical.not_not.mpr right))
    refine gives_of_reply rfl up reply rfl fun s' h => ⟨h.session.trans (objGet_objSet_same ..), by rw [h.security]; rfl, rfl⟩
  · have reply : acceptOffer x k c s = (0xD, [], bump 0x6100 0x16 1 (clearKeys s)) :=
      (if_neg (open_ job one)).trans (if_pos wrong)
    have cleared : objGet (clearKeys s) 0x6100 0x16 = objGet s 0x6100 0x16 :=
      (objGet_objSet_ne _ _ (by decide)).trans ((objGet_objSet_ne _ _ (by decide)).trans (objGet_of_objs rfl rfl _ _))
    have zero : session (clearKeys s) = 0 := (objGet_objSet_ne _ _ (by decide)).trans (objGet_objSet_same ..)
    refine gives_of_reply rfl up reply rfl fun s' h => ⟨h.session.trans ?_, by rw [h.security]; rfl, (h.2 _ _ (by decide)).trans ?_⟩
    · exact (objGet_bump_ne _ _ (by decide)).trans zero
    · exact (objGet_bump_same ..).trans (congrArg (· + 1) cleared)

/-! ## Key bundles -/

theorem stopSampling_frame (s : State) : session (stopSampling s) = session s ∧ (stopSampling s).security = s.security ∧
    (stopSampling s).out = s.out := by
  have entries : session ((List.range 4).foldl (fun s d => objSet 0x7100 (6 + d) (objGet s 0x7100 (2 + d)) s)
      (objSet 0x7100 1 0 s)) = session s := by
    refine (List.foldlRecOn (motive := fun u => session u = session s) _ _ ?_ fun u h d hd => ?_)
    · exact objGet_objSet_ne _ _ (by decide)
    · refine (objGet_objSet_ne _ _ ?_).trans h
      have less := List.mem_range.mp hd
      rw [objKey, objKey]
      omega
  have kept := foldl_keeps (fun u : State => (u.security, u.out))
    (fun u d => objSet 0x7100 (6 + d) (objGet u 0x7100 (2 + d)) u) (fun _ _ => rfl) (List.range 4) (objSet 0x7100 1 0 s)
  exact ⟨(objGet_of_objs rfl rfl _ _).trans entries, congrArg Prod.fst kept, congrArg Prod.snd kept⟩

theorem security_extendReg {u : State} {c : Security} (i : Nat) (d : Bytes) (h : u.security = c) :
    ∃ measure, (extendReg i d u).security = { c with measure := measure } := ⟨_, by rw [← h]; rfl⟩

/-- The security block once a bundle has been taken, but for its measurement registers. -/
def bundled (b : Bytes) (c : Security) : Security :=
  { (if c.bundles = 0 then { c with
      bound := some (bundleBound b), linkKey := slice b 48 32, reqKey := slice b 80 32, resKey := slice b 112 32
      ringKey := slice b 144 32 } else c) with
    bundles := c.bundles + 1, plates := c.plates ++ bundlePlates b }

theorem takeBundle_frame {b raw : Bytes} {s : State} (two : session s = 2) :
    session (takeBundle b raw s) = 3 ∧ (takeBundle b raw s).out = s.out ∧ ∃ measure,
      (takeBundle b raw s).security = { bundled b s.security with measure := measure } := by
  have eq : takeBundle b raw s = extendReg 6 (sha384 raw) (stopSampling (objSet 0x6100 0x11 3
      (objSet 0x6100 0x12 (s.security.bundles + 1) { s with security := bundled b s.security }))) :=
    congrArg (extendReg 6 (sha384 raw)) (if_pos two)
  obtain ⟨three, security, out⟩ := stopSampling_frame (objSet 0x6100 0x11 3
    (objSet 0x6100 0x12 (s.security.bundles + 1) { s with security := bundled b s.security }))
  rw [eq]
  refine ⟨?_, out, security_extendReg 6 _ security⟩
  exact (objGet_of_objs rfl rfl _ _).trans (three.trans (objGet_objSet_same ..))

section
variable {q : Nat} {b t : Bytes} {s : State}

theorem keyBundle_of_unread (two : session s = 2) (job : s.job = false)
    (unread : gcmOpen s.security.kBundle (bundleIv q) s.security.th b t = none) : keyBundle q b t s = (0xD, [], s) := by
  unfold keyBundle
  rw [two, job, if_neg (by decide), unread]

theorem keyBundle_of_read {m : Bytes} (two : session s = 2) (job : s.job = false)
    (read : gcmOpen s.security.kBundle (bundleIv q) s.security.th b t = some m) :
    keyBundle q b t s = if bundleOk s q m then (0, [], takeBundle m (b ++ t) s) else (0xD, [], s) := by
  unfold keyBundle
  rw [two, job, if_neg (by decide), read]

end

theorem keyBundle_gives {p : Path} {s : State} (up : Answers p s) (q : BitVec 32) (b t : Bytes) :
    (session s < 2 ∨ 4 < session s → Gives (.keyBundle p q b t) p s 0xD fun s' _ => Same s s') ∧
      (session s = 2 → s.job = false → gcmOpen s.security.kBundle (bundleIv q.toNat) s.security.th b t = none →
        Gives (.keyBundle p q b t) p s 0xD fun s' _ => Same s s') ∧
      ∀ m, session s = 2 → s.job = false → gcmOpen s.security.kBundle (bundleIv q.toNat) s.security.th b t = some m →
        (bundleOk s q.toNat m = true → Gives (.keyBundle p q b t) p s 0 fun s' _ => session s' = 3 ∧
          s'.security.bundles = s.security.bundles + 1 ∧ s'.security.plates = s.security.plates ++ bundlePlates m ∧
          (s.security.bundles = 0 → s'.security.linkKey = slice m 48 32 ∧ s'.security.resKey = slice m 112 32)) ∧
        (¬ bundleOk s q.toNat m = true → Gives (.keyBundle p q b t) p s 0xD fun s' _ => Same s s') := by
  refine ⟨fun out => ?_, fun two job unread => gives_of_refused rfl up (keyBundle_of_unread two job unread),
    fun m two job read => ⟨fun ok => ?_, fun bad => ?_⟩⟩
  · have closed : (!(decide (session s = 2) && !s.job || decide (session s = 3) || decide (session s = 4))) = true := by
      rw [decide_eq_false (by omega : ¬ session s = 2), decide_eq_false (by omega : ¬ session s = 3),
        decide_eq_false (by omega : ¬ session s = 4)]
      rfl
    exact gives_of_refused rfl up (if_pos closed)
  · obtain ⟨three, out, measure, security⟩ := takeBundle_frame (b := m) (raw := b ++ t) two
    refine gives_of_reply rfl up ((keyBundle_of_read two job read).trans (if_pos ok)) out fun s' h => ?_
    rw [h.security, security]
    refine ⟨h.session.trans three, rfl, rfl, fun first => ?_⟩
    simp only [bundled, if_pos first, and_self]
  · exact gives_of_refused rfl up ((keyBundle_of_read two job read).trans (if_neg bad))

/-! ## Time-outs and IDE keys -/

theorem offerTimeout_frame (s : State) : (session s = 1 → leAt s.security.offer 64 8 + 48000000000 ≤ s.tick → ∃ s',
      exec .offerTimeout s = .next s' ∧ session s' = 0 ∧ s'.security.secret = [] ∧
      s' = { s with objs := s'.objs, security := s'.security }) ∧
    (session s ≠ 1 ∨ s.tick < leAt s.security.offer 64 8 + 48000000000 → exec .offerTimeout s = .next s) := by
  have due : (decide (session s = 1) && decide (leAt s.security.offer 64 8 + 48000000000 ≤ s.tick)) = true ↔
      session s = 1 ∧ leAt s.security.offer 64 8 + 48000000000 ≤ s.tick := by
    rw [Bool.and_eq_true, decide_eq_true_iff, decide_eq_true_iff]
  refine ⟨fun one late => ⟨_, congrArg Host.Outcome.next (if_pos (due.mpr ⟨one, late⟩)), ?_, rfl, rfl⟩, fun early =>
    congrArg Host.Outcome.next (if_neg fun h => ?_)⟩
  · exact (objGet_objSet_ne _ _ (by decide)).trans (objGet_objSet_same ..)
  · obtain ⟨one, late⟩ := due.mp h
    exact early.elim (fun n => n one) (Nat.not_lt.mpr late)

theorem ideKm_frame (k : Bytes) (go : Bool) (s : State) : (session s ≠ 2 → exec (.ideKm k go) s = .next s) ∧
    (session s = 2 → k ≠ [] → ∃ s', exec (.ideKm k go) s = .next s' ∧ objGet s' 0x8000 0xC = (if go then 2 else 1) ∧
      s' = { s with objs := s'.objs, security := { s.security with ide := k } }) := by
  refine ⟨fun h => congrArg Host.Outcome.next (if_pos h), fun two some => ?_⟩
  have inside : ¬ session s ≠ 2 := Classical.not_not.mpr two
  cases go with
  | true =>
    have eq : execIdeKm k true s = .next (objSet 0x8000 0xC 2 { s with security := { s.security with ide := k } }) := by
      unfold execIdeKm
      rw [if_neg inside, if_pos rfl, if_neg (by simp [some]), if_neg some]
    exact ⟨_, eq, objGet_objSet_same .., rfl⟩
  | false =>
    have eq : exec (.ideKm k false) s = .next (objSet 0x8000 0xC 1 { s with security := { s.security with ide := k } }) :=
      congrArg Host.Outcome.next (if_neg inside)
    exact ⟨_, eq, objGet_objSet_same .., rfl⟩

end Sys2Proof.Machine
end

section
/-! SUPPORT. The end of a job (R333, R346, R348), clearing (R372). -/

namespace Sys2Proof.Machine

open Sys2Proof Sys2Proof.Laws

/-! ## Row repairs -/

/-- `t` differs from `s` only in what row repairs and the report of health may change. -/
def OnlyRepairs (s t : State) : Prop :=
  t = { s with
    upsets := t.upsets, poison := t.poison, integrity := t.integrity, objs := t.objs, pendVec := t.pendVec, out := t.out }

theorem OnlyRepairs.refl (s : State) : OnlyRepairs s s := rfl

theorem mapRow_repairs {b s : State} (a : Nat) (h : OnlyRepairs b s) : OnlyRepairs b (mapRow s a) := by
  unfold mapRow
  split
  · exact h
  · unfold OnlyRepairs at h ⊢
    rw [h]

theorem tableWrite_repairs {b s : State} (h : OnlyRepairs b s) : OnlyRepairs b (tableWrite s) := by
  unfold tableWrite
  split
  · unfold OnlyRepairs at h ⊢
    rw [h]
  · exact h

theorem checkHealth_repairs {b s : State} (h : OnlyRepairs b s) : OnlyRepairs b (checkHealth s) := by
  unfold checkHealth raiseVector
  dsimp only
  split
  · split
    · unfold OnlyRepairs at h ⊢
      rw [h]
      rfl
    · unfold OnlyRepairs at h ⊢
      rw [h]
      rfl
  · unfold OnlyRepairs at h ⊢
    rw [h]
    rfl

theorem repairRows_only (s : State) : OnlyRepairs s (repairRows s) := by
  unfold repairRows
  split
  · rfl
  · have mapped : OnlyRepairs s (s.integrity.markRows.foldl mapRow s) :=
      List.foldlRecOn _ _ (OnlyRepairs.refl s) fun u h a _ => mapRow_repairs a h
    refine checkHealth_repairs ?_
    have written : OnlyRepairs s (tableWrite { s.integrity.markRows.foldl mapRow s with
        integrity := { (s.integrity.markRows.foldl mapRow s).integrity with markRows := [] } }) := by
      refine tableWrite_repairs ?_
      unfold OnlyRepairs at mapped ⊢
      rw [mapped]
    unfold OnlyRepairs at written ⊢
    rw [written]
    rfl

theorem session_checkHealth (s : State) : session (checkHealth s) = session s := by
  have shown : session (objSet 0x6000 0x11 (objGet s 0x6000 0x11 ||| healthBits s) s) = session s :=
    objGet_objSet_ne _ _ (by decide)
  unfold checkHealth
  dsimp only
  split
  · exact (objGet_raiseVector ..).trans ((objGet_objSet_ne _ _ (by decide)).trans shown)
  · exact shown

theorem objGet_mapRow (s : State) (a i j : Nat) : objGet (mapRow s a) i j = objGet s i j := by
  unfold mapRow
  split <;> rfl

theorem objGet_tableWrite (s : State) (i j : Nat) : objGet (tableWrite s) i j = objGet s i j := by
  unfold tableWrite
  split <;> rfl

theorem session_repairRows (s : State) : session (repairRows s) = session s := by
  unfold repairRows
  split
  · rfl
  · refine (session_checkHealth _).trans ((objGet_objSet_ne _ _ (by decide)).trans ((objGet_tableWrite ..).trans ?_))
    exact (objGet_of_objs rfl rfl _ _).trans (objGet_foldl mapRow (fun s a => objGet_mapRow s a _ _) _ _)

/-! ## The end of a job -/

theorem lookup_map_values {α : Type} (g : α → α) (m : SMap α) (k : Nat) :
    List.lookup k (m.map fun x => (x.1, g x.2)) = (m.lookup k).map g := by
  induction m with
  | nil => rfl
  | cons x xs ih =>
    rw [List.map_cons, List.lookup_cons, List.lookup_cons, ih]
    split <;> rfl

/-- A tile of a table whose tiles have all been changed: it was not listed, and is as at reset, or has been changed. -/
theorem tileAt_map (g : Tile → Tile) {s u : State} (tiles : u.tiles = s.tiles.map fun x => (x.1, g x.2)) (t : Nat) :
    tileAt u t = g (tileAt s t) ∨ tileAt u t = Tile.reset ∧ tileAt s t = Tile.reset := by
  unfold tileAt mget
  rw [tiles, lookup_map_values]
  cases s.tiles.lookup t with
  | none => exact .inr ⟨rfl, rfl⟩
  | some v => exact .inl rfl

/-- A job left, before row repairs and what the treadle shows. -/
def jobLeft (s : State) : State :=
  { s with
    job := false, started := false
    hold := { Hold.reset with floor0 := s.hold.floor0 }
    tiles := s.tiles.map fun t => (t.1, jobTile t.2)
    links := s.links.map fun l => (l.1, jobLink l.2)
    regions := []
    net := { s.net with spent := [], waiting := List.replicate 12 [], rows := [], arrived := [], backs := [] }
    treadle := Treadle.reset
    ports := { Ports.reset with egress := true }
    integrity := { s.integrity with stopLine := false, withdrawn := false, endLatched := false, dropped := []
                                    invalid := [] }
    security := { s.security with
      measure := ((s.security.measure.set 4 (zeros 48)).set 5 (zeros 48)).set 6 (zeros 48) } }

/-- The broadcast words and the counts of the treadle as a job leaves them. -/
def wordsLeft (s : State) : State := showTreadle 0 ((List.range 16).foldl (fun s w => objSet 0x5000 (0x10 + w) 0 s) s)

theorem leaveJob_eq (s : State) : leaveJob s = repairRows (wordsLeft (jobLeft s)) := rfl

theorem wordsLeft_only (s : State) : wordsLeft s = { s with objs := (wordsLeft s).objs } := by
  have kept : ∀ (l : List Nat) (u : State), l.foldl (fun s w => objSet 0x5000 (0x10 + w) 0 s) u =
      { u with objs := (l.foldl (fun s w => objSet 0x5000 (0x10 + w) 0 s) u).objs } := by
    intro l
    induction l with
    | nil => exact fun _ => rfl
    | cons w ws ih => exact fun u => ih (objSet 0x5000 (0x10 + w) 0 u)
  unfold wordsLeft showTreadle
  dsimp only
  rw [kept]
  rfl

theorem session_wordsLeft (s : State) : session (wordsLeft s) = session s := by
  have words : session ((List.range 16).foldl (fun s w => objSet 0x5000 (0x10 + w) 0 s) s) = session s := by
    refine List.foldlRecOn (motive := fun u => session u = session s) _ _ rfl fun u h w hw => ?_
    have less := List.mem_range.mp hw
    exact (objGet_objSet_ne _ _ (by rw [objKey, objKey]; omega)).trans h
  unfold wordsLeft showTreadle
  exact (objGet_objSet_ne _ _ (by decide)).trans ((objGet_objSet_ne _ _ (by decide)).trans words)

/-- What leaving a job keeps and clears. -/
theorem leaveJob_frame (s : State) : (leaveJob s).job = false ∧ (leaveJob s).started = false ∧
    (leaveJob s).treadle = Treadle.reset ∧ (leaveJob s).hold.held = false ∧ session (leaveJob s) = session s ∧
    (leaveJob s).loads = s.loads ∧ (leaveJob s).mem = s.mem ∧
    (leaveJob s).tiles = s.tiles.map fun t => (t.1, jobTile t.2) := by
  have repairs := repairRows_only (wordsLeft (jobLeft s))
  have words := wordsLeft_only (jobLeft s)
  have kept : ∀ u : State, session (repairRows (wordsLeft u)) = session u := fun u =>
    (session_repairRows _).trans (session_wordsLeft u)
  rw [leaveJob_eq]
  refine ⟨?_, ?_, ?_, ?_, (kept _).trans (objGet_of_objs rfl rfl _ _), ?_, ?_, ?_⟩
  all_goals
    rw [repairs, words]
    rfl

/-- What the end of a job does. -/
theorem jobEnd_frame (s : State) : (s.job = false ∨ s.integrity.stopLine = true → exec .jobEnd s = .next s) ∧
    (s.job = true → s.integrity.stopLine = false → ∃ s', exec .jobEnd s = .next s' ∧ s'.job = false ∧
      s'.started = false ∧ s'.treadle.tasks = [] ∧ s'.treadle.graphs = [] ∧ s'.hold.held = false ∧
      session s' = (if s.sealedJob = true then 5 else session s) ∧ s'.loads = s.loads ∧ s'.mem = s.mem ∧
      (∀ t, (tileAt s' t).flags = (tileAt s t).flags &&& 0xFFFF) ∧
      ∀ t w, (windowAt (tileAt s' t) w).opened = false) := by
  have none : (!s.job || s.integrity.stopLine) = true ↔ s.job = false ∨ s.integrity.stopLine = true := by
    rw [Bool.or_eq_true, Bool.not_eq_true']
  refine ⟨fun h => congrArg Host.Outcome.next (if_pos (none.mpr h)), fun job free => ?_⟩
  have step : exec .jobEnd s = .next (if s.sealedJob then objSet 0x6100 0x11 5 (leaveJob s) else leaveJob s) :=
    congrArg Host.Outcome.next (if_neg (by rw [job, free]; decide))
  obtain ⟨left, started, treadle, held, same, loads, mem, tiles⟩ := leaveJob_frame s
  refine ⟨_, step, ?_⟩
  have rest : ∀ u : State, u = { leaveJob s with objs := u.objs } → u.job = false ∧
      u.started = false ∧ u.treadle.tasks = [] ∧ u.treadle.graphs = [] ∧ u.hold.held = false ∧ u.loads = s.loads ∧
      u.mem = s.mem ∧ (∀ t, (tileAt u t).flags = (tileAt s t).flags &&& 0xFFFF) ∧
      ∀ t w, (windowAt (tileAt u t) w).opened = false := by
    intro u only
    have tiles' : u.tiles = s.tiles.map fun t => (t.1, jobTile t.2) := by rw [only]; exact tiles
    have treadle' : u.treadle = Treadle.reset := by rw [only]; exact treadle
    refine ⟨by rw [only]; exact left, by rw [only]; exact started, by rw [treadle']; rfl, by rw [treadle']; rfl,
      by rw [only]; exact held, by rw [only]; exact loads, by rw [only]; exact mem, fun t => ?_, fun t w => ?_⟩
    · obtain e | ⟨e, e'⟩ := tileAt_map jobTile tiles' t
      · rw [e]
        rfl
      · rw [e, e']
        rfl
    · obtain e | ⟨e, -⟩ := tileAt_map jobTile tiles' t
      · rw [e]
        rfl
      · rw [e]
        rfl
  by_cases sealed_ : s.sealedJob = true
  · rw [if_pos sealed_, if_pos sealed_]
    obtain ⟨h1, h2, h3, h4, h5, h6⟩ := rest (objSet 0x6100 0x11 5 (leaveJob s)) rfl
    exact ⟨h1, h2, h3, h4, h5, objGet_objSet_same .., h6⟩
  · rw [if_neg sealed_, if_neg sealed_]
    obtain ⟨h1, h2, h3, h4, h5, h6⟩ := rest (leaveJob s) rfl
    exact ⟨h1, h2, h3, h4, h5, same, h6⟩

/-! ## Clearing -/

theorem clearAll_frame (s : State) : session (clearAll s) = 0 ∧ stopState (clearAll s) = stopState s ∧
    isLead (clearAll s) = isLead s ∧ (clearAll s).sealedJob = false ∧ (clearAll s).integrity = s.integrity ∧
    (clearAll s).mem = [] := by
  have entries : ∀ i j, objKey i j ≠ objKey 0x6100 0x12 → objKey i j ≠ objKey 0x6100 0x11 →
      objGet (clearAll s) i j = objGet s i j := fun i j h12 h11 =>
    (objGet_objSet_ne _ _ h12).trans ((objGet_objSet_ne _ _ h11).trans (objGet_of_objs rfl rfl _ _))
  refine ⟨(objGet_objSet_ne _ _ (by decide)).trans (objGet_objSet_same ..), entries _ _ (by decide) (by decide), ?_, rfl,
    rfl, rfl⟩
  unfold isLead
  rw [entries _ _ (by decide) (by decide)]

/-- State 2 of the safe stop reached with no end latched. -/
theorem reachStopped_frame {s : State} (open_ : s.integrity.endLatched = false) :
    session (reachStopped s) = session s ∧ stopState (reachStopped s) = 2 ∧ (reachStopped s).mem = s.mem ∧
      (reachStopped s).security = s.security := by
  have only := fun u : State => raiseVector_only 0 u
  have eq : reachStopped s = raiseVector 0 (objSet 0x6000 1 2 { s with integrity := { s.integrity with
      saved := s.integrity.first.toList ++ s.integrity.ring.drop (s.integrity.ring.length - 8) } }) :=
    if_neg (by rw [open_]; exact Bool.false_ne_true)
  rw [eq]
  refine ⟨(objGet_raiseVector ..).trans ((objGet_objSet_ne _ _ (by decide)).trans (objGet_of_objs rfl rfl _ _)),
    (objGet_raiseVector ..).trans (objGet_objSet_same ..), ?_, ?_⟩
  · rw [only]
    rfl
  · rw [only]
    rfl

/-- What clearing does. -/
theorem clearing_frame (s : State) : (s.sealedJob = false → exec .clearing s = .next s) ∧
    (s.sealedJob = true → session s = 5 → stopState s ≠ 1 → ∃ s', exec .clearing s = .next s' ∧
      session s' = 0 ∧ s'.sealedJob = false ∧
      s'.mem = [] ∧ s'.upsets = [] ∧ s'.poison = [] ∧ s'.security.secret = [] ∧ s'.security.kBundle = [] ∧
      s'.security.linkKey = [] ∧ s'.security.reqKey = [] ∧ s'.security.resKey = [] ∧ s'.security.ringKey = [] ∧
      s'.security.plates = [] ∧ s'.integrity = s.integrity) ∧
    (s.sealedJob = true → stopState s = 1 → s.integrity.first ≠ none → isLead s = false ∨
      s.integrity.withdrawn = true → s.integrity.endLatched = false → ∃ s', exec .clearing s = .next s' ∧
      session s' = 0 ∧ stopState s' = 2 ∧ s'.mem = [] ∧ s'.security.linkKey = []) := by
  obtain ⟨zero, stop, lead, unsealed, integrity, mem⟩ := clearAll_frame s
  refine ⟨fun h => congrArg Host.Outcome.next (if_pos (by rw [h]; rfl)), fun sealed_ five running => ?_,
    fun sealed_ stopped some done open_ => ?_⟩
  · have now : (decide (stopState s ≠ 1) && decide (session s = 5)) = true := by
      rw [Bool.and_eq_true, decide_eq_true_iff, decide_eq_true_iff]
      exact ⟨running, five⟩
    have step : exec .clearing s = .next (clearAll s) :=
      congrArg Host.Outcome.next ((if_neg (by rw [sealed_]; decide)).trans (if_pos now))
    exact ⟨_, step, zero, rfl, rfl, rfl, rfl, rfl, rfl, rfl, rfl, rfl, rfl, rfl, rfl⟩
  · have ended : (!isLead s || s.integrity.withdrawn) = true := by
      obtain h | h := done
      · rw [h]; rfl
      · rw [h, Bool.or_true]
    have first : s.integrity.first.isSome = true := Option.isSome_iff_ne_none.mpr some
    have step : exec .clearing s = .next (finishStop (clearAll s)) := by
      refine congrArg Host.Outcome.next ((if_neg (by rw [sealed_]; decide)).trans ((if_neg ?_).trans (if_pos ?_)))
      · rw [decide_eq_false (Classical.not_not.mpr stopped)]
        exact Bool.false_ne_true
      · rw [decide_eq_true stopped, first, ended]
        rfl
    have finish : finishStop (clearAll s) = reachStopped (clearAll s) := by
      unfold finishStop
      rw [stop, stopped, lead, integrity, unsealed, if_neg, if_neg (by decide)]
      obtain h | h := done
      · rw [h, Bool.false_and]; decide
      · rw [h, Bool.not_true, Bool.and_false]; decide
    obtain ⟨same, two, rows, keys⟩ := reachStopped_frame (s := clearAll s) (by rw [integrity]; exact open_)
    rw [finish] at step
    exact ⟨_, step, same.trans zero, two, rows.trans mem, by rw [keys]; rfl⟩

end Sys2Proof.Machine
end

section
/-! SUPPORT. What the first pick of a job leaves of its counts: links that send, rows written in the background, faults. -/

namespace Sys2Proof.Machine

open Sys2Proof Sys2Proof.Laws

/-- An entry that is none of a link, of rows, the mesh, the tracers or the counters. -/
abbrev Aloof (i j : Nat) : Prop :=
  let p := objKey i j / 256
  p ≠ 0x3100 ∧ p ≠ 0x4000 ∧ p ≠ 0x5100 ∧ p ≠ 0x7000 ∧ (p < 0x4100 ∨ 0x4124 ≤ p)

/-- The counts of a job, the tasks of its treadle, and the entries apart from links, rows, mesh and counters. -/
structure JobView where
  tick : Nat
  boundary : Nat
  tp : Nat
  sp : Nat
  job : Bool
  started : Bool
  held : Bool
  tasks : List Task
  entries : Nat → Nat → Nat

def jobView (s : State) : JobView where
  tick := s.tick
  boundary := s.boundary
  tp := s.tp
  sp := s.sp
  job := s.job
  started := s.started
  held := s.hold.held
  tasks := s.treadle.tasks
  entries := fun i j => if Aloof i j then objGet s i j else 0

@[reducible] def SameJob (b s : State) : Prop := jobView s = jobView b

theorem SameJob.entry {b s : State} (h : SameJob b s) {i j : Nat} (a : Aloof i j) : objGet s i j = objGet b i j := by
  have e := congrFun (congrFun (congrArg JobView.entries h) i) j
  unfold jobView at e
  dsimp only at e
  rwa [if_pos a, if_pos a] at e

theorem sameJob_foldl {α : Type} {b : State} (f : State → α → State) (l : List α)
    (hf : ∀ s x, x ∈ l → SameJob b s → SameJob b (f s x)) (s : State) (h : SameJob b s) : SameJob b (l.foldl f s) :=
  List.foldlRecOn l f h fun s k x hx => hf s x hx k

theorem sameJob_ite {b s t : State} {c : Prop} [Decidable c] (h : SameJob b s) (k : SameJob b t) :
    SameJob b (if c then s else t) := by
  split
  · exact h
  · exact k

/-- Entries of links, rows, mesh and counters may change. -/
theorem sameJob_objSet {b s : State} {i j : Nat} (v : Nat) (count : ¬ Aloof i j) (h : SameJob b s) :
    SameJob b (objSet i j v s) := by
  have entries : (jobView (objSet i j v s)).entries = (jobView s).entries := by
    funext i' j'
    unfold jobView
    dsimp only
    split
    case isTrue other =>
      refine objGet_objSet_ne _ _ fun e => count ?_
      unfold Aloof at other ⊢
      rwa [e] at other
    case isFalse => rfl
  exact (congrArg (fun e => { jobView s with entries := e }) entries).trans h

theorem sameJob_bump {b s : State} {i j : Nat} (n : Nat) (count : ¬ Aloof i j) (h : SameJob b s) :
    SameJob b (bump i j n s) := by
  unfold bump
  exact sameJob_ite h (sameJob_objSet _ count h)

theorem not_aloof_link {l j : Nat} (hl : l < 36) (hj : j < 256) : ¬ Aloof (0x4100 + l) j := by
  unfold Aloof
  rw [objKey]
  omega

theorem sameJob_countEvent {b s : State} (v c now : Nat) (h : SameJob b s) : SameJob b (countEvent v c now s) := by
  unfold countEvent
  exact sameJob_ite h h

/-! ## Faults -/

theorem sameJob_toPort {b s : State} {l : Nat} (hl : l < 36) (o : Output) (h : SameJob b s) : SameJob b (toPort l o s) := by
  unfold toPort
  extract_lets s1
  have counted : SameJob b s1 := sameJob_bump 1 (not_aloof_link hl (by decide)) h
  exact sameJob_ite counted counted

theorem sameJob_sendFaults {b s : State} (code : BitVec 16) (origin : Coord) (stamp : Nat) (h : SameJob b s) :
    SameJob b (sendFaults code origin stamp s) := by
  unfold sendFaults
  exact sameJob_foldl _ _ (fun s l hl k => sameJob_toPort (List.mem_range.mp (List.mem_filter.mp hl).1) _ k) _ h

theorem sameJob_beginStop {b s : State} (code : BitVec 16) (origin : Coord) (stamp : Nat) (h : SameJob b s) :
    SameJob b (beginStop code origin stamp s) := by
  unfold beginStop
  extract_lets s1 treadle integrity ports s2
  have told : SameJob b s1 := sameJob_sendFaults _ _ _ h
  have stopped : SameJob b s2 := told
  exact sameJob_ite (sameJob_objSet _ (by decide) stopped) stopped

theorem sameJob_raiseFault {b s : State} (code : Nat) (site : FaultSite) (h : SameJob b s) :
    SameJob b (raiseFault code site s) := by
  unfold raiseFault
  exact sameJob_ite (sameJob_beginStop _ _ _ h) h

theorem sameJob_raiseFaults {b s : State} (fs : List (Nat × FaultSite)) (h : SameJob b s) : SameJob b (raiseFaults fs s) :=
  sameJob_foldl _ _ (fun _ _ _ k => sameJob_raiseFault _ _ k) _ h

/-! ## Rows written in the background -/

theorem sameJob_seenBeside {b s : State} (t w a : Nat) (f : RowFrame) (h : SameJob b s) : SameJob b (seenBeside t w a f s) := by
  unfold seenBeside
  refine sameJob_ite h ?_
  split
  · exact h
  · exact sameJob_ite h (sameJob_foldl (b := b) (fun s v => tileSet v ((tileAt s v).seeBeside s a w f) s) _
      (fun _ _ _ k => k) s h)

theorem sameJob_dropFix {b s : State} (a : Nat) (h : SameJob b s) : SameJob b (dropFix a s) := by
  unfold dropFix
  split
  · exact h
  · exact sameJob_ite (sameJob_bump 1 (by decide) h) h

theorem sameJob_rowWrite {b s : State} (t w a : Nat) (f : RowFrame) (h : SameJob b s) : SameJob b (rowWrite t w a f s) :=
  sameJob_dropFix _ (sameJob_seenBeside _ _ _ _ h)

theorem sameJob_serveSlice {b s : State} (a c rank : Nat) (h : SameJob b s) : SameJob b (serveSlice a c rank s) := by
  unfold serveSlice requestAccess
  split
  · exact h
  · exact h

theorem sameJob_backStore {b s : State} (a : Nat) (f : RowFrame) (h : SameJob b s) : SameJob b (backStore a f s) := by
  unfold backStore
  split
  · exact h
  · exact sameJob_rowWrite _ _ _ _ (sameJob_raiseFaults _ (sameJob_ite (sameJob_serveSlice _ _ _ h) h))

theorem sameJob_clearTrees {b s : State} (h : SameJob b s) : SameJob b (clearTrees s) := by
  unfold clearTrees
  refine sameJob_objSet _ (by decide) (sameJob_objSet _ (by decide) ?_)
  exact sameJob_foldl _ _ (fun _ _ _ k => sameJob_foldl _ _ (fun _ _ _ k' => sameJob_backStore _ _ k') _ k) _ h

theorem sameJob_clearLineage {b s : State} (h : SameJob b s) : SameJob b (clearLineage s) := by
  unfold clearLineage
  exact sameJob_ite h (sameJob_foldl _ _ (fun _ _ _ k => sameJob_backStore _ _ k) _ h)

theorem sameJob_placeDigests {b s : State} (p : Pattern) (h : SameJob b s) : SameJob b (placeDigests p s) := by
  unfold placeDigests
  refine sameJob_foldl _ _ (fun s d _ k => ?_) _ h
  exact k

/-! ## Links that send -/

theorem sameJob_sendFrame {b s : State} {l : Nat} (hl : l < 36) (pos : Nat) (f : Frame) (h : SameJob b s) :
    SameJob b (sendFrame l pos f s) := by
  unfold sendFrame
  extract_lets k g kept s1
  have left : SameJob b s1 := h
  split
  · exact sameJob_countEvent _ _ _ left
  · exact sameJob_countEvent _ _ _ left
  · exact left
  · exact sameJob_countEvent _ _ _ (sameJob_bump 1 (not_aloof_link hl (by decide)) left)

theorem sameJob_raiseHold {b s : State} (e now d : Nat) (r : HoldReq) (h : SameJob b s) :
    SameJob b (raiseHold e now d r s) := by
  have sent : ∀ u : State, SameJob b u → SameJob b (inject d 1 1 [.holdRequest r] u) := by
    intro u k
    unfold inject
    exact sameJob_ite k (sameJob_ite k (sameJob_countEvent _ _ _ (sameJob_bump 1 (by decide) k)))
  unfold raiseHold sendHold
  have counted : SameJob b (countEvent e 1 now s) := sameJob_countEvent _ _ _ h
  exact sameJob_ite (sameJob_ite (sent _ counted) counted) h

theorem sameJob_lateHolds {b s : State} (l p : Nat) (late : List Handed) (h : SameJob b s) :
    SameJob b (lateHolds l p late s) := by
  unfold lateHolds
  exact sameJob_ite h (sameJob_foldl _ _ (fun _ _ _ k => sameJob_raiseHold _ _ _ _ k) _ h :)

theorem sameJob_sendScheduled {b s : State} {l : Nat} (hl : l < 36) (h : SameJob b s) : SameJob b (sendScheduled l s) := by
  unfold sendScheduled
  extract_lets k mine pos clash good late s1 s2 s3
  have h1 : SameJob b s1 := h
  have h2 : SameJob b s2 := sameJob_foldl _ _ (fun _ _ _ k => sameJob_ite k (sameJob_sendFrame hl _ _ k)) _ h1
  have h3 : SameJob b s3 := sameJob_lateHolds _ _ _ h2
  exact sameJob_ite (sameJob_raiseFault _ _ h3) h3

theorem sameJob_transmitAll {b s : State} (begun : Bool) (h : SameJob b s) : SameJob b (transmitAll begun s) := by
  refine sameJob_foldl _ _ (fun s l hl k => ?_) _ h
  unfold transmitLink
  exact sameJob_ite k (sameJob_ite (sameJob_sendScheduled (List.mem_range.mp hl) k) k)

end Sys2Proof.Machine
end

section
/-! SUPPORT. The start tick: the checks that fail, what a job begins with (R263, R268, R286). -/

namespace Sys2Proof.Machine

open Sys2Proof Sys2Proof.Laws

/-! ## The picks of the links end -/

theorem job_of_filled {s u : State} (h : SameFilled s u) : u.job = s.job := congrArg SentRest.job h.sent

theorem sameFilled_finishPick {b s : State} (l : Nat) (h : SameFilled b s) : SameFilled b (finishPick l s) := by
  unfold finishPick
  exact sameFilled_ite h (sameFilled_ite (sameFilled_linkSet rfl h) (sameFilled_linkSet rfl h))

theorem sameFilled_closeLinks (s : State) : SameFilled s (closeLinks s) := by
  refine sameFilled_foldl _ _ (fun s l k => ?_) _ rfl
  unfold closeLink
  exact sameFilled_ite k (sameFilled_finishPick _ (sameFilled_foldl _ _ (fun _ _ k' => sameFilled_fillPosition _ _ k') _ k))

/-! ## What a job begins with -/

theorem objGet_sets_ne {i j : Nat} (l : List (Nat × Nat × Nat)) (h : ∀ e ∈ l, objKey i j ≠ objKey e.1 e.2.1) (s : State) :
    objGet (l.foldl (fun s e => objSet e.1 e.2.1 e.2.2 s) s) i j = objGet s i j :=
  List.foldlRecOn (motive := fun u => objGet u i j = objGet s i j) _ _ rfl fun _ k e he =>
    (objGet_objSet_ne _ _ (h e he)).trans k

/-- Entries of links and broadcast words set after the counts of a job leave the others. -/
theorem objGet_jobEntries {i j : Nat} (link : ∀ l, l < 36 → objKey i j ≠ objKey (0x4100 + l) 0xD)
    (word : ∀ w, w < 16 → objKey i j ≠ objKey 0x5000 (0x10 + w)) (s : State) :
    objGet (jobEntries s) i j = objGet (jobCounts.foldl (fun s e => objSet e.1 e.2.1 e.2.2 s) s) i j := by
  have links : ∀ u : State, objGet ((List.range 36).foldl (fun s l => objSet (0x4100 + l) 0xD 0xFFFFFFFF s) u) i j =
      objGet u i j := fun u =>
    List.foldlRecOn (motive := fun v => objGet v i j = objGet u i j) _ _ rfl fun _ k l hl =>
      (objGet_objSet_ne _ _ (link l (List.mem_range.mp hl))).trans k
  have words : ∀ u : State, objGet ((List.range 16).foldl (fun s w => objSet 0x5000 (0x10 + w) 0 s) u) i j = objGet u i j :=
    fun u => List.foldlRecOn (motive := fun v => objGet v i j = objGet u i j) _ _ rfl fun _ k w hw =>
      (objGet_objSet_ne _ _ (word w (List.mem_range.mp hw))).trans k
  unfold jobEntries
  dsimp only
  rw [words, links]

/-- The counts of a job that are read after its start: live graphs at 1, groups waiting at 0, others left. -/
theorem counts_jobEntries (s : State) : objGet (jobEntries s) 0x5000 5 = 1 ∧ objGet (jobEntries s) 0x5000 8 = 0 ∧
    session (jobEntries s) = session s := by
  have apart : ∀ i j, objKey i j / 256 < 0x4100 ∨ 0x4124 ≤ objKey i j / 256 → objKey i j < objKey 0x5000 0x10 ∨
      objKey 0x5000 0x20 ≤ objKey i j → objGet (jobEntries s) i j =
        objGet (jobCounts.foldl (fun s e => objSet e.1 e.2.1 e.2.2 s) s) i j := by
    intro i j page other
    refine objGet_jobEntries (fun l hl e => ?_) (fun w hw e => ?_) s
    · rw [e, objKey] at page
      omega
    · rw [e] at other
      rw [objKey, objKey, objKey] at other
      omega
  have five : jobCounts = jobCounts.take 3 ++ (0x5000, 5, 1) :: jobCounts.drop 4 := by decide
  have eight : jobCounts = jobCounts.take 6 ++ (0x5000, 8, 0) :: jobCounts.drop 7 := by decide
  refine ⟨?_, ?_, ?_⟩
  · rw [apart _ _ (by decide) (by decide), five, List.foldl_append, List.foldl_cons,
      objGet_sets_ne _ (by decide), objGet_objSet_same]
  · rw [apart _ _ (by decide) (by decide), eight, List.foldl_append, List.foldl_cons,
      objGet_sets_ne _ (by decide), objGet_objSet_same]
  · exact (apart _ _ (by decide) (by decide)).trans (objGet_sets_ne _ (by decide) s)

/-- `t` differs from `s` only in object entries. -/
def OnlyEntries (s t : State) : Prop := t = { s with objs := t.objs }

theorem onlyEntries_objSet {b s : State} (i j v : Nat) (h : OnlyEntries b s) : OnlyEntries b (objSet i j v s) := by
  unfold OnlyEntries at h ⊢
  rw [h]
  rfl

theorem jobEntries_only (s : State) : OnlyEntries s (jobEntries s) := by
  unfold jobEntries
  dsimp only
  refine List.foldlRecOn _ _ (List.foldlRecOn _ _ (List.foldlRecOn _ _ rfl ?_) ?_) ?_
  all_goals exact fun u h e _ => onlyEntries_objSet _ _ _ h

/-- The state in which pick 0 begins, before the counts of the job are set. -/
def jobBegun (b0 : Nat) (s : State) : State :=
  { s with
    started := true, tiles := s.tiles.map fun t => (t.1, { t.2 with corrected := [] })
    tp := 0, sp := 0, tick := max s.tick b0, boundary := b0, landed := []
    sealedJob := session s == 3
    hold := { Hold.reset with floor0 := objGet s 0x4300 3 }
    treadle := { Treadle.reset with history := [(0, b0, 0)], floorReq := s.treadle.floorReq }
    power := { s.power with lastPace := none, lastEmerg := none }
    ports := { s.ports with dests := List.replicate 8 Dest.reset } }

/-- The entries of the job start set. -/
def jobShown (floor settings : Nat) (hash : Bytes) (s : State) : State :=
  objSet 0x4300 1 floor (objSet 0x4200 0x14 2 (objSet 0x6200 4 settings (octSet 0x6200 5 hash s)))

/-- A session goes on from state 3 to 4. -/
def sessionOn (s : State) : State := if session s = 3 then objSet 0x6100 0x11 4 s else s

theorem beginJob_same (b0 : Nat) (p : Pattern) (s : State) : SameJob (sessionOn (jobShown (objGet s 0x4300 3)
    (jobSettings (jobEntries (jobBegun b0 s)) p) p.hash (jobEntries (jobBegun b0 s)))) (beginJob b0 p s) := by
  unfold beginJob
  refine sameJob_transmitAll _ (sameJob_countEvent _ _ _ (sameJob_countEvent _ _ _ (sameJob_clearLineage
    (sameJob_clearTrees (sameJob_placeDigests _ ?_)))))
  exact rfl

section
variable (floor settings : Nat) (hash : Bytes) (s : State)

theorem entries_jobShown {i j : Nat} (pace : objKey i j ≠ objKey 0x4300 1) (start : objKey i j ≠ objKey 0x4200 0x14)
    (set : objKey i j ≠ objKey 0x6200 4) : objGet (jobShown floor settings hash s) i j = objGet s i j :=
  (objGet_objSet_ne _ _ pace).trans ((objGet_objSet_ne _ _ start).trans ((objGet_objSet_ne _ _ set).trans
    (objGet_of_objs rfl rfl _ _)))

theorem shown_jobShown : objGet (jobShown floor settings hash s) 0x4300 1 = floor ∧
    objGet (jobShown floor settings hash s) 0x4200 0x14 = 2 :=
  ⟨objGet_objSet_same .., (objGet_objSet_ne _ _ (by decide)).trans (objGet_objSet_same ..)⟩

theorem entries_sessionOn {i j : Nat} (ne : objKey i j ≠ objKey 0x6100 0x11) : objGet (sessionOn s) i j = objGet s i j := by
  unfold sessionOn
  split
  · exact objGet_objSet_ne _ _ ne
  · rfl

theorem session_sessionOn : session (sessionOn s) = if session s = 3 then 4 else session s := by
  unfold sessionOn
  split
  · exact objGet_objSet_same ..
  · rfl

theorem sessionOn_only : OnlyEntries s (sessionOn s) := by
  unfold sessionOn
  split
  · exact onlyEntries_objSet _ _ _ rfl
  · rfl

end

/-- What a job begins with. -/
structure Begun (b0 floor ses : Nat) (s t : State) : Prop where
  started : t.started = true
  job : t.job = s.job
  tp : t.tp = 0
  sp : t.sp = 0
  boundary : t.boundary = b0
  tick : t.tick = max s.tick b0
  held : t.hold.held = false
  tasks : t.treadle.tasks = []
  pace : paceNow t = floor
  state : objGet t 0x4200 0x14 = 2
  live : objGet t 0x5000 5 = 1
  waiting : objGet t 0x5000 8 = 0
  session : session t = if ses = 3 then 4 else ses

theorem begun_jobShown (b0 floor settings : Nat) (hash : Bytes) (s : State) :
    Begun b0 floor (session s) s (sessionOn (jobShown floor settings hash (jobEntries (jobBegun b0 s)))) := by
  obtain ⟨live, waiting, same⟩ := counts_jobEntries (jobBegun b0 s)
  obtain ⟨pace, state⟩ := shown_jobShown floor settings hash (jobEntries (jobBegun b0 s))
  have entries := jobEntries_only (jobBegun b0 s)
  have ses : session (jobShown floor settings hash (jobEntries (jobBegun b0 s))) = session s :=
    (entries_jobShown _ _ _ _ (by decide) (by decide) (by decide)).trans (same.trans (objGet_of_objs rfl rfl _ _))
  have only := sessionOn_only (jobShown floor settings hash (jobEntries (jobBegun b0 s)))
  constructor
  case pace => exact (entries_sessionOn _ (by decide)).trans pace
  case state => exact (entries_sessionOn _ (by decide)).trans state
  case live =>
    rw [entries_sessionOn _ (by decide), entries_jobShown _ _ _ _ (by decide) (by decide) (by decide), live]
  case waiting =>
    rw [entries_sessionOn _ (by decide), entries_jobShown _ _ _ _ (by decide) (by decide) (by decide), waiting]
  case session => rw [session_sessionOn, ses]
  all_goals
    rw [only]
    unfold jobShown
    rw [entries]
    rfl

theorem Begun.of_same {b0 floor ses : Nat} {s t u : State} (h : Begun b0 floor ses s t) (same : SameJob t u) :
    Begun b0 floor ses s u where
  started := (congrArg JobView.started same).trans h.started
  job := (congrArg JobView.job same).trans h.job
  tp := (congrArg JobView.tp same).trans h.tp
  sp := (congrArg JobView.sp same).trans h.sp
  boundary := (congrArg JobView.boundary same).trans h.boundary
  tick := (congrArg JobView.tick same).trans h.tick
  held := (congrArg JobView.held same).trans h.held
  tasks := (congrArg JobView.tasks same).trans h.tasks
  pace := (same.entry (by decide)).trans h.pace
  state := (same.entry (by decide)).trans h.state
  live := (same.entry (by decide)).trans h.live
  waiting := (same.entry (by decide)).trans h.waiting
  session := (same.entry (by decide)).trans h.session

/-! ## The start tick -/

/-- Whether a start tick is waited for. -/
def startWaits (s : State) : Prop :=
  s.job = true ∧ s.started = false ∧ s.integrity.stopLine = false ∧ objGet s 0x4200 0x14 = 1

theorem startWaits_iff (s : State) :
    ¬ (!s.job || s.started || s.integrity.stopLine || decide (objGet s 0x4200 0x14 ≠ 1)) = true ↔ startWaits s := by
  unfold startWaits
  rw [decide_not]
  by_cases shown : objGet s 0x4200 0x14 = 1
  · rw [decide_eq_true shown]
    cases s.job <;> cases s.started <;> cases s.integrity.stopLine <;> simp [shown]
  · simp [shown]

/-- A fault at the start tick leaves the job waiting in state 3. -/
theorem startFailed_frame {s : State} (fs : List (Nat × FaultSite)) :
    (raiseFaults fs (objSet 0x4200 0x14 3 s)).started = s.started ∧
      objGet (raiseFaults fs (objSet 0x4200 0x14 3 s)) 0x4200 0x14 = 3 ∧
      (raiseFaults fs (objSet 0x4200 0x14 3 s)).tick = s.tick := by
  have aside := aside_raiseFaults fs (Aside.refl (objSet 0x4200 0x14 3 s))
  have same := sameJob_raiseFaults (b := objSet 0x4200 0x14 3 s) fs rfl
  exact ⟨aside.started, (same.entry (by decide)).trans (objGet_objSet_same ..), aside.tick⟩

/-- What a start tick does. -/
theorem startTick_frame (s : State) (inv : Inv s) :
    let waits := s.job = true ∧ s.started = false ∧ s.integrity.stopLine = false ∧ objGet s 0x4200 0x14 = 1
    let b0 := objGet s 0x4200 0x13
    (¬ waits → exec .startTick s = .next s) ∧
    (waits → s.pattern = none → ∃ s', exec .startTick s = .next s' ∧ Recorded s s' 0 0x4021 ∧ s'.started = false ∧
      objGet s' 0x4200 0x14 = 3) ∧
    ∀ p, waits → s.pattern = some p →
      (startFaults s ≠ [] → ∃ s', exec .startTick s = .next s' ∧ s'.started = false ∧ objGet s' 0x4200 0x14 = 3 ∧
        s'.tick = max s.tick b0 ∧ ∀ f ∈ startFaults s, Raised s s' f.2.die.val f.1) ∧
      (startFaults s = [] → ∃ s', exec .startTick s = .next s' ∧ s'.started = true ∧ s'.job = true ∧ s'.tp = 0 ∧
        s'.sp = 0 ∧ s'.boundary = b0 ∧ s'.tick = max s.tick b0 ∧ paceNow s' = objGet s 0x4300 3 ∧
        objGet s' 0x4200 0x14 = 2 ∧ objGet s' 0x5000 5 = 1 ∧ objGet s' 0x5000 8 = 0 ∧ s'.hold.held = false ∧
        s'.treadle.tasks = [] ∧ session s' = (if session s = 3 then 4 else session s)) := by
  intro waits b0
  refine ⟨fun h => congrArg Host.Outcome.next (if_pos ?_), fun h empty => ?_, fun p h loaded => ⟨fun some => ?_, fun none => ?_⟩⟩
  · exact Classical.byContradiction fun c => h ((startWaits_iff s).mp c)
  · have step : startTick s = startFault 0x4021 0 (objSet 0x4200 0x14 3 s) := by
      unfold startTick
      rw [if_neg ((startWaits_iff s).mpr h), empty]
    obtain ⟨started, state, -⟩ := startFailed_frame (s := s) [(0x4021, unitSite 4 0 0 (0 % 2 ^ 18))]
    have fault := recorded_raiseFault (s := objSet 0x4200 0x14 3 s) inv.dies 0x4021 (unitSite 4 0 0 (0 % 2 ^ 18))
    exact ⟨_, congrArg Host.Outcome.next step, Recorded.of_integrity fault rfl, started.trans h.2.1, state⟩
  · have step : startTick s = raiseFaults (startFaults s)
        (objSet 0x4200 0x14 3 { s with tick := max s.tick b0, boundary := b0 }) := by
      unfold startTick
      rw [if_neg ((startWaits_iff s).mpr h), loaded]
      exact if_neg some
    obtain ⟨started, state, tick⟩ := startFailed_frame (s := { s with tick := max s.tick b0, boundary := b0 }) (startFaults s)
    have grown : ∀ u : State, u.integrity = s.integrity → Grown s (objSet 0x4200 0x14 3 u) := fun u e =>
      (Grown.refl inv.dies).of_integrity (congrArg Integrity.dies e)
    exact ⟨_, congrArg Host.Outcome.next step, started.trans h.2.1, state, tick,
      fun f hf => raised_raiseFaults (fs := startFaults s) _ (grown _ rfl) hf⟩
  · have step : startTick s = beginJob b0 p (closeLinks s) := by
      unfold startTick
      rw [if_neg ((startWaits_iff s).mpr h), loaded]
      exact if_pos none
    have filled := sameFilled_closeLinks s
    have job : (closeLinks s).job = true := (job_of_filled filled).trans h.1
    have tick : (closeLinks s).tick = s.tick := tick_of_filled filled
    have floor : objGet (closeLinks s) 0x4300 3 = objGet s 0x4300 3 := filled.objGet (by decide)
    have ses : session (closeLinks s) = session s := filled.objGet (by decide)
    have begun := (begun_jobShown b0 (objGet (closeLinks s) 0x4300 3) _ p.hash (closeLinks s)).of_same
      (beginJob_same b0 p (closeLinks s))
    refine ⟨_, congrArg Host.Outcome.next step, begun.started, begun.job.trans job, begun.tp, begun.sp, begun.boundary,
      begun.tick.trans (by rw [tick]), begun.pace.trans floor, begun.state, begun.live, begun.waiting, begun.held,
      begun.tasks, begun.session.trans (by rw [ses])⟩

/-- Settles O57, by what the start tick, the end of a job, clearing and each security message do. -/
theorem jobsAndSessionsBeginAndEnd : Obligations.JobsAndSessionsBeginAndEnd := by
  refine ⟨startTick_frame, jobEnd_frame, clearing_frame, fun p nonce s => ?_, offerTimeout_frame, ideKm_frame⟩
  refine ⟨fun closed m x k c q b t => ⟨?_, ?_, ?_, ?_⟩, attestation_gives nonce, offer_gives nonce, fun up x k c => ?_,
    fun up q b t => ?_⟩
  case refine_6 =>
    obtain ⟨refused, unread, read⟩ := keyBundle_gives up q b t
    refine ⟨refused, fun two job => ?_⟩
    split
    case h_1 none => exact unread two job none
    case h_2 m found =>
      split
      case isTrue ok => exact (read m two job found).1 ok
      case isFalse bad => exact (read m two job found).2 bad
  case refine_5 =>
    obtain ⟨refused, right, wrong⟩ := accept_gives up x k c
    refine ⟨refused, fun job one => ?_⟩
    intro th prk
    split
    case isTrue h => exact right job one h
    case isFalse h => exact wrong job one h
  all_goals exact congrArg Host.Outcome.next (secAnswer_closed closed)

end Sys2Proof.Machine
end

section
/-! SUPPORT. A reset of a module whose persistent copies hold a value of the start state (R445, R386). -/

namespace Sys2Proof.Machine

open Sys2Proof Sys2Proof.Laws

/-- A module without input whose persistent copies hold 5 for the start state, an entry that is not persistent. -/
def copiedStart : State := { State.reset with flash := [(objKey 0x2200 1, 5)] }

/-- The start state after a command. -/
def startAfter (o : Host.Outcome State Fault Refusal) : Option Nat :=
  match o with
  | .next s => some (startState s)
  | _ => none

/-- The cold start of the module sets the start state from its copy. -/
theorem startAfter_inputValid : copiedStart.power.input = false ∧ startAfter (exec .inputValid copiedStart) = some 5 := by
  decide +kernel

/-- Refutes O58: a reset sets every entry of which a persistent copy is held, and the statement does not exclude a state
that holds one of the start state, which the cold start then leaves at 5, not 0. -/
theorem not_moduleStartAndResets : ¬ Obligations.ModuleStartAndResets := by
  intro h
  obtain ⟨absent, shown⟩ := startAfter_inputValid
  obtain ⟨s', run, -, -, -, zero, -⟩ := (h.1 copiedStart).2 absent
  rw [run] at shown
  exact absurd (zero.symm.trans (Option.some.inj shown)) (by decide)

end Sys2Proof.Machine
end

section
/-! SUPPORT. A notice that cannot be corrected, at a link with a late row to send (R234, R240). -/

namespace Sys2Proof.Machine

open Sys2Proof Sys2Proof.Laws

/-- A late row of a hand-off in SP 5, in the send buffer from the start. -/
def lateRow : Handed where
  slot := 0
  sp := 5
  tile := 0
  issue := 0
  woff := 0
  ready := some 0
  frame := emptyFrame 0 0
  late := true

/-- A job, three ticks into a pick, whose link 0 is up with all lanes and has the late row to send, which the module
awaits. -/
def awaitsLateRow : State := objSet 0x4100 0xF 3 (objSet 0x4100 1 2 { State.reset with
  job := true
  tick := 3
  links := [(0, { Link.reset with handed := [lateRow] })]
  hold := { State.reset.hold with awaited := [.handoff 0 5] } })

/-- The header of a notice at link 0. -/
def noticeAtLink (chk : RxCheck) : NoticeHdr where
  rx := { link := 0, seq := 0, chk := chk }
  sender := { x := 0, y := 0, z := 0 }
  travel := { dir := 0, hops := 0 }
  seq := 0
  sp := 0
  graphSeq := 0
  first := 0
  scanPos := 0

/-- What the module awaits after a command. -/
def awaitedAfter (o : Host.Outcome State Fault Refusal) : Option (List Awaited) :=
  match o with
  | .next s => some s.hold.awaited
  | _ => none

/-- The retry request goes to the port once the positions that have begun are filled: the late row is sent, and awaited
no more. -/
theorem awaitedAfter_badNotice :
    awaitedAfter (exec (.snapshotCommand (noticeAtLink (.bad 1)) 0) awaitsLateRow) = some [] := by
  decide +kernel

theorem inv_awaitsLateRow : Inv awaitsLateRow := ⟨rfl, rfl, rfl, rfl, rfl, rfl⟩

/-- The notice may be requested again. -/
theorem awaitsLateRow_live : linkLive awaitsLateRow = true ∧
    mget 0 (linkAt awaitsLateRow 0).failures 0 + 1 ≤ objGet awaitsLateRow 0x4100 0xF := by
  decide +kernel

/-- What a command that only sends leaves the module awaiting. -/
theorem awaited_of_onlySent {s t : State} (h : OnlySent s t) : t.hold.awaited = s.hold.awaited := by
  rw [h]

/-- Refutes O55: where a position of the link's pick has begun that takes a late row, the request for a bad notice sends
the row first, and the module awaits its hand-off no more, which is not only what packets sent may change. -/
theorem not_noticesReachTheTreadle : ¬ Obligations.NoticesReachTheTreadle := by
  intro h
  obtain ⟨live, few⟩ := awaitsLateRow_live
  obtain ⟨-, bad, -⟩ := h.1 (.snapshotCommand (noticeAtLink (.bad 1)) 0) (noticeAtLink (.bad 1)) awaitsLateRow
    inv_awaitsLateRow (.inr (.inr (.inr (.inr ⟨0, rfl⟩))))
  obtain ⟨s', run, -, only, -⟩ := (bad 1 live rfl).2 few
  have shown := awaitedAfter_badNotice
  rw [run] at shown
  have same : awaitsLateRow.hold.awaited = [] := (awaited_of_onlySent only).symm.trans (Option.some.inj shown)
  exact absurd same (by decide)

end Sys2Proof.Machine
end

section
/-! SUPPORT. Chain rows for a region that no tile has (R322, R324): a load whose base carries into the tile field of an
address. -/

namespace Sys2Proof.Machine

open Sys2Proof Sys2Proof.Laws

/-! ## Where a chain frame ends -/

/-- The region offset that a chain frame names. -/
def chainOffset (f : Frame) : Nat := 32768 * bits f.row.tag.toNat 0 5 + 128 * f.window.toNat + f.woff.toNat

/-- No tile has the row of a chain frame, whichever slot loads it. -/
def Unmapped (f : Frame) (s : State) : Prop :=
  ∀ i, i < 16 → addrTile (rowAddr (24 * f.ty.toNat + f.tx.toNat) 1 ((loadAt s i).base + chainOffset f)) = none

/-- `t` has the memory and the network of `s`. -/
def SameWay (s t : State) : Prop := t.mem = s.mem ∧ t.net = s.net

theorem sameWay_bump (i j n : Nat) (s : State) : SameWay s (bump i j n s) := by
  unfold bump
  split
  · exact ⟨rfl, rfl⟩
  · exact ⟨rfl, rfl⟩

theorem sameWay_failLoad (i reason : Nat) (s : State) : SameWay s (failLoad i reason s) := by
  unfold failLoad loadPut
  dsimp only
  split
  · rw [raiseVector_only]
    exact ⟨rfl, rfl⟩
  · exact ⟨rfl, rfl⟩

theorem backStore_of_noTile {a : Nat} (none : addrTile a = none) (f : RowFrame) (s : State) : backStore a f s = s := by
  unfold backStore
  rw [none]

/-- A chain row that no tile has is written nowhere. -/
theorem sameWay_landChain {f : Frame} {s : State} {i : Nat} (slot : i < 16) (far : Unmapped f s) :
    SameWay s (landChain i f s) := by
  have nowhere := backStore_of_noTile (far i slot) f.row s
  unfold chainOffset at nowhere
  unfold landChain
  dsimp only
  split
  · exact sameWay_failLoad ..
  · split
    · exact sameWay_failLoad ..
    · rw [nowhere]
      obtain ⟨mem, net⟩ := sameWay_bump 0x5200 3 1
        (countTile (24 * f.ty.toNat + f.tx.toNat) 0x2A 1 (cycleNow s) s)
      exact ⟨mem.trans (sent_countTile _ _ _ _ (Sent.refl s)).mem, net.trans (net_countEvent _ _ _ s)⟩

theorem openLoad_lt {s : State} {k i : Nat} (h : openLoad s k = some i) : i < 16 :=
  List.mem_range.mp (List.mem_of_find?_eq_some h)

theorem sameWay_endChain {f : Frame} {s : State} (src : Nat) (far : Unmapped f s) : SameWay s (endChain src f s) := by
  unfold endChain
  split
  · exact sameWay_bump ..
  · split
    · split
      · exact sameWay_bump ..
      case h_2 found => exact sameWay_landChain (openLoad_lt found) far
    · exact sameWay_bump 0x5200 4 1 s

/-! ## Its way over two dies -/

theorem passChains_of_none {s : State} (none : s.net.arrived = []) : passChains s = s := by
  have same : { s with net := { s.net with arrived := [] } } = s := by rw [← none]
  unfold passChains
  rw [none]
  exact same

/-- A chain frame that alone has crossed a die goes on. -/
theorem passChains_crossed {s : State} {src d : Nat} {r : List Nat} {f : Frame} (none : s.net.arrived = []) :
    passChains (crossed d 5 9 [.chainIn src r f] s) = passDie src r f (setSpent d 5 (spentBy s d 5 + 9) s) := by
  have one : (crossed d 5 9 [.chainIn src r f] s).net.arrived = [.chainIn src r f] :=
    congrArg (· ++ [Output.chainIn src r f]) none
  have same : { crossed d 5 9 [.chainIn src r f] s with
      net := { (crossed d 5 9 [.chainIn src r f] s).net with arrived := [] } } =
        setSpent d 5 (spentBy s d 5 + 9) s := by
    rw [← none]
    rfl
  unfold passChains
  rw [one]
  exact congrArg (passDie src r f) same

theorem passDie_of_idle {s : State} {src d : Nat} {r : List Nat} {f : Frame} (job : s.job = false) :
    passDie src (d :: r) f s = crossed d 5 9 [.chainIn src r f] s :=
  inject_of_crosses (List.cons_ne_nil _ _) (.inl job) (by simp [crosses])

/-- Outside a job a chain frame crosses its two dies at once, and where no tile has its row memory is as before. -/
theorem mem_takeChain_of_unmapped {s : State} {src a b : Nat} {f : Frame} {x : Nat × Nat} (way : chainWay s src f = some x)
    (dies : diesCrossed (sourceDie src) x.2 = [a, b]) (job : s.job = false) (none : s.net.arrived = [])
    (far : Unmapped f s) : (takeChain src f s).mem = s.mem := by
  obtain ⟨u, hu⟩ : ∃ u, u = setSpent b 5 (spentBy (setSpent a 5 (spentBy s a 5 + 9) s) b 5 + 9)
    (setSpent a 5 (spentBy s a 5 + 9) s) := ⟨_, rfl⟩
  have ends : SameWay u (endChain src f u) := sameWay_endChain src (by rw [hu]; exact far)
  have last : (endChain src f u).net.arrived = [] := by
    rw [ends.2, hu]
    exact none
  have run : takeChain src f s = endChain src f u := by
    unfold takeChain
    rw [way]
    dsimp only
    rw [dies, takeChains, passDie_of_idle job, passChains_crossed none, passDie_of_idle (s := setSpent a 5 _ s) job,
      passChains_crossed (s := setSpent a 5 _ s) none, ← hu]
    exact passChains_of_none last
  rw [run, ends.1, hu]
  rfl

/-! ## A load past the columns -/

/-- A sound row of zeros whose tag is 32: its lowest five bits, which count in the region offset, are 0. -/
def plateRow : RowFrame := freshFrame (zeros 512) 32

theorem slice_zeros : slice (zeros 512) 0 512 = zeros 512 := slice_self _ _ (List.length_replicate ..)

theorem proofOk_plateRow : proofOk plateRow = true := by
  rw [proofOk, plateRow, freshFrame]
  dsimp only
  rw [slice_zeros, slice_zeros]
  exact beq_self_eq_true _

/-- The base row that carries into the tile field of an address: the address of row `distantBase` of tile 0 is in
column 24. -/
def distantBase : Nat := 24 * 2 ^ 27

/-- A module at (0,0,0) whose slots load regions of one row from data port 0, their bases past the columns. -/
def loadsFar : State := objSet 0x5200 8 (36 * 2 ^ 24) (objSet 0x4200 1 0 (octSet 0x5200 0x10
  (zeros 12 ++ leBytes 4 1 ++ zeros 112)
  { State.reset with loads := List.replicate 16 { Load.reset with state := 1, base := distantBase } }))

/-- The chain of data port 0 loads slot 0, a region of one row. -/
theorem loadsFar_way : ((List.range 8).find? fun c => chainIn loadsFar c == 36) = some 0 ∧
    openLoad loadsFar 0 = some 0 ∧ 0 < recRows (loadRecord loadsFar 0) := by
  decide +kernel

/-- The tag of the row that no tile has, where memory holds no row. -/
theorem tag_of_empty {s : State} (h : s.mem = []) : (rowGet s (rowAddr 0 1 distantBase)).tag = 0 := by
  rw [rowGet, h]
  decide +kernel

end Sys2Proof.Machine
end

section
/-! SUPPORT. A chain row of a load whose region lies past the columns (R322, R324). -/

namespace Sys2Proof.Machine

open Sys2Proof Sys2Proof.Laws

/-- The frame that carries a row to region offset 0 of tile 0 of the module at (0,0,0). -/
def plateFrame : Frame where
  kind := .chain
  activity := 5
  dest := { x := 0, y := 0, z := 0 }
  tx := 0
  ty := 0
  window := 0
  woff := 0
  gen := 0
  landSp := 0
  seq := 0
  retry := none
  sendSp := 0
  row := plateRow

/-- The frame is for the module, over the dies C1 and C0. -/
theorem chainWay_plateFrame : plateFrame.dest = ownCoord loadsFar ∧ chainWay loadsFar 36 plateFrame = some (0, 0) ∧
    diesCrossed (sourceDie 36) 0 = [1, 0] := by
  decide +kernel

theorem unmapped_plateFrame : Unmapped plateFrame loadsFar := by
  unfold Unmapped
  decide +kernel

theorem exec_chain_of_port (f : Frame) (chk : RxCheck) (s : State) :
    exec (.chain 36 ⟨f, chk⟩) s = .next (takeChain 36 f s) :=
  congrArg Host.Outcome.next (dif_neg (by decide))

/-- Refutes O53: the statement does not bound the base of a load, and a row of a region that no tile has is written
nowhere. -/
theorem not_dataPortsSendAndChainsLoadPlates : ¬ Obligations.DataPortsSendAndChainsLoadPlates := by
  intro h
  obtain ⟨-, -, chains, -⟩ := h
  obtain ⟨way, opened, inside⟩ := loadsFar_way
  obtain ⟨own, goes, dies⟩ := chainWay_plateFrame
  obtain ⟨-, ends⟩ := chains 36 plateFrame (.good 0) loadsFar ⟨rfl, rfl, rfl, rfl, rfl, rfl⟩ rfl (fun _ _ => .inl rfl)
    (.inl (by decide))
  obtain ⟨-, -, -, lands⟩ := ends 0 way
  obtain ⟨-, -, written⟩ := lands 0 own opened (by decide)
  obtain ⟨s', run, row, -⟩ := written proofOk_plateRow inside (by decide)
  obtain rfl := Host.Outcome.next.inj ((exec_chain_of_port ..).symm.trans run)
  have stored : (rowGet (takeChain 36 plateFrame loadsFar) (rowAddr 0 1 distantBase)).tag = 32 := congrArg RowFrame.tag row
  exact absurd ((tag_of_empty (mem_takeChain_of_unmapped goes dies rfl rfl unmapped_plateFrame)).symm.trans stored)
    (by decide)

end Sys2Proof.Machine
end

section
/-! SUPPORT. A plate packet whose row has no tile (R322, R324, R417). -/

namespace Sys2Proof.Machine

open Sys2Proof Sys2Proof.Laws

/-- The first packet of stream 0, a plate segment of one row for tile 0 of the module at (0,0,0). -/
def platePacket : Packet where
  ip := { toPort := true, source := zeros 4, ipv6 := false, checksum := true }
  hdr := { magic := BitVec.ofNat 32 transportMagic, version := 1, ptype := 3, flags := 0, items := 1, stream := 0
           rsvd := 0, seq := 1, target := 0, ref := 0 }
  body := frameBytes plateRow
  tag := []

theorem plateRow_read : frameOf (slice platePacket.body 0 520) = plateRow := by
  show frameOf (slice (frameBytes plateRow) 0 520) = plateRow
  rw [slice_self _ _ (frameBytes_length _), frameOf_frameBytes, plateRow, freshFrame]
  dsimp only
  rw [slice_zeros, slice_zeros]

theorem platePacket_ok : packetOk loadsFar 0 3 platePacket = true ∧
    platePacket.hdr.seq.toNat = nextSeq loadsFar platePacket.hdr.stream.toNat ∧
    ((List.range 8).any fun c => chainIn loadsFar c == 36) = true := by
  have long : platePacket.body.length = 520 := frameBytes_length _
  refine ⟨?_, by decide +kernel, by decide +kernel⟩
  rw [packetOk, headerOk, long]
  decide +kernel

/-- The state once the packet's sequence is accepted. -/
def plateAccepted : State := acceptSeq 0 platePacket.hdr loadsFar

theorem chainWay_plateAccepted : chainWay plateAccepted 36 plateFrame = some (0, 0) := by
  decide +kernel

theorem plateAccepted_frame : plateAccepted.job = false ∧ plateAccepted.net.arrived = [] ∧
    plateAccepted.loads = loadsFar.loads ∧ plateAccepted.mem = [] := ⟨rfl, rfl, rfl, rfl⟩

theorem unmapped_plateAccepted : Unmapped plateFrame plateAccepted := unmapped_plateFrame

theorem platePut_one (s : State) : platePut 0 platePacket [plateRow] s = takeChain 36 plateFrame s := rfl

theorem exec_platePacket : exec (.plate 0 platePacket) loadsFar = .next (takeChain 36 plateFrame plateAccepted) := by
  obtain ⟨ok, seq, named⟩ := platePacket_ok
  have rows : bodyRows platePacket.hdr.items.toNat platePacket.body = [plateRow] :=
    congrArg (fun r => [r]) plateRow_read
  have body : plateBody loadsFar 0 platePacket = some platePacket.body := if_pos rfl
  refine congrArg Host.Outcome.next ?_
  show receivePacket 0 3 platePacket (takePlate 0 platePacket) loadsFar = _
  rw [receivePacket, if_neg (by decide), if_neg (by rw [ok]; decide), if_neg (Classical.not_not.mpr seq), takePlate,
    if_neg (by rw [named]; decide), if_neg (by decide +kernel), body]
  dsimp only
  rw [rows, platePut_one]
  rfl

/-- Refutes O52: the statement does not bound the base of a load, and a plate row for a region that no tile has is
written nowhere. -/
theorem not_dataPortsTakePackets : ¬ Obligations.DataPortsTakePackets := by
  intro h
  obtain ⟨-, -, plates, -⟩ := h
  obtain ⟨ok, seq, -⟩ := platePacket_ok
  obtain ⟨way, opened, inside⟩ := loadsFar_way
  obtain ⟨-, lands⟩ := plates 0 platePacket loadsFar rfl ok seq
  have proof : proofOk (frameOf (slice platePacket.body 0 520)) = true := by
    rw [plateRow_read]
    exact proofOk_plateRow
  obtain ⟨s', run, row, -⟩ := lands 0 0 way opened (by decide) (by decide +kernel) rfl rfl (by decide +kernel) rfl
    (fun _ _ => .inl rfl) proof (by rw [plateRow_read]; exact inside) (by decide)
  obtain rfl := Host.Outcome.next.inj (exec_platePacket.symm.trans run)
  obtain ⟨job, none, -, mem⟩ := plateAccepted_frame
  obtain ⟨-, -, dies⟩ := chainWay_plateFrame
  have empty := (mem_takeChain_of_unmapped chainWay_plateAccepted dies job none unmapped_plateAccepted).trans mem
  rw [plateRow_read] at row
  have stored : (rowGet (takeChain 36 plateFrame plateAccepted) (rowAddr 0 1 distantBase)).tag = 32 :=
    congrArg RowFrame.tag row
  exact absurd ((tag_of_empty empty).symm.trans stored) (by decide)

end Sys2Proof.Machine
end

section
/-! SUPPORT. What the tracer's accesses leave alone (R99, R105 to R108, R312): a read leaves every row as it is, a write
changes one row. -/

namespace Sys2Proof.Machine

open Sys2Proof Sys2Proof.Laws

/-- What the tracer's trees rest on: stored rows and their upsets, what has crossed the mesh, the place of the trees, the
counts of nodes and of entries completed. -/
structure TreeView where
  mem : List Host.Cell
  upsets : SMap (List Nat)
  arrived : List Output
  base : Nat
  depth : Nat
  nodes : Nat
  done : Nat

def treeView (s : State) : TreeView where
  mem := s.mem
  upsets := s.upsets
  arrived := s.net.arrived
  base := objGet s 0x5100 3
  depth := objGet s 0x5100 4
  nodes := objGet s 0x5100 8
  done := objGet s 0x5100 0xA

@[reducible] def SameTree (b s : State) : Prop := treeView s = treeView b

theorem sameTree_foldl {α : Type} {b : State} (f : State → α → State) (l : List α)
    (hf : ∀ s x, x ∈ l → SameTree b s → SameTree b (f s x)) (s : State) (h : SameTree b s) : SameTree b (l.foldl f s) :=
  List.foldlRecOn l f h fun _ k x hx => hf _ x hx k

/-! ## Entries that are no tree's -/

/-- An entry that is none of the tracer's. -/
def Foreign (i j : Nat) : Prop := ∀ k, k < 16 → objKey 0x5100 k ≠ objKey i j

theorem foreign_port (l : Nat) (_ : l < 0x1000) : Foreign (0x4100 + l) 0x11 := by
  intro k hk
  rw [objKey, objKey]
  omega

theorem foreign_memory (i j : Nat) (_ : j < 256) (_ : i < 0x5100) : Foreign i j := by
  intro k hk
  rw [objKey, objKey]
  omega

section
variable {b s : State}

/-- The view of a state depends on memory, the mesh and the entries. -/
theorem treeView_of_entries {u : State} (mem : u.mem = s.mem) (upsets : u.upsets = s.upsets)
    (arrived : u.net.arrived = s.net.arrived) (entries : ∀ k, k < 16 → objGet u 0x5100 k = objGet s 0x5100 k) :
    treeView u = treeView s := by
  unfold treeView
  rw [mem, upsets, arrived, entries 3 (by decide), entries 4 (by decide), entries 8 (by decide),
    entries 0xA (by decide)]

theorem sameTree_objSet {i j : Nat} (v : Nat) (other : Foreign i j) (h : SameTree b s) : SameTree b (objSet i j v s) :=
  Eq.trans (treeView_of_entries (s := s) (u := objSet i j v s) rfl rfl rfl fun k hk => objGet_objSet_ne _ _ (other k hk)) h

theorem bump_eq_objSet_or (i j n : Nat) (s : State) : bump i j n s = s ∨ ∃ v, bump i j n s = objSet i j v s := by
  unfold bump
  split
  · exact .inl rfl
  · exact .inr ⟨_, rfl⟩

theorem sameTree_bump {i j : Nat} (n : Nat) (other : Foreign i j) (h : SameTree b s) : SameTree b (bump i j n s) := by
  obtain same | ⟨v, set⟩ := bump_eq_objSet_or i j n s
  · rw [same]
    exact h
  · rw [set]
    exact sameTree_objSet v other h

theorem sameTree_countEvent (v c now : Nat) (h : SameTree b s) : SameTree b (countEvent v c now s) := by
  refine Eq.trans ?_ h
  have sent := sent_countEvent v c now (Sent.refl s)
  exact treeView_of_entries sent.mem sent.upsets (congrArg Net.arrived (net_countEvent v c now s))
    fun _ _ => objGet_countEvent ..

theorem sameTree_tileSet (t : Nat) (v : Tile) (h : SameTree b s) : SameTree b (tileSet t v s) := h

theorem sameTree_toPort {l : Nat} (small : l < 0x1000) (o : Output) (h : SameTree b s) : SameTree b (toPort l o s) := by
  have counted : SameTree b (bump (0x4100 + l) 0x11 1 s) := sameTree_bump 1 (foreign_port l small) h
  unfold toPort
  dsimp only
  split
  · exact counted
  · exact counted

theorem sameTree_sendFaults (code : BitVec 16) (origin : Coord) (stamp : Nat) (h : SameTree b s) :
    SameTree b (sendFaults code origin stamp s) := by
  refine sameTree_foldl _ _ (fun u l hl k => sameTree_toPort ?_ _ k) s h
  have := List.mem_range.mp (List.mem_filter.mp hl).1
  omega

theorem sameTree_beginStop (code : BitVec 16) (origin : Coord) (stamp : Nat) (h : SameTree b s) :
    SameTree b (beginStop code origin stamp s) := by
  have sent := sameTree_sendFaults code origin stamp h
  unfold beginStop
  dsimp only
  split
  · exact sameTree_objSet (s := { sendFaults code origin stamp s with
        integrity := { (sendFaults code origin stamp s).integrity with stopLine := true }
        ports := { (sendFaults code origin stamp s).ports with egress := false }
        treadle := { (sendFaults code origin stamp s).treadle with snapReq := none, snapAt := none } }) 0
      (fun k hk => by rw [objKey, objKey]; omega) sent
  · exact sent

theorem sameTree_raiseFault (code : Nat) (site : FaultSite) (h : SameTree b s) : SameTree b (raiseFault code site s) := by
  unfold raiseFault
  dsimp only
  split
  · exact sameTree_beginStop (s := { s with integrity := { s.integrity with
      dies := s.integrity.dies.set site.die.val (s.integrity.dies.getD site.die.val [] ++ [makeRecord s code site]) } })
      _ _ _ h
  · exact h

theorem sameTree_raiseFaults (fs : List (Nat × FaultSite)) (h : SameTree b s) : SameTree b (raiseFaults fs s) :=
  sameTree_foldl _ _ (fun _ _ _ k => sameTree_raiseFault _ _ k) s h

theorem sameTree_tableWrite (h : SameTree b s) : SameTree b (tableWrite s) := by
  unfold tableWrite
  split
  · exact h
  · exact h

theorem sameTree_markRow (a : Nat) (h : SameTree b s) : SameTree b (markRow a s) := by
  unfold markRow
  split
  · split
    · exact h
    · split
      · exact sameTree_raiseFault _ _ h
      · exact sameTree_bump 1 (foreign_memory _ _ (by decide) (by decide))
          (sameTree_tableWrite (s := { s with integrity := { s.integrity with markRows := s.integrity.markRows ++ [a] } }) h)
  · exact h

theorem sameTree_markFaulted (fs : List (Nat × FaultSite)) (h : SameTree b s) : SameTree b (markFaulted fs s) := by
  refine sameTree_foldl _ _ (fun u f _ k => ?_) s h
  split
  · exact sameTree_markRow _ k
  · exact k

theorem sameTree_queueFix (a : Nat) (h : SameTree b s) : SameTree b (queueFix a s) := by
  unfold queueFix
  split
  · exact h
  · dsimp only
    split
    · exact h
    · exact h

theorem sameTree_serveSlice (a c rank : Nat) (h : SameTree b s) : SameTree b (serveSlice a c rank s) := by
  unfold serveSlice requestAccess
  split
  · exact h
  · exact h

/-! ## A row read -/

/-- The effect of a row read: counts and events of corrections, faults, write-backs to come; nothing else. -/
structure OfRead (x : Fx) : Prop where
  rows : x.rows = []
  bumps : ∀ y ∈ x.bumps, Foreign y.1.1 y.1.2
  expo : x.expo = none
  holds : x.holds = []
  asks : x.asks = []
  stalls : x.stalls = []

theorem ofRead_fault {x : Fx} (h : OfRead x) (code : Nat) (site : FaultSite) : OfRead (x.also (Fx.fault code site)) where
  rows := by rw [Fx.also, h.rows]; rfl
  bumps := by
    rw [Fx.also]
    intro y hy
    exact h.bumps y (by simpa [Fx.fault, Fx.none] using hy)
  expo := by rw [Fx.also, h.expo]; rfl
  holds := by rw [Fx.also, h.holds]; rfl
  asks := by rw [Fx.also, h.asks]; rfl
  stalls := by rw [Fx.also, h.stalls]; rfl

theorem foreign_ite {c : Prop} [Decidable c] {x y : Nat × Nat} (hx : Foreign x.1 x.2) (hy : Foreign y.1 y.2) :
    Foreign (if c then x else y).1 (if c then x else y).2 := by
  split
  · exact hx
  · exact hy

theorem ofRead_fetchFx (s : State) (t a bundle : Nat) : OfRead (fetchFx s t a bundle) := by
  have plain : ∀ n, OfRead { Fx.none with frees := n } := fun _ => ⟨rfl, fun _ h => absurd h List.not_mem_nil, rfl, rfl, rfl, rfl⟩
  have fixed : ∀ (e : Nat × Nat) (n m : Nat) (l : List Nat), Foreign e.1 e.2 →
      OfRead { Fx.none with bumps := [(e, 1)], events := [(0x22, n)], frees := m, fixes := l } := by
    intro e n m l he
    exact ⟨rfl, fun y hy => by rw [List.mem_singleton.mp hy]; exact he, rfl, rfl, rfl, rfl⟩
  have fix : OfRead (if (fetchRow s a).corrected = 0 then
        { Fx.none with frees := if (upsetCounts s a).any (2 < ·) then 1 else 0 }
      else { Fx.none with
        bumps := [(if addrSpace a = 1 then (0x3100, 4) else if addrSpace a = 0 then (0x3100, 5) else (0x3200, 0x13), 1)]
        events := [(0x22, (fetchRow s a).corrected)]
        frees := if (upsetCounts s a).any (2 < ·) then 1 else 0
        fixes := if addrSpace a = 1 then [a] else [] }) := by
    split
    · exact plain _
    · exact fixed _ _ _ _ (foreign_ite (foreign_memory _ _ (by decide) (by decide))
        (foreign_ite (foreign_memory _ _ (by decide) (by decide)) (foreign_memory _ _ (by decide) (by decide))))
  unfold fetchFx
  dsimp only
  split
  · exact ofRead_fault fix _ _
  · split
    · exact ofRead_fault fix _ _
    · exact fix

theorem sameTree_applyFx {x : Fx} (t c : Nat) (read : OfRead x) (h : SameTree b s) : SameTree b (applyFx t c x s) := by
  have counted : SameTree b (x.events.foldl (fun s e => countTile t e.1 e.2 c s)
      (x.bumps.foldl (fun s y => bump y.1.1 y.1.2 y.2 s) s)) :=
    sameTree_foldl _ _ (fun _ _ _ k => sameTree_countEvent _ _ _ k) _
      (sameTree_foldl _ _ (fun _ y hy k => sameTree_bump _ (read.bumps y hy) k) _ h)
  unfold applyFx
  dsimp only
  rw [read.rows, read.holds, read.asks, read.stalls, read.expo]
  refine sameTree_markFaulted _ (sameTree_raiseFaults _ ?_)
  exact sameTree_foldl _ _ (fun _ _ _ k => sameTree_queueFix _ k) _ counted

theorem sameTree_backRow (a : Nat) (h : SameTree b s) : SameTree b (backRow a s).2 := by
  unfold backRow
  split
  · exact h
  · refine sameTree_applyFx _ _ (ofRead_fetchFx ..) ?_
    split
    · exact sameTree_serveSlice _ _ _ h
    · exact h

theorem sameTree_backRead (a : Nat) (h : SameTree b s) : SameTree b (backRead a s).2 := by
  unfold backRead
  split
  · exact h
  · exact sameTree_backRow a h

/-! ## A row written -/

theorem sameTree_rowPut {u : State} (a : Nat) (f : RowFrame) (h : treeView s = treeView u) :
    treeView (rowPut a f s) = treeView (rowPut a f u) :=
  congrArg (fun v : TreeView => { v with mem := memPut v.mem (520 * a) (frameBytes f), upsets := mdel v.upsets a }) h

theorem sameTree_seenBeside (t w a : Nat) (f : RowFrame) (h : SameTree b s) : SameTree b (seenBeside t w a f s) := by
  unfold seenBeside
  split
  · exact h
  · split
    · exact h
    · dsimp only
      split
      · exact h
      · exact sameTree_foldl (b := b) (fun s v => tileSet v ((tileAt s v).seeBeside s a w f) s) _ (fun _ _ _ k => k) s h

theorem sameTree_dropFix (a : Nat) (h : SameTree b s) : SameTree b (dropFix a s) := by
  unfold dropFix
  split
  · exact h
  · dsimp only
    split
    · exact sameTree_bump 1 (foreign_memory _ _ (by decide) (by decide)) (sameTree_tileSet _ _ h)
    · exact h

/-- A background write of a row that a tile has changes that row. -/
theorem treeView_backStore {a t : Nat} (tile : addrTile a = some t) (f : RowFrame) (h : SameTree b s) :
    treeView (backStore a f s) = treeView (rowPut a f b) := by
  unfold backStore
  rw [tile]
  dsimp only
  refine sameTree_dropFix a (sameTree_seenBeside _ _ _ _ (sameTree_rowPut a f ?_))
  refine sameTree_raiseFaults _ (sameTree_tileSet _ _ ?_)
  split
  · exact sameTree_serveSlice _ _ _ h
  · exact h

end

end Sys2Proof.Machine
end

section
/-! SUPPORT. Bytes of node rows and of ring entries (R312, R314): what a field reads after others have been written. -/

namespace Sys2Proof.Machine

open Sys2Proof Sys2Proof.Laws

/-! ## Parts of byte strings -/

theorem slice_ext {a b : Bytes} {o p n : Nat} (h : ∀ i, i < n → a.getD (o + i) 0 = b.getD (p + i) 0) :
    slice a o n = slice b p n := by
  rw [slice_eq_map, slice_eq_map]
  exact List.map_congr_left fun i hi => h i (List.mem_range.mp hi)

theorem slice_left {a b : Bytes} {o n : Nat} (h : o + n ≤ a.length) : slice (a ++ b) o n = slice a o n :=
  slice_ext fun i hi => by
    rw [List.getD_eq_getElem?_getD, List.getD_eq_getElem?_getD, List.getElem?_append_left (by omega)]

theorem slice_right {a b : Bytes} {o n : Nat} (h : a.length ≤ o) : slice (a ++ b) o n = slice b (o - a.length) n := by
  refine slice_ext fun i _ => ?_
  rw [List.getD_eq_getElem?_getD, List.getD_eq_getElem?_getD, List.getElem?_append_right (by omega), show o + i - a.length = o - a.length + i by omega]

theorem getD_slice {bs : Bytes} {m i : Nat} (h : i < m) : (slice bs 0 m).getD i 0 = bs.getD i 0 := by
  rw [slice_eq_map, List.getD_eq_getElem?_getD, List.getElem?_map, List.getElem?_range h]
  exact congrArg (fun j => bs.getD j 0) (Nat.zero_add i)

theorem slice_within {bs : Bytes} {o n m : Nat} (h : o + n ≤ m) : slice (slice bs 0 m) o n = slice bs o n :=
  slice_ext fun _ _ => getD_slice (by omega)

/-! ## Bytes written over others -/

section
variable {bs v : Bytes} {o : Nat}

theorem patch_eq (fits : o + v.length ≤ bs.length) : patch bs o v = bs.take o ++ v ++ bs.drop (o + v.length) := by
  unfold patch
  refine List.take_of_length_le ?_
  simp only [List.length_append, List.length_take, List.length_drop]
  omega

theorem length_patch (fits : o + v.length ≤ bs.length) : (patch bs o v).length = bs.length := by
  rw [patch_eq fits]
  simp only [List.length_append, List.length_take, List.length_drop]
  omega

/-- What has been written reads back. -/
theorem slice_patch (fits : o + v.length ≤ bs.length) {k n : Nat} (h : k + n ≤ v.length) :
    slice (patch bs o v) (o + k) n = slice v k n := by
  have front : (bs.take o).length = o := List.length_take_of_le (by omega)
  rw [patch_eq fits, List.append_assoc, slice_right (by omega), front, slice_left (by omega), Nat.add_sub_cancel_left]

/-- Bytes apart from what is written stay. -/
theorem slice_patch_apart (fits : o + v.length ≤ bs.length) {p n : Nat} (h : p + n ≤ o ∨ o + v.length ≤ p) :
    slice (patch bs o v) p n = slice bs p n := by
  have front : (bs.take o).length = o := List.length_take_of_le (by omega)
  rw [patch_eq fits, List.append_assoc]
  obtain before | after := h
  · rw [slice_left (by omega)]
    conv => rhs; rw [← List.take_append_drop o bs, slice_left (by omega)]
  · rw [slice_right (by omega), slice_right (by omega), front]
    conv => rhs; rw [← List.take_append_drop (o + v.length) bs,
      slice_right (by rw [List.length_take_of_le fits]; exact after), List.length_take_of_le fits]
    rw [Nat.sub_sub]

theorem leAt_patch (fits : o + v.length ≤ bs.length) {k n : Nat} (h : k + n ≤ v.length) :
    leAt (patch bs o v) (o + k) n = leAt v k n := congrArg leNat (slice_patch fits h)

theorem leAt_patch_apart (fits : o + v.length ≤ bs.length) {p n : Nat} (h : p + n ≤ o ∨ o + v.length ≤ p) :
    leAt (patch bs o v) p n = leAt bs p n := congrArg leNat (slice_patch_apart fits h)

end

theorem leAt_leBytes (n v : Nat) : leAt (leBytes n v) 0 n = v % 256 ^ n := by
  rw [leAt, slice_self _ _ (leBytes_length n v), leNat_leBytes]

/-- A number written where it fits. -/
theorem leAt_patch_number {bs : Bytes} {o n v : Nat} (fits : o + n ≤ bs.length) (small : v < 256 ^ n) :
    leAt (patch bs o (leBytes n v)) o n = v := by
  have h := leAt_patch (bs := bs) (v := leBytes n v) (o := o) (k := 0) (n := n) (by rw [leBytes_length]; exact fits)
    (by rw [leBytes_length]; omega)
  rw [Nat.add_zero] at h
  rw [h, leAt_leBytes, Nat.mod_eq_of_lt small]

theorem leAt_lt (bs : Bytes) (o n : Nat) : leAt bs o n < 256 ^ n := by
  have bound : ∀ l : Bytes, leNat l < 256 ^ l.length := by
    intro l
    induction l with
    | nil => decide
    | cons b l ih =>
      have := b.isLt
      rw [leNat, List.length_cons, Nat.pow_succ]
      omega
  have h := bound (slice bs o n)
  rwa [slice_length] at h

/-! ## Node rows -/

/-- The pin count of a row whose pin count has been written. -/
theorem nodePins_patch {r : Bytes} {n : Nat} (long : r.length = 512) (small : n < 65536) :
    nodePins (patch r 80 (leBytes 2 n)) = n := leAt_patch_number (by omega) (by omega)

/-- The eight bytes of a child entry. -/
def kidBytes (k : Nat × Nat) : Bytes := leBytes 4 k.1 ++ leBytes 4 k.2

theorem slice_kids (l : List (Nat × Nat)) {i : Nat} {k : Nat × Nat} (at_ : l[i]? = some k) :
    slice (l.map kidBytes).flatten (8 * i) 8 = kidBytes k := by
  have long : ∀ k : Nat × Nat, (kidBytes k).length = 8 := fun k => by
    rw [kidBytes, List.length_append, leBytes_length, leBytes_length]
  induction l generalizing i with
  | nil => exact absurd at_ (by simp)
  | cons x l ih =>
    rw [List.map_cons, List.flatten_cons]
    cases i with
    | zero =>
      obtain rfl : x = k := by simpa using at_
      exact (slice_left (Nat.le_of_eq (long x).symm)).trans (slice_self _ _ (long x))
    | succ i =>
      rw [slice_right (by rw [long]; omega), long, show 8 * (i + 1) - 8 = 8 * i by omega]
      exact ih (by simpa using at_)

/-- A child entry of a row whose entries have been written. -/
theorem leAt_putKids {l : List (Nat × Nat)} {r : Bytes} {i : Nat} {k : Nat × Nat} (long : r.length = 512)
    (room : l.length ≤ 52) (at_ : l[i]? = some k) (small : k.1 < 2 ^ 32 ∧ k.2 < 2 ^ 32) :
    (leAt (putKids l r) (96 + 8 * i) 4, leAt (putKids l r) (100 + 8 * i) 4) = k := by
  have count : (leBytes 2 l.length).length = 2 := leBytes_length ..
  have hi : i < l.length := (List.getElem?_eq_some_iff.mp at_).1
  have entry : slice (putKids l r) (96 + 8 * i) 8 = kidBytes k := by
    unfold putKids
    rw [slice_patch (by rw [length_patch (by omega), slice_length]; omega) (by rw [slice_length]; omega),
      slice_within (by omega)]
    exact slice_kids l at_
  have first : leAt (putKids l r) (96 + 8 * i) 4 = k.1 := by
    have h : slice (slice (putKids l r) (96 + 8 * i) 8) 0 4 = slice (putKids l r) (96 + 8 * i) 4 := by
      rw [slice_eq_map (putKids l r) _ 8]
      refine slice_ext fun j hj => ?_
      rw [List.getD_eq_getElem?_getD, List.getElem?_map, List.getElem?_range (by omega)]
      exact congrArg (fun j => (putKids l r).getD (96 + 8 * i + j) 0) (Nat.zero_add j)
    rw [leAt, ← h, entry, kidBytes, slice_left (Nat.le_of_eq (leBytes_length 4 k.1).symm)]
    exact (leAt_leBytes 4 k.1).trans (Nat.mod_eq_of_lt small.1)
  have second : leAt (putKids l r) (100 + 8 * i) 4 = k.2 := by
    have h : slice (slice (putKids l r) (96 + 8 * i) 8) 4 4 = slice (putKids l r) (100 + 8 * i) 4 := by
      rw [slice_eq_map (putKids l r) _ 8]
      refine slice_ext fun j hj => ?_
      rw [List.getD_eq_getElem?_getD, List.getElem?_map, List.getElem?_range (by omega)]
      exact congrArg (fun j => (putKids l r).getD j 0) (by omega)
    rw [leAt, ← h, entry, kidBytes, slice_right (Nat.le_of_eq (leBytes_length 4 k.1)), leBytes_length]
    exact (leAt_leBytes 4 k.2).trans (Nat.mod_eq_of_lt small.2)
  rw [first, second]

/-- The children of a row whose entries have been written. -/
theorem kidList_putKids {l : List (Nat × Nat)} {r : Bytes} (long : r.length = 512) (room : l.length ≤ 52)
    (small : ∀ k ∈ l, k.1 < 2 ^ 32 ∧ k.2 < 2 ^ 32) : kidList (putKids l r) = l := by
  have count : (leBytes 2 l.length).length = 2 := leBytes_length ..
  have kids : nodeKids (putKids l r) = l.length := by
    unfold putKids nodeKids
    rw [leAt_patch_apart (by rw [length_patch (by omega), slice_length]; omega) (.inl (by omega)),
      leAt_patch_number (by omega) (by omega)]
  rw [kidList, kids, Nat.min_eq_right room]
  refine List.ext_getElem? fun i => ?_
  rw [List.getElem?_map]
  by_cases inside : i < l.length
  · have at_ : l[i]? = some l[i] := List.getElem?_eq_getElem inside
    rw [List.getElem?_range inside, at_]
    exact congrArg some (leAt_putKids long room at_ (small _ (List.getElem_mem inside)))
  · rw [List.getElem?_eq_none (by simpa using inside), List.getElem?_eq_none (by omega)]
    rfl

theorem kidList_small {r : Bytes} : ∀ k ∈ kidList r, k.1 < 2 ^ 32 ∧ k.2 < 2 ^ 32 := by
  intro k hk
  obtain ⟨i, -, rfl⟩ := List.mem_map.mp hk
  exact ⟨leAt_lt r _ 4, leAt_lt r _ 4⟩

theorem length_kidList (r : Bytes) : (kidList r).length = min 52 (nodeKids r) := by
  rw [kidList, List.length_map, List.length_range]

/-! ## A new node -/

section
variable {tokens : Bytes} {page parent epoch key last : Nat}

/-- The bytes of a node row after its tokens. -/
def nodeTail (page parent epoch flags key last : Nat) : Bytes :=
  leBytes 4 page ++ (leBytes 4 parent ++ (zeros 4 ++ (leBytes 2 epoch ++ (zeros 4 ++ (leBytes 2 flags ++ (leBytes 2 key
    ++ (zeros 2 ++ leBytes 8 last)))))))

theorem nodeBytes_eq (flags : Nat) : nodeBytes tokens page parent epoch flags key last =
    slice (slice tokens 0 64 ++ nodeTail page parent epoch flags key last) 0 512 := by
  unfold nodeBytes nodeTail
  simp only [List.append_assoc]

theorem nodeTokens_nodeBytes (flags : Nat) (long : tokens.length = 64) :
    nodeTokens (nodeBytes tokens page parent epoch flags key last) = tokens := by
  rw [nodeTokens, nodeBytes_eq, slice_within (by decide), slice_left (Nat.le_of_eq (slice_length tokens 0 64).symm),
    slice_slice, slice_self _ _ long]

theorem leAt_nodeBytes (flags : Nat) {o n : Nat} (h : o + n ≤ 448) :
    leAt (nodeBytes tokens page parent epoch flags key last) (64 + o) n = leAt (nodeTail page parent epoch flags key last) o n := by
  rw [leAt, nodeBytes_eq, slice_within (by omega), slice_right (by rw [slice_length]; omega), slice_length,
    Nat.add_sub_cancel_left]
  rfl

theorem nodeParent_nodeBytes (flags : Nat) (small : parent < 2 ^ 32) :
    nodeParent (nodeBytes tokens page parent epoch flags key last) = parent := by
  rw [nodeParent, show (68 : Nat) = 64 + 4 from rfl, leAt_nodeBytes _ (by decide), leAt, nodeTail,
    slice_right (Nat.le_of_eq (leBytes_length 4 page)), leBytes_length,
    slice_left (Nat.le_of_eq (leBytes_length 4 parent).symm)]
  exact (leAt_leBytes 4 parent).trans (Nat.mod_eq_of_lt small)

theorem nodeUsed_nodeBytes : nodeUsed (nodeBytes tokens page parent epoch 1 key last) = true := by
  have flags : leAt (nodeBytes tokens page parent epoch 1 key last) 82 2 = 1 := by
    rw [show (82 : Nat) = 64 + 18 from rfl, leAt_nodeBytes _ (by decide), leAt, nodeTail]
    rw [slice_right (by rw [leBytes_length]; decide), slice_right (by simp), slice_right (by simp), slice_right (by simp),
      slice_right (by simp), slice_left (by simp)]
    simp only [leBytes_length, zeros_length]
    exact leAt_leBytes 2 1
  rw [nodeUsed, flags]
  rfl

theorem length_nodeBytes (flags : Nat) : (nodeBytes tokens page parent epoch flags key last).length = 512 :=
  slice_length ..

end

end Sys2Proof.Machine
end

section
/-! SUPPORT. Node rows of the tracer's trees (R312): where they lie, what a read of one returns, what a write of one
changes. -/

namespace Sys2Proof.Machine

open Sys2Proof Sys2Proof.Laws

/-! ## Where nodes lie -/

/-- The trees lie in the beam. -/
def InBeam (s : State) : Prop := objGet s 0x5100 3 + objGet s 0x5100 4 ≤ 737280

/-- The tile of a node's row. -/
def nodeTile (d m : Nat) : Nat := 24 * (16 * (d / 2) + m % 192 / 12) + (12 * (d % 2) + m % 192 % 12)

theorem nodeAddr_eq (s : State) (d m : Nat) : nodeAddr s d m = rowAddr (nodeTile d m) 1 (objGet s 0x5100 3 + m / 192) := rfl

theorem addrRow_rowAddr {t row : Nat} (inside : row < 2 ^ 20) : addrRow (rowAddr t 1 row) = row := by
  show (t % 24 * 134217728 + t / 24 * 4194304 + 1 * 1048576 + row) / 1 % 1048576 = row
  omega

section
variable {b s : State} {d m c : Nat}

theorem nodeTile_lt (die : d < 4) : nodeTile d m < 768 := by
  unfold nodeTile
  omega

theorem nodeRow_lt (beam : InBeam s) (inTree : m < treeNodes s) : objGet s 0x5100 3 + m / 192 < 737280 := by
  unfold InBeam at beam
  unfold treeNodes at inTree
  omega

theorem addrTile_nodeAddr (die : d < 4) (beam : InBeam s) (inTree : m < treeNodes s) :
    addrTile (nodeAddr s d m) = some (nodeTile d m) := by
  have row := nodeRow_lt beam inTree
  exact fields_of_rowAddr (nodeTile_lt die) (by omega)

/-- A node's row exists in its column. -/
theorem nodeAddr_inside (die : d < 4) (beam : InBeam s) (inTree : m < treeNodes s) :
    ((addrTile (nodeAddr s d m)).isNone || spaceRows (addrSpace (nodeAddr s d m)) ≤ addrRow (nodeAddr s d m)) = false := by
  have row := nodeRow_lt beam inTree
  rw [addrTile_nodeAddr die beam inTree, nodeAddr_eq, addrSpace_rowAddr (by decide) (Nat.lt_trans row (by decide)),
    addrRow_rowAddr (Nat.lt_trans row (by decide))]
  simp only [Option.isNone_some, Bool.false_or, decide_eq_false_iff_not]
  exact Nat.not_le.mpr row

/-- Nodes lie in rows of their own. -/
theorem nodeAddr_inj (die : d < 4) (beam : InBeam s) (hm : m < treeNodes s) (hc : c < treeNodes s)
    (same : nodeAddr s d c = nodeAddr s d m) : c = m := by
  have tiles : nodeTile d c = nodeTile d m := Option.some.inj
    ((addrTile_nodeAddr die beam hc).symm.trans ((congrArg addrTile same).trans (addrTile_nodeAddr die beam hm)))
  have row := congrArg addrRow same
  have rc := nodeRow_lt beam hc
  have rm := nodeRow_lt beam hm
  rw [nodeAddr_eq, nodeAddr_eq, addrRow_rowAddr (by omega), addrRow_rowAddr (by omega)] at row
  unfold nodeTile at tiles
  omega

/-! ## The view and the entries of the tracer -/

theorem sameTree_objSet_other {j : Nat} (v : Nat) (other : j ≠ 3 ∧ j ≠ 4 ∧ j ≠ 8 ∧ j ≠ 0xA) (_ : j < 256)
    (h : SameTree b s) : SameTree b (objSet 0x5100 j v s) := by
  refine Eq.trans ?_ h
  have ne : ∀ k, k < 256 → k ≠ j → objGet (objSet 0x5100 j v s) 0x5100 k = objGet s 0x5100 k := fun k hk e =>
    objGet_objSet_ne _ _ (by rw [objKey, objKey]; omega)
  obtain ⟨h3, h4, h8, hA⟩ := other
  unfold treeView
  rw [ne 3 (by decide) h3.symm, ne 4 (by decide) h4.symm, ne 8 (by decide) h8.symm, ne 0xA (by decide) hA.symm]
  rfl

theorem sameTree_bump_other {j : Nat} (n : Nat) (other : j ≠ 3 ∧ j ≠ 4 ∧ j ≠ 8 ∧ j ≠ 0xA) (small : j < 256)
    (h : SameTree b s) : SameTree b (bump 0x5100 j n s) := by
  obtain same | ⟨v, set⟩ := bump_eq_objSet_or 0x5100 j n s
  · rw [same]
    exact h
  · rw [set]
    exact sameTree_objSet_other v other small h

/-- The count of nodes set alike. -/
theorem treeView_objSet_nodes (v : Nat) : treeView (objSet 0x5100 8 v s) = { treeView s with nodes := v } := by
  unfold treeView
  rw [objGet_objSet_same, objGet_objSet_ne _ _ (by decide), objGet_objSet_ne _ _ (by decide),
    objGet_objSet_ne _ _ (by decide)]
  rfl

theorem treeView_bump_nodes (n : Nat) :
    treeView (bump 0x5100 8 n s) = { treeView s with nodes := (treeView s).nodes + n } := by
  unfold bump
  split
  case isTrue zero => rw [zero]; rfl
  case isFalse => exact treeView_objSet_nodes _

theorem treeView_bump_done (n : Nat) : treeView (bump 0x5100 0xA n s) = { treeView s with done := (treeView s).done + n } := by
  unfold bump
  split
  case isTrue zero => rw [zero]; rfl
  case isFalse =>
    unfold treeView
    rw [objGet_objSet_same, objGet_objSet_ne _ _ (by decide), objGet_objSet_ne _ _ (by decide),
      objGet_objSet_ne _ _ (by decide)]
    rfl

theorem sameTree_setSpent (e act n : Nat) (h : SameTree b s) : SameTree b (setSpent e act n s) := h

theorem sameTree_tracerAccess (h : SameTree b s) : SameTree b (tracerAccess d s) := by
  unfold tracerAccess
  split
  · exact sameTree_setSpent _ _ _ (sameTree_countEvent _ _ _ (sameTree_bump 1 (foreign_memory _ _ (by decide) (by decide)) h))
  · exact h

theorem mem_of_sameTree (h : SameTree b s) : s.mem = b.mem := congrArg TreeView.mem h
theorem upsets_of_sameTree (h : SameTree b s) : s.upsets = b.upsets := congrArg TreeView.upsets h
theorem arrived_of_sameTree (h : SameTree b s) : s.net.arrived = b.net.arrived := congrArg TreeView.arrived h
theorem base_of_sameTree (h : SameTree b s) : objGet s 0x5100 3 = objGet b 0x5100 3 := congrArg TreeView.base h
theorem depth_of_sameTree (h : SameTree b s) : objGet s 0x5100 4 = objGet b 0x5100 4 := congrArg TreeView.depth h

theorem treeNodes_of_sameTree (h : SameTree b s) : treeNodes s = treeNodes b := by
  rw [treeNodes, treeNodes, depth_of_sameTree h]

theorem nodeAddr_of_sameTree (h : SameTree b s) : nodeAddr s d m = nodeAddr b d m := by
  rw [nodeAddr_eq, nodeAddr_eq, base_of_sameTree h]

/-! ## Reads -/

theorem frame_fetchRow_eq (s : State) (a : Nat) : (fetchRow s a).frame =
    if mget [] s.upsets a = [] then rowGet s a
    else if (upsetCounts s a).any (2 < ·) then flipFrame (mget [] s.upsets a) (rowGet s a) else rowGet s a := by
  unfold fetchRow
  dsimp only
  split
  · rfl
  · rfl

/-- The frame that a read delivers depends on the stored rows and their upsets. -/
theorem frame_fetchRow (mem : s.mem = b.mem) (upsets : s.upsets = b.upsets) (a : Nat) :
    (fetchRow s a).frame = (fetchRow b a).frame := by
  have rows : rowGet s a = rowGet b a := by rw [rowGet, rowGet, mem]
  have counts : upsetCounts s a = upsetCounts b a := by rw [upsetCounts, upsetCounts, upsets]
  rw [frame_fetchRow_eq, frame_fetchRow_eq, rows, counts, upsets]

theorem nodeGet_of_rows (mem : s.mem = b.mem) (upsets : s.upsets = b.upsets)
    (base : objGet s 0x5100 3 = objGet b 0x5100 3) : nodeGet s d m = nodeGet b d m := by
  rw [nodeGet, nodeGet, nodeAddr_eq, nodeAddr_eq, base, frame_fetchRow mem upsets]

theorem length_nodeGet : (nodeGet s d m).length = 512 := by
  unfold nodeGet
  rw [frame_fetchRow_eq]
  split
  · exact slice_length ..
  · split
    · exact slice_length ..
    · exact slice_length ..

/-- A background read of a row that a column has. -/
theorem backRead_of_inside {a : Nat} (inside : ((addrTile a).isNone || spaceRows (addrSpace a) ≤ addrRow a) = false) :
    (backRead a s).1 = (fetchRow s a).frame.data := by
  rw [backRead_row a s inside]
  unfold backRow
  split
  case h_1 none => rw [none] at inside; cases inside
  case h_2 => rfl

/-- A background read of the rows of `b`, whatever the row. -/
theorem backRead_of_sameTree (h : SameTree b s) (a : Nat) : (backRead a s).1 = (backRead a b).1 := by
  by_cases inside : ((addrTile a).isNone || spaceRows (addrSpace a) ≤ addrRow a) = true
  · unfold backRead
    rw [inside]
    rfl
  · have row := Bool.eq_false_iff.mpr inside
    rw [backRead_of_inside row, backRead_of_inside row, frame_fetchRow (mem_of_sameTree h) (upsets_of_sameTree h)]

/-- A row read, with its read counted. -/
def countedRead (r : Bytes × State) : Bytes × State := (r.1, bump 0x5100 0xB 1 r.2)

theorem nodeRead_counted (d m : Nat) (s : State) :
    nodeRead d m s = countedRead (backRead (nodeAddr s d m) (tracerAccess d s)) := rfl

theorem fst_countedRead (r : Bytes × State) : (countedRead r).1 = r.1 := rfl
theorem snd_countedRead (r : Bytes × State) : (countedRead r).2 = bump 0x5100 0xB 1 r.2 := rfl

theorem fst_nodeRead (d m : Nat) (s : State) :
    (nodeRead d m s).1 = (backRead (nodeAddr s d m) (tracerAccess d s)).1 := by
  rw [nodeRead_counted, fst_countedRead]

theorem snd_nodeRead (d m : Nat) (s : State) :
    (nodeRead d m s).2 = bump 0x5100 0xB 1 (backRead (nodeAddr s d m) (tracerAccess d s)).2 := by
  rw [nodeRead_counted, snd_countedRead]

theorem sameTree_nodeRead (h : SameTree b s) : SameTree b (nodeRead d m s).2 := by
  rw [snd_nodeRead]
  exact sameTree_bump_other 1 (by decide) (by decide) (sameTree_backRead _ (sameTree_tracerAccess h))

/-- A node's row is read as it stands. -/
theorem nodeRead_of_inside (die : d < 4) (beam : InBeam b) (inTree : m < treeNodes b) (h : SameTree b s) :
    (nodeRead d m s).1 = nodeGet b d m := by
  have access : SameTree b (tracerAccess d s) := sameTree_tracerAccess h
  rw [fst_nodeRead, nodeAddr_of_sameTree h, backRead_of_inside (nodeAddr_inside die beam inTree),
    frame_fetchRow (mem_of_sameTree access) (upsets_of_sameTree access), nodeGet]

theorem sameTree_readNodes (l : List Nat) (h : SameTree b s) : SameTree b (readNodes d l s).2 := by
  induction l generalizing s with
  | nil => exact h
  | cons m l ih =>
    rw [readNodes]
    exact ih (sameTree_nodeRead h)

/-- The rows of some nodes, as they stand. -/
theorem readNodes_of_inside (die : d < 4) (beam : InBeam b) (l : List Nat) (inTree : ∀ m ∈ l, m < treeNodes b)
    (h : SameTree b s) : (readNodes d l s).1 = l.map fun m => (m, nodeGet b d m) := by
  induction l generalizing s with
  | nil => rfl
  | cons m l ih =>
    rw [readNodes, List.map_cons]
    dsimp only
    rw [nodeRead_of_inside die beam (inTree m List.mem_cons_self) h,
      ih (fun c hc => inTree c (List.mem_cons_of_mem _ hc)) (sameTree_nodeRead h)]

/-! ## Writes -/

/-- The state with the row of a node written. -/
def wrote (d m : Nat) (r : Bytes) (s : State) : State := rowPut (nodeAddr s d m) (freshFrame r 0) s

theorem sameTree_nodePut {r : Bytes} (die : d < 4) (beam : InBeam b) (inTree : m < treeNodes b) (h : SameTree b s) :
    SameTree (wrote d m r b) (nodePut d m r s) := by
  unfold nodePut backPut
  rw [nodeAddr_of_sameTree h]
  exact treeView_backStore (addrTile_nodeAddr die beam inTree) _ (sameTree_tracerAccess h)

theorem mget_mdel {α : Type} (dflt : α) (m : SMap α) (a k : Nat) :
    mget dflt (mdel m a) k = if k = a then dflt else mget dflt m k := by
  have found : (mdel m a).lookup k = if k = a then none else m.lookup k := by
    induction m with
    | nil => rw [mdel, List.filter_nil]; split <;> rfl
    | cons x m ih =>
      obtain ⟨j, v⟩ := x
      unfold mdel at ih ⊢
      by_cases gone : j = a
      · rw [List.filter_cons_of_neg (by simp [gone]), ih]
        split
        case isTrue => rfl
        case isFalse ne => rw [List.lookup_cons, beq_eq_false_iff_ne.mpr (by rw [gone]; exact ne)]
      · rw [List.filter_cons_of_pos (by simpa using gone), List.lookup_cons, List.lookup_cons, ih]
        by_cases here : k = j
        · rw [here, beq_self_eq_true, if_neg gone, if_neg gone]
        · rw [beq_eq_false_iff_ne.mpr here]
  rw [mget, mget, found]
  split <;> rfl

/-- A row read after it has been written, and any other. -/
theorem data_fetchRow_rowPut (a k : Nat) (r : Bytes) : (fetchRow (rowPut a (freshFrame r 0) s) k).frame =
    if k = a then { freshFrame r 0 with data := slice (slice r 0 512) 0 512 } else (fetchRow s k).frame := by
  have none : (rowPut a (freshFrame r 0) s).upsets = mdel s.upsets a := rfl
  have same : upsetCounts (rowPut a (freshFrame r 0) s) k =
      (List.range 33).map fun w => ((mget [] (mdel s.upsets a) k).filter (codewordOf · == w)).length := rfl
  rw [frame_fetchRow_eq, frame_fetchRow_eq, same, none, mget_mdel, rowGet_rowPut]
  split
  · rfl
  · rfl

theorem nodeGet_wrote {r : Bytes} (die : d < 4) (beam : InBeam s) (hm : m < treeNodes s) (hc : c < treeNodes s)
    (long : r.length = 512) : nodeGet (wrote d m r s) d c = if c = m then r else nodeGet s d c := by
  show (fetchRow (wrote d m r s) (nodeAddr s d c)).frame.data = _
  rw [wrote, data_fetchRow_rowPut]
  by_cases here : c = m
  · rw [here, if_pos rfl, if_pos rfl]
    dsimp only
    rw [slice_slice, slice_self _ _ long]
  · rw [if_neg here, if_neg fun e => here (nodeAddr_inj die beam hm hc e)]
    rfl

theorem rowGet_wrote {r : Bytes} {a : Nat} (ne : a ≠ nodeAddr s d m) : rowGet (wrote d m r s) a = rowGet s a :=
  rowGet_rowPut_ne ne _ _

end

end Sys2Proof.Machine
end

section
/-! SUPPORT. An entry of the tracer ring completed (R314, R316, R317): what it shows and what it leaves alone. -/

namespace Sys2Proof.Machine

open Sys2Proof Sys2Proof.Laws

/-! ## The bytes of a completed entry -/

section
variable {e : Bytes} {epoch : Nat} {x : Answer}

/-- The result fields of an answer. -/
def answerFields (epoch : Nat) (x : Answer) : Bytes := leBytes 4 x.pages ++ leBytes 4 x.last ++ leBytes 4 epoch

/-- The page sets of an answer. -/
def answerSets (x : Answer) : Bytes := ((x.sets.take 45).map (leBytes 4)).flatten

/-- An entry completed. -/
def completed (e : Bytes) (epoch : Nat) (x : Answer) : Bytes :=
  patch (patch (patch e 64 (answerFields epoch x)) 76 (answerSets x)) 1 (leBytes 1 x.status)

theorem length_answerFields : (answerFields epoch x).length = 12 := by
  simp [answerFields]

theorem length_answerSets : (answerSets x).length ≤ 180 := by
  have each : ∀ l : List Nat, ((l.map (leBytes 4)).flatten).length = 4 * l.length := by
    intro l
    induction l with
    | nil => rfl
    | cons y l ih =>
      rw [List.map_cons, List.flatten_cons, List.length_append, ih, leBytes_length, List.length_cons]
      omega
  rw [answerSets, each, List.length_take]
  omega

theorem leAt_answerFields (p : x.pages < 2 ^ 32) (l : x.last < 2 ^ 32) (small : epoch < 2 ^ 32) :
    leAt (answerFields epoch x) 0 4 = x.pages ∧ leAt (answerFields epoch x) 4 4 = x.last ∧
      leAt (answerFields epoch x) 8 4 = epoch := by
  have number : ∀ v, v < 2 ^ 32 → leNat (slice (leBytes 4 v) 0 4) = v := fun v hv =>
    (leAt_leBytes 4 v).trans (Nat.mod_eq_of_lt hv)
  unfold leAt answerFields
  refine ⟨?_, ?_, ?_⟩
  · rw [slice_left (by simp), slice_left (by simp), number _ p]
  · rw [slice_left (by simp), slice_right (by simp), leBytes_length, number _ l]
  · rw [slice_right (by simp), List.length_append, leBytes_length, leBytes_length, number _ small]

theorem length_completed (long : e.length = 256) : (completed e epoch x).length = 256 := by
  have sets := length_answerSets (x := x)
  have fields := length_answerFields (epoch := epoch) (x := x)
  have first : (patch e 64 (answerFields epoch x)).length = 256 := (length_patch (by omega)).trans long
  have second : (patch (patch e 64 (answerFields epoch x)) 76 (answerSets x)).length = 256 :=
    (length_patch (by omega)).trans first
  exact (length_patch (by rw [leBytes_length, second]; decide)).trans second

/-- What a completed entry shows. -/
theorem leAt_completed (long : e.length = 256) (st : x.status < 256) (p : x.pages < 2 ^ 32) (l : x.last < 2 ^ 32)
    (small : epoch < 2 ^ 32) :
    leAt (completed e epoch x) 1 1 = x.status ∧ leAt (completed e epoch x) 64 4 = x.pages ∧
      leAt (completed e epoch x) 68 4 = x.last ∧ leAt (completed e epoch x) 72 4 = epoch := by
  have sets := length_answerSets (x := x)
  have fields := length_answerFields (epoch := epoch) (x := x)
  have first : (patch e 64 (answerFields epoch x)).length = 256 := (length_patch (by omega)).trans long
  have second : (patch (patch e 64 (answerFields epoch x)) 76 (answerSets x)).length = 256 :=
    (length_patch (by omega)).trans first
  obtain ⟨pages, last, ep⟩ := leAt_answerFields p l small
  have shown : ∀ k, k + 4 ≤ 12 → leAt (completed e epoch x) (64 + k) 4 = leAt (answerFields epoch x) k 4 := by
    intro k hk
    unfold completed
    rw [leAt_patch_apart (by rw [leBytes_length, second]; decide) (.inr (by rw [leBytes_length]; omega)),
      leAt_patch_apart (by omega) (.inl (by omega)), leAt_patch (by omega) (by omega)]
  refine ⟨?_, (shown 0 (by decide)).trans pages, (shown 4 (by decide)).trans last, (shown 8 (by decide)).trans ep⟩
  exact leAt_patch_number (by rw [second]; decide) (by omega)

end

/-! ## What completing an entry leaves alone -/

section
variable {b s : State}

theorem mayGo_or_mustWait (s : State) (d act : Nat) : mayGo s d act ∨ mustWait s d act := by
  unfold mayGo mustWait
  by_cases job : s.job = true
  · by_cases spent : isSpent s d act = true
    · exact .inr ⟨job, .inl spent⟩
    · by_cases waits : ∃ x ∈ s.net.waiting.getD (3 * d + levelOf act) [], x.act = act
      · exact .inr ⟨job, .inr waits⟩
      · exact .inl (.inr ⟨Bool.eq_false_iff.mpr spent, fun x hx e => waits ⟨x, hx, e⟩⟩)
  · exact .inl (.inl (Bool.eq_false_iff.mpr job))

theorem sameTree_meshEntered {d act n t : Nat} {r : LandRow} (h : SameTree b s) : SameTree b (meshEntered d act n t r s) := h

theorem pmem_bump (i j n : Nat) (s : State) : (bump i j n s).pmem = s.pmem := by
  unfold bump
  split
  · rfl
  · rfl

theorem pmem_countModule (e c : Nat) (s : State) : (countModule e c s).pmem = s.pmem :=
  (sent_countModule e c (Sent.refl s)).pmem

/-- A background write of this module that sets out leaves the trees and port memory as they are. -/
theorem launchBack_frame {d act : Nat} {w : BackWrite} (die : d < 4) (none : s.net.arrived = []) (h : SameTree b s) :
    SameTree b (launchBack d act w s) ∧ (launchBack d act w s).pmem = s.pmem := by
  obtain go | wait := mayGo_or_mustWait s d act
  · rw [launchBack_of_mayGo die none go]
    exact ⟨sameTree_meshEntered (s := emit (.backWrite w) s) h, rfl⟩
  · obtain ⟨u, hu⟩ : ∃ u : State, u = { s with net := { s.net with
        waiting := s.net.waiting.set (3 * d + levelOf act) (s.net.waiting.getD (3 * d + levelOf act) [] ++
          [{ act := act, flits := 9, items := [.backWrite w, backLanding (corner d) w.tile act w.window w.woff w.gen
            w.row w.dest w.ref] }]) } } := ⟨_, rfl⟩
    have same : SameTree b u := by rw [hu]; exact h
    have port : u.pmem = s.pmem := by rw [hu]
    have waits : SameTree b (countModule 0x18 1 (bump 0x4000 0x12 1 u)) :=
      sameTree_countEvent _ _ _ (sameTree_bump 1 (foreign_memory _ _ (by decide) (by decide)) same)
    have still : (countModule 0x18 1 (bump 0x4000 0x12 1 u)).net.arrived = [] := by
      rw [arrived_of_sameTree waits, ← arrived_of_sameTree h]
      exact none
    rw [launchBack, inject_of_mustWait (List.cons_ne_nil _ _) wait, ← hu, takeLandings_of_none still]
    exact ⟨waits, by rw [pmem_countModule, pmem_bump, port]⟩

theorem sendBack_frame {d act tile window woff : Nat} {gen : BitVec 16} {row : RowFrame} (die : d < 4)
    (none : s.net.arrived = []) (h : SameTree b s) :
    SameTree b (sendBack d act tile window woff gen row s) ∧ (sendBack d act tile window woff gen row s).pmem = s.pmem := by
  obtain ⟨w, hw⟩ : ∃ w : BackWrite, w = {
      ref := s.net.nextRef, die := d, act := act, dest := ownCoord s, tile := tile, window := window, woff := woff
      gen := gen, row := row, refused := 0, retryTp := Option.none } := ⟨_, rfl⟩
  obtain ⟨u, hu⟩ : ∃ u : State, u = { s with net := { s.net with backs := s.net.backs ++ [w], nextRef := s.net.nextRef + 1 } } :=
    ⟨_, rfl⟩
  have same : SameTree b u := by rw [hu]; exact h
  have empty : u.net.arrived = [] := by rw [hu]; exact none
  obtain ⟨tree, port⟩ := launchBack_frame (act := act) (w := w) die empty same
  have still : (launchBack d act w u).net.arrived = [] := by
    rw [arrived_of_sameTree tree, ← arrived_of_sameTree h]
    exact none
  have run : sendBack d act tile window woff gen row s = launchBack d act w u := by
    rw [← settleArrived_of_none still, sendBack, hu, hw]
  rw [run]
  exact ⟨tree, port.trans (by rw [hu])⟩

theorem sameTree_raiseVector (v : Nat) (h : SameTree b s) : SameTree b (raiseVector v s) := by
  refine Eq.trans (treeView_of_entries ?_ ?_ ?_ fun k _ => objGet_raiseVector ..) h
  all_goals rw [raiseVector_only]

theorem tracerDie_lt (e : Bytes) : tracerDie e < 4 := Nat.mod_lt _ (by decide)

/-- The entry written, and its result row on its way where the entry asks for one. -/
def answered (i : Nat) (e : Bytes) (v : Bytes) (s : State) : State :=
  if bitOf (leAt e 24 1) 1 && leAt e 25 1 < 24 && leAt e 26 1 < 32 then
    sendBack (tracerDie e) 4 (24 * leAt e 26 1 + leAt e 25 1) (leAt e 27 1) 0 (BitVec.ofNat 16 (leAt e 28 2))
      (freshFrame (slice (slice v 64 192) 0 512) 0) (portPut (tracerAddr i) v s)
  else portPut (tracerAddr i) v s

theorem complete_eq (i : Nat) (e : Bytes) (epoch : Nat) (x : Answer) (s : State) : complete i e epoch x s =
    retire (raiseVector 3 (countModule 0x1A 1 (bump 0x5100 0xA 1 (answered i e (completed e epoch x) s)))) := rfl

theorem answered_frame (i : Nat) (e v : Bytes) (none : s.net.arrived = []) :
    SameTree s (answered i e v s) ∧ (answered i e v s).pmem = (portPut (tracerAddr i) v s).pmem := by
  unfold answered
  split
  · exact sendBack_frame (tracerDie_lt e) none rfl
  · exact ⟨rfl, rfl⟩

theorem sameTree_countModule (e c : Nat) (h : SameTree b s) : SameTree b (countModule e c s) :=
  sameTree_countEvent _ _ _ h

theorem sameTree_retire (h : SameTree b s) : SameTree b (retire s) :=
  sameTree_objSet_other _ (by decide) (by decide) h

theorem pmem_objSet (i j v : Nat) (s : State) : (objSet i j v s).pmem = s.pmem := rfl

theorem pmem_retire (s : State) : (retire s).pmem = s.pmem := by
  rw [retire, pmem_objSet]

/-- The trees as they are and one entry more completed; port memory as it is but for the entry. -/
theorem complete_frame (i : Nat) (e : Bytes) (epoch : Nat) (x : Answer) (none : s.net.arrived = []) :
    treeView (complete i e epoch x s) = { treeView s with done := (treeView s).done + 1 } ∧
      (complete i e epoch x s).pmem = (portPut (tracerAddr i) (completed e epoch x) s).pmem := by
  obtain ⟨tree, port⟩ := answered_frame i e (completed e epoch x) none
  rw [complete_eq]
  generalize answered i e (completed e epoch x) s = u at tree port
  refine ⟨?_, ?_⟩
  · have counted : treeView (bump 0x5100 0xA 1 u) = { treeView s with done := (treeView s).done + 1 } := by
      rw [treeView_bump_done, tree]
    exact (sameTree_retire (sameTree_raiseVector 3 (sameTree_countModule _ _ rfl))).trans counted
  · rw [pmem_retire, pmem_raiseVector, pmem_countModule, pmem_bump, port]

/-- What completing an entry shows of it: it stands in its place in the ring. -/
theorem complete_shows {n i epoch : Nat} {e : Bytes} {x : Answer} (entry : n < 1024) (place : i % 1024 = n)
    (long : e.length = 256) (none : s.net.arrived = []) (st : x.status < 256) (p : x.pages < 2 ^ 32)
    (l : x.last < 2 ^ 32) (small : epoch < 2 ^ 32) :
    let t := tracerEntry (complete i e epoch x s) n
    leAt t 1 1 = x.status ∧ leAt t 64 4 = x.pages ∧ leAt t 68 4 = x.last ∧ leAt t 72 4 = epoch := by
  intro t
  have at_ : tracerAddr n = tracerAddr i := by rw [tracerAddr, tracerAddr, place, Nat.mod_eq_of_lt entry]
  have bytes : t = completed e epoch x := by
    have got := portGet_portPut (tracerAddr i) (completed e epoch x) s
    rw [length_completed long] at got
    show portGet _ _ _ = _
    rw [portGet_of_pmem (complete_frame i e epoch x none).2, at_, got]
  rw [bytes]
  exact leAt_completed long st p l small

end

end Sys2Proof.Machine
end

section
/-! SUPPORT. The tracer's walks (R313 to R318): what every access of the tracer keeps, a walk keeps. -/

namespace Sys2Proof.Machine

open Sys2Proof Sys2Proof.Laws

/-- A property of states that each access of the tracer keeps, as do a free value drawn and the counts of nodes and of
pins set. -/
structure TracerKeeps (P : State → Prop) : Prop where
  read : ∀ d m s, P s → P (nodeRead d m s).2
  tokens : ∀ e i s, P s → P (tokensAt e i s).2
  write : ∀ d m r s, P s → P (nodePut d m r s)
  draw : ∀ n s, P s → P { s with free := s.free + n }
  count : ∀ j v s, j = 8 ∨ j = 9 → P s → P (objSet 0x5100 j v s)

/-- The property of the state that comes with a result. -/
def After {α : Type} (P : State → Prop) (x : α × State) : Prop := P x.2

/-- The same of a result with a count. -/
def AfterCount {α β : Type} (P : State → Prop) (x : α × β × State) : Prop := P x.2.2

theorem holds_foldl {α : Type} {P : State → Prop} {s : State} (f : State → α → State) (l : List α)
    (hf : ∀ u x, P u → P (f u x)) (h : P s) : P (l.foldl f s) := List.foldlRecOn l f h fun _ k x _ => hf _ x k

namespace TracerKeeps

variable {P : State → Prop} (w : TracerKeeps P) {s : State}

include w

theorem bump {j : Nat} (n : Nat) (own : j = 8 ∨ j = 9) (h : P s) : P (bump 0x5100 j n s) := by
  obtain same | ⟨v, set⟩ := bump_eq_objSet_or 0x5100 j n s
  · rw [same]
    exact h
  · rw [set]
    exact w.count j v s own h

/-! ## Searches -/

theorem readNodes (d : Nat) (l : List Nat) (h : P s) : P (readNodes d l s).2 := by
  induction l generalizing s with
  | nil => exact h
  | cons m l ih =>
    rw [Machine.readNodes]
    exact ih (w.read d m s h)

theorem searchKids (d epoch key : Nat) (toks : Bytes) (l : List (Nat × Nat)) (v : Nat) (h : P s) :
    P (searchKids d epoch key toks l v s).2.2 := by
  induction l generalizing v s with
  | nil => exact h
  | cons y ys ih =>
    obtain ⟨t, m⟩ := y
    show AfterCount P _
    unfold Machine.searchKids
    split
    · exact ih _ h
    · split
      · exact h
      · have read := w.read d m s h
        generalize nodeRead d m s = r at read
        dsimp only
        split
        · exact read
        · split
          · exact read
          · exact ih _ read

theorem searchNode (d epoch key : Nat) (toks : Bytes) (n : Nat) (row : Bytes) (v : Nat) (h : P s) :
    P (searchNode d epoch key toks n row v s).2.2 := by
  induction n generalizing row v s with
  | zero => exact h
  | succ n ih =>
    show AfterCount P _
    unfold Machine.searchNode
    have kids := w.searchKids d epoch key toks (kidList row) v h
    generalize Machine.searchKids d epoch key toks (kidList row) v s = x at kids
    dsimp only
    split
    · split
      · exact kids
      · split
        · exact kids
        · have read := w.read d (nodeCont row) x.2.2 kids
          generalize nodeRead d (nodeCont row) x.2.2 = r at read
          split
          · exact ih _ _ read
          · exact read
    · exact kids

theorem roomGo (d n m : Nat) (h : P s) : P (roomGo d n m s).2 := by
  induction n generalizing m s with
  | zero => exact h
  | succ n ih =>
    show After P _
    unfold Machine.roomGo
    have read := w.read d m s h
    generalize nodeRead d m s = r at read
    dsimp only
    split
    · exact read
    · split
      · exact read
      · exact ih _ read

theorem freeNodes (d k m n : Nat) (h : P s) : P (freeNodes d k m n s).2 := by
  induction k generalizing m n s with
  | zero => exact h
  | succ k ih =>
    show After P _
    unfold Machine.freeNodes
    split
    · exact h
    · have read := w.read d m s h
      generalize nodeRead d m s = r at read
      dsimp only
      split
      · exact ih _ _ read
      · exact ih _ _ read

theorem pathUp (d n v m : Nat) (h : P s) : P (pathUp d n v m s).2 := by
  induction n generalizing v m s with
  | zero => exact h
  | succ n ih =>
    show After P _
    unfold Machine.pathUp
    split
    · exact h
    · split
      · exact h
      · have read := w.read d m s h
        generalize nodeRead d m s = r at read
        dsimp only
        split
        · exact read
        · split
          · exact read
          · exact ih _ _ read

theorem holderGo (d c n before m : Nat) (h : P s) : P (holderGo d c n before m s).2 := by
  induction n generalizing before m s with
  | zero => exact h
  | succ n ih =>
    show After P _
    unfold Machine.holderGo
    have read := w.read d m s h
    generalize nodeRead d m s = r at read
    dsimp only
    split
    · exact read
    · split
      · exact read
      · exact ih _ _ read

/-! ## Changes -/

theorem pinOne (d m : Nat) (r : Bytes) (h : P s) : P (pinOne d m r s) :=
  w.bump _ (.inr rfl) (w.write _ _ _ _ (w.draw _ _ h))

theorem unpinOne (d m : Nat) (r : Bytes) (h : P s) : P (unpinOne d m r s) := by
  have put := w.write d m (patch r 80 (leBytes 2 (nodePins r - 1))) s h
  unfold Machine.unpinOne
  dsimp only
  split
  · exact w.count _ _ _ (.inr rfl) put
  · exact put

theorem addKid (d row tok child : Nat) (h : P s) : P (addKid d row tok child s) := w.write _ _ _ _ (w.read _ _ _ h)

theorem chainTo (d row next : Nat) (h : P s) : P (chainTo d row next s) := w.write _ _ _ _ (w.read _ _ _ h)

theorem newNode (d epoch key m page : Nat) (toks : Bytes) (h : P s) : P (newNode d epoch key m page toks s).2 := by
  show After P _
  unfold Machine.newNode
  have free := w.freeNodes d (treeNodes s) 0 2 (w.roomGo d (treeNodes s) m h)
  dsimp only
  generalize Machine.roomGo d (treeNodes s) m s = room at free ⊢
  generalize Machine.freeNodes d (treeNodes s) 0 2 room.2 = f at free ⊢
  have drawn := w.draw 1 _ free
  split
  · exact w.bump 1 (.inl rfl) (w.addKid _ _ _ _ (w.write _ _ _ _ drawn))
  · exact w.bump 2 (.inl rfl) (w.addKid _ _ _ _ (w.write _ _ _ _ (w.write _ _ _ _ (w.chainTo _ _ _ drawn))))
  · exact free

theorem dropKid (d c parent : Nat) (h : P s) : P (dropKid d c parent s).2 := by
  show After P _
  unfold Machine.dropKid
  have holder := w.holderGo d c (treeNodes s) 0 parent h
  generalize Machine.holderGo d c (treeNodes s) 0 parent s = x at holder
  dsimp only
  split
  · exact holder
  · split
    · exact w.count _ _ _ (.inl rfl) (w.write _ _ _ _ (w.write _ _ _ _ (w.read _ _ _ holder)))
    · exact w.write _ _ _ _ holder

/-! ## Commands -/

theorem matchGo (d epoch : Nat) (e : Bytes) (k i m : Nat) (row : Bytes) (v : Nat) (sets : List Nat) (h : P s) :
    P (matchGo d epoch e k i m row v sets s).2 := by
  induction k generalizing i m row v sets s with
  | zero => exact h
  | succ k ih =>
    show After P _
    unfold Machine.matchGo
    have found := w.searchNode d epoch (leAt e 2 2) (tokensAt e i s).1 (treeNodes s) row v (w.tokens e i s h)
    dsimp only
    generalize Machine.searchNode d epoch (leAt e 2 2) (tokensAt e i s).1 (treeNodes s) row v (tokensAt e i s).2 = x
      at found ⊢
    split
    · exact found
    · exact found
    · refine ih _ _ _ _ _ ?_
      split
      · exact w.pinOne _ _ _ found
      · exact w.write _ _ _ _ found

theorem matchEntry (d epoch : Nat) (e : Bytes) (h : P s) : P (matchEntry d epoch e s).2 :=
  w.matchGo _ _ _ _ _ _ _ _ _ (w.read _ _ _ h)

theorem insertGo (d epoch : Nat) (e : Bytes) (k i m : Nat) (row : Bytes) (v : Nat) (sets : List Nat) (n : Nat) (h : P s) :
    P (insertGo d epoch e k i m row v sets n s).2 := by
  induction k generalizing i m row v sets n s with
  | zero => exact h
  | succ k ih =>
    show After P _
    unfold Machine.insertGo
    have found := w.searchNode d epoch (leAt e 2 2) (tokensAt e i s).1 (treeNodes s) row v (w.tokens e i s h)
    dsimp only
    generalize Machine.searchNode d epoch (leAt e 2 2) (tokensAt e i s).1 (treeNodes s) row v (tokensAt e i s).2 = x
      at found ⊢
    split
    · exact found
    · exact ih _ _ _ _ _ _ found
    · have new := w.newNode d epoch (leAt e 2 2) m (entrySet e i) (tokensAt e i s).1 found
      generalize Machine.newNode d epoch (leAt e 2 2) m (entrySet e i) (tokensAt e i s).1 x.2.2 = y at new ⊢
      split
      · exact new
      · exact ih _ _ _ _ _ _ new

theorem insertEntry (d epoch : Nat) (e : Bytes) (h : P s) : P (insertEntry d epoch e s).2 :=
  w.insertGo _ _ _ _ _ _ _ _ _ _ (w.read _ _ _ h)

theorem pinEntry (d : Nat) (e : Bytes) (h : P s) : P (pinEntry d e s).2 := by
  show After P _
  unfold Machine.pinEntry
  have path : P (entryPath d e s).2 := w.pathUp _ _ _ _ h
  generalize entryPath d e s = p at path
  dsimp only
  split
  · exact path
  · exact path
  · exact holds_foldl _ _ (fun _ _ k => w.pinOne _ _ _ k) path

theorem unpinEntry (d : Nat) (e : Bytes) (h : P s) : P (unpinEntry d e s).2 := by
  show After P _
  unfold Machine.unpinEntry
  have path : P (entryPath d e s).2 := w.pathUp _ _ _ _ h
  generalize entryPath d e s = p at path
  dsimp only
  split
  · exact path
  · exact path
  · split
    · exact path
    · exact holds_foldl _ _ (fun _ _ k => w.unpinOne _ _ _ k) path

theorem evictGo (d epoch k : Nat) (rows : List (Nat × Bytes)) (l : List Nat) (h : P s) :
    P (evictGo d epoch k rows l s).2 := by
  induction k generalizing rows l s with
  | zero => exact h
  | succ k ih =>
    show After P _
    unfold Machine.evictGo
    dsimp only
    split
    · exact h
    · exact ih _ _ (w.count _ _ _ (.inl rfl) (w.write _ _ _ _ (w.dropKid _ _ _ h)))

theorem evictEntry (d epoch : Nat) (e : Bytes) (h : P s) : P (evictEntry d epoch e s).2 :=
  w.evictGo _ _ _ _ _ (w.readNodes _ _ h)

end TracerKeeps

/-! ## What walks leave of the mesh and of the count of entries completed -/

/-- `s` has what has crossed the mesh and the count of entries completed as in `b`. -/
def Walked (b s : State) : Prop := s.net.arrived = b.net.arrived ∧ objGet s 0x5100 0xA = objGet b 0x5100 0xA

theorem walked_of_sameTree {b s : State} (h : SameTree b s) : Walked b s :=
  ⟨arrived_of_sameTree h, congrArg TreeView.done h⟩

theorem Walked.trans {a b c : State} (h : Walked a b) (k : Walked b c) : Walked a c :=
  ⟨k.1.trans h.1, k.2.trans h.2⟩

theorem walked_rowPut (a : Nat) (f : RowFrame) (s : State) : Walked s (rowPut a f s) := ⟨rfl, rfl⟩

theorem walked_nodePut (d m : Nat) (r : Bytes) (s : State) : Walked s (nodePut d m r s) := by
  have access : SameTree s (tracerAccess d s) := sameTree_tracerAccess rfl
  unfold nodePut backPut
  cases tile : addrTile (nodeAddr s d m) with
  | none =>
    rw [backStore_of_noTile tile]
    exact walked_of_sameTree access
  | some t => exact (walked_rowPut _ _ s).trans (walked_of_sameTree (treeView_backStore tile (freshFrame r 0) access))

theorem walked_objSet {j : Nat} (v : Nat) (s : State) (own : j = 8 ∨ j = 9) : Walked s (objSet 0x5100 j v s) :=
  ⟨rfl, objGet_objSet_ne _ _ (by rw [objKey, objKey]; omega)⟩

/-- A part of a row read. -/
def partRead (o n : Nat) (r : Bytes × State) : Bytes × State := (slice r.1 o n, r.2)

theorem tokensAt_part (e : Bytes) (i : Nat) (s : State) : tokensAt e i s =
    partRead (64 * (i % 8)) 64 (backRead (rowAddr (24 * leAt e 9 1 + leAt e 8 1) 1 (leAt e 12 4 + i / 8)) s) := rfl

theorem fst_partRead (o n : Nat) (r : Bytes × State) : (partRead o n r).1 = slice r.1 o n := rfl
theorem snd_partRead (o n : Nat) (r : Bytes × State) : (partRead o n r).2 = r.2 := rfl

theorem sameTree_tokensAt {b s : State} (e : Bytes) (i : Nat) (h : SameTree b s) : SameTree b (tokensAt e i s).2 := by
  rw [tokensAt_part, snd_partRead]
  exact sameTree_backRead _ h

/-- The tokens of an entry depend on the rows. -/
theorem fst_tokensAt {b s : State} (e : Bytes) (i : Nat) (h : SameTree b s) :
    (tokensAt e i s).1 = (tokensAt e i b).1 := by
  rw [tokensAt_part, tokensAt_part, fst_partRead, fst_partRead, backRead_of_sameTree h]

theorem length_tokensAt (e : Bytes) (i : Nat) (s : State) : (tokensAt e i s).1.length = 64 := by
  rw [tokensAt_part, fst_partRead, slice_length]

/-- Every walk of the tracer leaves both as they are. -/
theorem tracerKeeps_walked (b : State) : TracerKeeps (Walked b) where
  read _ _ _ h := h.trans (walked_of_sameTree (sameTree_nodeRead rfl))
  tokens _ _ _ h := h.trans (walked_of_sameTree (sameTree_tokensAt _ _ rfl))
  write _ _ _ _ h := h.trans (walked_nodePut ..)
  draw _ _ h := h
  count _ v s own h := h.trans (walked_objSet v s own)

end Sys2Proof.Machine
end

section
/-! SUPPORT. Short walks of the tracer (R313, R315): a search that misses at its first node, a path of one node, the
lowest free node, a child that leaves its parent. -/

namespace Sys2Proof.Machine

open Sys2Proof Sys2Proof.Laws

section
variable {b s : State} {d m c : Nat}

/-! ## Parts of a result -/

section
variable {α β : Type} {x : α × β} {a : α} {u : β}

theorem fst_of_eq (h : x = (a, u)) : x.1 = a := by rw [h]
theorem snd_of_eq (h : x = (a, u)) : x.2 = u := by rw [h]
theorem eq_of_fst (h : x.1 = a) : x = (a, x.2) := by rw [← h]

end

/-! ## States after writes -/

theorem inBeam_wrote (r : Bytes) (beam : InBeam s) : InBeam (wrote d m r s) := beam

/-! ## Rows of the start node -/

/-- A read returns the row as it stands, or zeros where the column has no such row. -/
theorem nodeRead_or_zeros (d m : Nat) (s : State) : (nodeRead d m s).1 = nodeGet s d m ∨ (nodeRead d m s).1 = zeros 512 := by
  have access : SameTree s (tracerAccess d s) := sameTree_tracerAccess rfl
  rw [fst_nodeRead]
  by_cases inside : ((addrTile (nodeAddr s d m)).isNone || spaceRows (addrSpace (nodeAddr s d m)) ≤ addrRow (nodeAddr s d m)) = true
  · unfold backRead
    rw [inside]
    exact .inr rfl
  · rw [backRead_of_inside (Bool.eq_false_iff.mpr inside),
      frame_fetchRow (mem_of_sameTree access) (upsets_of_sameTree access)]
    exact .inl rfl

/-- A row without children and continuation. -/
def Barren (r : Bytes) : Prop := nodeKids r = 0 ∧ nodeCont r = 0

theorem barren_nodeRead (h : Barren (nodeGet s d m)) : Barren (nodeRead d m s).1 := by
  obtain row | zero := nodeRead_or_zeros d m s
  · rw [row]
    exact h
  · rw [zero]
    exact ⟨by decide +kernel, by decide +kernel⟩

/-- A search at a node without children misses there. -/
theorem searchNode_of_barren {epoch key v n : Nat} {toks row : Bytes} (h : Barren row) (pos : n ≠ 0) :
    searchNode d epoch key toks n row v s = (.miss, v, s) := by
  obtain ⟨kids, cont⟩ := h
  obtain ⟨k, rfl⟩ := Nat.exists_eq_succ_of_ne_zero pos
  have none : kidList row = [] := by rw [kidList, kids]; rfl
  unfold searchNode
  rw [none, searchKids]
  dsimp only
  rw [if_pos cont]

/-! ## MATCH -/

theorem matchEntry_of_short {epoch : Nat} {e : Bytes} (short : leAt e 16 4 < 16) :
    (matchEntry d epoch e s).1 = some { status := 0x80, pages := 0, last := leAt e 4 4, sets := [] } ∧
      SameTree s (matchEntry d epoch e s).2 := by
  have zero : min 45 (leAt e 16 4 / 16) = 0 := by omega
  unfold matchEntry
  dsimp only
  rw [zero, matchGo]
  exact ⟨rfl, sameTree_nodeRead rfl⟩

/-- A match stops at a node without children. -/
theorem matchGo_of_barren {epoch k i v : Nat} {e row : Bytes} {sets : List Nat} (barren : Barren row)
    (nodes : treeNodes s ≠ 0) : matchGo d epoch e (k + 1) i m row v sets s =
      (some { status := 0x80, pages := i, last := m, sets := sets }, (tokensAt e i s).2) := by
  unfold matchGo
  extract_lets tokens found
  have miss : found = (.miss, v, tokens.2) := searchNode_of_barren barren nodes
  have read : tokens = tokensAt e i s := rfl
  clear_value found tokens
  split
  next broken =>
    rw [miss] at broken
    cases broken
  next => rw [← read, snd_of_eq (snd_of_eq miss)]
  next hit =>
    rw [miss] at hit
    cases hit

/-- A match from a row read. -/
theorem matchGo_of_read {epoch : Nat} {e : Bytes} {r : Bytes × State} (paged : 16 ≤ leAt e 16 4)
    (barren : Barren r.1) (read : SameTree s r.2) (nodes : treeNodes s ≠ 0) :
    matchGo d epoch e (min 45 (leAt e 16 4 / 16)) 0 (leAt e 4 4) r.1 (treeNodes s - 1) [] r.2 =
      (some { status := 0x80, pages := 0, last := leAt e 4 4, sets := [] }, (tokensAt e 0 r.2).2) := by
  obtain ⟨k, hk⟩ : ∃ k, min 45 (leAt e 16 4 / 16) = k + 1 := ⟨min 45 (leAt e 16 4 / 16) - 1, by omega⟩
  rw [hk]
  exact matchGo_of_barren barren (by rwa [treeNodes_of_sameTree read])

theorem matchEntry_of_barren {epoch : Nat} {e : Bytes} (paged : 16 ≤ leAt e 16 4) (inTree : leAt e 4 4 < treeNodes s)
    (h : Barren (nodeGet s d (leAt e 4 4))) :
    (matchEntry d epoch e s).1 = some { status := 0x80, pages := 0, last := leAt e 4 4, sets := [] } ∧
      SameTree s (matchEntry d epoch e s).2 := by
  have read : SameTree s (nodeRead d (leAt e 4 4) s).2 := sameTree_nodeRead rfl
  have stops : matchEntry d epoch e s = _ := matchGo_of_read paged (barren_nodeRead h) read (by omega)
  rw [fst_of_eq stops, snd_of_eq stops]
  exact ⟨rfl, sameTree_tokensAt e 0 read⟩

/-! ## PIN and UNPIN -/

/-- A climb of one step whose node is in use. -/
theorem pathUp_of_used {v : Nat} (visits : v ≠ 0) (inTree : m < treeNodes s) (used : nodeUsed (nodeRead d m s).1 = true) :
    pathUp d 1 v m s = (.path [(m, (nodeRead d m s).1)], (nodeRead d m s).2) := by
  rw [pathUp, if_neg visits, if_neg (Nat.not_le.mpr inTree)]
  simp only [used, Bool.not_true, Bool.false_eq_true, if_false]
  split
  case isTrue zero => rw [zero]
  case isFalse => rw [pathUp]

/-- The path of one node. -/
theorem entryPath_of_one {e : Bytes} (die : d < 4) (beam : InBeam s) (one : leAt e 20 4 = 1)
    (inTree : leAt e 4 4 < treeNodes s) (used : nodeUsed (nodeGet s d (leAt e 4 4)) = true) :
    entryPath d e s = (.path [(leAt e 4 4, nodeGet s d (leAt e 4 4))], (nodeRead d (leAt e 4 4) s).2) := by
  have row := nodeRead_of_inside die beam inTree (rfl : SameTree s s)
  unfold entryPath
  rw [one, show min 1 (treeNodes s + 1) = 1 by omega, pathUp_of_used (by omega) inTree (by rwa [row]), row]

theorem sameTree_pinOne {r : Bytes} (die : d < 4) (beam : InBeam b) (inTree : m < treeNodes b) (few : nodePins r < 65535)
    (h : SameTree b s) : SameTree (wrote d m (patch r 80 (leBytes 2 (nodePins r + 1))) b) (pinOne d m r s) := by
  unfold pinOne
  dsimp only
  rw [if_neg (show ¬ nodePins r = 65535 by omega), if_neg (show ¬ nodePins r = 65535 by omega)]
  exact sameTree_bump_other _ (by decide) (by decide) (sameTree_nodePut (s := { s with free := s.free + 0 }) die beam inTree h)

theorem sameTree_unpinOne {r : Bytes} (die : d < 4) (beam : InBeam b) (inTree : m < treeNodes b) (h : SameTree b s) :
    SameTree (wrote d m (patch r 80 (leBytes 2 (nodePins r - 1))) b) (unpinOne d m r s) := by
  have put := sameTree_nodePut (r := patch r 80 (leBytes 2 (nodePins r - 1))) die beam inTree h
  unfold unpinOne
  dsimp only
  split
  · exact sameTree_objSet_other _ (by decide) (by decide) put
  · exact put

section
variable {e : Bytes} (die : d < 4) (beam : InBeam s) (one : leAt e 20 4 = 1) (inTree : leAt e 4 4 < treeNodes s)
  (used : nodeUsed (nodeGet s d (leAt e 4 4)) = true)

include die beam one inTree used

theorem pinEntry_of_one (few : nodePins (nodeGet s d (leAt e 4 4)) < 65535) :
    (pinEntry d e s).1 = some { status := 0x80, pages := 0, last := 0, sets := [] } ∧
      SameTree (wrote d (leAt e 4 4) (patch (nodeGet s d (leAt e 4 4)) 80
        (leBytes 2 (nodePins (nodeGet s d (leAt e 4 4)) + 1))) s) (pinEntry d e s).2 := by
  have path := entryPath_of_one die beam one inTree used
  unfold pinEntry
  rw [path]
  exact ⟨rfl, sameTree_pinOne die beam inTree few (sameTree_nodeRead rfl)⟩

theorem unpinEntry_of_zero (zero : nodePins (nodeGet s d (leAt e 4 4)) = 0) :
    unpinEntry d e s = (some { status := 0x84, pages := 0, last := 0, sets := [] }, (nodeRead d (leAt e 4 4) s).2) := by
  have path := entryPath_of_one die beam one inTree used
  unfold unpinEntry
  rw [path]
  exact if_pos (by rw [List.any_cons, zero]; rfl)

theorem unpinEntry_of_pinned (pinned : nodePins (nodeGet s d (leAt e 4 4)) ≠ 0) :
    (unpinEntry d e s).1 = some { status := 0x80, pages := 0, last := 0, sets := [] } ∧
      SameTree (wrote d (leAt e 4 4) (patch (nodeGet s d (leAt e 4 4)) 80
        (leBytes 2 (nodePins (nodeGet s d (leAt e 4 4)) - 1))) s) (unpinEntry d e s).2 := by
  have path := entryPath_of_one die beam one inTree used
  unfold unpinEntry
  rw [path]
  dsimp only
  rw [if_neg (by simpa using pinned)]
  exact ⟨rfl, sameTree_unpinOne die beam inTree (sameTree_nodeRead rfl)⟩

end

/-! ## INSERT -/

theorem insertEntry_of_short {epoch : Nat} {e : Bytes} (short : leAt e 16 4 < 16) :
    (insertEntry d epoch e s).1 = some { status := 0x80, pages := 0, last := leAt e 4 4, sets := [] } ∧
      SameTree s (insertEntry d epoch e s).2 := by
  have zero : min 45 (leAt e 16 4 / 16) = 0 := by omega
  unfold insertEntry
  dsimp only
  rw [zero, insertGo]
  exact ⟨rfl, sameTree_nodeRead rfl⟩

theorem sameTree_freeNodes (k m n : Nat) (h : SameTree b s) : SameTree b (freeNodes d k m n s).2 := by
  induction k generalizing m n s with
  | zero => exact h
  | succ k ih =>
    show After (SameTree b) _
    unfold freeNodes
    split
    · exact h
    · have tree : SameTree b (nodeRead d m s).2 := sameTree_nodeRead h
      generalize nodeRead d m s = r at tree ⊢
      dsimp only
      split
      · exact ih _ _ tree
      · have rest := ih (m + 1) (n - 1) tree
        generalize freeNodes d k (m + 1) (n - 1) r.2 = x at rest ⊢
        exact rest

/-- A node in use is passed over. -/
theorem freeNodes_of_used {k n : Nat} (pos : n ≠ 0) (used : nodeUsed (nodeRead d m s).1 = true) :
    freeNodes d (k + 1) m n s = freeNodes d k (m + 1) n (nodeRead d m s).2 := by
  rw [freeNodes, if_neg pos]
  exact if_pos used

/-- A free node is found. -/
theorem freeNodes_of_free {k n : Nat} (pos : n ≠ 0) (free : nodeUsed (nodeRead d m s).1 = false) :
    freeNodes d (k + 1) m n s = (m :: (freeNodes d k (m + 1) (n - 1) (nodeRead d m s).2).1,
      (freeNodes d k (m + 1) (n - 1) (nodeRead d m s).2).2) := by
  rw [freeNodes, if_neg pos]
  exact if_neg (by rw [free]; decide)

/-- The first free node found is the lowest. -/
theorem freeNodes_of_lowest {k n : Nat} (die : d < 4) (beam : InBeam b) (h : SameTree b s) (pos : n ≠ 0) (from_ : m ≤ c)
    (here : c < m + k) (inTree : c < treeNodes b) (free : nodeUsed (nodeGet b d c) = false)
    (lower : ∀ j, m ≤ j → j < c → nodeUsed (nodeGet b d j) = true) :
    ∃ rest, (freeNodes d k m n s).1 = c :: rest := by
  induction k generalizing m s with
  | zero => omega
  | succ k ih =>
    have row := nodeRead_of_inside die beam (show m < treeNodes b by omega) h
    by_cases at_ : m = c
    · subst at_
      exact ⟨_, fst_of_eq (freeNodes_of_free pos (by rwa [row]))⟩
    · rw [freeNodes_of_used pos (by rw [row]; exact lower m (Nat.le_refl m) (by omega))]
      exact ih (sameTree_nodeRead h) (by omega) (by omega) fun j hj => lower j (by omega)

/-- The room of a node with few children is in its own row. -/
theorem roomGo_of_few {n : Nat} (die : d < 4) (beam : InBeam b) (inTree : m < treeNodes b) (h : SameTree b s)
    (pos : n ≠ 0) (few : nodeKids (nodeGet b d m) < 52) : roomGo d n m s = ((some m, m), (nodeRead d m s).2) := by
  obtain ⟨k, rfl⟩ := Nat.exists_eq_succ_of_ne_zero pos
  rw [roomGo]
  exact if_pos (by rwa [nodeRead_of_inside die beam inTree h])

theorem sameTree_addKid {tok child : Nat} (die : d < 4) (beam : InBeam b) (inTree : m < treeNodes b) (h : SameTree b s) :
    SameTree (wrote d m (putKids (kidList (nodeGet b d m) ++ [(tok, child)]) (nodeGet b d m)) b) (addKid d m tok child s) := by
  unfold addKid
  dsimp only
  rw [nodeRead_of_inside die beam inTree h]
  exact sameTree_nodePut die beam inTree (sameTree_nodeRead h)

/-- Of two states with the same trees the counts of nodes move alike. -/
theorem sameTree_bump_nodes (n : Nat) (h : SameTree b s) : SameTree (bump 0x5100 8 n b) (bump 0x5100 8 n s) := by
  show treeView _ = treeView _
  rw [treeView_bump_nodes, treeView_bump_nodes, h]

/-- The state with a new node below another. -/
def planted (d m c : Nat) (node : Bytes) (tok : Nat) (s : State) : State :=
  bump 0x5100 8 1 (wrote d m (putKids (kidList (nodeGet (wrote d c node s) d m) ++ [(tok, c)])
    (nodeGet (wrote d c node s) d m)) (wrote d c node s))

/-- A new node below a node with room takes the lowest free row. -/
theorem newNode_of_lowest {epoch key page : Nat} {toks : Bytes} (die : d < 4) (beam : InBeam b) (h : SameTree b s)
    (inTree : m < treeNodes b) (few : nodeKids (nodeGet b d m) < 52) (there : c < treeNodes b)
    (free : nodeUsed (nodeGet b d c) = false) (lower : ∀ j, j < c → nodeUsed (nodeGet b d j) = true) :
    ∃ last row, (newNode d epoch key m page toks s).1 = some (c, row) ∧
      SameTree (planted d m c (nodeBytes toks page m epoch 1 key last) (leAt toks 0 4) b)
        (newNode d epoch key m page toks s).2 := by
  have nodes := treeNodes_of_sameTree h
  have room : roomGo d (treeNodes s) m s = _ := roomGo_of_few die beam inTree h (by omega) few
  have read : SameTree b (nodeRead d m s).2 := sameTree_nodeRead h
  obtain ⟨rest, found⟩ := freeNodes_of_lowest (k := treeNodes s) (m := 0) (n := 2) die beam read (by decide)
    (Nat.zero_le c) (by omega) there free fun j _ => lower j
  have freeTree := sameTree_freeNodes (d := d) (treeNodes s) 0 2 read
  unfold newNode
  rw [room]
  dsimp only
  rw [found]
  refine ⟨Config.freeNat s.free % 2 ^ 64, _, rfl, ?_⟩
  refine sameTree_bump_nodes 1 (sameTree_addKid die (inBeam_wrote _ beam) inTree ?_)
  exact sameTree_nodePut die beam there freeTree

/-- A walk that misses goes on from the new node. -/
theorem insertGo_of_miss {epoch k i v n : Nat} {e row toks : Bytes} {sets : List Nat} {u w : State} {new : Nat × Bytes}
    (tokens : tokensAt e i s = (toks, u))
    (miss : searchNode d epoch (leAt e 2 2) toks (treeNodes s) row v u = (.miss, v, u))
    (made : newNode d epoch (leAt e 2 2) m (entrySet e i) toks u = (some new, w)) :
    insertGo d epoch e (k + 1) i m row v sets n s =
      insertGo d epoch e k (i + 1) new.1 new.2 (v - 1) (sets ++ [entrySet e i]) (n + 1) w := by
  rw [insertGo]
  simp only [tokens, miss, made]

theorem insertEntry_of_lowest {epoch : Nat} {e : Bytes} (die : d < 4) (beam : InBeam s) (one : leAt e 16 4 / 16 = 1)
    (inTree : leAt e 4 4 < treeNodes s) (barren : Barren (nodeGet s d (leAt e 4 4))) (there : c < treeNodes s)
    (free : nodeUsed (nodeGet s d c) = false) (lower : ∀ j, j < c → nodeUsed (nodeGet s d j) = true) :
    ∃ page key last sets, (insertEntry d epoch e s).1 = some { status := 0x80, pages := 1, last := c, sets := sets } ∧
      SameTree (planted d (leAt e 4 4) c (nodeBytes (tokensAt e 0 s).1 page (leAt e 4 4) epoch 1 key last)
        (leAt (tokensAt e 0 s).1 0 4) s) (insertEntry d epoch e s).2 := by
  have read : SameTree s (nodeRead d (leAt e 4 4) s).2 := sameTree_nodeRead rfl
  have nodes : treeNodes (nodeRead d (leAt e 4 4) s).2 ≠ 0 := by
    rw [treeNodes_of_sameTree read]
    omega
  have few : nodeKids (nodeGet s d (leAt e 4 4)) < 52 := by
    rw [barren.1]
    decide
  obtain ⟨last, row, new, tree⟩ := newNode_of_lowest (epoch := epoch) (key := leAt e 2 2) (page := entrySet e 0)
    (toks := (tokensAt e 0 s).1) die beam (sameTree_tokensAt e 0 read) inTree few there free lower
  rw [← fst_tokensAt e 0 read] at new tree
  have made := insertGo_of_miss (k := 0) (n := 0) (sets := []) (eq_of_fst rfl)
    (searchNode_of_barren (v := treeNodes s - 1) (barren_nodeRead barren) nodes) (eq_of_fst new)
  rw [insertGo] at made
  unfold insertEntry
  rw [one, ← fst_tokensAt e 0 read]
  exact ⟨entrySet e 0, leAt e 2 2, last, _, fst_of_eq made, (congrArg (SameTree _) (snd_of_eq made)).mpr tree⟩

/-! ## EVICT -/

theorem scanTree_of_inside (die : d < 4) (beam : InBeam s) :
    (scanTree d s).1 = (List.range (treeNodes s)).map fun m => (m, nodeGet s d m) :=
  readNodes_of_inside die beam _ (fun _ h => List.mem_range.mp h) rfl

theorem sameTree_scanTree (d : Nat) (s : State) : SameTree s (scanTree d s).2 := sameTree_readNodes _ rfl

/-- The answer of an EVICT that freed some page sets. -/
def evicted (x : List Nat × State) : Option Answer × State :=
  (some { status := 0x80, pages := x.1.length, last := 0, sets := x.1 }, x.2)

theorem fst_evicted (x : List Nat × State) :
    (evicted x).1 = some { status := 0x80, pages := x.1.length, last := 0, sets := x.1 } := rfl

theorem snd_evicted (x : List Nat × State) : (evicted x).2 = x.2 := rfl

theorem evictEntry_eq (epoch : Nat) (e : Bytes) : evictEntry d epoch e s =
    evicted (evictGo d epoch (min 45 (leAt e 20 4)) (scanTree d s).1 [] (scanTree d s).2) := rfl

theorem evictGo_of_none {epoch k : Nat} {rows : List (Nat × Bytes)} {l : List Nat} (none : k = 0 ∨ evictable rows = []) :
    evictGo d epoch k rows l s = (l, s) := by
  cases k with
  | zero => rfl
  | succ k =>
    obtain zero | empty := none
    · cases zero
    · rw [evictGo, empty]
      rfl

theorem evictGo_of_one {epoch : Nat} {rows : List (Nat × Bytes)} {r : Bytes} {l : List Nat}
    (only : evictable rows = [(c, r)]) : evictGo d epoch 1 rows l s =
      (l ++ [nodePage r], objSet 0x5100 8 (objGet (nodePut d c (zeros 512) (dropKid d c (nodeParent r) s).2) 0x5100 8 - 1)
        (nodePut d c (zeros 512) (dropKid d c (nodeParent r) s).2)) := by
  rw [evictGo, only]
  rfl

theorem evictEntry_of_none {epoch : Nat} {e : Bytes} (none : leAt e 20 4 = 0 ∨ evictable (scanTree d s).1 = []) :
    (evictEntry d epoch e s).1 = some { status := 0x80, pages := 0, last := 0, sets := [] } ∧
      SameTree s (evictEntry d epoch e s).2 := by
  rw [evictEntry_eq, evictGo_of_none (none.imp_left fun zero => by rw [zero]; rfl)]
  exact ⟨fst_evicted _, sameTree_scanTree d s⟩

/-- A node that holds a child in its own row is found first. -/
theorem holderGo_of_held {n before : Nat} (pos : n ≠ 0) (held : (kidList (nodeRead d m s).1).any (·.2 == c) = true) :
    holderGo d c n before m s = (some (before, m, (nodeRead d m s).1), (nodeRead d m s).2) := by
  obtain ⟨k, rfl⟩ := Nat.exists_eq_succ_of_ne_zero pos
  rw [holderGo]
  exact if_pos held

/-- A child leaves a node that holds it in its own row. -/
theorem dropKid_of_held (die : d < 4) (beam : InBeam b) (h : SameTree b s) (inTree : m < treeNodes b)
    (held : (kidList (nodeGet b d m)).any (·.2 == c) = true) (own : nodeExtends (nodeGet b d m) = false) :
    SameTree (wrote d m (putKids ((kidList (nodeGet b d m)).filter (·.2 != c)) (nodeGet b d m)) b) (dropKid d c m s).2 := by
  have row := nodeRead_of_inside die beam inTree h
  have holder := holderGo_of_held (d := d) (s := s) (m := m) (c := c) (n := treeNodes s) (before := 0)
    (by rw [treeNodes_of_sameTree h]; omega) (by rwa [row])
  unfold dropKid
  rw [holder, row]
  dsimp only
  rw [if_neg (by rw [own, Bool.and_false]; decide)]
  exact sameTree_nodePut die beam inTree (sameTree_nodeRead h)

/-- The state with a node taken off its parent and freed. -/
def uprooted (d c p v : Nat) (s : State) : State :=
  objSet 0x5100 8 v (wrote d c (zeros 512)
    (wrote d p (putKids ((kidList (nodeGet s d p)).filter (·.2 != c)) (nodeGet s d p)) s))

theorem sameTree_objSet_nodes (v : Nat) (h : SameTree b s) : SameTree (objSet 0x5100 8 v b) (objSet 0x5100 8 v s) := by
  show treeView _ = treeView _
  rw [treeView_objSet_nodes, treeView_objSet_nodes, h]

theorem evictEntry_of_one {epoch : Nat} {e r : Bytes} (die : d < 4) (beam : InBeam s) (one : leAt e 20 4 = 1)
    (only : evictable (scanTree d s).1 = [(c, r)]) (there : c < treeNodes s) (parent : nodeParent r < treeNodes s)
    (held : (kidList (nodeGet s d (nodeParent r))).any (·.2 == c) = true)
    (own : nodeExtends (nodeGet s d (nodeParent r)) = false) :
    ∃ v sets, (evictEntry d epoch e s).1 = some { status := 0x80, pages := 1, last := 0, sets := sets } ∧
      SameTree (uprooted d c (nodeParent r) v s) (evictEntry d epoch e s).2 := by
  have drop := dropKid_of_held die beam (sameTree_scanTree d s) parent held own
  have freed := sameTree_nodePut (r := zeros 512) (m := c) die (inBeam_wrote _ beam) there drop
  have gone := evictGo_of_one (d := d) (s := (scanTree d s).2) (epoch := epoch) (l := []) only
  rw [evictEntry_eq, one, fst_evicted, snd_evicted]
  refine ⟨objGet (nodePut d c (zeros 512) (dropKid d c (nodeParent r) (scanTree d s).2).2) 0x5100 8 - 1,
    [nodePage r], ?_, ?_⟩
  · exact congrArg (fun x : List Nat => some (Answer.mk 0x80 x.length 0 x)) (fst_of_eq gone)
  · rw [show min 45 1 = 1 from rfl, snd_of_eq gone]
    exact sameTree_objSet_nodes _ freed

end

end Sys2Proof.Machine
end

section
/-! SUPPORT. Commands of the tracer ring (R314, R317): how an entry that comes next is served, and what completing it
shows. -/

namespace Sys2Proof.Machine

open Sys2Proof Sys2Proof.Laws

/-! ## Commands and their walks -/

/-- The commands of the tracer ring at an entry, with their opcodes. -/
def tracerOps (n : Fin 1024) : List (Instr × Nat) :=
  [(.matchCmd n, 1), (.insertCmd n, 2), (.pinCmd n, 3), (.unpinCmd n, 4), (.evictCmd n, 5)]

/-- The walk of an opcode. -/
def tracerAct : Nat → Nat → Nat → Bytes → State → Option Answer × State
  | 1 => matchEntry
  | 2 => insertEntry
  | 3 => fun d _ => pinEntry d
  | 4 => fun d _ => unpinEntry d
  | _ => evictEntry

/-- The walk that serves an entry of opcode `op`. -/
def served (op n : Nat) (s : State) : Option Answer × State :=
  tracerAct op (tracerDie (tracerEntry s n)) (objGet s 0x5100 5) (tracerEntry s n) s

/-- A die serves the entry at place `n` of the ring next, as index `i`, while nothing crosses the mesh. -/
structure Serving (n : Fin 1024) (s : State) (i : Nat) : Prop where
  arrived : s.net.arrived = []
  live : tracerLive s = true
  next : tracerNext s n.val = some i
  epoch : objGet s 0x5100 5 < 65536

/-- The entry at place `n` has an opcode of a command and sound fields. -/
def Legal (n : Fin 1024) (s : State) : Prop :=
  1 ≤ leAt (tracerEntry s n.val) 0 1 ∧ leAt (tracerEntry s n.val) 0 1 ≤ 5 ∧ fieldsOk (tracerEntry s n.val) = true

/-- A command completes the entry at place `n`. -/
def Completes (n : Fin 1024) (s : State) (ins : Instr) (status pages last : Nat) (post : State → Prop) : Prop :=
  ∃ s', exec ins s = .next s' ∧
    leAt (tracerEntry s' n.val) 1 1 = status ∧ leAt (tracerEntry s' n.val) 64 4 = pages ∧
    leAt (tracerEntry s' n.val) 68 4 = last ∧ leAt (tracerEntry s' n.val) 72 4 = objGet s 0x5100 5 ∧
    objGet s' 0x5100 0xA = objGet s 0x5100 0xA + 1 ∧ post s'

/-- The rows of the trees stand in `s` as in `b`. -/
structure SameRows (b s : State) : Prop where
  mem : s.mem = b.mem
  upsets : s.upsets = b.upsets
  base : objGet s 0x5100 3 = objGet b 0x5100 3

section
variable {n : Fin 1024} {s b u : State} {i d m : Nat}

theorem SameRows.trans (h : SameRows b u) (k : SameRows u s) : SameRows b s :=
  ⟨k.mem.trans h.mem, k.upsets.trans h.upsets, k.base.trans h.base⟩

theorem sameRows_of_sameTree (h : SameTree b s) : SameRows b s :=
  ⟨mem_of_sameTree h, upsets_of_sameTree h, base_of_sameTree h⟩

theorem SameRows.nodeGet (h : SameRows b s) : nodeGet s d m = nodeGet b d m := nodeGet_of_rows h.mem h.upsets h.base

theorem SameRows.rowGet (h : SameRows b s) (a : Nat) : rowGet s a = rowGet b a := by
  rw [Machine.rowGet, Machine.rowGet, h.mem]

/-- Completing an entry leaves the rows of the trees and the count of nodes. -/
theorem sameRows_complete {epoch : Nat} {e : Bytes} (x : Answer) (none : s.net.arrived = []) :
    SameRows s (complete i e epoch x s) ∧ objGet (complete i e epoch x s) 0x5100 8 = objGet s 0x5100 8 := by
  obtain ⟨tree, -⟩ := complete_frame i e epoch x none
  exact ⟨⟨congrArg TreeView.mem tree, congrArg TreeView.upsets tree, congrArg TreeView.base tree⟩,
    congrArg TreeView.nodes tree⟩

/-! ## How an entry is served -/

theorem place_of_next {k : Nat} (next : tracerNext s k = some i) : i % 1024 = k := by
  -- Unfolded in place, the kernel would evaluate the list of open entries.
  obtain ⟨f, body⟩ : ∃ f, tracerNext = f := ⟨_, rfl⟩
  rw [body] at next
  delta tracerNext at body
  subst body
  dsimp only at next
  split at next
  next => cases next
  next =>
    obtain ⟨here, same⟩ := Option.ite_none_right_eq_some.mp next
    rwa [← Option.some.inj same]

theorem length_tracerEntry (s : State) (k : Nat) : (tracerEntry s k).length = 256 := by
  rw [tracerEntry, portGet, List.length_map, List.length_range]

theorem exec_tracerOps {x : Instr × Nat} (h : x ∈ tracerOps n) :
    exec x.1 s = .next (tracerCommand x.2 n.val (tracerAct x.2) s) := by
  simp only [tracerOps, List.mem_cons, List.not_mem_nil, or_false] at h
  obtain rfl | rfl | rfl | rfl | rfl := h
  · rfl
  · rfl
  · rfl
  · rfl
  · rfl

theorem exec_of_idle {x : Instr × Nat} (h : x ∈ tracerOps n) (idle : tracerLive s = false ∨ tracerNext s n.val = none) :
    exec x.1 s = .next s := by
  rw [exec_tracerOps h, tracerCommand]
  obtain dead | none := idle
  · rw [if_pos (by rw [dead]; rfl)]
  · rw [none]
    exact congrArg Host.Outcome.next (ite_self _)

/-- What an answer found leaves. -/
theorem tracerAnswer_of_some {e : Bytes} {epoch : Nat} {x : Option Answer × State} {a : Answer} (found : x.1 = some a) :
    tracerAnswer i d epoch e x = complete i e epoch a x.2 := by
  rw [tracerAnswer, found]

variable (v : Serving n s i) {x : Instr × Nat} (h : x ∈ tracerOps n)

include v h

theorem exec_of_next : exec x.1 s = .next (tracerServe x.2 i (tracerEntry s n.val) (tracerAct x.2) s) := by
  rw [exec_tracerOps h, tracerCommand, v.next, if_neg (by rw [v.live]; decide)]

theorem exec_of_malformed (bad : ¬ Legal n s) : exec x.1 s = .next (tracerRefuse i 0x85 (tracerEntry s n.val) s) := by
  rw [exec_of_next v h, tracerServe, if_pos]
  unfold Legal at bad
  cases fields : fieldsOk (tracerEntry s n.val) with
  | false => simp
  | true =>
    simp only [fields, and_true, Bool.not_true, Bool.or_false, Bool.or_eq_true, decide_eq_true_eq] at bad ⊢
    omega

variable (legal : Legal n s)

include legal

theorem exec_of_legal : exec x.1 s = .next (
    if leAt (tracerEntry s n.val) 0 1 ≠ x.2 then s
    else if x.2 ≠ 5 && !nodeLive s (tracerDie (tracerEntry s n.val)) (leAt (tracerEntry s n.val) 4 4) then
      tracerRefuse i 0x82 (tracerEntry s n.val) s
    else if x.2 ≤ 2 && !tokensOk s (tracerEntry s n.val) then tracerRefuse i 0x83 (tracerEntry s n.val) s
    else tracerAnswer i (tracerDie (tracerEntry s n.val)) (objGet s 0x5100 5) (tracerEntry s n.val)
      (served x.2 n.val s)) := by
  obtain ⟨low, high, fields⟩ := legal
  rw [exec_of_next v h, tracerServe, if_neg]
  · rfl
  · simp only [fields, Bool.not_true, Bool.or_false, Bool.or_eq_true, decide_eq_true_eq]
    omega

theorem exec_of_other (other : x.2 ≠ leAt (tracerEntry s n.val) 0 1) : exec x.1 s = .next s := by
  rw [exec_of_legal v h legal, if_pos (Ne.symm other)]

variable (own : x.2 = leAt (tracerEntry s n.val) 0 1)

include own

theorem exec_of_unused (walks : x.2 ≠ 5)
    (unused : nodeLive s (tracerDie (tracerEntry s n.val)) (leAt (tracerEntry s n.val) 4 4) = false) :
    exec x.1 s = .next (tracerRefuse i 0x82 (tracerEntry s n.val) s) := by
  rw [exec_of_legal v h legal, if_neg (Classical.not_not.mpr own.symm), if_pos (by rw [unused, decide_eq_true walks]; rfl)]

theorem exec_of_noTokens (lists : x.2 ≤ 2)
    (used : nodeLive s (tracerDie (tracerEntry s n.val)) (leAt (tracerEntry s n.val) 4 4) = true)
    (outside : tokensOk s (tracerEntry s n.val) = false) :
    exec x.1 s = .next (tracerRefuse i 0x83 (tracerEntry s n.val) s) := by
  rw [exec_of_legal v h legal, if_neg (Classical.not_not.mpr own.symm), if_neg (by rw [used, Bool.not_true, Bool.and_false]; decide),
    if_pos (by rw [outside, decide_eq_true lists]; rfl)]

theorem exec_of_walk
    (used : x.2 ≠ 5 → nodeLive s (tracerDie (tracerEntry s n.val)) (leAt (tracerEntry s n.val) 4 4) = true)
    (tokens : x.2 ≤ 2 → tokensOk s (tracerEntry s n.val) = true) {a : Answer} (found : (served x.2 n.val s).1 = some a) :
    exec x.1 s = .next (complete i (tracerEntry s n.val) (objGet s 0x5100 5) a (served x.2 n.val s).2) := by
  rw [exec_of_legal v h legal, if_neg (Classical.not_not.mpr own.symm), if_neg, if_neg, tracerAnswer_of_some found]
  · intro bad
    obtain ⟨lists, outside⟩ := Bool.and_eq_true_iff.mp bad
    rw [tokens (of_decide_eq_true lists)] at outside
    cases outside
  · intro bad
    obtain ⟨walks, unused⟩ := Bool.and_eq_true_iff.mp bad
    rw [used (of_decide_eq_true walks)] at unused
    cases unused

end

/-! ## What a command shows -/

section
variable {n : Fin 1024} {s : State} {i : Nat}

/-- An entry completed after a walk. -/
theorem completes_of_complete {ins : Instr} {a : Answer} {u : State} (v : Serving n s i)
    (run : exec ins s = .next (complete i (tracerEntry s n.val) (objGet s 0x5100 5) a u)) (walked : Walked s u)
    (st : a.status < 256) (p : a.pages < 2 ^ 32) (l : a.last < 2 ^ 32) {post : State → Prop}
    (after : ∀ s', SameRows u s' → objGet s' 0x5100 8 = objGet u 0x5100 8 → post s') :
    Completes n s ins a.status a.pages a.last post := by
  have none : u.net.arrived = [] := walked.1.trans v.arrived
  obtain ⟨status, pages, last, epoch⟩ := complete_shows (s := u) (x := a) n.isLt (place_of_next v.next)
    (length_tracerEntry s n.val) none st p l (Nat.lt_trans v.epoch (by decide))
  obtain ⟨rows, nodes⟩ := sameRows_complete (i := i) (e := tracerEntry s n.val) (epoch := objGet s 0x5100 5) a none
  refine ⟨_, run, status, pages, last, epoch, ?_, after _ rows nodes⟩
  rw [← walked.2]
  exact congrArg TreeView.done (complete_frame i (tracerEntry s n.val) (objGet s 0x5100 5) a none).1

theorem completes_of_refuse {ins : Instr} {st : Nat} (v : Serving n s i)
    (run : exec ins s = .next (tracerRefuse i st (tracerEntry s n.val) s)) (small : st < 256) :
    Completes n s ins st 0 0 fun s' => s'.mem = s.mem :=
  completes_of_complete (a := { status := st, pages := 0, last := 0, sets := [] }) v run ⟨rfl, rfl⟩ small (by decide : 0 < 2 ^ 32)
    (by decide : 0 < 2 ^ 32) fun _ rows _ => rows.mem

theorem walked_served (op k : Nat) (s : State) : Walked s (served op k s).2 := by
  have w := tracerKeeps_walked s
  have start : Walked s s := ⟨rfl, rfl⟩
  unfold served tracerAct
  split
  · exact w.matchEntry _ _ _ start
  · exact w.insertEntry _ _ _ start
  · exact w.pinEntry _ _ start
  · exact w.unpinEntry _ _ start
  · exact w.evictEntry _ _ _ start

/-- A command whose walk finds an answer completes its entry with it. -/
theorem completes_of_walk {x : Instr × Nat} {a : Answer} (v : Serving n s i) (h : x ∈ tracerOps n) (legal : Legal n s)
    (own : x.2 = leAt (tracerEntry s n.val) 0 1)
    (used : x.2 ≠ 5 → nodeLive s (tracerDie (tracerEntry s n.val)) (leAt (tracerEntry s n.val) 4 4) = true)
    (tokens : x.2 ≤ 2 → tokensOk s (tracerEntry s n.val) = true) (found : (served x.2 n.val s).1 = some a)
    (st : a.status < 256) (p : a.pages < 2 ^ 32) (l : a.last < 2 ^ 32) {post : State → Prop}
    (after : ∀ s', SameRows (served x.2 n.val s).2 s' →
      objGet s' 0x5100 8 = objGet (served x.2 n.val s).2 0x5100 8 → post s') :
    Completes n s x.1 a.status a.pages a.last post :=
  completes_of_complete v (exec_of_walk v h legal own used tokens found) (walked_served _ _ _) st p l after

end

end Sys2Proof.Machine
end

section
/-! The commands of the tracer ring complete their entries (O54). -/

namespace Sys2Proof.Machine

open Sys2Proof Sys2Proof.Laws

/-! ## Rows after the commands that write -/

theorem length_putKids {l : List (Nat × Nat)} {r : Bytes} (long : r.length = 512) : (putKids l r).length = 512 := by
  have first : (patch r 78 (leBytes 2 l.length)).length = 512 :=
    (length_patch (by rw [leBytes_length, long]; decide)).trans long
  exact (length_patch (Nat.le_of_eq (by rw [slice_length, first]))).trans first

section
variable {s u : State} {d m c : Nat}

/-- Rows of no written node stay. -/
theorem rowGet_wrote_wrote {r q : Bytes} {a : Nat} (hc : a ≠ nodeAddr s d c) (hm : a ≠ nodeAddr s d m) :
    rowGet (wrote d m q (wrote d c r s)) a = rowGet s a :=
  (rowGet_wrote (s := wrote d c r s) hm).trans (rowGet_wrote hc)

theorem sameRows_objSet_nodes (v : Nat) (s : State) : SameRows s (objSet 0x5100 8 v s) :=
  ⟨rfl, rfl, objGet_objSet_ne _ _ (by decide)⟩

theorem sameRows_bump_nodes (n : Nat) (s : State) : SameRows s (bump 0x5100 8 n s) := by
  obtain same | ⟨v, set⟩ := bump_eq_objSet_or 0x5100 8 n s
  · rw [same]
    exact ⟨rfl, rfl, rfl⟩
  · rw [set]
    exact sameRows_objSet_nodes v s

variable (die : d < 4) (beam : InBeam s)

include die beam

/-- The pin count of a node, and the other rows, after a write of its pin count. -/
theorem pins_wrote {p : Nat} (inTree : m < treeNodes s) (small : p < 65536)
    (rows : SameRows (wrote d m (patch (nodeGet s d m) 80 (leBytes 2 p)) s) u) :
    nodePins (nodeGet u d m) = p ∧ ∀ a, a ≠ nodeAddr s d m → rowGet u a = rowGet s a := by
  have long : (patch (nodeGet s d m) 80 (leBytes 2 p)).length = 512 :=
    (length_patch (by rw [leBytes_length, length_nodeGet]; decide)).trans length_nodeGet
  refine ⟨?_, fun a ne => (rows.rowGet a).trans (rowGet_wrote ne)⟩
  rw [rows.nodeGet, nodeGet_wrote die beam inTree inTree long, if_pos rfl, nodePins_patch length_nodeGet small]

/-- The rows of two nodes after both are written. -/
theorem nodeGet_wrote_wrote {r q : Bytes} (inTree : m < treeNodes s) (there : c < treeNodes s) (ne : c ≠ m)
    (first : r.length = 512) (second : q.length = 512) :
    nodeGet (wrote d m q (wrote d c r s)) d c = r ∧ nodeGet (wrote d m q (wrote d c r s)) d m = q := by
  have beam' : InBeam (wrote d c r s) := inBeam_wrote r beam
  refine ⟨?_, ?_⟩
  · rw [nodeGet_wrote die beam' inTree there second, if_neg ne, nodeGet_wrote die beam there there first, if_pos rfl]
  · rw [nodeGet_wrote die beam' inTree inTree second, if_pos rfl]

/-- What a new node leaves. -/
theorem rows_planted {toks : Bytes} {page epoch key last tok : Nat} (inTree : m < treeNodes s) (there : c < treeNodes s)
    (few : treeNodes s < 2 ^ 32) (used : nodeUsed (nodeGet s d m) = true) (free : nodeUsed (nodeGet s d c) = false)
    (barren : Barren (nodeGet s d m)) (long : toks.length = 64) (first : tok < 2 ^ 32)
    (rows : SameRows (planted d m c (nodeBytes toks page m epoch 1 key last) tok s) u)
    (nodes : objGet u 0x5100 8 = objGet (planted d m c (nodeBytes toks page m epoch 1 key last) tok s) 0x5100 8) :
    nodeUsed (nodeGet u d c) = true ∧ nodeParent (nodeGet u d c) = m ∧ nodeTokens (nodeGet u d c) = toks ∧
      kidList (nodeGet u d m) = [(tok, c)] ∧ objGet u 0x5100 8 = objGet s 0x5100 8 + 1 ∧
      ∀ a, a ≠ nodeAddr s d c → a ≠ nodeAddr s d m → rowGet u a = rowGet s a := by
  have ne : c ≠ m := fun same => by
    rw [same, used] at free
    cases free
  have row : nodeGet (wrote d c (nodeBytes toks page m epoch 1 key last) s) d m = nodeGet s d m := by
    rw [nodeGet_wrote die beam there inTree (length_nodeBytes 1), if_neg (Ne.symm ne)]
  have kids : kidList (nodeGet s d m) = [] := by
    rw [← List.length_eq_zero_iff, length_kidList, barren.1]
    rfl
  unfold planted at rows nodes
  rw [row, kids, List.nil_append] at rows nodes
  have grown := congrArg TreeView.nodes (treeView_bump_nodes (s := wrote d m (putKids [(tok, c)] (nodeGet s d m))
    (wrote d c (nodeBytes toks page m epoch 1 key last) s)) 1)
  have stays := (sameRows_bump_nodes 1 _).trans rows
  obtain ⟨new, parent⟩ := nodeGet_wrote_wrote die beam inTree there ne (length_nodeBytes 1)
    (length_putKids (l := [(tok, c)]) (length_nodeGet (s := s) (d := d) (m := m)))
  rw [stays.nodeGet, stays.nodeGet, new, parent]
  refine ⟨nodeUsed_nodeBytes, nodeParent_nodeBytes 1 (by omega), nodeTokens_nodeBytes 1 long, ?_, nodes.trans grown,
    fun a hc hm => (stays.rowGet a).trans (rowGet_wrote_wrote hc hm)⟩
  exact kidList_putKids length_nodeGet (by rw [List.length_singleton]; decide) (by simpa using ⟨first, by omega⟩)

/-- What an evicted node leaves. -/
theorem rows_uprooted {p v : Nat} (inTree : p < treeNodes s) (there : c < treeNodes s) (ne : p ≠ c)
    (rows : SameRows (uprooted d c p v s) u) :
    nodeUsed (nodeGet u d c) = false ∧
      kidList (nodeGet u d p) = (kidList (nodeGet s d p)).filter (·.2 != c) ∧
      ∀ a, a ≠ nodeAddr s d c → a ≠ nodeAddr s d p → rowGet u a = rowGet s a := by
  have room : ((kidList (nodeGet s d p)).filter (·.2 != c)).length ≤ 52 := by
    have less := List.length_filter_le (·.2 != c) (kidList (nodeGet s d p))
    rw [length_kidList] at less
    omega
  have stays := (sameRows_objSet_nodes v _).trans rows
  obtain ⟨parent, gone⟩ := nodeGet_wrote_wrote (q := zeros 512) die beam there inTree ne
    (length_putKids (l := (kidList (nodeGet s d p)).filter (·.2 != c)) (length_nodeGet (s := s) (d := d) (m := p)))
    (zeros_length 512)
  rw [stays.nodeGet, stays.nodeGet, gone, parent]
  refine ⟨by decide +kernel, ?_, fun a hc hp => (stays.rowGet a).trans (rowGet_wrote_wrote hp hc)⟩
  exact kidList_putKids length_nodeGet room fun k hk => kidList_small k (List.mem_filter.mp hk).1

end

/-! ## The walks of the statement -/

/-- The entry at place `n` of the ring. -/
abbrev entryAt (n : Fin 1024) (s : State) : Bytes := tracerEntry s n.val

/-- The die that serves it. -/
abbrev dieAt (n : Fin 1024) (s : State) : Nat := tracerDie (entryAt n s)

/-- Its start node. -/
abbrev startAt (n : Fin 1024) (s : State) : Nat := leAt (entryAt n s) 4 4

section
variable {n : Fin 1024} {s : State} {i : Nat}

theorem startAt_lt (n : Fin 1024) (s : State) : startAt n s < 2 ^ 32 := leAt_lt _ 4 4

/-- The one node that may go lies in the tree, and is not its own parent. -/
theorem parent_of_evictable {d c : Nat} {r : Bytes} (die : d < 4) (beam : InBeam s)
    (only : evictable (scanTree d s).1 = [(c, r)])
    (held : (kidList (nodeGet s d (nodeParent r))).any (·.2 == c) = true) : c < treeNodes s ∧ nodeParent r ≠ c := by
  have member : (c, r) ∈ evictable (scanTree d s).1 := by rw [only]; exact List.mem_singleton_self _
  obtain ⟨scanned, may⟩ := List.mem_filter.mp member
  rw [scanTree_of_inside die beam] at scanned
  obtain ⟨m, inTree, same⟩ := List.mem_map.mp scanned
  obtain ⟨rfl, rfl⟩ := Prod.mk.inj same
  refine ⟨List.mem_range.mp inTree, fun own => ?_⟩
  have kids : nodeKids (nodeGet s d m) = 0 := by
    simp only [Bool.and_eq_true, beq_iff_eq] at may
    exact may.1.1.2
  rw [own, kidList, kids] at held
  cases held

theorem nodeLive_iff {d m : Nat} : nodeLive s d m = true ↔ m < treeNodes s ∧ nodeUsed (nodeGet s d m) = true := by
  rw [nodeLive, Bool.and_eq_true, decide_eq_true_eq]

variable (v : Serving n s i) (legal : Legal n s)

include v legal

/-- A command whose walk changes no row. -/
theorem completes_of_still {x : Instr × Nat} {st last : Nat} (h : x ∈ tracerOps n)
    (own : x.2 = leAt (entryAt n s) 0 1) (used : x.2 ≠ 5 → nodeLive s (dieAt n s) (startAt n s) = true)
    (tokens : x.2 ≤ 2 → tokensOk s (entryAt n s) = true) (small : st < 256) (node : last < 2 ^ 32)
    (walk : (served x.2 n.val s).1 = some { status := st, pages := 0, last := last, sets := [] } ∧
      SameTree s (served x.2 n.val s).2) : Completes n s x.1 st 0 last fun s' => s'.mem = s.mem :=
  completes_of_walk v h legal own used tokens walk.1 small (by decide : 0 < 2 ^ 32) node fun _ rows _ =>
    ((sameRows_of_sameTree walk.2).trans rows).mem

/-! ## MATCH and INSERT -/

theorem completes_of_short (op : leAt (entryAt n s) 0 1 ≤ 2) (used : nodeLive s (dieAt n s) (startAt n s) = true)
    (tokens : tokensOk s (entryAt n s) = true) (short : leAt (entryAt n s) 16 4 < 16) {x : Instr × Nat}
    (h : x ∈ tracerOps n) (own : x.2 = leAt (entryAt n s) 0 1) :
    Completes n s x.1 0x80 0 (startAt n s) fun s' => s'.mem = s.mem := by
  refine completes_of_still v legal h own (fun _ => used) (fun _ => tokens) (by decide) (startAt_lt n s) ?_
  have opcode : x.2 = 1 ∨ x.2 = 2 := by
    have low : 1 ≤ leAt (entryAt n s) 0 1 := legal.1
    have same : x.2 = leAt (entryAt n s) 0 1 := own
    omega
  obtain is | is := opcode
  · rw [is]
    exact matchEntry_of_short short
  · rw [is]
    exact insertEntry_of_short short

theorem completes_match_of_barren (op : leAt (entryAt n s) 0 1 = 1) (used : nodeLive s (dieAt n s) (startAt n s) = true)
    (tokens : tokensOk s (entryAt n s) = true) (paged : 16 ≤ leAt (entryAt n s) 16 4)
    (barren : Barren (nodeGet s (dieAt n s) (startAt n s))) :
    Completes n s (.matchCmd n) 0x80 0 (startAt n s) fun s' => s'.mem = s.mem :=
  completes_of_still (x := (.matchCmd n, 1)) v legal (by simp [tracerOps]) op.symm (fun _ => used) (fun _ => tokens)
    (by decide) (startAt_lt n s) (matchEntry_of_barren paged (nodeLive_iff.mp used).1 barren)

theorem completes_insert_of_lowest {c : Nat} (op : leAt (entryAt n s) 0 1 = 2)
    (used : nodeLive s (dieAt n s) (startAt n s) = true) (tokens : tokensOk s (entryAt n s) = true)
    (one : leAt (entryAt n s) 16 4 / 16 = 1) (beam : InBeam s) (few : treeNodes s < 2 ^ 32)
    (barren : Barren (nodeGet s (dieAt n s) (startAt n s))) (there : c < treeNodes s)
    (free : nodeUsed (nodeGet s (dieAt n s) c) = false)
    (lower : ∀ m, m < c → nodeUsed (nodeGet s (dieAt n s) m) = true) :
    Completes n s (.insertCmd n) 0x80 1 c fun s' => nodeUsed (nodeGet s' (dieAt n s) c) = true ∧
      nodeParent (nodeGet s' (dieAt n s) c) = startAt n s ∧
      nodeTokens (nodeGet s' (dieAt n s) c) = (tokensAt (entryAt n s) 0 s).1 ∧
      kidList (nodeGet s' (dieAt n s) (startAt n s)) = [(leAt (tokensAt (entryAt n s) 0 s).1 0 4, c)] ∧
      objGet s' 0x5100 8 = objGet s 0x5100 8 + 1 ∧
      ∀ a, a ≠ nodeAddr s (dieAt n s) c → a ≠ nodeAddr s (dieAt n s) (startAt n s) → rowGet s' a = rowGet s a := by
  obtain ⟨inTree, inUse⟩ := nodeLive_iff.mp used
  obtain ⟨page, key, last, sets, found, tree⟩ := insertEntry_of_lowest (epoch := objGet s 0x5100 5)
    (tracerDie_lt (entryAt n s)) beam one inTree barren there free lower
  exact completes_of_walk (x := (.insertCmd n, 2)) v (by simp [tracerOps]) legal op.symm (fun _ => used) (fun _ => tokens)
    found (by decide : 0x80 < 256) (by decide : 1 < 2 ^ 32) (Nat.lt_trans there few) fun _ rows nodes =>
      rows_planted (tracerDie_lt _) beam inTree there few inUse free barren (length_tokensAt _ _ _) (leAt_lt _ 0 4)
        ((sameRows_of_sameTree tree).trans rows) (nodes.trans (congrArg TreeView.nodes tree))

/-! ## PIN and UNPIN -/

section
variable (used : nodeLive s (dieAt n s) (startAt n s) = true) (one : leAt (entryAt n s) 20 4 = 1) (beam : InBeam s)

include used one beam

theorem completes_pin_of_one (op : leAt (entryAt n s) 0 1 = 3)
    (room : nodePins (nodeGet s (dieAt n s) (startAt n s)) < 65535) :
    Completes n s (.pinCmd n) 0x80 0 0 fun s' => nodePins (nodeGet s' (dieAt n s) (startAt n s)) =
      nodePins (nodeGet s (dieAt n s) (startAt n s)) + 1 ∧
      ∀ a, a ≠ nodeAddr s (dieAt n s) (startAt n s) → rowGet s' a = rowGet s a := by
  obtain ⟨inTree, inUse⟩ := nodeLive_iff.mp used
  obtain ⟨found, tree⟩ := pinEntry_of_one (tracerDie_lt (entryAt n s)) beam one inTree inUse room
  exact completes_of_walk (x := (.pinCmd n, 3)) v (by simp [tracerOps]) legal op.symm (fun _ => used)
    (fun bad => absurd bad (by decide : ¬ 3 ≤ 2)) found (by decide) (by decide : 0 < 2 ^ 32) (by decide : 0 < 2 ^ 32)
    fun _ rows _ => pins_wrote (tracerDie_lt _) beam inTree (by omega) ((sameRows_of_sameTree tree).trans rows)

theorem completes_unpin_of_zero (op : leAt (entryAt n s) 0 1 = 4)
    (zero : nodePins (nodeGet s (dieAt n s) (startAt n s)) = 0) :
    Completes n s (.unpinCmd n) 0x84 0 0 fun s' => s'.mem = s.mem := by
  obtain ⟨inTree, inUse⟩ := nodeLive_iff.mp used
  have walk := unpinEntry_of_zero (tracerDie_lt (entryAt n s)) beam one inTree inUse zero
  refine completes_of_still (x := (.unpinCmd n, 4)) v legal (by simp [tracerOps]) op.symm (fun _ => used)
    (fun bad => absurd bad (by decide : ¬ 4 ≤ 2)) (by decide) (by decide : 0 < 2 ^ 32) ⟨fst_of_eq walk, ?_⟩
  exact (congrArg (SameTree s) (snd_of_eq walk)).mpr (sameTree_nodeRead rfl)

theorem completes_unpin_of_pinned (op : leAt (entryAt n s) 0 1 = 4)
    (pinned : nodePins (nodeGet s (dieAt n s) (startAt n s)) ≠ 0) :
    Completes n s (.unpinCmd n) 0x80 0 0 fun s' => nodePins (nodeGet s' (dieAt n s) (startAt n s)) + 1 =
      nodePins (nodeGet s (dieAt n s) (startAt n s)) ∧
      ∀ a, a ≠ nodeAddr s (dieAt n s) (startAt n s) → rowGet s' a = rowGet s a := by
  obtain ⟨inTree, inUse⟩ := nodeLive_iff.mp used
  obtain ⟨found, tree⟩ := unpinEntry_of_pinned (tracerDie_lt (entryAt n s)) beam one inTree inUse pinned
  have small : nodePins (nodeGet s (dieAt n s) (startAt n s)) < 65536 := leAt_lt _ 80 2
  refine completes_of_walk (x := (.unpinCmd n, 4)) v (by simp [tracerOps]) legal op.symm (fun _ => used)
    (fun bad => absurd bad (by decide : ¬ 4 ≤ 2)) found (by decide) (by decide : 0 < 2 ^ 32) (by decide : 0 < 2 ^ 32)
    fun _ rows _ => ?_
  obtain ⟨fewer, others⟩ := pins_wrote (tracerDie_lt _) beam inTree
    (Nat.lt_of_le_of_lt (Nat.sub_le _ 1) small) ((sameRows_of_sameTree tree).trans rows)
  exact ⟨(congrArg (· + 1) fewer).trans (Nat.sub_add_cancel (Nat.pos_of_ne_zero pinned)), others⟩

end

/-! ## EVICT -/

theorem completes_evict_of_none (op : leAt (entryAt n s) 0 1 = 5)
    (none : leAt (entryAt n s) 20 4 = 0 ∨ evictable (scanTree (dieAt n s) s).1 = []) :
    Completes n s (.evictCmd n) 0x80 0 0 fun s' => s'.mem = s.mem :=
  completes_of_still (x := (.evictCmd n, 5)) v legal (by simp [tracerOps]) op.symm (fun bad => absurd rfl bad)
    (fun bad => absurd bad (by decide : ¬ 5 ≤ 2)) (by decide) (by decide : 0 < 2 ^ 32) (evictEntry_of_none none)

theorem completes_evict_of_one {c : Nat} {r : Bytes} (op : leAt (entryAt n s) 0 1 = 5)
    (one : leAt (entryAt n s) 20 4 = 1) (beam : InBeam s) (only : evictable (scanTree (dieAt n s) s).1 = [(c, r)])
    (parent : nodeParent r < treeNodes s)
    (held : (kidList (nodeGet s (dieAt n s) (nodeParent r))).any (·.2 == c) = true)
    (row : nodeExtends (nodeGet s (dieAt n s) (nodeParent r)) = false) :
    Completes n s (.evictCmd n) 0x80 1 0 fun s' => nodeUsed (nodeGet s' (dieAt n s) c) = false ∧
      kidList (nodeGet s' (dieAt n s) (nodeParent r)) =
        (kidList (nodeGet s (dieAt n s) (nodeParent r))).filter (·.2 != c) ∧
      ∀ a, a ≠ nodeAddr s (dieAt n s) c → a ≠ nodeAddr s (dieAt n s) (nodeParent r) → rowGet s' a = rowGet s a := by
  obtain ⟨there, ne⟩ := parent_of_evictable (tracerDie_lt (entryAt n s)) beam only held
  obtain ⟨count, sets, found, tree⟩ := evictEntry_of_one (epoch := objGet s 0x5100 5) (tracerDie_lt (entryAt n s)) beam one
    only there parent held row
  exact completes_of_walk (x := (.evictCmd n, 5)) v (by simp [tracerOps]) legal op.symm (fun bad => absurd rfl bad)
    (fun bad => absurd bad (by decide : ¬ 5 ≤ 2)) found (by decide : 0x80 < 256)
    (by decide : 1 < 2 ^ 32) (by decide : 0 < 2 ^ 32)
    fun _ rows _ => rows_uprooted (tracerDie_lt _) beam parent there ne ((sameRows_of_sameTree tree).trans rows)

end

/-! ## Every walk -/

section
variable {n : Fin 1024} {s : State} {i : Nat}

/-- The command and the walk of an entry, by its opcode. -/
def ServedBy (n : Fin 1024) (s : State) (ins : Instr) (x : Option Answer × State) : Prop :=
  leAt (entryAt n s) 0 1 = 1 ∧ ins = .matchCmd n ∧ tokensOk s (entryAt n s) = true ∧
      x = matchEntry (dieAt n s) (objGet s 0x5100 5) (entryAt n s) s ∨
    leAt (entryAt n s) 0 1 = 2 ∧ ins = .insertCmd n ∧ tokensOk s (entryAt n s) = true ∧
      x = insertEntry (dieAt n s) (objGet s 0x5100 5) (entryAt n s) s ∨
    leAt (entryAt n s) 0 1 = 3 ∧ ins = .pinCmd n ∧ x = pinEntry (dieAt n s) (entryAt n s) s ∨
    leAt (entryAt n s) 0 1 = 4 ∧ ins = .unpinCmd n ∧ x = unpinEntry (dieAt n s) (entryAt n s) s ∨
    leAt (entryAt n s) 0 1 = 5 ∧ ins = .evictCmd n ∧
      x = evictEntry (dieAt n s) (objGet s 0x5100 5) (entryAt n s) s

/-- A walk is that of a command of the ring. -/
theorem op_of_walk {ins : Instr} {x : Option Answer × State} (walk : ServedBy n s ins x) :
    ∃ op, (ins, op) ∈ tracerOps n ∧ op = leAt (entryAt n s) 0 1 ∧
      (op ≤ 2 → tokensOk s (entryAt n s) = true) ∧ served op n.val s = x := by
  obtain ⟨op, rfl, tokens, same⟩ | ⟨op, rfl, tokens, same⟩ | ⟨op, rfl, same⟩ | ⟨op, rfl, same⟩ | ⟨op, rfl, same⟩ := walk
  · exact ⟨1, .head _, op.symm, fun _ => tokens, same.symm⟩
  · exact ⟨2, .tail _ (.head _), op.symm, fun _ => tokens, same.symm⟩
  · exact ⟨3, .tail _ (.tail _ (.head _)), op.symm, fun bad => absurd bad (by decide), same.symm⟩
  · exact ⟨4, .tail _ (.tail _ (.tail _ (.head _))), op.symm, fun bad => absurd bad (by decide), same.symm⟩
  · exact ⟨5, .tail _ (.tail _ (.tail _ (.tail _ (.head _)))), op.symm, fun bad => absurd bad (by decide), same.symm⟩

/-- A command whose walk answers completes its entry with the answer. -/
theorem completes_of_answer {ins : Instr} {x : Option Answer × State} {a : Answer} (v : Serving n s i)
    (legal : Legal n s) (used : nodeLive s (dieAt n s) (startAt n s) = true) (found : x.1 = some a)
    (p : a.pages < 2 ^ 32) (l : a.last < 2 ^ 32) (st : a.status < 256) (walk : ServedBy n s ins x) :
    Completes n s ins a.status a.pages a.last fun s' => s'.mem = x.2.mem := by
  obtain ⟨op, member, own, tokens, rfl⟩ := op_of_walk walk
  exact completes_of_walk v member legal own (fun _ => used) tokens found st p l fun _ rows _ => rows.mem

end

/-- Settles O54: each command is carried out as its entry's opcode says; what a walk reads, pins, links or frees is
followed through the rows of the trees. -/
theorem tracerCommandsCompleteTheirEntries : Obligations.TracerCommandsCompleteTheirEntries := by
  unfold Obligations.TracerCommandsCompleteTheirEntries
  intro n s arrived e d start op count ops legal completes same live inBeam pins only
  refine ⟨fun idle x h => exec_of_idle h idle, fun serves i next epoch => ?_⟩
  have v : Serving n s i := ⟨arrived, serves, next, epoch⟩
  refine ⟨?malformed, ?other, ?unused, ?noTokens, ?short, ?matchMiss, ?insertOne, ?pinOne, ?unpinZero, ?unpinOne,
    ?evictNone, ?evictOne, ?walks⟩
  case malformed => exact fun bad x h => completes_of_refuse v (exec_of_malformed v h bad) (by decide)
  case other => exact fun ok x h ne => exec_of_other v h ok ne
  case unused =>
    exact fun ok x h own walks unused => completes_of_refuse v (exec_of_unused v h ok own walks unused) (by decide)
  case noTokens =>
    exact fun ok x h own lists used outside =>
      completes_of_refuse v (exec_of_noTokens v h ok own lists used outside) (by decide)
  case short => exact fun ok op used tokens few x h own => completes_of_short v ok op used tokens few h own
  case matchMiss =>
    exact fun ok op used tokens paged kids cont => completes_match_of_barren v ok op used tokens paged ⟨kids, cont⟩
  case insertOne =>
    exact fun c ok op used tokens one beam few kids cont there free lower =>
      completes_insert_of_lowest v ok op used tokens one beam few ⟨kids, cont⟩ there free lower
  case pinOne => exact fun ok op used one room beam => completes_pin_of_one v ok used one beam op room
  case unpinZero => exact fun ok op used one zero beam => completes_unpin_of_zero v ok used one beam op zero
  case unpinOne => exact fun ok op used one pinned beam => completes_unpin_of_pinned v ok used one beam op pinned
  case evictNone => exact fun ok op none => completes_evict_of_none v ok op none
  case evictOne =>
    exact fun c r ok op one beam evicts parent held row => completes_evict_of_one v ok op one beam evicts parent held row
  case walks =>
    exact fun ins x a ok used found p l st walk => completes_of_answer v ok used found p l st walk

end Sys2Proof.Machine
end
